-- ==== Sys2Proof/Word.lean ====
section
/-! DEFINITION. Words, bytes and the plainest arithmetic of them (R6, R7). -/
namespace Sys2Proof

/-- A register word: registers are 64 bits wide (R8). -/
abbrev Word := BitVec 64

/-- One byte of memory or of a payload (R7). -/
abbrev Byte := BitVec 8

/-- A byte string, byte 0 first (R7). -/
abbrev Bytes := List Byte

/-- Bits `[lo + w - 1 : lo]` of a number (R6). -/
def bits (n lo w : Nat) : Nat := n / 2 ^ lo % 2 ^ w

/-- Bit `k` of a number (R6). -/
def bitOf (n k : Nat) : Bool := n / 2 ^ k % 2 == 1

/-- A number with bits `[lo + w - 1 : lo]` replaced by the low `w` bits of `v`. -/
def setBits (n lo w v : Nat) : Nat :=
  n % 2 ^ lo + (v % 2 ^ w) * 2 ^ lo + n / 2 ^ (lo + w) * 2 ^ (lo + w)

/-- A number with bit `k` set or cleared. -/
def setBit (n k : Nat) (b : Bool) : Nat := setBits n k 1 (if b then 1 else 0)

/-- The signed reading of the low `w` bits of a number. -/
def signed (w n : Nat) : Int :=
  if n % 2 ^ w < 2 ^ (w - 1) then (n % 2 ^ w : Nat) else (n % 2 ^ w : Nat) - (2 ^ w : Nat)

/-- The low `w` bits of an integer, two's complement. -/
def unsigned (w : Nat) (i : Int) : Nat := (i % (2 ^ w : Nat)).toNat

/-- `k` bytes of a number, least significant first (R7). -/
def leBytes : Nat → Nat → Bytes
  | 0, _ => []
  | k + 1, n => BitVec.ofNat 8 n :: leBytes k (n / 256)

/-- The number that a little-endian byte string spells (R7). -/
def leNat : Bytes → Nat
  | [] => 0
  | b :: bs => b.toNat + 256 * leNat bs

/-- The number that a big-endian byte string spells (the network headers that R7 excepts). -/
def beNat (bs : Bytes) : Nat := leNat bs.reverse

/-- `n` bytes of a string from offset `off`; bytes beyond its end are absent. -/
def slice (bs : Bytes) (off n : Nat) : Bytes := (bs.drop off).take n

/-- The little-endian number of `n` bytes at offset `off`. -/
def leAt (bs : Bytes) (off n : Nat) : Nat := leNat (slice bs off n)

/-- A bit field of the 64-bit word at offset `off` of a record (the manuals' record tables). -/
def fieldAt (bs : Bytes) (off lo w : Nat) : Nat := bits (leAt bs off 8) lo w

/-- A byte string cut or padded with zeros to `n` bytes. -/
def padTo (n : Nat) (bs : Bytes) : Bytes := bs.take n ++ List.replicate (n - bs.length) 0

/-- A field of a record that is being written: offset of its word, low bit, width, value. -/
structure Put where
  off : Nat
  lo : Nat
  w : Nat
  v : Nat
  deriving DecidableEq, Repr

/-- The number that a list of fields makes of a whole record. -/
def packNat (fs : List Put) : Nat :=
  fs.foldl (fun n f => setBits n (8 * f.off + f.lo) f.w f.v) 0

/-- A record of `n` bytes made of its fields; unlisted bits are zero (R2). -/
def pack (n : Nat) (fs : List Put) : Bytes := leBytes n (packNat fs)

/-- Addition that stops at the top of a `w`-bit counter ("saturating"). -/
def satAdd (w a b : Nat) : Nat := min (a + b) (2 ^ w - 1)

/-- Addition in a `w`-bit counter that wraps ("wrapping"). -/
def wrapAdd (w a b : Nat) : Nat := (a + b) % 2 ^ w

/-- Quotient rounded up. -/
def ceilDiv (a b : Nat) : Nat := (a + b - 1) / b

/-- 1 for true, 0 for false. -/
def b2n (b : Bool) : Nat := if b then 1 else 0

end Sys2Proof
end

