-- ==== Sys2Proof/Syntax.lean ====
section
/-! DEFINITION. The commands and events: one constructor for each row of the table of operations and events. -/
namespace Sys2Proof

/-- What every command entry carries beside its parameters (R519), with the ring that it is taken from. -/
structure Hdr where
  /-- Issuing function: 0 the PF, p the VF of partition p. -/
  fn : Nat := 0
  ring : Nat := 0
  hseq : Nat := 0
  eq : Nat := 0xFFFF
  mapEpoch : Nat := 0
  ownerEpoch : Nat := 0
  /-- Every reserved bit and byte of the entry is zero (R520, R523). -/
  clean : Bool := true
  /-- The host memory that the command names can be read and written (R513). -/
  dma : Bool := true
  deriving DecidableEq, Repr

/-- The controller a mirror message comes from, with the priority it gives for the writes at the buddy (R359). -/
structure Sender where
  node : Nat := 0
  prio : Nat := 0
  deriving DecidableEq, Repr

/-- The block that a word line of buffered pages goes to, and the block of the second copy, which pages of the SYSTEM stream have
(R355, R360). -/
structure NandBlocks where
  first : Nat := 0
  twin : Nat := 0
  deriving DecidableEq, Repr

/-- The controller that a WARM placement names, whether it has room for the session's pages when it is asked, and the region, generation and
hall address that it reports for them (R330, R337, R380). -/
structure WarmHolder where
  ctrl : Nat := 0
  room : Bool := true
  region : Nat := 0
  gen : Nat := 0
  addr : Nat := 0
  deriving DecidableEq, Repr

/-- The commands. -/
inductive Instr where
  /-- A 64-bit write to a register field that has no row of its own takes effect, is held pending, or is discarded according to the field's class (R14). -/
  | registerWrite (fn : Nat) (off : Nat) (whole : Nat) (wide : Bool) (io : Bool)
  /-- A write of 1 to a block's enable field starts the block, unless the block is stopping or a prerequisite is disabled (R13). -/
  | blockEnable (fn : Nat) (block : Nat)
  /-- A write of 0 to a block's enable field starts the block's stop sequence (R13). -/
  | blockStop (fn : Nat) (block : Nat)
  /-- A stopping block reaches its idle condition and reports idle (R13). -/
  | blockIdle (block : Nat)
  /-- A write that changes a register-set HBM region size lays out both dies afresh and rewrites PGS_REGION, or is refused (R624). -/
  | regionRelayout (fn : Nat) (field : Nat) (gib : Nat)
  /-- A write of 1 to TIM_GRP_CTL.RESTART in STALLED returns the group to WAIT_BEACON and sends a BOUNDARY_REPORT with RESTART (R61). -/
  | groupRestart (fn : Nat) (g : Nat)
  /-- A write of 1 to RST_CTL.GO in TEST or RECOVERY moves the controller to phase SERVICE (R572). -/
  | go (fn : Nat)
  /-- A write of CMD_RQ_DB.TAIL announces new command entries on a ring (R515). -/
  | commandDoorbell (fn : Nat) (ring : Nat) (tail : Nat) (io : Bool)
  /-- A write of CMD_RP_DB.HEAD frees reply slots, optionally arms the interrupt and ends a reply-ring stall (R516). -/
  | replyHeadWrite (fn : Nat) (ring : Nat) (head : Nat) (arm : Bool)
  /-- A write of CMD_EQ_DB.HEAD frees event slots, optionally arms the interrupt and releases held events (R534). -/
  | eventHeadWrite (fn : Nat) (queue : Nat) (head : Nat) (arm : Bool)
  /-- A write of 1 to CMD_RQ_CFG.EN restarts the ring counts and begins taking commands (R515). -/
  | ringEnable (fn : Nat) (ring : Nat) (io : Bool)
  /-- A write of 0 to CMD_RQ_CFG.EN stops taking commands while the executing command completes (R542). -/
  | ringDisable (fn : Nat) (ring : Nat)
  /-- A write of 1 to CMD_EQ_CFG.EN restarts the queue counts and writes held events first (R543). -/
  | eventQueueEnable (fn : Nat) (queue : Nat) (io : Bool)
  /-- A write of 0 to CMD_EQ_CFG.EN sends new events to the backlog (R543). -/
  | eventQueueDisable (fn : Nat) (queue : Nat)
  /-- The MOD_US time of an armed ring or queue expires and the MSI-X message is sent (R537). -/
  | interruptModeration (fn : Nat) (isRing : Bool) (index : Nat)
  /-- SESSION_OPEN allocates a slot and descriptor, optionally forks a prefix, and returns the session id (R87). -/
  | sessionOpen (h : Hdr) (src : Nat) (len : Nat) (sub : Nat) (srv : Nat) (prof : Nat) (prio : Nat) (tkz : Nat) (port : Nat) (g : Nat) (compat : Bool) (cls : Bool) (select : Bool)
  /-- SESSION_CLOSE kills any turn, drops every page reference and releases the session's durable state (R102). -/
  | sessionClose (h : Hdr) (sid : Nat)
  /-- TURN_BEGIN appends the prompt tokens to the history and queues a turn, or starts a revive (R92). -/
  | turnBegin (h : Hdr) (sid : Nat) (isText : Bool) (ids : List Nat) (text : Bytes) (textAddr : Nat) (textLen : Nat) (maxNew : Nat) (push : Bool) (fallback : Bool) (compat : Bool) (cls : Bool) (setPrio : Bool) (setRet : Bool) (select : Bool) (batch : Nat) (batchSize : Nat) (prio : Nat)
  /-- TURN_CANCEL voids the row in progress and ends the turn, keeping or restoring positions per KEEP (R99). -/
  | turnCancel (h : Hdr) (sid : Nat) (turn : Nat) (keep : Bool)
  /-- LOAD_PROFILE checks and loads a model profile package into a profile slot on both dies (R245). -/
  | loadProfile (h : Hdr) (staged : Bool) (handle : Nat) (len : Nat) (slot : Nat) (pkg : Bytes)
  /-- LOAD_WEAVE checks a weave image, installs it and binds it to a decode group (R241). -/
  | loadWeave (h : Hdr) (len : Nat) (thr : Bool) (hb : Bool) (g : Nat) (img : Bytes)
  /-- UNLOAD releases a profile, weave, tokenizer or grammar slot when nothing uses it (R243). -/
  | unload (h : Hdr) (kind : Nat) (slot : Nat)
  /-- LOAD_TOKENIZER checks a tokenizer package and places it on chip or in the grammar regions (R286). -/
  | loadTokenizer (h : Hdr) (slot : Nat) (pkg : Bytes)
  /-- LOAD_GRAMMAR checks a grammar image and installs it, binding it to a session when named (R304). -/
  | loadGrammar (h : Hdr) (sid : Nat) (img : Bytes) (pol : Nat) (n : Nat)
  /-- BIND_GRAMMAR binds or unbinds a grammar to a session, taking or releasing a mask slot and grammar area (R305). -/
  | bindGrammar (h : Hdr) (sid : Nat) (unbind : Bool) (grammar : Nat) (pol : Nat) (n : Nat)
  /-- SET_STOPS compiles and stores a stop-string set and names it in the session descriptor (R295). -/
  | setStops (h : Hdr) (sid : Nat) (count : Nat) (data : Bytes)
  /-- PARK moves a session toward IMAGE, HISTORY or WARM as software decides (R330). -/
  | park (h : Hdr) (sid : Nat) (holder : WarmHolder) (target : Nat)
  /-- REVIVE starts an image revive, a hall copy back or a rebuild of a non-HOT session (R338). -/
  | revive (h : Hdr) (sid : Nat) (mode : Nat)
  /-- HINT_PLACE sets placement hints on a session's frames, applied at its next row boundary (R127). -/
  | hintPlace (h : Hdr) (sid : Nat) (posLo : Nat) (posHi : Nat) (dflt : Bool) (layerLo : Nat) (layerHi : Nat) (code : Nat)
  /-- SET_PARK_POLICY sets a session's park hint and fidelity within the partition's policy (R329). -/
  | setParkPolicy (h : Hdr) (sid : Nat) (hint : Nat) (fidelity : Nat)
  /-- SIFT_INSERT creates an index or inserts a node into the side list of an index (R453). -/
  | siftInsert (h : Hdr) (handle : Nat) (replace : Bool) (key : Nat) (tags : Nat) (vec : Bytes) (param : Bytes) (bind : Nat) (nodesMax : Nat) (sideMax : Nat) (sideMerge : Nat) (dim : Nat) (efBuild : Nat) (degree : Nat) (metric : Nat) (fmt : Nat)
  /-- SIFT_DELETE tombstones a key's node, or drops the whole index with DROP (R454). -/
  | siftDelete (h : Hdr) (handle : Nat) (drop : Bool) (key : Nat)
  /-- SIFT_QUERY searches an index by Hamming distance with optional re-rank and returns up to K results (R457). -/
  | siftQuery (h : Hdr) (handle : Nat) (widen : Bool) (vec : Bytes) (res : Nat) (all : Nat) (any : Nat) (k : Nat) (ef : Nat) (maxProbes : Nat) (rerank : Nat) (widenProbes : Nat) (fmt : Nat)
  /-- SIFT_MERGE starts a merge of the side list into the index graph (R459). -/
  | siftMerge (h : Hdr) (handle : Nat)
  /-- A merge finishes its link, repair and free passes and MERGE_DONE is posted (R460). -/
  | mergeDone (handle : Nat)
  /-- PART_CREATE activates a tenant partition or updates its limits (R465). -/
  | partCreate (h : Hdr) (p : Nat) (upd : Bool) (w0 : Nat) (w1 : Nat) (w2 : Nat) (w3 : Nat) (w4 : Nat)
  /-- PART_DESTROY closes a partition's sessions, releases its objects and scrubs its memory (R467). -/
  | partDestroy (h : Hdr) (p : Nat)
  /-- Teardown and scrub of a destroying partition complete and the partition becomes FREE (R467). -/
  | partDestroyed (p : Nat)
  /-- SHAPER_SET writes the fields, level and budget of a shaping node (R475). -/
  | shaperSet (h : Hdr) (kind : Nat) (levelMode : Nat) (budgetOp : Nat) (owner : Nat) (index : Nat) (promptW : Nat) (rebuildW : Nat) (overhead : Nat) (rate : Nat) (partMask : Nat) (valid : Bool) (shape : Bool) (budgetOn : Bool) (burst : Nat) (budget : Nat)
  /-- ISO_MODE_SET switches isolation between STRICT and SHARED and sets the frame size (R477). -/
  | isoModeSet (h : Hdr) (mode : Nat) (frameExp : Nat)
  /-- ATTEST writes a signed attestation report, optionally with the certificate chain (R496). -/
  | attest (h : Hdr) (nonce : Bytes) (addr : Nat) (len : Nat) (chain : Bool)
  /-- KEY_ENROL OP 0 binds the set-authority key and set id and drops held set keys (R499). -/
  | bindAuthority (h : Hdr) (seq : Nat) (digest : Bytes) (key : Bytes) (setId : Bytes) (sig : Bytes)
  /-- KEY_ENROL OP 1 unwraps and installs a new set key generation (R500). -/
  | install (h : Hdr) (seq : Nat) (digest : Bytes) (gen : Nat) (eph : Bytes) (wrapped : Bytes) (sig : Bytes)
  /-- KEY_ENROL OP 2 drops the previous set key generation (R499). -/
  | retire (h : Hdr) (seq : Nat) (digest : Bytes) (sig : Bytes)
  /-- KEY_ENROL OP 3 drops the authority, set id and every set key (R499). -/
  | clear (h : Hdr) (seq : Nat) (digest : Bytes) (sig : Bytes)
  /-- WEIGHTS_UNWRAP decrypts a wrapped package into the staging region and returns a staging handle (R503). -/
  | weightsUnwrap (h : Hdr) (addr : Nat) (len : Nat) (pkg : Bytes)
  /-- SCRUB zeros free frames, all HBM, or sanitizes the device per its MODE (R510). -/
  | scrub (h : Hdr) (mode : Nat)
  /-- A scrub completes and SCRUB_DONE is posted (R510). -/
  | scrubDone (ok : Bool)
  /-- CKPT_BEGIN starts a checkpoint of a decode group, forwarding to the timekeeper if needed (R548). -/
  | ckptBegin (h : Hdr) (req : Bytes)
  /-- CKPT_RESTORE checks a checkpoint generation and loads its shards on every listed controller (R561). -/
  | ckptRestore (h : Hdr) (req : Bytes) (outAddr : Nat) (outLen : Nat) (gen : Nat) (busy : Bool) (bad : List (Nat × Nat)) (fails : List (Nat × Nat)) (mirrors : List Nat) (others : Nat) (lostOthers : Nat)
  /-- COMPOSE_MAP checks and installs a composition map, creating regions and queue pairs (R441). -/
  | composeMap (h : Hdr) (outAddr : Nat) (outLen : Nat) (img : Bytes)
  /-- OWNER_QUERY returns a session's owner, epoch, counts and optionally its descriptor (R439). -/
  | ownerQuery (h : Hdr) (sid : Nat) (addr : Nat) (desc : Bool)
  /-- BLOCK_RESET drains and resets one block, or resets it at once with IDLE_ASSERTED outside SERVICE (R576). -/
  | blockReset (h : Hdr) (block : Nat) (asserted : Bool)
  /-- TIM_MAINT.BLK_IDLE_MS passes during a block reset and undrained work fails (R576). -/
  | blockIdleTimeout (row : Nat)
  /-- DEVICE_RESET makes a clean stop of the hamper and resets the device as COLD, WARM or TEST (R568). -/
  | deviceReset (h : Hdr) (kind : Nat)
  /-- SYNC_QUERY mode QUERY writes the sequence state of a ring or of every ring and queue (R530). -/
  | syncQuery (h : Hdr) (outAddr : Nat) (outLen : Nat) (ring : Nat)
  /-- SYNC_QUERY mode REPLAY rewrites logged replies of a ring with REPLAY set (R530). -/
  | syncReplay (h : Hdr) (outAddr : Nat) (frm : Nat) (outLen : Nat) (ring : Nat)
  /-- SYNC_QUERY mode RESET sets a disabled ring's NEXT_HSEQ and clears its log (R530). -/
  | syncReset (h : Hdr) (frm : Nat) (ring : Nat)
  /-- FAULT_REPORT copies fault records from a given index onward (R592). -/
  | faultReport (h : Hdr) (addr : Nat) (len : Nat) (frm : Nat)
  /-- HEALTH_READ returns the module health record and the hamper records (R616). -/
  | healthRead (h : Hdr) (addr : Nat) (len : Nat)
  /-- A function-level reset disables the function's rings and queues while keeping its sequence state (R538). -/
  | functionLevelReset (fn : Nat)
  /-- PCIe fundamental reset, hot reset or link-down acts as a function-level reset of every function (R566). -/
  | perst
  /-- A member's doorbell record for a stake or row end is accepted, held or discarded (R47). -/
  | stakeDoorbell (g : Nat) (member : Nat) (word : Nat)
  /-- The stake timer expires and STAKE_TIMEOUT is posted while the controller keeps waiting (R57). -/
  | stakeTimeout (g : Nat)
  /-- The row timer expires, the row is voided for the group's sessions and boundary n begins (R58). -/
  | rowTimeout (g : Nat)
  /-- Row boundary n begins once every stake has closed and every ROW_END is present, and runs steps 0 to 7 (R131). -/
  | rowBoundary (g : Nat)
  /-- Once every member has acknowledged the batch list and masks, the BOUNDARY_REPORT is sent to the timekeeper (R257). -/
  | boundaryReportSend (g : Nat)
  /-- A BOUNDARY_REPORT received by the timekeeper is taken for the round being collected (R53). -/
  | boundaryReport (src : Nat) (gid : Nat) (row : Nat) (epoch : Nat) (mapEpoch : Nat) (status : Nat) (void : Bool) (cutOk : Bool) (cutFail : Bool) (owns : Bool) (restart : Bool)
  /-- A controller's report is missing one row timeout after the boundary and the beacon is issued without it (R59). -/
  | memberLost (g : Nat)
  /-- A received beacon is checked by epoch and row and accepted, held or discarded (R55). -/
  | beacon (src : Nat) (gid : Nat) (row : Nat) (epoch : Nat) (mapEpoch : Nat) (void : Bool) (resync : Bool) (cut : Bool) (reconf : Bool) (memberLost : Bool) (voidMap : Nat)
  /-- Row n + 1 begins once its beacon is held and boundary n has completed, applying held doorbells and tiles (R54). -/
  | rowBegin (g : Nat)
  /-- A received BEACON_QUERY is answered by the timekeeper with its last beacon, or recorded by the deputy (R53). -/
  | beaconQuery (src : Nat) (gid : Nat) (row : Nat) (epoch : Nat) (mapEpoch : Nat)
  /-- A received MAP_READY records a controller ready, and may let the timekeeper issue a group's first beacon (R625). -/
  | mapReady (src : Nat) (gid : Nat) (row : Nat) (epoch : Nat) (mapEpoch : Nat)
  /-- The beacon limit expires and BEACON_QUERY is sent to the timekeeper and deputy (R60). -/
  | beaconLimit (g : Nat)
  /-- The deputy, unanswered for a further beacon limit, becomes timekeeper at a higher epoch (R60). -/
  | takeover (g : Nat)
  /-- A query tile completing in an ingest slot is checked and computed, held, or answered with a null tile (R153). -/
  | queryTile (g : Nat) (m : Nat) (qp : Nat) (imm : Nat) (bytes : Bytes)
  /-- A member's token list for a row is taken, held or discarded by its ROW (R291). -/
  | tokenList (g : Nat) (member : Nat) (row : Nat) (entries : List (Nat × Nat))
  /-- A push tile in a lane slot is checked and acknowledged, and queued for placement when OK (R262). -/
  | pushTile (g : Nat) (die : Nat) (qp : Nat) (imm : Nat) (bytes : Bytes)
  /-- A range partial arrives at the home and is kept for the merge of its row and stake (R165). -/
  | rangePartial (src : Nat) (tile : Bytes)
  /-- A weave step fires once its input tile, output credit and counter target are present (R230). -/
  | stepFire (engine : Nat) (station : Nat)
  /-- The SIFT engine completes a SELECT session's selection and its engine resumes the session (R211). -/
  | selection (sid : Nat) (stake : Nat)
  /-- A copy-on-write copy completes and the waiting write of the layer proceeds (R122). -/
  | cowCopy (slot : Nat) (layer : Nat) (page : Nat)
  /-- A descriptor fetch from HBM completes and is checked, retried or treated as lost (R77). -/
  | descriptorFetch (slot : Nat) (ok : Bool)
  /-- The station stall watchdog of an engine expires and the engine is marked stalled (R232). -/
  | stallWatchdog (e : Nat)
  /-- An engine task completes or yields and the engine takes the next ready or saved task (R272). -/
  | taskComplete (engine : Nat)
  /-- WAIT_CC expires without a cheap point and the engine saves its whole scratchpad (R273). -/
  | preemptionWait (engine : Nat)
  /-- A task waiting YIELD_CC for a fabric tile yields and is saved (R275). -/
  | yield (engine : Nat)
  /-- An engine save completes and the preempting task issues its first step (R274). -/
  | save (engine : Nat)
  /-- A saved task's restore completes and it continues at its saved step (R274). -/
  | restore (engine : Nat)
  /-- A session's idle timer expires and the park estimator chooses KEEP, PARK or HISTORY (R324). -/
  | idleToPark (sid : Nat)
  /-- A park image is durable and its mirror acknowledged, so the session becomes PARKED at the next boundary (R331). -/
  | parkDurable (sid : Nat)
  /-- No buddy acknowledgement arrives within MIRROR_MS and the park is abandoned (R332). -/
  | mirrorTimeout (sid : Nat)
  /-- Every frame of an image revive or hall copy back is written and the session becomes HOT (R339). -/
  | reviveComplete (sid : Nat) (data : Bytes)
  /-- No rebuild push commits within REBUILD_S and the revive fails (R341). -/
  | rebuildTimeout (sid : Nat)
  /-- The holder acknowledges a WARM copy and the local frames are released at the next boundary (R337). -/
  | warmCopy (sid : Nat) (ok : Bool) (data : Bytes)
  /-- The spill scan moves PARKED sessions to HISTORY while hamper free space is low (R342). -/
  | spillScan
  /-- A MIRROR OPEN message creates a mirror object at the buddy (R335). -/
  | mirrorOpen (src : Nat) (sid : Nat) (partition : Nat) (obj : Nat) (length : Nat) (epoch : Nat)
  /-- A MIRROR DATA message writes bytes of a mirror object (R335). -/
  | mirrorData (src : Sender) (sid : Nat) (obj : Nat) (offset : Nat) (data : Bytes)
  /-- A MIRROR SEAL message is acknowledged once the mirror is durable and its digest verifies (R335). -/
  | mirrorSeal (src : Nat) (sid : Nat) (obj : Nat) (digest : Bytes)
  /-- A MIRROR DESC message replaces the mirrored descriptor (R335). -/
  | mirrorDesc (src : Nat) (sid : Nat) (partition : Nat) (epoch : Nat) (desc : Bytes)
  /-- A MIRROR RELEASE message releases mirror objects of a session (R335). -/
  | mirrorRelease (src : Nat) (sid : Nat) (obj : Nat)
  /-- A MIRROR ACK message reports a buddy's status and durable length to the sender (R335). -/
  | mirrorAck (src : Nat) (sid : Nat) (obj : Nat) (status : Nat) (length : Nat)
  /-- A MIRROR READ message asks the buddy for bytes of a mirror object (R335). -/
  | mirrorRead (src : Nat) (sid : Nat) (obj : Nat) (offset : Nat) (length : Nat)
  /-- A MIRROR READ_DATA message delivers repair bytes to the requester (R335). -/
  | mirrorReadData (src : Nat) (sid : Nat) (obj : Nat) (offset : Nat) (status : Nat) (data : Bytes)
  /-- A MIRROR GET_DESC message asks the buddy for the newest mirrored descriptor (R335). -/
  | getDesc (src : Nat) (sid : Nat)
  /-- A MIRROR DESC_REPLY message lets the home reinstate a session whose descriptor was lost (R587). -/
  | descReply (src : Nat) (sid : Nat) (status : Nat) (body : Bytes)
  /-- A hamper object release takes effect once reads already begun complete, unmapping its LPNs (R349). -/
  | objectRelease (half : Nat) (index : Nat)
  /-- Garbage collection relocates a victim block's valid pages and erases it (R361). -/
  | garbageCollection (half : Nat) (victim : Nat) (dst : Nat) (more : Bool)
  /-- A block queued for refresh has its valid pages relocated and returns to service (R365). -/
  | refresh (half : Nat) (block : Nat) (dst : Nat) (reads : Nat) (bits : Nat)
  /-- The retention scan interval expires and sentinel pages of every FULL block are read (R366). -/
  | retentionScan (half : Nat) (bits : List (Nat × Nat)) (hard : List Nat)
  /-- After 64 MiB of segments or one second a new root record is written (R355). -/
  | rootWrite (half : Nat)
  /-- A dirty map segment is written in the background, oldest first (R355). -/
  | mapSegmentWrite (half : Nat) (b1 : Nat) (b2 : Nat)
  /-- A hamper page stays uncorrectable after every attempt and is repaired from the buddy or marked DAMAGED (R364). -/
  | uncorrectablePage (half : Nat) (ppa : Nat) (dst : Nat)
  /-- A NAND program fails and its block becomes BAD with data programmed elsewhere (R367). -/
  | programFailure (half : Nat) (block : Nat) (dst : Nat)
  /-- A NAND erase fails and the block becomes BAD (R367). -/
  | eraseFailure (half : Nat) (block : Nat)
  /-- A NAND temperature sample crosses a limit and the half's program rate changes (R370). -/
  | hamperThermal (half : Nat) (pkg : Nat) (temp : Nat)
  /-- A power-fail event starts the unmaskable flush of map and buffer to FLUSH blocks (R373). -/
  | powerFail (rail : Bool)
  /-- Input power is restored and the module completes its flush or recharges and restarts (R609). -/
  | powerRestored
  /-- A half completes its map restore and reserve and reports READY (R375). -/
  | hamperRestore (half : Nat)
  /-- A QHT message begins sending once its window allows, cut into packets (R400). -/
  | messageSend (peer : Nat) (bulk : Bool)
  /-- A QHT WRITE packet is checked and placed in its region (R402). -/
  | write (port : Nat) (ce : Bool) (tag : Bool) (room : Bool) (hdr : Bytes) (data : Bytes)
  /-- A QHT READ_REQ is executed once lower MSNs resolve and answered by READ_RESP (R404). -/
  | readReq (port : Nat) (ce : Bool) (tag : Bool) (room : Bool) (hdr : Bytes)
  /-- A QHT READ_RESP packet is placed at the requester's recorded destination (R404). -/
  | readResp (port : Nat) (ce : Bool) (tag : Bool) (hdr : Bytes) (data : Bytes)
  /-- A QHT SEND packet is placed in the port's reassembly buffer (R402). -/
  | send (port : Nat) (ce : Bool) (tag : Bool) (room : Bool) (hdr : Bytes) (data : Bytes)
  /-- A QHT ACK completes acknowledged packets and messages at the sender (R406). -/
  | ack (port : Nat) (ce : Bool) (tag : Bool) (hdr : Bytes)
  /-- A resolved message becomes visible in MSN order, signalling its counter and delivering a SEND (R403). -/
  | messageVisible (conn : Nat)
  /-- Two microseconds after the first unacknowledged packet an ACK is sent (R408). -/
  | ackTimer (conn : Nat)
  /-- A packet's retransmission timeout expires and it is sent again on another path (R409). -/
  | retransmission (conn : Nat) (tsn : Nat)
  /-- PROBE_MS expires and a PROBE is sent on a retired path (R410). -/
  | probeTimer (conn : Nat) (path : Nat)
  /-- A received PROBE is answered with PROBE_REPLY (R410). -/
  | probe (port : Nat) (ce : Bool) (tag : Bool) (hdr : Bytes)
  /-- A PROBE_REPLY is counted and after three a retired path becomes LIVE (R410). -/
  | probeReply (port : Nat) (ce : Bool) (tag : Bool) (hdr : Bytes)
  /-- RETRY_US passes after a BUSY or RETRY_AFTER and the message's packets are sent again (R412). -/
  | busyRetry (conn : Nat) (msn : Nat)
  /-- A received CONN_REQ is checked and answered with CONN_ACCEPT or CONN_REJECT (R394). -/
  | connReq (port : Nat) (mac : Bool) (hdr : Bytes) (data : Bytes)
  /-- A received CONN_ACCEPT opens the connection with its keys and epoch (R394). -/
  | connAccept (port : Nat) (mac : Bool) (hdr : Bytes) (data : Bytes)
  /-- A received CONN_REJECT closes the connecting entry (R395). -/
  | connReject (port : Nat) (hdr : Bytes) (reason : Nat)
  /-- An unanswered CONN_REQ is repeated, and after three the entry fails (R394). -/
  | connReqRetry (conn : Nat)
  /-- A received CLOSE completes the drain of a connection (R393). -/
  | close (port : Nat) (ce : Bool) (tag : Bool) (hdr : Bytes)
  /-- A REKEY exchange derives new keys and a new epoch on an open connection (R399). -/
  | rekey (port : Nat) (ce : Bool) (tag : Bool) (mac : Bool) (hdr : Bytes) (data : Bytes)
  /-- An OPEN connection idle for IDLE_MS enters DRAINING (R397). -/
  | connIdle (conn : Nat)
  /-- A packet unacknowledged or no LIVE path for FAIL_MS fails the connection (R398). -/
  | connFailed (conn : Nat)
  /-- Two FAIL_MS after failure the connection entry returns to CLOSED (R393). -/
  | connFailedEnd (conn : Nat)
  /-- An absent page of a PAGED region arrives and held packets are placed (R414). -/
  | pageFetch (region : Nat) (page : Nat) (ok : Bool)
  /-- PAGE_STALL_US passes without the page and held messages are answered RETRY_AFTER (R414). -/
  | pageStall (roce : Bool) (index : Nat) (seq : Nat)
  /-- An RDMA WRITE request is checked against the region and placed, or NAKed (R419). -/
  | roceWrite (qp : Nat) (psn : Nat) (key : Nat) (addr : Nat) (imm : Option Nat) (ce : Bool) (data : Bytes)
  /-- An RDMA READ request is checked and executed as responder (R419). -/
  | roceRead (qp : Nat) (psn : Nat) (key : Nat) (addr : Nat) (len : Nat) (ce : Bool)
  /-- A RoCEv2 SEND request is received on an RC queue pair (R417). -/
  | roceSend (qp : Nat) (psn : Nat) (op : Nat) (imm : Option Nat) (ce : Bool) (data : Bytes)
  /-- A received CNP cuts the queue pair's sending rate (R420). -/
  | cnp (qp : Nat)
  /-- INC_US passes without a CNP and the queue pair's rate rises (R420). -/
  | rateIncrease (qp : Nat)
  /-- A queue pair's local ACK timeout expires and it retries, entering ERROR when retries are exhausted (R421). -/
  | roceAckTimeout (qp : Nat)
  /-- A fabric port completes link training at 800 or 400 Gb/s (R384). -/
  | linkUp (port : Nat)
  /-- A fabric port goes down and its paths are retired (R384). -/
  | linkDown (port : Nat)
  /-- An IPv6 neighbour solicitation or ARP request for the port is answered (R386). -/
  | neighbourSolicitation (port : Nat) (hi : Nat) (lo : Nat)
  /-- A PTP message disciplines wall and monotonic time and moves the synchronisation state (R62). -/
  | ptpMessage (port : Nat) (domain : Nat) (interval : Nat) (offset : Nat)
  /-- A 1PPS input pulse fixes the phase of the second (R62). -/
  | ppsPulse (wide : Bool)
  /-- No valid PTP message for 8 sync intervals moves a LOCKED clock to HOLDOVER (R64). -/
  | holdover
  /-- Holdover lasts longer than LIMIT_S and the clock enters FREE_RUN (R64). -/
  | holdoverLimit
  /-- RENEW_MS passes and a non-home owner sends RENEW to the home (R429). -/
  | renewTimer (sid : Nat)
  /-- The home answers a RENEW with RENEW_ACK (R429). -/
  | renew (src : Nat) (sid : Nat) (epoch : Nat) (renewMs : Nat) (expiryMs : Nat)
  /-- A RENEW_ACK refreshes or ends the owner's lease (R430). -/
  | renewAck (src : Nat) (sid : Nat) (epoch : Nat) (status : Nat) (renewMs : Nat) (expiryMs : Nat)
  /-- EXPIRY_MS passes since the last answered renew and the owner fences the session (R430). -/
  | fence (sid : Nat)
  /-- A lease or offer runs out at the home and the session is reclaimed as HISTORY (R437). -/
  | leaseReclaim (sid : Nat)
  /-- The home accepts or refuses an owner's offer of a session to a target (R434). -/
  | offer (src : Nat) (sid : Nat) (epoch : Nat) (target : Nat)
  /-- An OFFER_ACK lets the owner send PROPOSE to the target (R434). -/
  | offerAck (src : Nat) (sid : Nat) (status : Nat)
  /-- The target takes a guest slot and reserves what the copy needs (R434). -/
  | propose (src : Nat) (sid : Nat) (epoch : Nat) (desc : Bytes) (want : Nat) (image : Nat)
  /-- An ACCEPT moves the session to MIGRATING and starts the copy to the target (R434). -/
  | accept (src : Nat) (sid : Nat) (epoch : Nat) (addr : Nat) (region : Nat) (gen : Nat)
  /-- A REFUSE from the target ends the owner's handoff attempt (R434). -/
  | refuse (src : Nat) (sid : Nat)
  /-- The home checks a COMMIT and commits ownership to the target at the next epoch (R434). -/
  | commit (src : Nat) (sid : Nat) (epoch : Nat)
  /-- A COMMITTED lets the target serve the session under its new lease (R434). -/
  | committed (src : Nat) (sid : Nat) (epoch : Nat) (status : Nat)
  /-- A NOTICE makes the former owner release the session and keep a forwarding entry (R434). -/
  | notice (src : Nat) (sid : Nat) (epoch : Nat) (target : Nat)
  /-- No valid COMMIT reaches the home by the offer deadline and it aborts the handoff (R435). -/
  | offerDeadline (sid : Nat)
  /-- An ABORT returns the session to the owner and releases the target's reservation (R435). -/
  | abort (src : Nat) (sid : Nat)
  /-- A target holding no COMMITTED resends COMMIT every RENEW_MS (R436). -/
  | commitResend (sid : Nat)
  /-- A target's COMMIT goes unconfirmed for EXPIRY_MS and it abandons the handoff (R436). -/
  | handoffLost (sid : Nat)
  /-- A RECLAIMED makes a former owner or target drop its copy of the session (R430). -/
  | reclaimed (src : Nat) (sid : Nat) (epoch : Nat)
  /-- The home records the owner's state and writes the flushed history tokens (R428). -/
  | stateSync (src : Nat) (sid : Nat) (epoch : Nat) (state : Nat) (tier : Nat) (histLen : Nat) (tokens : List Nat)
  /-- A SYNC_ACK lets the owner count the tokens as durable (R428). -/
  | syncAck (src : Nat) (sid : Nat) (epoch : Nat) (status : Nat) (histLen : Nat)
  /-- A REDIRECT tells the sender of refused work its new target (R445). -/
  | redirect (src : Nat) (sid : Nat) (epoch : Nat) (target : Nat)
  /-- A shard holder stores a directory entry and answers DIR_ACK (R438). -/
  | dirPut (src : Nat) (sid : Nat) (epoch : Nat) (owner : Nat) (acting : Nat) (buddy : Nat) (tier : Nat)
  /-- A shard holder deletes a directory entry and answers DIR_ACK (R438). -/
  | dirDel (src : Nat) (sid : Nat)
  /-- A DIR_ACK completes a directory write when both holders have answered (R438). -/
  | dirAck (src : Nat) (sid : Nat) (status : Nat)
  /-- A shard holder answers a directory lookup with DIR_REPLY (R439). -/
  | dirGet (src : Nat) (sid : Nat)
  /-- A DIR_REPLY gives the requester the owner of a session or none (R439). -/
  | dirReply (src : Nat) (sid : Nat) (status : Nat) (epoch : Nat) (owner : Nat) (acting : Nat)
  /-- DRAIN_MS passes after a map takes effect and the previous epoch is no longer accepted (R444). -/
  | drainWindow
  /-- A partition idle for IDLE_EXPIRE_S expires and is destroyed (R468). -/
  | partitionExpiry (p : Nat)
  /-- STEP_MS passes and the shed stage rises or falls with the throttle condition (R488). -/
  | shedStep
  /-- At shed stage 7 the core clock falls or rises by 100 MHz per step (R613). -/
  | clockStep
  /-- Input power over its limits clamps the core clock to 900 MHz (R611). -/
  | powerClamp (watts : Nat)
  /-- An arbitration frame ends, switching the arbiters and lending idle slots (R478). -/
  | frameBoundary (res : Nat) (quiet : List Nat) (wants : List Nat)
  /-- A 1 ms sensor sample updates the throttle condition (R612). -/
  | sensorSample (temps : List (Nat × Nat)) (avg : Nat) (peak : Nat) (vin : Nat) (iin : Nat) (bankMv : Nat)
  /-- A sensor at or above its trip point for two samples forces a device reset (R615). -/
  | thermalTrip (sensor : Nat)
  /-- A staged package unconsumed for HOLD_S is released and scrubbed (R503). -/
  | stageHold (handle : Nat)
  /-- An SPDM GET_VERSION request is answered (R494). -/
  | getVersion (doe : Bool)
  /-- An SPDM GET_CAPABILITIES request is answered (R494). -/
  | getCapabilities (doe : Bool) (ver : Nat)
  /-- An SPDM NEGOTIATE_ALGORITHMS request is answered (R494). -/
  | negotiateAlgorithms (doe : Bool) (ver : Nat) (asym : Nat) (hash : Nat)
  /-- An SPDM GET_DIGESTS request is answered (R494). -/
  | getDigests (doe : Bool) (ver : Nat)
  /-- An SPDM GET_CERTIFICATE request returns the certificate chain (R493). -/
  | getCertificate (doe : Bool) (ver : Nat) (slot : Nat) (off : Nat) (len : Nat) (room : Nat)
  /-- An SPDM CHALLENGE is answered with a signature by AK (R494). -/
  | challenge (doe : Bool) (ver : Nat) (slot : Nat) (summary : Bool) (nonce : Bytes) (room : Nat)
  /-- An SPDM GET_MEASUREMENTS request returns the measurement indices (R495). -/
  | getMeasurements (doe : Bool) (ver : Nat) (index : Nat) (sign : Bool) (nonce : Bytes) (room : Nat)
  /-- An SPDM CHUNK_GET request returns a chunk of a large response (R494). -/
  | chunkGet (doe : Bool) (ver : Nat) (seq : Nat) (off : Nat) (len : Nat)
  /-- A PLDM firmware-update component changes firmware images or option bytes (R573). -/
  | pldmFirmwareUpdate (image : Bool) (slot : Nat) (opts : Bytes) (svn1 : Nat) (svn2 : Nat) (sig1 : Bool) (sig2 : Bool)
  /-- The input rises through 40 V and the module starts charging its hold-up bank (R607). -/
  | powerOn
  /-- The bank reaches 52 V, its state is measured, and the die resets are released (R605). -/
  | bankCharged (measured : Bool) (us : Nat)
  /-- A rail fails to come up within 10 ms and the sequence stops and retries once (R607). -/
  | railTimeout
  /-- RST_N held low for at least 1 µs flushes and holds the controller in reset (R610). -/
  | rstN
  /-- After a device reset the controller runs the start-up steps to its phase (R571). -/
  | startUp (fails : List (Nat × Nat))
  /-- A control core's watchdog expires and the other cores restart it (R590). -/
  | coreWatchdog (core : Nat) (held : List (Nat × Nat))
  /-- A corrected error is counted in the unit's CORR_WIN (R579). -/
  | correctedError (kind : Nat) (idx : Nat) (n : Nat)
  /-- An uncorrected repeatable fault is retried up to RETRIES times and counted (R580). -/
  | transientFault (kind : Nat) (idx : Nat) (failed : Nat) (loc : Nat) (fn : Nat) (ring : Nat)
  /-- An attention engine fault resets the engine and voids the row for its sessions (R585). -/
  | engineFault (e : Nat) (loc : Nat)
  /-- An hourly bucket of the fault counters' window expires (R581). -/
  | faultWindow
  /-- PERIOD_S passes at the timekeeper and an automatic checkpoint starts (R547). -/
  | ckptPeriod (g : Nat)
  /-- An early-warning CKPT_REQUEST starts or skips a checkpoint at the timekeeper (R547). -/
  | ckptRequest (src : Nat) (gid : Nat)
  /-- The timekeeper starts a checkpoint forwarded from another controller (R548). -/
  | beginFwd (src : Nat) (gid : Nat) (req : Bytes)
  /-- The forwarding controller replies to its CKPT_BEGIN from the timekeeper's answer (R548). -/
  | beginReply (src : Nat) (gid : Nat) (status : Nat) (manifest : Nat) (cutRow : Nat)
  /-- A controller records the cut row and answers PREPARED (R549). -/
  | prepare (src : Nat) (gid : Nat) (manifest : Nat) (cutRow : Nat) (flags : Nat)
  /-- The timekeeper collects PREPARED answers for the cut (R550). -/
  | prepared (src : Nat) (gid : Nat) (manifest : Nat) (status : Nat)
  /-- A buddy or deputy creates the mirror of a shard or manifest (R558). -/
  | shardOpen (src : Nat) (gid : Nat) (manifest : Nat) (flags : Nat) (length : Nat)
  /-- A buddy or deputy writes bytes of a shard mirror (R558). -/
  | shardData (src : Nat) (manifest : Nat) (flags : Nat) (offset : Nat) (data : Bytes)
  /-- A buddy or deputy acknowledges a durable, verified shard mirror (R558). -/
  | shardSeal (src : Nat) (gid : Nat) (manifest : Nat) (flags : Nat) (digest : Bytes)
  /-- A checkpoint ACK reports the status of a shard mirror to its sender (R558). -/
  | ckptAck (src : Nat) (gid : Nat) (manifest : Nat) (flags : Nat) (status : Nat)
  /-- A controller's shards and mirrors become durable and it sends SHARD_DONE (R555). -/
  | shardDurable (g : Nat)
  /-- The timekeeper collects SHARD_DONE and, with all present, writes the manifest (R557). -/
  | shardDone (src : Nat) (gid : Nat) (manifest : Nat) (entries : Bytes)
  /-- The manifest and its mirror are durable, the generation becomes valid and COMMIT_GEN is sent (R557). -/
  | manifestDurable (g : Nat)
  /-- A controller releases the generation three older than the newly valid one (R545). -/
  | commitGen (src : Nat) (gid : Nat) (manifest : Nat) (cutRow : Nat)
  /-- A checkpoint ABORT makes each controller release that generation's shards and mirrors (R552). -/
  | ckptAbort (src : Nat) (gid : Nat) (manifest : Nat) (cause : Nat)
  /-- A checkpoint RELEASE makes a buddy or deputy release the mirrors of a manifest (R558). -/
  | shardRelease (src : Nat) (manifest : Nat)
  /-- CKPT_MS passes without a beacon carrying CUT and the checkpoint fails (R552). -/
  | ckptBarrierTimeout (g : Nat)
  /-- WRITE_S passes after the cut without every SHARD_DONE and the checkpoint fails (R555). -/
  | ckptWriteTimeout (g : Nat)
  /-- Phase 5 of the power-loss flush completes and the module enters HOLD (R606). -/
  | flushComplete (ms : Nat)
  /-- The hold-up bus falls below 30 V, the module minimum, and the module enters OFF (R606). -/
  | belowModuleMinimum
  /-- RST_N is released and the controller starts at step 1 of R571 (R610). -/
  | rstNRelease
  /-- One second after a failed rail sequence the supervisor retries power-up once (R607). -/
  | railRetry
  /-- No valid 1PPS pulse arrives within 1.1 s and PPS_OK clears (R620). -/
  | ppsTimeout
  /-- An accelerator adapter's RoCEv2 acknowledgement or NAK for a controller-initiated RDMA WRITE is received (R257). -/
  | roceAck (qp : Nat) (psn : Nat) (nak : Nat)
  /-- A received IEEE 802.1Qbb pause frame stops transmission on its priority (R386). -/
  | pfcPause (port : Nat) (prio : Nat) (pause : Bool)
  /-- A frame that is neither RoCEv2, QHT, PTP nor neighbour discovery, or that fails FCS, is dropped and counted (R386). -/
  | rxDrop (port : Nat) (fcs : Bool)
  /-- A former owner's forwarding entry expires after max(DRAIN_MS, EXPIRY_MS) (R434). -/
  | forwardingExpiry (sid : Nat)
  /-- A write that unmasks an MSI-X vector sends its pending message (R537). -/
  | vectorUnmask (fn : Nat) (vec : Nat)
  /-- A command entry with an unassigned opcode is taken and answered UNKNOWN_OP (R523). -/
  | unassignedOpcode (h : Hdr) (op : Nat)
  /-- An SPDM request outside the supported set is answered with the error UnsupportedRequest (R494). -/
  | unsupportedRequest (doe : Bool) (ver : Nat) (req : Nat)
  /-- A holder controller receives a request to allocate, or a hall message to release, a WARM holding (R337). -/
  | warmHolding (src : Nat) (sid : Nat) (release : Bool) (length : Nat) (partition : Nat)
  /-- A NAND program of buffered data completes and the word line's buffer pages are released (R356). -/
  | nandProgramDone (half : Nat) (blocks : NandBlocks) (lpns : List Nat)
  deriving DecidableEq, Repr

end Sys2Proof
end

