-- ==== Sys2Proof/Decode.lean ====
section
/-! DEFINITION. Decoding of commands from words: the table of operations and events gives no row a bit pattern. -/
namespace Sys2Proof

/-- No row of the table has an encoding in bits, so no word spells a command (log entry 1). -/
def decodeTableWord (_nbits _w : Nat) : Option Instr := none

end Sys2Proof
end

