-- ==== Sys2Proof/Config.lean ====
section
/-! DEFINITION. Fixed quantities of the one shipped configuration, and the free values: constants without a body of
which nothing can be proved. -/
namespace Sys2Proof.Config
open Sys2Proof

/-- Free value number `n`: what the spec leaves open (log entry 2). -/
opaque freeNat : Nat → Nat

/-- The fixed hash of slot bits [20:0] that chooses a set of the descriptor cache; no formula is given (R81). -/
opaque cacheHash : Nat → Nat

/-- A byte string of a fixed length whose bytes are free values. -/
def bytesOf (n : Nat) (byte : Nat → Nat) : Bytes := (List.range n).map fun i => BitVec.ofNat 8 (byte i)

/-- Byte `i` of SHA-384 of a byte string (R494). -/
opaque sha384At : Bytes → Nat → Nat
/-- SHA-384 of a byte string: 48 bytes (R494). -/
def sha384 (bs : Bytes) : Bytes := bytesOf 48 (sha384At bs)

/-- Byte `i` of HKDF-SHA-384 of a secret, a salt and an info string (R500). -/
opaque hkdfAt : Bytes → Bytes → Bytes → Nat → Nat
/-- The 256-bit key that HKDF-SHA-384 gives (R500). -/
def hkdf (secret salt info : Bytes) : Bytes := bytesOf 32 (hkdfAt secret salt info)

/-- The 64 bytes that HKDF-SHA-384 gives: an XTS key pair (R506). -/
def hkdf64 (secret salt info : Bytes) : Bytes := bytesOf 64 (hkdfAt secret salt info)
/-- Byte `i` of the storage root SR (R493). -/
opaque storageRootAt : Nat → Nat
/-- The storage root SR, 32 bytes, which only the SEAL engines hold (R493, R506). -/
def storageRoot : Bytes := bytesOf 32 storageRootAt
/-- XTS-AES-256: byte `i` of the ciphertext, for a key pair, a tweak and a data unit (R506). -/
opaque xtsAt : Bytes → Nat → Bytes → Nat → Nat
/-- XTS-AES-256 of a data unit: as many bytes as it has (R506). -/
def xts (key : Bytes) (tweak : Nat) (unit : Bytes) : Bytes := bytesOf unit.length (xtsAt key tweak unit)

/-- AES-256-GCM: the tag verifies, for a key, nonce, associated data, and ciphertext followed by its tag (R500, R502). -/
opaque gcmTagOk : Bytes → Bytes → Bytes → Bytes → Bool
/-- AES-256-GCM: byte `i` of the plaintext. -/
opaque gcmAt : Bytes → Bytes → Bytes → Bytes → Nat → Nat
/-- AES-256-GCM opening: the plaintext, as long as the ciphertext without its 16-byte tag; none where the tag does not verify. -/
def gcmOpen (key nonce ad ct : Bytes) : Option Bytes :=
  if 16 ≤ ct.length ∧ gcmTagOk key nonce ad ct then some (bytesOf (ct.length - 16) (gcmAt key nonce ad ct)) else none

/-- ECDSA P-384 verification: public key, message, signature (R499, R500). -/
opaque ecdsaVerify : Bytes → Bytes → Bytes → Bool

/-- Byte `i` of a signature by the attestation key over a message (R494, R496). -/
opaque akSignAt : Bytes → Nat → Nat
/-- Signature by the attestation key over a message: r and s, 48 bytes each (R494, R497). -/
def akSign (m : Bytes) : Bytes := bytesOf 96 (akSignAt m)

/-- A public key is a point of the curve (R500). -/
opaque ecdhPoint : Bytes → Bool
/-- Byte `i` of the ECDH secret of the device's enrolment key and a public key. -/
opaque ecdhAt : Bytes → Nat → Nat
/-- The ECDH secret of the device's enrolment key and a public key, 48 bytes; none for a key that is not a point (R500). -/
def ecdhOpen (pub : Bytes) : Option Bytes := if ecdhPoint pub then some (bytesOf 48 (ecdhAt pub)) else none

/-- Byte `i` of the key-exchange field number `k`. -/
opaque keyExchangeAt : Nat → Nat → Nat
/-- The key-exchange field of a CONN_REQ, CONN_ACCEPT or REKEY, made with a fresh ephemeral key: 144 bytes (R394, R504). -/
def keyExchange (k : Nat) : Bytes := bytesOf 144 (keyExchangeAt k)

/-- Byte `i` of the ECDH secret of ephemeral key number `k` and a peer's ephemeral public key. -/
opaque ephemeralAt : Nat → Bytes → Nat → Nat
/-- The ECDH secret Z of ephemeral key number `k` and a peer's ephemeral public key: 48 bytes (R505). -/
def ephemeral (k : Nat) (pub : Bytes) : Bytes := bytesOf 48 (ephemeralAt k pub)
/-- The address of a controller on a path before a connection has named it; the map gives none (R394, R525; log entry 83). -/
opaque peerAddr : Nat → Nat → Nat
/-- AES-256-GCM sealing: byte `i` of the ciphertext and the tag after it, for a key, nonce, associated data and plaintext. -/
opaque gcmSealAt : Bytes → Bytes → Bytes → Bytes → Nat → Nat
/-- AES-256-GCM sealing: the ciphertext, as long as the plaintext, then the 16-byte tag (R391). -/
def gcmSeal (key nonce ad pt : Bytes) : Bytes := bytesOf (pt.length + 16) (gcmSealAt key nonce ad pt)

/-- The certificate chain of the attestation key (R493). -/
opaque certChain : Bytes

/-- Byte `i` of the digest of the device's own DeviceID public key. -/
opaque deviceIdDigestAt : Nat → Nat
/-- SHA-384 of the device's own DeviceID public key (R498). -/
def deviceIdDigest : Bytes := bytesOf 48 deviceIdDigestAt

/-- First address of the module's address block (R600). -/
opaque macBase : Nat

/-- The own MAC address of a fabric port, from the module's address block (R423, R600). -/
def portMac (port : Nat) : Nat := (macBase + port) % 2 ^ 48

/-- An identity field set at manufacture, by its register's offset and low bit, in the window of the PF or of a VF (R600). -/
opaque identity : Nat → Nat → Bool → Nat

/-- A value that a register shows and that the model does not compute: the field's offset and low bit, and TIM_MONO (log
entry 2). -/
opaque shown : Nat → Nat → Nat → Nat

/-- Byte `i` of the measurement of an index. -/
opaque measurementAt : Nat → Nat → Nat
/-- The measurement of an index: 8 bytes for the ROM version, else a digest (R495). -/
def measurement (i : Nat) : Bytes := bytesOf (if i = 1 then 8 else 48) (measurementAt i)

/-- FP32 exponential of an FP32 word, as the hardware's table gives it (R191). -/
opaque expWord : Nat → Nat

/-- FP32 hyperbolic tangent of an FP32 word, as the hardware's table gives it (R187). -/
opaque tanhWord : Nat → Nat

/-- The 16-bit state of the stop-string matcher for a set of strings after some bytes (R296, R306). -/
opaque matcherCode : List Bytes → Bytes → Nat

/-- The bytes that a matcher state stands for (R306). -/
opaque matcherTail : List Bytes → Nat → Bytes

/-- Bins of 16 MiB of each die's HBM (R141). -/
def dieBins : Nat := 22888

/-- Directory entries that a shard holder has room for; the spec gives no size of the directory region (R438). -/
opaque dirEntries : Nat

/-- Message trackers of a fabric port; the spec gives no number (R401, R479; log entry 81). -/
opaque portTrackers : Nat

/-- Bytes of each die's HBM. -/
def dieBytes : Nat := dieBins * 2 ^ 24

/-- The first generation that an open after start-up issues in slots of this boot (R570). -/
def firstGen (boot : Nat) : Nat := (boot % 63 + 1) * 2 ^ 20

end Sys2Proof.Config
end

