-- ==== Sys2Proof/Machine/NMap.lean ====
section
/-! DEFINITION. Sparse tables: lists of (key, value) pairs with strictly rising keys. -/
namespace Sys2Proof.Machine

/-- A sparse table by number. -/
abbrev NMap (α : Type) := List (Nat × α)

/-- The value under a key, if it is listed. -/
def NMap.get? {α : Type} : NMap α → Nat → Option α
  | [], _ => none
  | (k, v) :: m, i => if i = k then some v else NMap.get? m i

/-- The value under a key, or `dflt`. -/
def NMap.getD {α : Type} (m : NMap α) (i : Nat) (dflt : α) : α := (NMap.get? m i).getD dflt

/-- The table with `v` under key `i`. -/
def NMap.put {α : Type} : NMap α → Nat → α → NMap α
  | [], i, v => [(i, v)]
  | (k, w) :: m, i, v =>
    if i < k then (i, v) :: (k, w) :: m
    else if i = k then (i, v) :: m
    else (k, w) :: NMap.put m i v

/-- The table without key `i`. -/
def NMap.del {α : Type} : NMap α → Nat → NMap α
  | [], _ => []
  | (k, w) :: m, i => if i = k then m else (k, w) :: NMap.del m i

/-- Key `i` is listed. -/
def NMap.has {α : Type} (m : NMap α) (i : Nat) : Bool := (NMap.get? m i).isSome

/-- The table with the entry under `i`, if any, changed by `f`. -/
def NMap.upd {α : Type} (m : NMap α) (i : Nat) (f : α → α) : NMap α :=
  match NMap.get? m i with
  | some v => NMap.put m i (f v)
  | none => m

/-- Every entry changed by `f`. -/
def NMap.mapV {α : Type} (m : NMap α) (f : Nat → α → α) : NMap α := m.map fun e => (e.1, f e.1 e.2)

/-- The entries that `p` holds of. -/
def NMap.keep {α : Type} (m : NMap α) (p : Nat → α → Bool) : NMap α := m.filter fun e => p e.1 e.2

/-- The keys, rising. -/
def NMap.keys {α : Type} (m : NMap α) : List Nat := m.map (·.1)

/-- The values in key order. -/
def NMap.vals {α : Type} (m : NMap α) : List α := m.map (·.2)

/-- How many entries `p` holds of. -/
def NMap.cnt {α : Type} (m : NMap α) (p : Nat → α → Bool) : Nat := (NMap.keep m p).length

/-- The lowest key of `0 .. n - 1` from `lo` that is not listed, if any. -/
def NMap.freeFrom {α : Type} (m : NMap α) : Nat → Nat → Option Nat
  | 0, _ => none
  | n + 1, lo => if NMap.has m lo then NMap.freeFrom m n (lo + 1) else some lo

/-- Keys strictly rising: the one canonical form of a table. -/
def NMap.wf {α : Type} (m : NMap α) : Bool := decide (m.Pairwise fun a b => a.1 < b.1)

end Sys2Proof.Machine
end

