-- ==== Sys2Proof/Machine/TypesData.lean ====
section
/-! DEFINITION. The data-path state: rows, sessions, contexts, pages, engines, weaves, profiles (chapters 2 to 9). -/
namespace Sys2Proof.Machine
open Sys2Proof

/-- Status codes of replies, records and messages (R20). -/
inductive Status where
  | ok | partialDone | busy | retryAfter | remap | noSpace | deadEnd | policyOverridden | staleGen | dup
  | shardRowMismatch | digestFail | denied | badParam | unknownOp | seqGap | fault
  deriving DecidableEq, Repr

/-- The 16-bit code of a status (R20). -/
def Status.code : Status → Nat
  | .ok => 0x0000 | .partialDone => 0x0001 | .busy => 0x0010 | .retryAfter => 0x0011 | .remap => 0x0012
  | .noSpace => 0x0020 | .deadEnd => 0x0030 | .policyOverridden => 0x0031 | .staleGen => 0x0040 | .dup => 0x0041
  | .shardRowMismatch => 0x0050 | .digestFail => 0x0051 | .denied => 0x0060 | .badParam => 0x0070
  | .unknownOp => 0x0071 | .seqGap => 0x0080 | .fault => 0x00F0

/-- Group phases, in the order of TIM_ROW.PHASE (R70). -/
inductive Phase where
  | idle | stakes | boundary | waitBeacon | stalled
  deriving DecidableEq, Repr

/-- The code of a phase (R70). -/
def Phase.code : Phase → Nat
  | .idle => 0 | .stakes => 1 | .boundary => 2 | .waitBeacon => 3 | .stalled => 4

/-- The payload of a beacon (R52). -/
structure Beacon where
  row : Nat := 0
  tkEpoch : Nat := 0
  groupId : Nat := 0
  void : Bool := false
  resync : Bool := false
  cut : Bool := false
  reconf : Bool := false
  memberLost : Bool := false
  voidMap : Nat := 0
  deriving DecidableEq, Repr

/-- A boundary report as the timekeeper takes it (R53). -/
structure Report where
  row : Nat := 0
  tkEpoch : Nat := 0
  mapEpoch : Nat := 0
  status : Nat := 0
  void : Bool := false
  cutOk : Bool := false
  cutFail : Bool := false
  owns : Bool := false
  restart : Bool := false
  deriving DecidableEq, Repr

/-- One entry of a member's token list for a row (R291). -/
structure TokEntry where
  sid : Nat := 0
  token : Nat := 0
  flags : Nat := 0
  deriving DecidableEq, Repr

/-- Roles of batch-list entries (R256). -/
inductive Role where
  | decode | chunk | chunkLast | push | held
  deriving DecidableEq, Repr

/-- The code of a role (R256). -/
def Role.code : Role → Nat
  | .decode => 0 | .chunk => 1 | .chunkLast => 2 | .push => 3 | .held => 4

/-- One entry of a batch list, with the session's local slot (R256). -/
structure BatchEntry where
  sid : Nat := 0
  slot : Nat := 0
  pos : Nat := 0
  npos : Nat := 0
  role : Role := .decode
  prio : Nat := 0
  deriving DecidableEq, Repr

/-- One member accelerator as the MEMBER record of a map names it (R525). -/
structure Member where
  qp : Nat := 0
  planKey : Nat := 0
  planAddr : Nat := 0
  maskKey : Nat := 0
  maskAddr : Nat := 0
  beaconKey : Nat := 0
  beaconAddr : Nat := 0
  deriving DecidableEq, Repr

/-- A weave binding that a group holds or awaits (R234, R242). -/
structure Binding where
  slot : Nat := 0
  throughput : Bool := false
  hostBatch : Bool := false
  /-- Runs of sync counters held on the west and on the east die (R234): first index and count. -/
  runsW : List (Nat × Nat) := []
  runsE : List (Nat × Nat) := []
  deriving DecidableEq, Repr

/-- A span of a session's page list at a stake, with the engine that the plan of the row assigns it to (R159). -/
structure Span where
  slot : Nat := 0
  stake : Nat := 0
  idx : Nat := 0
  engine : Nat := 0
  pages : Nat := 0
  /-- The span stands for the pages that a push fills, which the engine only reads (R205, R220): it runs no steps. -/
  push : Bool := false
  deriving DecidableEq, Repr

/-- What a controller holds of a decode group beside the group's registers (chapter 2). -/
structure Group where
  ctrls : List Nat := []
  /-- Controllers that the map has removed and that still own sessions of the group (R443). -/
  leaving : List Nat := []
  members : NMap Member := []
  /-- Announced position of each member in the current row: a stake, or 256 for ROW_END (R47). -/
  announced : NMap Nat := []
  rowEnds : List Nat := []
  heldBells : NMap Nat := []
  tokens : NMap (List TokEntry) := []
  heldTokens : NMap (List TokEntry) := []
  stakeDeadline : Option Nat := none
  rowDeadline : Option Nat := none
  beaconDeadline : Option Nat := none
  /-- One row timeout after the timekeeper's own boundary (R59). -/
  lostDeadline : Option Nat := none
  /-- Set once BEACON_QUERY has been sent: the further beacon limit of the deputy (R60). -/
  takeoverDeadline : Option Nat := none
  lastBeacon : Option Beacon := none
  heldBeacon : Option (Nat × Beacon) := none
  reports : NMap Report := []
  /-- Controllers whose last report here shows that they own no session of the group (R443). -/
  cleared : List Nat := []
  roundRow : Nat := 0
  roundRestart : Bool := false
  mapReady : NMap (Nat × Nat) := []
  querySeen : List Nat := []
  needResync : Bool := false
  tookOver : Bool := false
  /-- A beacon of this timekeeper has been rejected with STALE_GEN: it issues none any more (R60). -/
  silenced : Bool := false
  rowVoided : Bool := false
  boundaryDone : Bool := false
  reportPending : Option Report := none
  acksWanted : List Nat := []
  bound : Option Binding := none
  nextBinding : Option (Option Binding) := none
  batch : List BatchEntry := []
  nextBatch : List BatchEntry := []
  /-- Spans of the row in progress, and of the row that the last boundary planned (R159). -/
  plan : List Span := []
  nextPlan : List Span := []
  /-- Longest planned engine time of the row in progress, and of the row that the last boundary planned, in core-clock cycles
  (R168, R172). -/
  planCc : Nat := 0
  nextCc : Nat := 0
  /-- Regions of the windows in use (R380). -/
  wins : List Nat := []
  readySent : Bool := false
  /-- Values of S fields that the group goes on seeing until its own next boundary, under their keys; none stands for the value
  at reset (R15). -/
  oldS : NMap (Option Nat) := []
  /-- HOST_BATCH batches by tag, in order of last acceptance: tag, size, contexts (R266). -/
  batches : List (Nat × Nat × List Nat) := []
  deriving DecidableEq, Repr

/-- Session states (R76). -/
inductive SState where
  | free | open | running | waiting | parking | parked | history | reviving | migrating | closed
  deriving DecidableEq, Repr

/-- The code of a session state (R76). -/
def SState.code : SState → Nat
  | .free => 0 | .open => 1 | .running => 2 | .waiting => 3 | .parking => 4 | .parked => 5 | .history => 6
  | .reviving => 7 | .migrating => 8 | .closed => 9

/-- Session tiers (R25, R76). -/
inductive Tier where
  | hot | warm | parked | history | gone
  deriving DecidableEq, Repr

/-- The code of a tier (R76). -/
def Tier.code : Tier → Nat
  | .hot => 0 | .warm => 1 | .parked => 2 | .history => 3 | .gone => 4

/-- Lease states (R76). -/
inductive Lease where
  | none | held | offered | reclaimed
  deriving DecidableEq, Repr

/-- The code of a lease state (R76). -/
def Lease.code : Lease → Nat
  | .none => 0 | .held => 1 | .offered => 2 | .reclaimed => 3

/-- The session descriptor (R76). -/
structure Desc where
  sid : Nat := 0
  state : SState := .free
  tier : Tier := .hot
  kill : Bool := false
  partition : Nat := 0
  prio : Nat := 0
  profile : Nat := 0
  group : Nat := 0
  select : Bool := false
  mx4 : Bool := false
  split : Bool := false
  grammarBound : Bool := false
  hint : Nat := 0
  deadPolicy : Nat := 0
  rollbackN : Nat := 0
  buddy : Nat := 0
  ownerEpoch : Nat := 0
  ownerCtrl : Nat := 0
  lease : Lease := .none
  subscriber : Nat := 0
  service : Nat := 0
  port : Nat := 0
  committed : Nat := 0
  histLen : Nat := 0
  ptRoot : Nat := 0
  histAddr : Nat := 0
  histDurable : Nat := 0
  imageValid : Bool := false
  imageMx4 : Bool := false
  mirrorValid : Bool := false
  imageHandle : Nat := 0
  histHandle : Nat := 0
  turnId : Nat := 0
  ctx : Nat := 0
  ctxValid : Bool := false
  turnQueued : Bool := false
  stopMatch : Bool := false
  lastRow : Nat := 0
  idleSince : Nat := 0
  tokenizer : Nat := 0
  stopSet : Nat := 0
  grammarId : Nat := 0
  grmState : Nat := 0
  siftIndex : Nat := 0
  rangeLo : Nat := 0
  rangeHi : Nat := 0
  rangeIdx : Nat := 0
  rangeCnt : Nat := 0
  charged : Nat := 0
  opened : Nat := 0
  deriving DecidableEq, Repr

/-- A descriptor's range holds a position; a session that is not split holds them all, and the last range has no end, since positions are
appended to it (R27, R74; log entry 37). -/
def Desc.holdsPos (x : Desc) (j : Nat) : Bool := !x.split || (x.rangeLo ≤ j && (x.rangeIdx == x.rangeCnt || j < x.rangeHi))
/-- A page holds positions of a descriptor's range (R27). -/
def Desc.holdsPage (x : Desc) (k : Nat) : Bool :=
  !x.split || (x.rangeLo < 64 * (k + 1) && (x.rangeIdx == x.rangeCnt || 64 * k < x.rangeHi))
/-- The first page of a range, and one past its last up to a page (R27). -/
def Desc.pageSpan (x : Desc) (last : Nat) : Nat × Nat :=
  if !x.split then (0, last + 1)
  else (x.rangeLo / 64, if x.rangeIdx = x.rangeCnt then last + 1 else min (last + 1) ((x.rangeHi + 63) / 64))

/-- A page-table entry (R115). -/
structure Pte where
  pageId : Nat := 0
  cow : Bool := false
  cls : Nat := 0
  deriving DecidableEq, Repr

/-- A placement hint waiting for the session's next row boundary (R127). -/
structure PlaceHint where
  layerLo : Nat := 0
  layerHi : Nat := 0
  posLo : Nat := 0
  posHi : Nat := 0
  code : Nat := 0
  dflt : Bool := false
  /-- Order of acceptance: of the hints that wait for a boundary the one set last stands (R127). -/
  seq : Nat := 0
  deriving DecidableEq, Repr

/-- A frame reserved for a row: layer, page and page id; `copyOf` names the shared frame of a copy (R122, R133). -/
structure Resv where
  layer : Nat := 0
  page : Nat := 0
  pageId : Nat := 0
  copyOf : Option Nat := none
  deriving DecidableEq, Repr

/-- What the home of a split session knows of a range that another controller holds: its controller, its state and its tier as last
reported (R27, R333, R428). -/
structure RangeInfo where
  ctrl : Nat := 0
  /-- Its index and its positions, as its controller has reported them (R340; log entry 37). -/
  index : Nat := 0
  lo : Nat := 0
  hi : Nat := 0
  state : SState := .waiting
  tier : Tier := .hot
  /-- Its range lease: when the last RENEW was answered OK, and the expiry in ns (R431, R437). -/
  tr : Nat := 0
  expiry : Nat := 0
  deriving DecidableEq, Repr

/-- The intake of a row of a split session: the row, COMMITTED and HIST_LEN before it, and HIST_LEN after it (R59). -/
structure RowMark where
  row : Nat := 0
  committed : Nat := 0
  histLen : Nat := 0
  after : Nat := 0
  deriving DecidableEq, Repr

/-- What the controller holds of a session beside its descriptor. -/
structure Session where
  d : Desc := {}
  /-- The token history. -/
  hist : List Nat := []
  /-- Page-table entries under layer * 65,536 + page (R113, R115). -/
  pt : NMap Pte := []
  defaultPlace : Nat := 0
  /-- Page-table blocks held: the root, leaves under layer * 128 + leaf, directories of four layers, each with its first block of
  the home die's pool; the root is at PT_ROOT (R113, R116). -/
  ptHeld : Bool := false
  ptLeaves : NMap Nat := []
  ptDirs : NMap Nat := []
  /-- Layers whose root entry names a directory: they have needed page 512 (R113, R116). -/
  ptVia : List Nat := []
  /-- Valid page signatures under layer * 65,536 + page: 512 bits (R205, R207). -/
  sigs : NMap Nat := []
  /-- Valid coarse records under layer * 1,024 + block (R208). -/
  coarse : NMap Nat := []
  /-- For a split session: its last rows, newest first, as its intake found and left it (R59). -/
  rowStarts : List RowMark := []
  /-- The first of the rows whose positions are to be discarded at the start of the next boundary (R59). -/
  pendDiscard : Option Nat := none
  /-- What COMMITTED becomes at the next boundary (R78). -/
  pendCommitted : Option Nat := none
  /-- Signatures computed in the row, waiting for the commit, and pages whose slot 63 has been written and that wait for
  their signature block, under the same keys (R205). -/
  newSigs : NMap Nat := []
  unsigned : List Nat := []
  resv : List Resv := []
  hints : List PlaceHint := []
  pendSelect : Option Bool := none
  pendMx4 : Option Bool := none
  /-- Context of tier work (R84). -/
  tierCtx : Option Nat := none
  /-- State before MIGRATING, or before a revive (R87). -/
  prevState : SState := .free
  prevTier : Tier := .hot
  /-- HISTORY decision taken and waiting for the boundary (R336). -/
  pendHistory : Bool := false
  /-- Controller whose HBM holds the pages of a WARM session, and the region that it reported for them (R337, R380). -/
  warmHolder : WarmHolder := {}
  /-- Releases still to be confirmed before a CLOSED slot returns to FREE: hamper handles, 1 the buddy, 2 the WARM
  holder (R103). -/
  waits : List Nat := []
  /-- The pages of a CLOSED session have been reclaimed (R103). -/
  reclaimed : Bool := false
  /-- Row voided for the session, with the end-event cause (R49, R58). -/
  voided : Option Nat := none
  inRow : Bool := false
  heldOut : Bool := false
  /-- Positions below COMMITTED that one PREFILL_CHUNK row fed, from and to: what its tiles selected among (R214). -/
  chunks : List (Nat × Nat) := []
  /-- The descriptor copy in HBM, as last written back (R77, R81). -/
  stored : List (BitVec 8) := []
  lost : Bool := false
  /-- The session holds a mask slot and six pool blocks for a grammar area (R305). -/
  area : Bool := false
  /-- Park hint set and waiting for the boundary (R329). -/
  pendHint : Option Nat := none
  /-- Length in ms of the idle timer that runs (R69, R90). -/
  idleMs : Nat := 0
  /-- A hint was overridden outside a turn: the next completion record shows it (R328). -/
  overridden : Bool := false
  /-- The ranges of a split session on other controllers, at its home (R27). -/
  ranges : List RangeInfo := []
  /-- Last turn that ended while its session's boundary was under way: its number and row (R101). -/
  endedTurn : Option (Nat × Nat) := none
  /-- The buddy has been sent an OPEN for the session and no RELEASE of everything (R102, R335). -/
  mirrored : Bool := false
  /-- The history object of the mirror is open at the buddy (R335). -/
  histOpen : Bool := false
  deriving DecidableEq, Repr

/-- Kinds of request contexts (R86). -/
inductive CtxKind where
  | turn | revive | rebuild | migrateOut | migrateIn
  deriving DecidableEq, Repr

/-- Phases of request contexts (R86). -/
inductive CtxPhase where
  | queued | prefill | decode | tierMove | cancelling | done
  deriving DecidableEq, Repr

/-- A request context (R86), with the parameters of the turn it serves. -/
structure Ctx where
  sid : Nat := 0
  slot : Nat := 0
  fn : Nat := 0
  hseq : Nat := 0
  kind : CtxKind := .turn
  phase : CtxPhase := .queued
  prio : Nat := 0
  kill : Bool := false
  keep : Bool := false
  batchSlot : Option Nat := none
  mapEpoch : Nat := 0
  ownerEpoch : Nat := 0
  admitRow : Nat := 0
  deferrals : Nat := 0
  group : Nat := 0
  baseCommitted : Nat := 0
  baseHist : Nat := 0
  promptLen : Nat := 0
  genTokens : Nat := 0
  rollbacks : Nat := 0
  maxNew : Nat := 0
  eq : Nat := 0
  resvPages : Nat := 0
  charge : Nat := 0
  /-- The partition of the data it holds (R508). -/
  tag : Nat := 0
  /-- End cause latched for the completion record (R96). -/
  cause : Option Nat := none
  push : Bool := false
  fallback : Bool := false
  textAddr : Nat := 0
  textLen : Nat := 0
  textBytes : Nat := 0
  dropped : Nat := 0
  cutOffset : Nat := 0
  stopMatch : Bool := false
  nonconform : Bool := false
  overridden : Bool := false
  voidRows : Nat := 0
  /-- Order of acceptance (R134). -/
  accepted : Nat := 0
  deferEventSent : Bool := false
  /-- End of a chunk that a voided row did not commit, and that is planned again (R255). -/
  redo : Option Nat := none
  /-- Priority that TURN_BEGIN named, for the turn's admission (R248). -/
  newPrio : Option Nat := none
  /-- The turn's text has overflowed its buffer and TEXT_OVF has counted it (R294). -/
  textOvf : Bool := false
  deriving DecidableEq, Repr

/-- A page-frame record (R112). -/
structure Frame where
  refcount : Nat := 0
  cls : Nat := 0
  fill : Nat := 0
  layer : Nat := 0
  pageIdx : Nat := 0
  partition : Nat := 0
  place : Nat := 0
  /-- 0 FREE, 1 RESERVED, 2 IN_USE, 3 RECLAIM. -/
  fstate : Nat := 0
  moving : Bool := false
  owner : Nat := 0
  ownerValid : Bool := false
  heat : Nat := 0
  heatRow : Nat := 0
  /-- One above the last row in which a station read the frame (R128). -/
  lastRead : Nat := 0
  /-- Order of the hint that set its PLACE, 0 for none (R127). -/
  hintSeq : Nat := 0
  /-- Trailer: format, PARK_FID, WRITTEN bits and LQ4 offsets (R185). -/
  fmt : Nat := 0
  parkFid : Bool := false
  written : Nat := 0
  ofsLat : Nat := 0
  ofsRot : Nat := 0
  deriving DecidableEq, Repr

/-- A tracker or hint move under way (R130). -/
structure Move where
  src : Nat := 0
  dst : Nat := 0
  slot : Nat := 0
  layer : Nat := 0
  page : Nat := 0
  deriving DecidableEq, Repr

/-- The page store beside its registers (chapter 4). -/
structure Pages where
  frames : NMap Frame := []
  /-- Class of each assigned bin under die * 2^19 + bin (R108). -/
  bins : NMap Nat := []
  moves : List Move := []
  /-- Groups whose rows may still read a frame that a session has dropped, by page id (R103, R119). -/
  dropped : NMap (List Nat) := []
  /-- Runs of page-table blocks given back at a reclamation step, first block and count: under the die, plus twice the number
  above the group whose row may still read them (R103, R116). -/
  blocksBack : NMap (List (Nat × Nat)) := []
  /-- Copy-on-write copies under way: slot, layer, page, source, destination (R122). -/
  copies : List (Nat × Nat × Nat × Nat × Nat) := []
  deriving DecidableEq, Repr

/-- The header of a query tile (R151), with its payload and the queue pair on which it arrived. -/
structure QTile where
  qp : Nat := 0
  sid : Nat := 0
  row : Nat := 0
  stake : Nat := 0
  layer : Nat := 0
  pos : Nat := 0
  npos : Nat := 1
  head0 : Nat := 0
  nheads : Nat := 1
  kind : Nat := 0
  kvPresent : Bool := false
  latentIn : Bool := false
  latentOut : Bool := false
  mapEpoch : Nat := 0
  ownerEpoch : Nat := 0
  qfmt : Nat := 0
  kvfmt : Nat := 0
  ofmt : Nat := 0
  gfmt : Nat := 0
  tileSlot : Nat := 0
  replyKey : Nat := 0
  replyAddr : Nat := 0
  gradAddr : Nat := 0
  payload : List (BitVec 8) := []
  deriving DecidableEq, Repr

/-- The header of a push tile (R261), with its payload and the queue pair on which it arrived. -/
structure PTile where
  qp : Nat := 0
  sid : Nat := 0
  pushId : Nat := 0
  layer : Nat := 0
  pos : Nat := 0
  npos : Nat := 1
  kvfmt : Nat := 0
  mapEpoch : Nat := 0
  ownerEpoch : Nat := 0
  tileSlot : Nat := 0
  replyKey : Nat := 0
  replyAddr : Nat := 0
  payload : List (BitVec 8) := []
  /-- The partition tag of its INGEST staging (R508). -/
  tag : Nat := 0
  /-- The first row in which the tile may be placed, decided as it is taken (R263). -/
  row : Nat := 0
  deriving DecidableEq, Repr

/-- A descriptor that a weave step has queued for the MOVE engines of a die, in DPATH (R222, R235): the step's operation, its group,
engine and stake, its scratchpad offset and its length. -/
structure MoveDesc where
  op : Nat := 0
  group : Nat := 0
  engine : Nat := 0
  stake : Nat := 0
  arg : Nat := 0
  len : Nat := 0
  deriving DecidableEq, Repr

/-- The fold state of one (head, position) row: maximum, sum and accumulator, FP32 words; `none` is minus infinity
(R162, R192). -/
structure FoldRow where
  m : Option Nat := none
  l : Nat := 0
  acc : List Nat := []
  deriving DecidableEq, Repr

/-- A session's work for one stake on its home die (R158 to R163). The rows of the work are its (position, head) pairs,
positions ascending and within each position heads ascending. -/
structure Work where
  group : Nat := 0
  slot : Nat := 0
  stake : Nat := 0
  /-- KIND of the query tiles (R151). -/
  kind : Nat := 0
  /-- First query position and positions: the row's, or a BACKWARD tile's range. -/
  pos : Nat := 0
  npos : Nat := 1
  /-- Tiles taken and not yet answered, with their members; position ranges, and POS and HEAD0, of every tile taken
  (R150, R153). -/
  tiles : List (Nat × QTile) := []
  ranges : List (Nat × Nat) := []
  got : List (Nat × Nat) := []
  /-- Query vectors, latent rows, and for BACKWARD the gradient items of each row, once gathered (R158). -/
  gathered : Bool := false
  queries : List (List Nat) := []
  grads : List (List Nat × Nat × Nat) := []
  kvWritten : Bool := false
  /-- Absorbed queries of the rows, FP32 words (R193). -/
  absorbed : List (List Nat) := []
  /-- Once SIFT has answered: for each position range of the tiles, its first position, its positions, and the pages of Sel_g per head
  group (R211, R212). -/
  selAsked : Bool := false
  sel : Option (List (Nat × Nat × List (List Nat))) := none
  /-- For BACKWARD: one above the last position that is committed or that the row's chunk writes (R169). -/
  chunkTop : Nat := 0
  /-- The partition tag of its INGEST staging and of its scratchpad lines (R508). -/
  tag : Nat := 0
  /-- Pages expanded in EXPANDED working (R146). -/
  expanded : List Nat := []
  /-- Scores of a page, per row and slot, delivered by SCORE. -/
  scores : NMap (List (List (Option Nat))) := []
  /-- Rescale factor and weights of a page, per row, delivered by FOLD; none where nothing is attended. -/
  weights : NMap (List (Option (Nat × List Nat))) := []
  /-- Fold state of the rows, per span. -/
  folds : NMap (List FoldRow) := []
  /-- Pages folded and accumulated. -/
  mixed : List Nat := []
  merged : List FoldRow := []
  mergeDone : Bool := false
  /-- Results of the rows: values and statistics, FP32 words. -/
  outs : List (List Nat × Option Nat × Nat) := []
  closed : Bool := false
  emitted : Bool := false
  deriving DecidableEq, Repr

/-- An output tile as EMIT writes it (R154, R155), with the queue pair of its default path (R229). -/
structure OTile where
  qp : Nat := 0
  sid : Nat := 0
  row : Nat := 0
  stake : Nat := 0
  layer : Nat := 0
  pos : Nat := 0
  npos : Nat := 0
  head0 : Nat := 0
  nheads : Nat := 0
  kind : Nat := 0
  stakeEnd : Bool := false
  null : Bool := false
  isPartial : Bool := false
  empty : Bool := false
  reason : Nat := 0
  rangeIdx : Nat := 0
  rangeCnt : Nat := 0
  ownerEpoch : Nat := 0
  ofmt : Nat := 0
  tileSlot : Nat := 0
  mapEpoch : Nat := 0
  remapCtrl : Nat := 0
  payload : List (BitVec 8) := []
  /-- The partition tag of its EMIT staging, while it is held there (R508). -/
  tag : Nat := 0
  /-- The EMIT-queue buffer through which it leaves, by its key and one, and 0 for none (R226). -/
  buf : Nat := 0
  deriving DecidableEq, Repr

/-- An engine task: the work of one engine for one stake of one group's row (R271). -/
structure Task where
  group : Nat := 0
  stake : Nat := 0
  level : Option Nat := none
  readyAt : Nat := 0
  /-- Step instances issued: step, slot + 1 or 0, block or page (R223). -/
  issued : List (Nat × Nat × Nat) := []
  /-- The task has yielded and waits for a tile of this slot, 2^22 for a push tile (R275). -/
  awaits : Option Nat := none
  /-- YIELD_CC as the wait under way began, and when it began (R275, R280). -/
  yieldCc : Nat := 0
  waitFrom : Nat := 0
  complete : Bool := false
  /-- Bytes saved when it is saved. -/
  saved : Option Nat := none
  /-- The tags saved with the scratchpad lines: slot and partition (R508). -/
  tags : List (Nat × Nat) := []
  /-- Sessions of which the live ranges of the cheap point that it was saved at omit data in a buffer (R237). -/
  lost : List Nat := []
  deriving DecidableEq, Repr

/-- One attention engine (R142, R271 to R276). -/
structure Engine where
  running : Option Task := none
  ready : List Task := []
  saved : List Task := []
  /-- The level of the preempting task while a request stands, and when WAIT_CC ends. -/
  request : Option (Nat × Nat) := none
  saving : Option Task := none
  restoring : Option Task := none
  deriving DecidableEq, Repr

/-- A step of a weave (R228). -/
structure WStep where
  op : Nat := 0
  stream : Nat := 0
  sub : Nat := 0
  iter : Nat := 0
  cheap : Bool := false
  inBuf : Nat := 0x3FF
  outBuf : Nat := 0x3FF
  counter : Nat := 0
  dieScope : Bool := false
  arg : Nat := 0
  arg2 : Nat := 0
  deriving DecidableEq, Repr

/-- A stream of a weave (R226). -/
structure WStream where
  kind : Nat := 0
  expanded : Bool := false
  latentIn : Bool := false
  latentOut : Bool := false
  member : Nat := 0
  head0 : Nat := 0
  nheads : Nat := 0
  inBuf : Nat := 0
  outBuf : Nat := 0
  qfmt : Nat := 0
  kvfmt : Nat := 0
  ofmt : Nat := 0
  gfmt : Nat := 0
  deriving DecidableEq, Repr

/-- A buffer of a weave (R227). -/
structure WBuf where
  base : Nat := 0
  place64 : Nat := 0
  credits : Nat := 0
  loc : Nat := 0
  deriving DecidableEq, Repr

/-- One stake of a weave (R225). -/
structure WStake where
  layer : Nat := 0
  stepFirst : Nat := 0
  stepCount : Nat := 0
  cheapFirst : Nat := 0
  cheapCount : Nat := 0
  deriving DecidableEq, Repr

/-- A cheap point (R236). -/
structure WCheap where
  step : Nat := 0
  liveFirst : Nat := 0
  liveCount : Nat := 0
  deriving DecidableEq, Repr

/-- A resident weave (R221 to R229). -/
structure Weave where
  imageLen : Nat := 0
  stakes : Nat := 0
  mergeHome : Bool := false
  slotCounters : Nat := 0
  dieCounters : Nat := 0
  scratchUse : Nat := 0
  profileDigest : List (BitVec 8) := []
  imageDigest : List (BitVec 8) := []
  profile : Nat := 0
  stakeTab : List WStake := []
  streams : List WStream := []
  bufs : List WBuf := []
  steps : List WStep := []
  cheaps : List WCheap := []
  lives : List (Nat × Nat) := []
  ports : List Nat := []
  deriving DecidableEq, Repr

/-- A resident model profile (R244, R245). -/
structure Profile where
  layers : Nat := 0
  splitKv : Bool := false
  hasParams : Bool := false
  heads : Nat := 0
  dh : Nat := 0
  dc : Nat := 0
  dr : Nat := 0
  hkv : Nat := 0
  scale : Nat := 0
  storeFmt : Nat := 0
  weightFmt : Nat := 0
  computeFmt : Nat := 0
  selGroups : Nat := 0
  endToken : Nat := 0
  selSink : Nat := 0
  selLocal : Nat := 0
  selK : Nat := 0
  selCoarseK : Nat := 0
  selFmt : Nat := 0
  layerTab : List (Nat × Nat) := []
  /-- Bytes of a position in a layer and slab class of its pages (R106). -/
  slotBytes : Nat := 0
  cls : Nat := 0
  paramLen : Nat := 0
  params : List (BitVec 8) := []
  digest : List (BitVec 8) := []
  deriving DecidableEq, Repr

/-- An open or waiting push (R259 to R265). -/
structure Push where
  id : Nat := 0
  slot : Nat := 0
  ctx : Nat := 0
  group : Nat := 0
  first : Nat := 0
  count : Nat := 0
  lane : Option Nat := none
  readyRow : Nat := 0
  /-- PUSH_ROWS as PUSH_READY was posted (R265, R281). -/
  rows : Nat := 0
  stalled : Bool := false
  /-- Placed pieces under layer * 65,536 + page. -/
  placed : List Nat := []
  /-- Tiles taken and waiting for their PUSH_PLACE step. -/
  waiting : List PTile := []
  rebuild : Bool := false
  deriving DecidableEq, Repr

/-- The data path beside its registers (chapters 5 to 9). -/
structure Att where
  engines : NMap Engine := []
  /-- Engine of each slot, per group and die: group * 64 + die * 32 + slot (R239). -/
  slotOf : NMap Nat := []
  work : List Work := []
  /-- Null tiles LATE that follow their stake's STAKE_END tile, as in emitQ (R153, R156). -/
  lateQ : List (Nat × Nat × Nat × Nat × OTile) := []
  heldTiles : List (Nat × Nat × QTile) := []
  /-- Tiles queued or held back by EMIT: group, member, reply key and address, tile. -/
  emitQ : List (Nat × Nat × Nat × Nat × OTile) := []
  /-- Range partials kept at the home (R164, R165): group and tile. -/
  partials : List (Nat × OTile) := []
  weaves : NMap Weave := []
  profiles : NMap Profile := []
  /-- Sync counters under die * 65,536 + index (R233). -/
  counters : NMap Nat := []
  /-- Tiles present in buffers, each taking a credit, under group * 2^16 + engine * 2^10 + buffer: in the scratchpad the slots of the
  sessions they belong to, or 2^22, in INGEST staging stake * 2^23 + slot (R227, R230). -/
  present : NMap (List Nat) := []
  /-- Query tiles that wait for a place in INGEST staging, in order: the key of the buffer, and the entry (R227, R230). -/
  staging : List (Nat × Nat) := []
  /-- Push tiles held until their composition map is active: group, die, lane, tile (R445). -/
  heldPush : List (Nat × Nat × Nat × PTile) := []
  pushes : List Push := []
  nextPush : Nat := 1
  /-- PUSH_PLACE steps that have fired in their group's row: group * 1,024 + stake * 2 + die (R263). -/
  placedAt : List Nat := []
  /-- PREFETCH and MOVE descriptors of the rows in progress, in order of submission (R222, R235). -/
  dpath : List MoveDesc := []
  /-- Save sets held under die * 8 + level: the frames (R277). -/
  saveSets : NMap (List Nat) := []
  /-- Batch slots taken: context per slot (R85). -/
  batchSlots : NMap Nat := []
  /-- Batch slots whose work has ended within a row: they and the pins are held until the group's boundary, under the batch slot the
  group and the session's slot (R82, R85, R103). -/
  leaving : NMap (Nat × Nat) := []
  deriving DecidableEq, Repr

/-- One line of a descriptor cache (R81, R82): slot, pinned, order of last use. -/
structure CacheLine where
  slot : Nat := 0
  pinned : Bool := false
  used : Nat := 0
  /-- The partition of the data it holds (R508). -/
  tag : Nat := 0
  deriving DecidableEq, Repr

/-- A descriptor fetch under way: retries made (R77). -/
structure Fetch where
  slot : Nat := 0
  tries : Nat := 0
  deriving DecidableEq, Repr

/-- Sessions and contexts (chapter 3). -/
structure SessTab where
  tab : NMap Session := []
  /-- Generation each slot issues next, where it differs from the boot's first (R72, R570). -/
  gens : NMap Nat := []
  ctxs : NMap Ctx := []
  /-- Cache lines per die, least recently used first. -/
  cache : NMap (List CacheLine) := []
  fetches : List Fetch := []
  accepts : Nat := 0
  deriving DecidableEq, Repr

end Sys2Proof.Machine
end

