-- ==== Sys2Proof/Machine/TypesText.lean ====
section
/-! DEFINITION. The state of tokens and grammars, parking, the hamper, the hall fabric and ownership (chapters 10 to 14). -/
namespace Sys2Proof.Machine
open Sys2Proof

/-- One token of a tokenizer (R284). -/
structure TokenRec where
  str : Bytes := []
  special : Bool := false
  render : Bool := false
  deriving DecidableEq, Repr

/-- One entry of a merge table (R285). -/
structure MergeRec where
  left : Nat := 0
  right : Nat := 0
  result : Nat := 0
  used : Bool := false
  rank : Nat := 0
  deriving DecidableEq, Repr

/-- A resident tokenizer (R282 to R287). -/
structure Tokenizer where
  vocab : Nat := 0
  classSplit : Bool := false
  tokens : List TokenRec := []
  byteMap : List Nat := []
  classes : List Nat := []
  cuts : Nat := 0
  mergeLog2 : Nat := 8
  mergeTab : List MergeRec := []
  digest : Bytes := []
  size : Nat := 0
  onChip : Bool := false
  deriving DecidableEq, Repr

/-- A state of a grammar (R301). -/
structure GState where
  accept : Bool := false
  precomp : Bool := false
  deadReach : Bool := false
  edgeCount : Nat := 0
  edgeIdx : Nat := 0
  maskIdx : Nat := 0
  deriving DecidableEq, Repr

/-- An edge of a grammar (R302). -/
structure GEdge where
  token : Nat := 0
  next : Nat := 0
  kind : Nat := 0
  arg : Nat := 0
  deriving DecidableEq, Repr

/-- A resident grammar (R299 to R304). -/
structure Grammar where
  partition : Nat := 0
  nstates : Nat := 0
  start : Nat := 0
  stackMax : Nat := 0
  states : List GState := []
  edges : List GEdge := []
  maskSec : Bytes := []
  opsSec : Bytes := []
  deadReach : Nat := 0
  imageLen : Nat := 0
  tokDigest : Bytes := []
  digest : Bytes := []
  deriving DecidableEq, Repr

/-- An undo entry: the state before one accepted token (R306). -/
structure Undo where
  state : Nat := 0
  stack : List Nat := []
  tail : Bytes := []
  text : Nat := 0
  /-- Cells the token's edge overwrote: index and old symbol (R306). -/
  cells : List (Nat × Nat) := []
  /-- Cells above the depth, as they were before the token. -/
  above : List Nat := []
  deriving DecidableEq, Repr

/-- A session's grammar area (R306): state, stack (top first), undo entries (newest first), exclusions. -/
structure GArea where
  state : Nat := 0
  stack : List Nat := []
  undo : List Undo := []
  excl : List (Nat × Nat) := []
  maskSlot : Nat := 0
  /-- Cells above the depth that tokens of the turn have popped: what they still hold, lowest first (R306). -/
  above : List Nat := []
  /-- UNDO_HEAD: the next of the 64 undo entries to write (R306). -/
  undoHead : Nat := 0
  /-- The allowed set of the mask formed for the row in progress (R292, R307). -/
  mask : Option (List Nat) := none
  deriving DecidableEq, Repr

/-- A stored stop set (R295). -/
structure StopSet where
  strs : List Bytes := []
  count : Nat := 0
  deriving DecidableEq, Repr

/-- Tokens and grammars beside their registers (chapter 10). -/
structure Tok where
  tkz : NMap Tokenizer := []
  stops : NMap StopSet := []
  grams : NMap Grammar := []
  /-- Grammar areas by local slot. -/
  areas : NMap GArea := []
  /-- The last bytes of each session's turn stream: the stop matcher's state (R296). -/
  tails : NMap Bytes := []
  /-- Bytes of prompt text tokenized since the last reset (R317). -/
  promptBytes : Nat := 0
  deriving DecidableEq, Repr

/-- A park, a WARM placement or a move to HISTORY under way (R330 to R337). -/
structure Park where
  /-- 0 IMAGE, 1 HISTORY, 2 WARM. -/
  target : Nat := 0
  holder : WarmHolder := {}
  cause : Nat := 0
  /-- Where its events go: function, queue and HSEQ of the command, or of the partition's policy (R533). -/
  fn : Nat := 0
  eq : Nat := 0
  hseq : Nat := 0
  mx4 : Bool := false
  handle : Nat := 0
  durable : Bool := false
  mirrored : Bool := false
  needMirror : Bool := false
  mirrorDeadline : Option Nat := none
  /-- PRK_TIMING.MIRROR_MS at acceptance (R343). -/
  mirrorMs : Nat := 0
  /-- The session was WARM when the park began (R28, R337). -/
  fromWarm : Bool := false
  deriving DecidableEq, Repr

/-- A revive under way (R338 to R341). -/
structure Revive where
  ctx : Nat := 0
  /-- 1 IMAGE, 2 REBUILD, 3 hall copy back. -/
  mode : Nat := 1
  reserved : Bool := false
  staged : Bool := false
  deadline : Option Nat := none
  /-- Region of the history buffer of a rebuild (R340). -/
  region : Option Nat := none
  /-- COMMITTED when the revive began, and whether a push of the rebuild has committed since: until then the rebuild's pushes begin
  at position 0 (R340). -/
  c0 : Nat := 0
  pushed : Bool := false
  /-- This controller's pages are complete, and ranges of a split session on other controllers are not HOT yet (R27). -/
  whole : Bool := false
  /-- Bytes of the image that the buddy has been asked for and has not delivered (R339). -/
  wants : Nat := 0
  /-- Object that an image revive reads from its reservation on, 0 for none: a release waits for it (R349). -/
  reading : Nat := 0
  deriving DecidableEq, Repr

/-- What a buddy holds for a session (R334, R335). -/
structure Mirror where
  partition : Nat := 0
  desc : Bytes := []
  image : Option Nat := none
  hist : Option Nat := none
  ownerEpoch : Nat := 0
  /-- A SEAL that waits until every byte is durable: sender, object kind, digest. -/
  sealing : Option (Nat × Nat × Bytes) := none
  /-- The image has been sealed, and its digest verified (R335). -/
  whole : Bool := false
  deriving DecidableEq, Repr

/-- A WARM holding on this controller for another's session (R337). -/
structure Holding where
  sid : Nat := 0
  region : Nat := 0
  frames : List Nat := []
  holder : Nat := 0
  deriving DecidableEq, Repr

/-- Parking beside its registers (chapter 11). -/
structure Prk where
  parks : NMap Park := []
  revives : NMap Revive := []
  mirrors : NMap Mirror := []
  holdings : List Holding := []
  /-- GET_DESC and READ requests sent and not answered: session and object kind. -/
  asked : List (Nat × Nat) := []
  spillSeen : Nat := 0
  deriving DecidableEq, Repr

/-- A hamper object (R347, R348), with its bytes: those in the write buffer, and those that decryption under its pages' media keys
gives (R506; log entry 76). -/
structure HObj where
  sid : Nat := 0
  gen : Nat := 1
  kind : Nat := 0
  valid : Bool := false
  damaged : Bool := false
  complete : Bool := false
  partition : Nat := 0
  length : Nat := 0
  pages : Nat := 0
  extents : List (Nat × Nat) := []
  data : Bytes := []
  /-- Pages of it that cannot be read (R364, R375). -/
  holes : List Nat := []
  /-- Reads begun and not completed: a release waits for them (R349). -/
  reads : Nat := 0
  releasing : Bool := false
  deriving DecidableEq, Repr

/-- The spare-area tag of a programmed page (R354), and the media key generation of its partition under which its data was encrypted
(R506). -/
structure HTag where
  lpn : Nat := 0
  partition : Nat := 0
  kind : Nat := 0
  seq : Nat := 0
  index : Nat := 0
  gen : Nat := 0
  keyGen : Nat := 0
  deriving DecidableEq, Repr

/-- What a programmed page holds once decrypted and decoded: bytes of an object, object records, an object's extents from its
fourth on, a map segment, a copy of a directory page, a root record, a flush record (R348, R353, R355, R373). -/
inductive NPage where
  | data (bytes : Bytes)
  | records (objs : List (Nat × HObj))
  | extents (es : List (Nat × Nat))
  | segment (entries : List (Nat × Nat))
  | directory (segs : List (Nat × Nat))
  | root (dirs : NMap (Nat × Nat)) (opened : List Nat)
  | flushRecord
  deriving DecidableEq, Repr

/-- Block states (R360). -/
inductive BState where
  | erased | opened | full | flush | bad
  deriving DecidableEq, Repr

/-- A block of NAND (R360 to R367). -/
structure HBlock where
  state : BState := .erased
  erases : Nat := 0
  nextPage : Nat := 0
  /-- When it was filled, on the clock of this start: below 0 for one filled before it (R361, R366). -/
  filledAt : Int := 0
  stream : Nat := 0
  /-- Page reads since its last erase (R365). -/
  reads : Nat := 0
  deriving DecidableEq, Repr

/-- A page that waits for the buffer or lies in it: LPN, object index, in the HISTORY queue, priority of its queue (R356, R357, R359).
A page of object records, or of their extents, is a system page: it names the records that it was written for (R348). -/
structure HBuf where
  lpn : Nat := 0
  index : Nat := 0
  history : Bool := false
  prio : Nat := 0
  system : Bool := false
  recs : List Nat := []
  /-- PPAs that it has been programmed at, in word lines that are not all complete yet (R356). -/
  done : List Nat := []
  deriving DecidableEq, Repr

/-- Hamper half states, in the order of HMP_STATUS (R376). -/
inductive HState where
  | offline | recovering | ready | writeLimited | readOnly | flushing
  deriving DecidableEq, Repr

/-- The code of a half's state (R376). -/
def HState.code : HState → Nat
  | .offline => 0 | .recovering => 1 | .ready => 2 | .writeLimited => 3 | .readOnly => 4 | .flushing => 5

/-- One half of the hamper (R346). -/
structure Half where
  objs : NMap HObj := []
  /-- Runs of LPNs below the system LPNs that no object holds: first and count (R346, R350). -/
  freeExt : List (Nat × Nat) := [(0, 0xF0000000)]
  /-- PPA of each programmed LPN (R353), and the tag of each programmed PPA (R354). -/
  map : NMap Nat := []
  tags : NMap HTag := []
  /-- PPA of the second copy of each system page of objects (R360, R364). -/
  twins : NMap Nat := []
  /-- What the NAND holds of each programmed PPA: 16,384 bytes of ciphertext, then the 32 bytes of the tag (R354, R506). -/
  cells : NMap Bytes := []
  /-- The same pages decrypted and decoded (R354, R506). -/
  pages : NMap NPage := []
  /-- PPAs of pages that stay uncorrectable (R364). -/
  unread : List Nat := []
  /-- Blocks under (lun * 4 + plane) * 2484 + block (R353, R360). -/
  blocks : NMap HBlock := []
  /-- Erasures of every block by SANITIZE, counted beside a block's own (R363, R510). -/
  eraseBase : Nat := 0
  /-- The write buffer, and pages that wait while the dirty ceiling is reached (R356, R357). -/
  buffer : List HBuf := []
  queued : List HBuf := []
  /-- Dirty map segments, oldest first, and dirty directory pages (R355). -/
  dirty : List Nat := []
  dirtyDir : List Nat := []
  /-- The two copies of each written segment (R355). -/
  segAt : NMap (Nat × Nat) := []
  /-- The two copies of each written directory page (R355). -/
  dirAt : NMap (Nat × Nat) := []
  /-- Lun that each stream wrote to last (R360). -/
  turn : NMap Nat := []
  segsSinceRoot : Nat := 0
  rootAt : Nat := 0
  roots : Nat := 0
  seq : Nat := 0
  retired : List Nat := []
  /-- Times of uncorrectable pages of each lun (R368). -/
  unc : NMap (List Nat) := []
  /-- Blocks queued for refresh under R365 and under R366. -/
  refreshQ : List Nat := []
  retainQ : List Nat := []
  /-- Blocks whose valid pages are still to be moved out: of retired luns, and BAD ones while programs are stopped (R367, R368, R370). -/
  evacQ : List Nat := []
  /-- Records that a stop changed and the restore writes back (R348, R375). -/
  marked : List Nat := []
  scanDue : Option Nat := none
  /-- Thermal limit: 0 none, 1 half rate, 2 programs stopped (R370); package temperatures, and the highest ever. -/
  thermal : Nat := 0
  temps : NMap Nat := []
  maxTemp : Nat := 0
  corrected : Nat := 0
  uncorr : Nat := 0
  buddyRepairs : Nat := 0
  rdRefresh : Nat := 0
  retRefresh : Nat := 0
  /-- Power-loss flushes run, milliseconds in operation, and per temperature bin of the hottest package (R371). -/
  flushes : Nat := 0
  onMs : Nat := 0
  tempMs : NMap Nat := []
  hostPages : Nat := 0
  nandPages : Nat := 0
  /-- What both stood at when HMP_CNT0 was last reset (R376). -/
  hostAt : Nat := 0
  nandAt : Nat := 0
  /-- What the lifetime counts of uncorrectable, repaired and refreshed pages and blocks stood at when HMP_D_ERR was last reset
  (R377, R575). -/
  uncAt : Nat := 0
  repairAt : Nat := 0
  refreshAt : Nat := 0
  /-- Reads asked of a buddy and not answered: the LPN, and the PPA that could not be read (R362, R364). -/
  repairs : List (Nat × Nat) := []
  /-- The flush record: written, and the pages in FLUSH blocks (R373). -/
  flushRec : Bool := false
  flushed : List HBuf := []
  /-- The restore of R375 has finished in this start. -/
  restored : Bool := false
  deriving DecidableEq, Repr

/-- The source recorded for the absent pages of a PAGED region (R413). -/
inductive PageSource where
  | nowhere
  | hamper (handle offset : Nat)
  | hall (addr : Nat)
  deriving DecidableEq, Repr

/-- A region of the controller's HBM that the fabric can reach (R379). -/
structure Region where
  base : Nat := 0
  length : Nat := 0
  partition : Nat := 0
  read : Bool := false
  write : Bool := false
  paged : Bool := false
  qht : Bool := false
  roce : Bool := false
  valid : Bool := true
  gen : Nat := 1
  counter : Nat := 0
  counters : Nat := 0
  eq : Nat := 0
  /-- Absent 64 KiB pages of a PAGED region (R413). -/
  absent : List Nat := []
  fetching : List Nat := []
  failed : List Nat := []
  /-- Where the pages come from: a hamper handle and the offset of the region's first byte in it, or a hall address (R413). -/
  source : PageSource := .nowhere
  deriving DecidableEq, Repr

/-- Connection states (R393). -/
inductive CState where
  | closed | connecting | opened | draining | failed
  deriving DecidableEq, Repr

/-- A path of a connection (R410, R411). -/
structure QPath where
  live : Bool := true
  timeouts : Nat := 0
  window : Nat := 0
  outstanding : Nat := 0
  acked : Nat := 0
  halvedAt : Option Nat := none
  /-- Consecutive PROBE_REPLYs, whether the last PROBE still waits for its reply, and when the next is due. -/
  replies : Nat := 0
  asked : Bool := false
  probeAt : Nat := 0
  deriving DecidableEq, Repr

/-- A packet sent and not acknowledged (R409). -/
structure QPkt where
  /-- TYPE of R390. -/
  kind : Nat := 3
  tsn : Nat := 0
  msn : Nat := 0
  offset : Nat := 0
  len : Nat := 0
  path : Nat := 0
  /-- First and last transmission, and retransmissions made. -/
  first : Nat := 0
  sent : Nat := 0
  tries : Nat := 0
  /-- RTO_US and RETRIES when it was sent (R71). -/
  rto : Nat := 0
  limit : Nat := 0
  /-- It waits for a path with room. -/
  queued : Bool := false
  /-- It was not acknowledged in time, and goes to the next LIVE path after its last (R409). -/
  after : Bool := false
  deriving DecidableEq, Repr

/-- A message submitted on a connection (R400). -/
structure QMsg where
  msn : Option Nat := none
  /-- 0 WRITE, 1 READ_REQ, 3 SEND. -/
  type : Nat := 3
  service : Nat := 0
  region : Nat := 0
  regionGen : Nat := 0
  addr : Nat := 0
  partition : Nat := 0
  counter : Nat := 0
  incr : Nat := 0
  notify : Bool := false
  body : Bytes := []
  len : Nat := 0
  /-- Bytes cut into packets so far, and offsets of packets acknowledged (R400, R406). -/
  cut : Nat := 0
  acked : List Nat := []
  retryAt : Option Nat := none
  /-- Where a read's data goes, and what of it has been placed (R404). -/
  dest : Nat := 0
  placed : List (Nat × Nat) := []
  /-- All of a read's data is placed; it completes in the order of MSNs (R404). -/
  ended : Bool := false
  deriving DecidableEq, Repr

/-- The tracker of an incoming message (R402, R403). -/
structure QTrack where
  type : Nat := 0
  total : Nat := 0
  region : Nat := 0
  regionGen : Nat := 0
  addr : Nat := 0
  partition : Nat := 0
  counter : Nat := 0
  incr : Nat := 0
  notify : Bool := false
  placed : List (Nat × Nat) := []
  body : NMap Bytes := []
  status : Option Status := none
  /-- Packets held for an absent page, offset and data, and the end of the wait (R414). -/
  held : List (Nat × Bytes) := []
  heldUntil : Option Nat := none
  /-- The port that received the first packet, whose tracker this is, and the port of each packet, by offset (R402, R479). -/
  port : Nat := 0
  via : NMap Nat := []
  deriving DecidableEq, Repr

/-- A hall connection (R392 to R411). -/
structure Conn where
  state : CState := .closed
  peer : Nat := 0
  bulk : Bool := false
  epoch : Nat := 0
  myEpoch : Nat := 0
  peerEpoch : Nat := 0
  peerBoot : Nat := 0
  peerConn : Nat := 0
  /-- The peer's addresses, and the local HALL ports that the paths leave through (R394, R410). -/
  naddr : Nat := 1
  addrs : List Nat := []
  ports : List Nat := []
  paths : List QPath := []
  tsn : Nat := 0
  nextSend : Nat := 0
  next : Nat := 0
  tracks : NMap QTrack := []
  outcomes : NMap Status := []
  rxTsn : List Nat := []
  cumTsn : Nat := 0
  sinceAck : Nat := 0
  ackDue : Option Nat := none
  ceMask : Nat := 0
  msgs : List QMsg := []
  pkts : List QPkt := []
  reqTries : Nat := 0
  reqAt : Nat := 0
  lastUse : Nat := 0
  failedAt : Nat := 0
  noPathSince : Option Nat := none
  rekeying : Bool := false
  /-- CLOSE has been sent, and received (R393). -/
  closeSent : Bool := false
  closeGot : Bool := false
  /-- Number of the free value that stands for this side's key exchange, and the set key generation used (R504). -/
  keys : Nat := 0
  keyGen : Nat := 0
  /-- The AES-256-GCM keys of the two directions, sent and received (R391, R505). -/
  txKey : Bytes := []
  rxKey : Bytes := []
  deriving DecidableEq, Repr

/-- Queue-pair states (R424). -/
inductive QpState where
  | reset | rts | error
  deriving DecidableEq, Repr

/-- A RoCEv2 queue pair (R418). -/
structure Qp where
  state : QpState := .reset
  port : Nat := 0
  partition : Nat := 0
  peerQpn : Nat := 0
  sqPsn : Nat := 0
  rqPsn : Nat := 0
  timeout : Nat := 0
  retry : Nat := 0
  tclass : Nat := 0
  pkey : Nat := 0xFFFF
  peerGid : Nat := 0
  group : Nat := 0
  member : Nat := 0
  memberValid : Bool := false
  tries : Nat := 0
  /-- Sending rate in Mb/s (R420). -/
  rate : Nat := 0
  cnpSentAt : Option Nat := none
  incAt : Option Nat := none
  /-- RDMA writes sent and not acknowledged: PSN, purpose, member (R257, R421). -/
  sent : List (Nat × Nat × Nat) := []
  reads : Nat := 0
  ackAt : Option Nat := none
  /-- READs held for an absent page: PSN, region, local offset, length, end of the wait (R414). -/
  held : List (Nat × Nat × Nat × Nat × Nat) := []
  /-- After an RNR NAK: the PSN up to which requests had been executed before (R414, R419). -/
  done : Option Nat := none
  deriving DecidableEq, Repr

/-- The hall fabric and RoCEv2 beside their registers (chapter 13). -/
structure Hall where
  regions : NMap Region := []
  /-- Generations of released indices, and the free indices in order of release (R381). -/
  regGens : NMap Nat := []
  freeRegs : List Nat := []
  nextReg : Nat := 0
  conns : NMap Conn := []
  qps : NMap Qp := []
  /-- Messages that wait for a connection: peer, class, message (R393, R397). -/
  wait : List (Nat × Bool × QMsg) := []
  /-- Paused priorities per port (R386). -/
  paused : NMap Nat := []
  /-- Released regions whose memory waits for the messages that still place into it or read from it (R382). -/
  released : List (Nat × Region) := []
  deriving DecidableEq, Repr

/-- A lease as the home keeps it (R431, R434). -/
structure HomeLease where
  tr : Nat := 0
  expiry : Nat := 0
  /-- The offer open: its target, and the controller that offers what it holds (R434, R437). -/
  offerTo : Option Nat := none
  offerFrom : Nat := 0
  offerDeadline : Nat := 0
  lastTarget : Nat := 0
  deriving DecidableEq, Repr

/-- A lease as a non-home owner keeps it (R429, R430). -/
structure OwnLease where
  ts : Nat := 0
  expiry : Nat := 0
  renewAt : Nat := 0
  /-- When the RENEWs that have no answer yet were sent, oldest first (R430). -/
  sents : List Nat := []
  fenced : Bool := false
  lifting : Bool := false
  deriving DecidableEq, Repr

/-- A handoff as its source keeps it (R434). -/
structure HandOut where
  target : Nat := 0
  epoch : Nat := 0
  /-- 0 offered, 1 offer acknowledged, 2 proposed, 3 accepted and copying. -/
  phase : Nat := 0
  waiting : Bool := false
  /-- Its context of kind MIGRATE_OUT (R84). -/
  ctx : Nat := 0
  deriving DecidableEq, Repr

/-- A handoff as its target keeps it (R434 to R436). -/
structure HandIn where
  source : Nat := 0
  home : Nat := 0
  epoch : Nat := 0
  slot : Nat := 0
  ctx : Nat := 0
  desc : Bytes := []
  reserved : Bool := false
  /-- ACCEPT has been sent: the copy region, its bytes in all, of the image part, and those that are visible. -/
  accepted : Bool := false
  region : Nat := 0
  want : Nat := 0
  image : Nat := 0
  got : Nat := 0
  /-- Hamper objects reserved for a PARKED or a HISTORY session. -/
  imageHandle : Nat := 0
  histHandle : Nat := 0
  commitAt : Option Nat := none
  firstCommit : Nat := 0
  /-- When the COMMITs that have no answer yet were sent, oldest first (R430). -/
  commits : List Nat := []
  deadline : Nat := 0
  deriving DecidableEq, Repr

/-- A directory entry (R438). -/
structure DirEntry where
  sid : Nat := 0
  ownerEpoch : Nat := 0
  ownerCtrl : Nat := 0
  actingHome : Nat := 0
  buddy : Nat := 0
  tier : Nat := 0
  deriving DecidableEq, Repr

/-- A directory write that waits for both holders (R438). -/
structure DirWrite where
  entry : DirEntry := {}
  del : Bool := false
  waits : List Nat := []
  /-- The commit that waits: target and epoch. -/
  commit : Option (Nat × Nat) := none
  failed : Bool := false
  deriving DecidableEq, Repr

/-- A GROUP record of a composition map (R525), with its members and controllers. -/
structure MapGroup where
  index : Nat := 0
  groupId : Nat := 0
  tk : Nat := 0
  deputy : Nat := 0
  tkEpoch : Nat := 0
  ctrls : List Nat := []
  members : List (Nat × Member) := []
  inBase : Nat := 0
  slotKib : Nat := 8
  slots : Nat := 4096
  tokBase : Nat := 0
  tokEntries : Nat := 32768
  pushBase : Nat := 0
  pushSlot4k : Nat := 10
  lanes : Nat := 64
  laneSlots : Nat := 16
  maskSlots : Nat := 1024
  maskKib : Nat := 16
  samplers : Nat := 1
  /-- Regions of its windows: doorbell, ingest, token, push west, push east (R380). -/
  wins : List Nat := []
  deriving DecidableEq, Repr

/-- A composition map as checked (R441, R442, R525). -/
structure CompMap where
  epoch : Nat := 0
  self : Nat := 0
  image : Bytes := []
  /-- Controllers of the failure domain and racks: controller, domain. -/
  domains : List (Nat × Nat) := []
  buddies : List (Nat × Nat) := []
  shardLog2 : Nat := 0
  /-- Shard, primary, replica. -/
  shards : List (Nat × Nat × Nat) := []
  lost : List Nat := []
  groups : List MapGroup := []
  moves : List (Nat × Nat) := []
  /-- DRAIN_MS when the map was accepted (R69). -/
  drain : Nat := 50
  deriving DecidableEq, Repr

/-- Ownership and composition (chapter 14). -/
structure Own where
  homeLeases : NMap HomeLease := []
  ownLeases : NMap OwnLease := []
  outs : NMap HandOut := []
  ins : NMap HandIn := []
  /-- Forwarding entries: session, target, epoch, expiry (R434). -/
  forwards : List (Nat × Nat × Nat × Nat) := []
  dir : NMap DirEntry := []
  dirWrites : NMap DirWrite := []
  guests : NMap Nat := []
  installed : Option CompMap := none
  /-- Groups for which the installed map is not yet active. -/
  inactive : List Nat := []
  current : Nat := 0
  previous : Option (Nat × Nat) := none
  moves : List (Nat × Nat) := []
  domains : List (Nat × Nat) := []
  buddies : List (Nat × Nat) := []
  shardLog2 : Nat := 0
  shards : List (Nat × Nat × Nat) := []
  lostCtrls : List Nat := []
  /-- Sessions whose directory entry has been asked for because their home is lost, and known acting homes (R439, R440). -/
  asked : List Nat := []
  actHome : NMap Nat := []
  /-- SYNC_ACKs that wait until the home's history is durable: session, owner, HIST_LEN (R428). -/
  syncs : List (Nat × Nat × Nat) := []
  deriving DecidableEq, Repr

end Sys2Proof.Machine
end

