-- ==== Sys2Proof/Machine/TypesCtl.lean ====
section
/-! DEFINITION. The state of search, partitions, security, commands, checkpoints, reset, faults and the module
(chapters 15 to 18, 20 to 22). -/
namespace Sys2Proof.Machine
open Sys2Proof

/-- A node of a search index (R451, R452). -/
structure SNode where
  key : Nat := 0
  tags : Nat := 0
  tomb : Bool := false
  side : Bool := false
  code : Nat := 0
  sq8 : List Int := []
  nbrs : List Nat := []
  deriving DecidableEq, Repr

/-- What a merge took at its start: the side list, the tombstones, and the nodes, which later inserts and deletes do not disturb (R459,
R460). -/
structure SMerge where
  side : List Nat := []
  dead : List Nat := []
  nodes : NMap SNode := []
  deriving DecidableEq, Repr

/-- A search index (R447 to R460). -/
structure SIndex where
  gen : Nat := 1
  partition : Nat := 0
  fn : Nat := 0
  eq : Nat := 0
  bind : Nat := 0
  dim : Nat := 64
  degree : Nat := 8
  ip : Bool := false
  nodesMax : Nat := 1024
  sideMax : Nat := 1024
  sideMerge : Nat := 1
  efBuild : Nat := 16
  centres : List Nat := []
  scales : List Nat := []
  nodes : NMap SNode := []
  side : List Nat := []
  entry : List Nat := []
  /-- The merge under way (R459). -/
  merging : Option SMerge := none
  mergeHseq : Nat := 0
  /-- The side list has reached SIDE_MERGE with AUTO_MERGE set while a merge ran: the next one starts as it ends (R459, R463). -/
  mergeDue : Bool := false
  /-- The SIFT engine that ran the last insert or delete (R455). -/
  engine : Nat := 0
  deriving DecidableEq, Repr

/-- Memory search beside its registers (chapter 15). -/
structure Sift where
  idx : NMap SIndex := []
  /-- Generations of slots whose index was released (R447). -/
  gens : NMap Nat := []
  deriving DecidableEq, Repr

/-- A shaping node (R470). -/
structure SNodeShape where
  valid : Bool := false
  shape : Bool := false
  rate : Nat := 0
  burst : Nat := 1
  level : Int := 0
  /-- Remainder of the last refill, in token nanoseconds, and its time (R472). -/
  frac : Nat := 0
  refilledAt : Nat := 0
  owner : Nat := 0
  budgetOn : Bool := false
  budget : Int := 0
  partMask : Nat := 0
  promptW : Nat := 0
  rebuildW : Nat := 0
  overhead : Nat := 0
  deriving DecidableEq, Repr

/-- The new fields of a SHAPER_SET (R475). -/
structure ShaperSet where
  kind : Nat := 0
  index : Nat := 0
  valid : Bool := false
  shape : Bool := false
  rate : Nat := 0
  burst : Nat := 1
  owner : Nat := 0
  budgetOn : Bool := false
  budget : Int := 0
  partMask : Nat := 0
  promptW : Nat := 0
  rebuildW : Nat := 0
  overhead : Nat := 0
  levelMode : Nat := 0
  budgetOp : Nat := 0
  deriving DecidableEq, Repr

/-- What a session's charges stood at (R471). -/
structure Tally where
  gen : Nat := 0
  pre : Nat := 0
  reb : Nat := 0
  genB : Nat := 0
  preB : Nat := 0
  rebB : Nat := 0
  deriving DecidableEq, Repr

/-- The limits of a partition, as PART_CREATE gives them (R466, R490). -/
structure Limits where
  prioMax : Nat := 0
  slots : Nat := 0
  lend : Bool := false
  borrow : Bool := false
  eq : Nat := 0
  idleExpire : Nat := 0
  engW : Nat := 0
  engE : Nat := 0
  unitsW : Nat := 0
  unitsE : Nat := 0
  sessions : Nat := 0
  contexts : Nat := 0
  batch : Nat := 0
  grammars : Nat := 0
  indexes : Nat := 0
  ptBlocks : Nat := 0
  deriving DecidableEq, Repr

/-- Partitions, shaping and isolation beside their registers (chapter 16). -/
structure Iso where
  nodes : NMap SNodeShape := []
  pendSets : List ShaperSet := []
  pendLimits : NMap Limits := []
  tallies : NMap Tally := []
  /-- TIM_MONO of the last command accepted from each partition's function (R468). -/
  lastCmd : NMap Nat := []
  destroying : List Nat := []
  /-- HBM that destroyed partitions held and that is still to be zeroed: partition, offset, bytes (R509). -/
  scrubs : List (Nat × Nat × Nat) := []
  /-- Mode and frame exponent that the arbiters take at the next frame boundary (R477). -/
  pendArb : Option (Bool × Nat) := none
  arbStrict : Bool := false
  arbExp : Nat := 20
  /-- Owner of each of the 64 slots of a frame, and of each slot as lent in this frame (R478, R483). -/
  slotOwner : List Nat := List.replicate 64 0
  /-- Tenants' engines as STRICT has dealt them, and the numbers that they were dealt for: tenant, ENG_W, ENG_E (R480). -/
  dealt : NMap Nat := []
  dealtFor : Option (List (Nat × Nat × Nat)) := none
  /-- Server of each slot of the frame under way, per resource instance, and the borrower last served there (R483). -/
  slotLent : NMap (List Nat) := []
  lastBorrower : NMap Nat := []
  /-- Groups that have passed a boundary since the switch (R477). -/
  passed : List Nat := []
  charged : Nat := 0
  throttle : Bool := false
  nextShed : Nat := 0
  /-- HAMPER_GC has been announced and not ended (R479). -/
  gcLoud : Bool := false
  deriving DecidableEq, Repr

/-- A staged package (R503). -/
structure Staged where
  handle : Nat := 0
  body : Bytes := []
  keyGen : Nat := 0
  deadline : Nat := 0
  deriving DecidableEq, Repr

/-- Security beside its registers (chapter 17). -/
structure Sec where
  authority : Option Bytes := none
  setKey : Option Bytes := none
  prevKey : Option Bytes := none
  staged : List Staged := []
  nextHandle : Nat := 1
  scrub : Option Nat := none
  /-- Profile slots loaded from a wrapped package, with the key generation (R497). -/
  wrapped : NMap Nat := []
  /-- Responses of SPDM kept for CHUNK_GET (R494). -/
  spdmLarge : Bytes := []
  deriving DecidableEq, Repr

/-- A completion record (R95). -/
structure Completion where
  sid : Nat := 0
  hseq : Nat := 0
  status : Nat := 0
  cause : Nat := 0
  final : Bool := false
  stopMatch : Bool := false
  nonconform : Bool := false
  overridden : Bool := false
  turnId : Nat := 0
  rollbacks : Nat := 0
  voided : Nat := 0
  genTokens : Nat := 0
  promptTokens : Nat := 0
  firstRow : Nat := 0
  row : Nat := 0
  textBytes : Nat := 0
  dropped : Nat := 0
  cutOffset : Nat := 0
  charge : Nat := 0
  deriving DecidableEq, Repr

/-- An event (R532, R536). -/
structure Event where
  typ : Nat := 0
  subject : Nat := 0
  status : Nat := 0
  cause : Nat := 0
  hseq : Nat := 0
  args : List Nat := []
  comp : Option Completion := none
  time : Nat := 0
  deriving DecidableEq, Repr

/-- A reply entry (R521). -/
structure Reply where
  hseq : Nat := 0
  dseq : Nat := 0
  status : Status := .ok
  opcode : Nat := 0
  phase : Bool := false
  replay : Bool := false
  bypass : Bool := false
  small : Nat := 0
  result : Bytes := []
  deriving DecidableEq, Repr

/-- Interrupt moderation of a ring or queue: armed since `since` with the MOD_COUNT and MOD_US of that moment, the times at which
the entries at or beyond HEAD were written, and the time at which MOD_US passes (R537). -/
structure Arm where
  armed : Bool := false
  since : Nat := 0
  count : Nat := 0
  us : Nat := 0
  stamps : List Nat := []
  due : Option Nat := none
  deriving DecidableEq, Repr

/-- A command ring beside its registers (R515, R526 to R528, R537). -/
structure Ring where
  /-- Reply entries written since the ring was enabled (R515). -/
  replies : Nat := 0
  log : List Reply := []
  /-- Replies that wait for room in the reply ring (R516). -/
  waiting : List Reply := []
  /-- HSEQ and opcode of the command being executed whose reply is not yet decided (R518), and whether that HSEQ is
  logged (false for a bypass). -/
  busy : Option (Nat × Nat × Bool) := none
  /-- A replay of that reply was asked for before it was decided (R526). -/
  again : Bool := false
  /-- The reply of the command being executed is logged and not written: its ring was reset or disabled (R538, R542). -/
  muted : Bool := false
  /-- DMA writes to the reply ring fail (R513). -/
  noWrite : Bool := false
  arm : Arm := {}
  deriving DecidableEq, Repr

/-- An event queue beside its registers (R529, R534, R537). -/
structure EvQueue where
  written : Nat := 0
  /-- DMA writes to the queue fail (R513). -/
  noWrite : Bool := false
  arm : Arm := {}
  firstLost : Nat := 0
  lostNow : Nat := 0
  deriving DecidableEq, Repr

/-- An event held in a function's backlog: its queue, its number if it has one (R534). -/
structure Held where
  queue : Option Nat := none
  eseq : Option Nat := none
  ev : Event := {}
  deriving DecidableEq, Repr

/-- Commands beside their registers (chapter 18). -/
structure Cmd where
  rings : NMap Ring := []
  queues : NMap EvQueue := []
  backlog : NMap (List Held) := []
  /-- Events lost unnumbered, per function (R529). -/
  lostUnnumbered : NMap Nat := []
  /-- MSI-X vectors that are not masked, and masked vectors whose pending bit is set: function, vector (R537). -/
  unmasked : List (Nat × Nat) := []
  pendingVec : List (Nat × Nat) := []
  deriving DecidableEq, Repr


/-- A fault record (R591). -/
structure FaultRec where
  index : Nat := 0
  cls : Nat := 0
  action : Nat := 0
  kind : Nat := 0
  unit : Nat := 0
  time : Nat := 0
  corr : Nat := 0
  trans : Nat := 0
  attempts : Nat := 0
  loc : Nat := 0
  session : Nat := 0
  affected : Nat := 0
  row : Nat := 0
  status : Nat := 0
  block : Nat := 0xFFFF
  deriving DecidableEq, Repr

/-- A bucket of an hour of a unit's counters (R581). -/
structure Bucket where
  corr : Nat := 0
  trans : Nat := 0
  deriving DecidableEq, Repr

/-- Faults beside their registers (chapter 20). -/
structure Flt where
  /-- The records in control-core memory, oldest first, at most 4,096 (R592). -/
  records : List FaultRec := []
  /-- The log in the boot store, oldest first, at most 256 (R592). -/
  bootLog : List FaultRec := []
  /-- Hourly buckets of each unit, newest first, under kind * 2^16 + index (R581). -/
  buckets : NMap (List Bucket) := []
  /-- Units whose half-threshold warning stands in the window (R581). -/
  warned : List Nat := []
  /-- Units retired, recorded in the boot store (R589). -/
  retired : List Nat := []
  /-- Retirements that fall due inside a block under reset (R578). -/
  pendRetire : List Nat := []
  /-- Twice the consecutive rows voided by unit faults, plus 1 where the row in progress is one, per session slot (R585). -/
  voidRuns : NMap Nat := []
  /-- Slots quarantined, and those of them whose mirror the buddy has been asked for (R587). -/
  quarantined : List Nat := []
  asked : List Nat := []
  /-- TIM_MONO at the last end of an hourly bucket (R581). -/
  hourAt : Nat := 0
  /-- Slots whose generation has reached its last value, which SESSION_OPEN skips until the next device reset (R72). -/
  spent : List Nat := []
  /-- Fabric lanes down after an uncured fault and not retired, as bits (R584). -/
  lanesDown : Nat := 0
  deriving DecidableEq, Repr

/-- A block reset that waits: its row, command and deadline (R576). -/
structure BlkReset where
  row : Nat := 0
  fn : Nat := 0
  ring : Nat := 0
  /-- Groups whose row boundary under way must end first. -/
  groups : List Nat := []
  deadline : Nat := 0
  deriving DecidableEq, Repr

/-- The firmware images of the boot store: security versions and checks of slots A and B (R571, R572, R573). -/
structure BootImage where
  svn1 : Nat := 0
  svn2 : Nat := 0
  sig1 : Bool := true
  sig2 : Bool := true
  deriving DecidableEq, Repr

/-- Reset and start-up beside their registers (chapter 20). -/
structure Rst where
  blocks : List BlkReset := []
  /-- Blocks stopping: key of the enable field (R13). -/
  stopping : List Nat := []
  /-- Start-up bounds in force: 0 COLD quick, 1 COLD full, 2 WARM; TIM_MONO at the end of the reset (R571). -/
  startKind : Nat := 0
  startAt : Nat := 0
  /-- The last stop was unclean (R375). -/
  unclean : Bool := false
  /-- DEVICE_RESET KIND TEST asked for phase TEST (R572). -/
  wantTest : Bool := false
  /-- Option bytes: copies A and B of the boot store, and the bytes in effect (R573). -/
  optA : Bytes := []
  optB : Bytes := []
  images : NMap BootImage := []
  fellBack : Bool := false
  /-- The controller is in reset, without power, or in the power-loss flush: nothing of it runs (R373, R606, R610). -/
  held : Bool := false
  pinHeld : Bool := false
  deriving DecidableEq, Repr

/-- The module's power, sensors and supervisor (chapter 22). -/
structure Pwr where
  /-- 0 OFF, 1 CHARGING, 2 ON, 3 FLUSH, 4 HOLD (R606). -/
  pstate : Nat := 2
  /-- 0 GOOD, 1 LOW, 2 FAILED (R605). -/
  bank : Nat := 0
  bankUf : Nat := 75000
  bankMv : Nat := 54000
  vinMv : Nat := 50000
  iin : Nat := 0
  pAvg : Nat := 0
  pPeak : Nat := 0
  /-- Readings by sensor index, and consecutive samples at or above the trip point (R615). -/
  temps : NMap Nat := []
  overs : NMap Nat := []
  tjMaxEver : Nat := 0
  throttleMs : Nat := 0
  clamps : Nat := 0
  clamped : Bool := false
  pfPfw : Nat := 0
  pfRail : Nat := 0
  trips : Nat := 0
  /-- Milliseconds in ON. -/
  onMs : Nat := 0
  clkLowMs : Nat := 0
  /-- The clock of the throttle loop of R613; CLK_STATUS shows the lower of it and the clamp's. -/
  loopMhz : Nat := 1800
  clampMhz : Nat := 1800
  railTries : Nat := 0
  railFailed : Bool := false
  flushMs : Nat := 0
  /-- The input has been restored in FLUSH (R609), and the charger runs (R607, R608). -/
  restored : Bool := false
  charging : Bool := false
  /-- A thermal trip that still forbids a restart: its sensor (R615). -/
  tripped : Option Nat := none
  deriving DecidableEq, Repr

/-- Time synchronisation beside its registers (R62 to R65, R620). -/
structure Sync where
  /-- TIM_MONO of the last valid PTP message, its sync interval in ns, and messages in a row within the lock limit. -/
  lastPtp : Nat := 0
  interval : Nat := 0
  good : Nat := 0
  holdSince : Nat := 0
  ppsAt : Option Nat := none
  /-- A pulse has come since PPS_EN was set: the input is in use (R69). -/
  ppsUsed : Bool := false
  deriving DecidableEq, Repr

/-- One shard as a SHARD_DONE or a manifest entry names it (R557). -/
structure ShardInfo where
  ctrl : Nat := 0
  die : Nat := 0
  buddy : Nat := 0
  row : Nat := 0
  size : Nat := 0
  sessions : Nat := 0
  digest : Bytes := []
  deriving DecidableEq, Repr

/-- A session as a cut captured it: marks, flags, descriptor, context, grammar part and pages (R551, R553, R556). -/
structure Capture where
  sid : Nat := 0
  cCut : Nat := 0
  hCut : Nat := 0
  hot : Bool := false
  desc : Bytes := []
  ctx : Option Bytes := none
  grammar : Option Bytes := none
  sess : Session := {}
  context : Option Ctx := none
  area : Option GArea := none
  hist : List Nat := []
  /-- Pages still to be captured and pages captured, under layer * 65,536 + page. -/
  todo : List Nat := []
  pages : NMap Bytes := []
  histDone : Bool := false
  index : Option (Nat × SIndex) := none
  /-- The index is still to be captured (R554). -/
  indexTodo : Bool := false
  /-- Bytes of the stop-string matcher (R296). -/
  tail : Bytes := []
  deriving DecidableEq, Repr

/-- A shard of a generation as its controller holds it: one half's object (R546, R556). -/
structure Shard where
  manifest : Nat := 0
  row : Nat := 0
  ctrl : Nat := 0
  die : Nat := 0
  handle : Nat := 0
  damaged : Bool := false
  caps : List Capture := []
  info : ShardInfo := {}
  durable : Bool := false
  /-- A mirror is wanted, has been opened, and has been sealed (R558). -/
  wantMirror : Bool := false
  opened : Bool := false
  mirrored : Bool := false
  deriving DecidableEq, Repr

/-- A valid generation: manifest id, cut row, wall time and mono time of the cut, flags and shard entries (R557). -/
structure Manifest where
  id : Nat := 0
  row : Nat := 0
  time : Nat := 0
  mono : Nat := 0
  mapEpoch : Nat := 0
  tkEpoch : Nat := 0
  flags : Nat := 0
  shards : List ShardInfo := []
  digestOk : Bool := true
  /-- The object that holds it at the timekeeper; 0 for none (R546). -/
  handle : Nat := 0
  deriving DecidableEq, Repr

/-- A generation in progress at a controller of the group (R549 to R555). -/
structure CkpProg where
  manifest : Nat := 0
  cutRow : Nat := 0
  mx4 : Bool := false
  indexes : Bool := false
  mirror : Bool := false
  /-- Owner of the CKPT_DONE event: function, EQ and HSEQ of the CKPT_BEGIN, or none (R559). -/
  fn : Nat := 0
  eq : Nat := 0xFFFF
  hseq : Nat := 0
  /-- At the timekeeper: PREPARED answers, barrier deadline, write deadline, SHARD_DONE reports. -/
  timekeeper : Bool := false
  /-- This controller posts CKPT_DONE: it took the CKPT_BEGIN, or the trigger (R559). -/
  origin : Bool := false
  prepared : List Nat := []
  barrier : Option Nat := none
  cutTaken : Bool := false
  cutWall : Nat := 0
  cutMono : Nat := 0
  writeBy : Option Nat := none
  dones : NMap (List ShardInfo) := []
  manifestWritten : Bool := false
  manifestHandle : Nat := 0
  manifestOpened : Bool := false
  manifestMirrored : Bool := false
  /-- The manifest under way (R557). -/
  pending : Option Manifest := none
  sentDone : Bool := false
  deriving DecidableEq, Repr

/-- The mirror of a shard or of a manifest held for another controller (R546, R558). -/
structure CkpMirror where
  manifest : Nat := 0
  sender : Nat := 0
  die : Nat := 0
  isManifest : Bool := false
  handle : Nat := 0
  length : Nat := 0
  data : Bytes := []
  sealed : Bool := false
  acked : Bool := false
  deriving DecidableEq, Repr

/-- Checkpoints beside their registers (chapter 19). -/
structure Ckp where
  prog : NMap CkpProg := []
  /-- Valid generations of each group index, newest first, at most three (R545). -/
  valid : NMap (List Manifest) := []
  /-- Generation number last used by each group (R545, R552). -/
  lastGen : NMap Nat := []
  shards : List Shard := []
  mirrors : List CkpMirror := []
  /-- A CKPT_BEGIN forwarded and not answered, under the group index: function, ring, EQ, HSEQ (R548). -/
  fwd : NMap (Nat × Nat × Nat × Nat) := []
  /-- BEGIN_FWD senders at the timekeeper are answered at once; the last cut per group, TIM_MONO (R547). -/
  lastCut : NMap Nat := []
  /-- Groups whose next beacon carries RESYNC after a restore (R563). -/
  restored : List Nat := []
  deriving DecidableEq, Repr

end Sys2Proof.Machine
end

