-- ==== Sys2Proof/Machine/Dev.lean ====
section
/-! DEFINITION. The block's registers, tables and outputs as one structure; every field at its value after reset. -/
namespace Sys2Proof.Machine
open Sys2Proof

/-- The headers of a frame below its transport: port, destination MAC, VLAN (0 for none), source and destination IP address, traffic
class with its ECN bits (2 is ECT(0)), UDP source and destination port, and the bytes that end it: the GCM tag of a QHT packet, the
P_Key of a RoCEv2 packet (R386 to R388, R391, R417). -/
structure Wire where
  port : Nat := 0
  mac : Nat := 0
  vlan : Nat := 0
  src : Nat := 0
  dst : Nat := 0
  /-- The frame runs over IPv4 (R387). -/
  v4 : Bool := false
  tclass : Nat := 0
  sport : Nat := 0
  dport : Nat := 0
  pkey : Nat := 0
  tag : Bytes := []
  deriving DecidableEq, Repr

/-- What the block sends out. A field of the state holds these in order of sending. -/
inductive Out where
  /-- A reply entry written to a reply ring: function, ring, slot (R516, R521). -/
  | reply (fn ring slot : Nat) (r : Reply)
  /-- An event entry written to an event queue: function, queue, slot, ESEQ, PHASE, BACKLOGGED (R531, R532). -/
  | event (fn q slot eseq : Nat) (phase backlogged : Bool) (e : Event)
  /-- An MSI-X message (R537). -/
  | msix (fn vec : Nat)
  /-- A DMA write of a command's data to host memory (R513). -/
  | host (fn addr : Nat) (data : Bytes)
  /-- A SEND submitted to a service of another controller, header and body (R405). -/
  | send (dst service : Nat) (bulk : Bool) (data : Bytes)
  /-- A resolution of a received message: source controller, service, status, RETRY_US (R403). -/
  | resolve (src service : Nat) (st : Status) (retryUs : Nat)
  /-- An RDMA WRITE to a member accelerator: queue pair, headers, key, address, immediate data (R51, R256, R262, R309). -/
  | rdma (qp : Nat) (w : Wire) (rkey addr : Nat) (imm : Option Nat) (data : Bytes)
  /-- An output tile by RDMA WRITE with immediate: queue pair, headers, key and address of the reply slot, immediate (R154, R156). -/
  | tile (qp : Nat) (w : Wire) (rkey addr imm : Nat) (t : OTile)
  /-- A QHT packet: peer, class, path, headers, the 64-byte QHT header, the payload in the clear, and as it leaves (R388 to R410). -/
  | qht (peer : Nat) (bulk : Bool) (path : Nat) (w : Wire) (hdr data cipher : Bytes)
  /-- A RoCEv2 packet: queue pair, headers, kind, PSN and further fields, payload (R417 to R421). -/
  | roce (qp : Nat) (w : Wire) (kind : Nat) (args : List Nat) (data : Bytes)
  /-- A message that this controller submitted is complete: peer, class, TYPE, service or region, MSN, status (R398, R404, R406). -/
  | done (peer : Nat) (bulk : Bool) (typ what : Nat) (msn : Option Nat) (st : Nat)
  /-- A SEND that has become visible is delivered to its service: source, class, service, body (R405). -/
  | deliver (src : Nat) (bulk : Bool) (service : Nat) (body : Bytes)
  /-- The region of a WARM holding, reported to the controller that asked for it: region, generation, hall address, key (R380). -/
  | holding (ctrl sid region gen addr key : Nat)
  /-- The home's decision on a split session to the controller of a range: 0 park to IMAGE, 1 to HISTORY, 2 to WARM, 3 revive, 4 the
  park is abandoned, 5 the row is void; the spec gives no layout (R164, R333). -/
  | range (ctrl sid decision : Nat)
  /-- A request to a holder for a WARM holding of a session, or the release of one; the spec gives no layout (R337). -/
  | warm (holder sid : Nat) (release : Bool) (length : Nat)
  /-- A QHT remote read of a WARM session's pages from their holder: peer, session, bytes (R337, R339). -/
  | fetch (peer sid length : Nat)
  /-- A NAND operation: half, kind (0 read, 1 program, 2 erase), lun, block, page (R360 to R367). -/
  | nand (half kind lun block page : Nat)
  /-- A response on SPDM, PLDM or a neighbour protocol. -/
  | mgmt (proto : Nat) (data : Bytes)
  deriving DecidableEq, Repr

/-- Everything but the HBM bytes and the queue of waiting commands. -/
structure Dev where
  /-- Register fields that differ from their reset value, under the key of the field (R596 to R601). -/
  regs : NMap Nat := []
  /-- Pending S values, oldest first: key and value (R14, R15). -/
  pendS : List (Nat × Nat) := []
  ses : SessTab := {}
  groups : NMap Group := []
  pgs : Pages := {}
  att : Att := {}
  tok : Tok := {}
  prk : Prk := {}
  halves : NMap Half := []
  hall : Hall := {}
  own : Own := {}
  sft : Sift := {}
  iso : Iso := {}
  sec : Sec := {}
  cmd : Cmd := {}
  ckp : Ckp := {}
  flt : Flt := {}
  rst : Rst := {}
  pwr : Pwr := {}
  sync : Sync := {}
  out : List Out := []
  /-- Frames that wait for the end of a pause: port, priority, frame (R386). -/
  stopped : List (Nat × Nat × Out) := []
  /-- The model's own counter of free values drawn. -/
  free : Nat := 0
  /-- HBM writes of the step under way: local offset and bytes; empty between steps. -/
  wr : List (Nat × Bytes) := []
  deriving DecidableEq, Repr

end Sys2Proof.Machine
end

