-- ==== Sys2Proof/Machine/RegTable.lean ====
section
/-! DEFINITION. The register fields of every window, from the field tables of the owning chapters and the index of
R597 and R601: offset of instance 0, stride, instances, bits, class, value at reset, range of a configuration field. -/
namespace Sys2Proof.Machine

/-- Field classes (R12). -/
inductive Cls where
  | k | l | s | c
  deriving DecidableEq, Repr

/-- Grants of a virtual function's window (R597). -/
inductive Grant where
  | none | view | group | owned | fn | fnWrite | ownWrite
  deriving DecidableEq, Repr

/-- No upper bound below the field width. -/
abbrev noMax : Nat := 2 ^ 64 - 1

/-- A register field: offset of instance 0, stride, instances, low bit, width, class, reset, grant, held per
function, least and greatest value and step. -/
structure Fld where
  /-- Offset of the register's instance 0 in the window (R601). -/
  addr : Nat := 0
  stride : Nat := 0
  count : Nat := 1
  lo : Nat := 0
  w : Nat := 1
  cls : Cls := .c
  reset : Nat := 0
  grant : Grant := .none
  /-- Held once per function (R484, R541 to R543, R598). -/
  perFn : Bool := false
  /-- Range and step of a configuration value (R18). -/
  rmin : Nat := 0
  rmax : Nat := 2 ^ 64 - 1
  rstep : Nat := 1
  deriving DecidableEq, Repr

/-- Offset of an instance of the field's register (R601). -/
def Fld.off (f : Fld) (i : Nat) : Nat := f.addr + f.stride * i

/-- Key of a field's value for an instance and a function. -/
def Fld.key (f : Fld) (fn i : Nat) : Nat :=
  ((if f.perFn then fn else 0) * 2 ^ 26 + f.off i) * 64 + f.lo


/-- TIM_CTL.EN (R69). -/
def F.TIM_CTL_EN : Fld :=
  ⟨0x200000, 0x0, 1, 0, 1, .k, 0, .none, false, 0, noMax, 1⟩

/-- TIM_CTL.PPS_EN (R69). -/
def F.TIM_CTL_PPS_EN : Fld :=
  ⟨0x200000, 0x0, 1, 1, 1, .l, 0, .none, false, 0, noMax, 1⟩

/-- TIM_CTL.PTP_DOMAIN (R69). -/
def F.TIM_CTL_PTP_DOMAIN : Fld :=
  ⟨0x200000, 0x0, 1, 8, 8, .k, 0, .none, false, 0, noMax, 1⟩

/-- TIM_CTL.PTP_PORTS (R69). -/
def F.TIM_CTL_PTP_PORTS : Fld :=
  ⟨0x200000, 0x0, 1, 16, 16, .k, 1, .none, false, 0, noMax, 1⟩

/-- TIM_STATUS.SYNC (R69). -/
def F.TIM_STATUS_SYNC : Fld :=
  ⟨0x200008, 0x0, 1, 0, 2, .c, 0, .view, false, 0, noMax, 1⟩

/-- TIM_STATUS.PPS_OK (R69). -/
def F.TIM_STATUS_PPS_OK : Fld :=
  ⟨0x200008, 0x0, 1, 2, 1, .c, 0, .view, false, 0, noMax, 1⟩

/-- TIM_STATUS.OFFSET_NS (R69). -/
def F.TIM_STATUS_OFFSET_NS : Fld :=
  ⟨0x200008, 0x0, 1, 32, 32, .c, 0, .view, false, 0, noMax, 1⟩

/-- TIM_WALL.NS (R69). -/
def F.TIM_WALL_NS : Fld :=
  ⟨0x200010, 0x0, 1, 0, 64, .c, 0, .view, false, 0, noMax, 1⟩

/-- TIM_MONO.NS (R69). -/
def F.TIM_MONO_NS : Fld :=
  ⟨0x200018, 0x0, 1, 0, 64, .c, 0, .view, false, 0, noMax, 1⟩

/-- TIM_WDOG.STALL_EXP (R69). -/
def F.TIM_WDOG_STALL_EXP : Fld :=
  ⟨0x200020, 0x0, 1, 0, 5, .s, 20, .none, false, 12, 28, 1⟩

/-- TIM_DPATH.STAKE_US (R69). -/
def F.TIM_DPATH_STAKE_US : Fld :=
  ⟨0x200028, 0x0, 1, 0, 20, .s, 5000, .none, false, 100, 1000000, 1⟩

/-- TIM_DPATH.ROW_MS (R69). -/
def F.TIM_DPATH_ROW_MS : Fld :=
  ⟨0x200028, 0x0, 1, 20, 14, .s, 500, .none, false, 10, 10000, 1⟩

/-- TIM_DPATH.BEACON_MS (R69). -/
def F.TIM_DPATH_BEACON_MS : Fld :=
  ⟨0x200028, 0x0, 1, 34, 10, .s, 50, .none, false, 1, 1000, 1⟩

/-- TIM_SESS.IDLE_PARK_MS (R69). -/
def F.TIM_SESS_IDLE_PARK_MS : Fld :=
  ⟨0x200030, 0x0, 1, 0, 32, .l, 2000, .none, false, 10, 3600000, 1⟩

/-- TIM_LEASE.RENEW_MS (R69). -/
def F.TIM_LEASE_RENEW_MS : Fld :=
  ⟨0x200038, 0x0, 1, 0, 16, .l, 250, .none, false, 10, 10000, 1⟩

/-- TIM_LEASE.EXPIRY_MS (R69). -/
def F.TIM_LEASE_EXPIRY_MS : Fld :=
  ⟨0x200038, 0x0, 1, 16, 16, .l, 1000, .none, false, 30, 60000, 1⟩

/-- TIM_LEASE.DRAIN_MS (R69). -/
def F.TIM_LEASE_DRAIN_MS : Fld :=
  ⟨0x200038, 0x0, 1, 32, 16, .l, 50, .none, false, 1, 1000, 1⟩

/-- TIM_FAB.RTO_US (R69). -/
def F.TIM_FAB_RTO_US : Fld :=
  ⟨0x200040, 0x0, 1, 0, 14, .l, 20, .none, false, 2, 10000, 1⟩

/-- TIM_FAB.RETRIES (R69). -/
def F.TIM_FAB_RETRIES : Fld :=
  ⟨0x200040, 0x0, 1, 14, 4, .l, 3, .none, false, 1, 15, 1⟩

/-- TIM_FAB.PAGE_STALL_US (R69). -/
def F.TIM_FAB_PAGE_STALL_US : Fld :=
  ⟨0x200040, 0x0, 1, 18, 14, .l, 200, .none, false, 10, 10000, 1⟩

/-- TIM_MAINT.BLK_IDLE_MS (R69). -/
def F.TIM_MAINT_BLK_IDLE_MS : Fld :=
  ⟨0x200048, 0x0, 1, 0, 10, .k, 10, .none, false, 1, 1000, 1⟩

/-- TIM_MAINT.CKPT_MS (R69). -/
def F.TIM_MAINT_CKPT_MS : Fld :=
  ⟨0x200048, 0x0, 1, 10, 16, .s, 5000, .none, false, 100, 60000, 1⟩

/-- TIM_MAINT.RETAIN_H (R69). -/
def F.TIM_MAINT_RETAIN_H : Fld :=
  ⟨0x200048, 0x0, 1, 26, 8, .l, 24, .none, false, 1, 168, 1⟩

/-- TIM_HOLD.LIMIT_S (R69). -/
def F.TIM_HOLD_LIMIT_S : Fld :=
  ⟨0x200050, 0x0, 1, 0, 17, .l, 300, .none, false, 1, 86400, 1⟩

/-- TIM_GRP_CFG.GROUP_ID (R70). -/
def F.TIM_GRP_CFG_GROUP_ID : Fld :=
  ⟨0x201000, 0x40, 64, 0, 32, .c, 0, .none, false, 0, noMax, 1⟩

/-- TIM_GRP_CFG.TK_CTRL (R70). -/
def F.TIM_GRP_CFG_TK_CTRL : Fld :=
  ⟨0x201000, 0x40, 64, 32, 16, .c, 0, .none, false, 0, noMax, 1⟩

/-- TIM_GRP_CFG.DEPUTY (R70). -/
def F.TIM_GRP_CFG_DEPUTY : Fld :=
  ⟨0x201000, 0x40, 64, 48, 16, .c, 0, .none, false, 0, noMax, 1⟩

/-- TIM_GRP_SHAPE.MEMBERS (R70). -/
def F.TIM_GRP_SHAPE_MEMBERS : Fld :=
  ⟨0x201008, 0x40, 64, 0, 9, .c, 0, .none, false, 1, 256, 1⟩

/-- TIM_GRP_SHAPE.STAKES (R70). -/
def F.TIM_GRP_SHAPE_STAKES : Fld :=
  ⟨0x201008, 0x40, 64, 9, 9, .c, 0, .none, false, 1, 256, 1⟩

/-- TIM_GRP_SHAPE.CTRLS (R70). -/
def F.TIM_GRP_SHAPE_CTRLS : Fld :=
  ⟨0x201008, 0x40, 64, 18, 7, .c, 0, .none, false, 1, 64, 1⟩

/-- TIM_GRP_SHAPE.TK_EPOCH (R70). -/
def F.TIM_GRP_SHAPE_TK_EPOCH : Fld :=
  ⟨0x201008, 0x40, 64, 32, 32, .c, 0, .none, false, 0, noMax, 1⟩

/-- TIM_ROW.ROW (R70). -/
def F.TIM_ROW_ROW : Fld :=
  ⟨0x201010, 0x40, 64, 0, 48, .c, 0, .group, false, 0, noMax, 1⟩

/-- TIM_ROW.PHASE (R70). -/
def F.TIM_ROW_PHASE : Fld :=
  ⟨0x201010, 0x40, 64, 48, 3, .c, 0, .group, false, 0, noMax, 1⟩

/-- TIM_ROW.VOIDS (R70). -/
def F.TIM_ROW_VOIDS : Fld :=
  ⟨0x201010, 0x40, 64, 51, 2, .c, 0, .group, false, 0, noMax, 1⟩

/-- TIM_STAKE.CLOSED (R70). -/
def F.TIM_STAKE_CLOSED : Fld :=
  ⟨0x201018, 0x40, 64, 0, 8, .c, 0, .group, false, 0, noMax, 1⟩

/-- TIM_STAKE.ANY_CLOSED (R70). -/
def F.TIM_STAKE_ANY_CLOSED : Fld :=
  ⟨0x201018, 0x40, 64, 8, 1, .c, 0, .group, false, 0, noMax, 1⟩

/-- TIM_STAKE.LAGGING (R70). -/
def F.TIM_STAKE_LAGGING : Fld :=
  ⟨0x201018, 0x40, 64, 16, 9, .c, 0, .group, false, 0, noMax, 1⟩

/-- TIM_GRP_CNT.STALE_DB (R70). -/
def F.TIM_GRP_CNT_STALE_DB : Fld :=
  ⟨0x201020, 0x40, 64, 0, 16, .c, 0, .none, false, 0, noMax, 1⟩

/-- TIM_GRP_CNT.BAD_DB (R70). -/
def F.TIM_GRP_CNT_BAD_DB : Fld :=
  ⟨0x201020, 0x40, 64, 16, 16, .c, 0, .none, false, 0, noMax, 1⟩

/-- TIM_GRP_CNT.STAKE_TO (R70). -/
def F.TIM_GRP_CNT_STAKE_TO : Fld :=
  ⟨0x201020, 0x40, 64, 32, 16, .c, 0, .none, false, 0, noMax, 1⟩

/-- TIM_GRP_CNT.VOIDED (R70). -/
def F.TIM_GRP_CNT_VOIDED : Fld :=
  ⟨0x201020, 0x40, 64, 48, 16, .c, 0, .none, false, 0, noMax, 1⟩

/-- TIM_GRP_CTL.RESTART (R70). -/
def F.TIM_GRP_CTL_RESTART : Fld :=
  ⟨0x201028, 0x40, 64, 0, 1, .l, 0, .none, false, 0, noMax, 1⟩

/-- PGS_CTL.EN (R140). -/
def F.PGS_CTL_EN : Fld :=
  ⟨0x800000, 0x0, 1, 0, 1, .k, 0, .none, false, 0, noMax, 1⟩

/-- PGS_CTL.TRACK_EN (R140). -/
def F.PGS_CTL_TRACK_EN : Fld :=
  ⟨0x800000, 0x0, 1, 1, 1, .l, 1, .none, false, 0, noMax, 1⟩

/-- PGS_STATUS.IDLE (R140). -/
def F.PGS_STATUS_IDLE : Fld :=
  ⟨0x800008, 0x0, 1, 0, 1, .c, 1, .none, false, 0, noMax, 1⟩

/-- PGS_BRIM.PAGES (R140). -/
def F.PGS_BRIM_PAGES : Fld :=
  ⟨0x800010, 0x0, 1, 0, 32, .s, 262144, .none, false, 0, noMax, 1⟩

/-- PGS_ADMIT.EVICT_PRIO (R140). -/
def F.PGS_ADMIT_EVICT_PRIO : Fld :=
  ⟨0x800018, 0x0, 1, 0, 3, .s, 1, .none, false, 0, 6, 1⟩

/-- PGS_ADMIT.EVICT_MAX (R140). -/
def F.PGS_ADMIT_EVICT_MAX : Fld :=
  ⟨0x800018, 0x0, 1, 3, 8, .s, 64, .none, false, 0, 255, 1⟩

/-- PGS_ADMIT.BORROW (R140). -/
def F.PGS_ADMIT_BORROW : Fld :=
  ⟨0x800018, 0x0, 1, 11, 1, .s, 1, .none, false, 0, noMax, 1⟩

/-- PGS_TRACK.HOT_THRESH (R140). -/
def F.PGS_TRACK_HOT_THRESH : Fld :=
  ⟨0x800020, 0x0, 1, 0, 8, .l, 32, .none, false, 1, 255, 1⟩

/-- PGS_TRACK.DECAY_EXP (R140). -/
def F.PGS_TRACK_DECAY_EXP : Fld :=
  ⟨0x800020, 0x0, 1, 8, 4, .l, 6, .none, false, 0, noMax, 1⟩

/-- PGS_TRACK.MOVES_MAX (R140). -/
def F.PGS_TRACK_MOVES_MAX : Fld :=
  ⟨0x800020, 0x0, 1, 12, 16, .s, 256, .none, false, 0, noMax, 1⟩

/-- PGS_TRACK.LOW_WATER (R140). -/
def F.PGS_TRACK_LOW_WATER : Fld :=
  ⟨0x800020, 0x0, 1, 28, 32, .s, 524288, .none, false, 0, noMax, 1⟩

/-- PGS_CNT.DEFER (R140). -/
def F.PGS_CNT_DEFER : Fld :=
  ⟨0x800028, 0x0, 1, 0, 16, .c, 0, .none, false, 0, noMax, 1⟩

/-- PGS_CNT.HELD (R140). -/
def F.PGS_CNT_HELD : Fld :=
  ⟨0x800028, 0x0, 1, 16, 16, .c, 0, .none, false, 0, noMax, 1⟩

/-- PGS_CNT.COW (R140). -/
def F.PGS_CNT_COW : Fld :=
  ⟨0x800028, 0x0, 1, 32, 16, .c, 0, .none, false, 0, noMax, 1⟩

/-- PGS_CNT.MOVES (R140). -/
def F.PGS_CNT_MOVES : Fld :=
  ⟨0x800028, 0x0, 1, 48, 16, .c, 0, .none, false, 0, noMax, 1⟩

/-- PGS_REGION.BINS (R141). -/
def F.PGS_REGION_BINS : Fld :=
  ⟨0x800100, 0x40, 2, 0, 19, .k, 0, .none, false, 0, 22888, 1⟩

/-- PGS_REGION.BASE (R141). -/
def F.PGS_REGION_BASE : Fld :=
  ⟨0x800100, 0x40, 2, 24, 19, .k, 0, .none, false, 0, noMax, 1⟩

/-- PGS_PTPOOL.BLOCKS (R141). -/
def F.PGS_PTPOOL_BLOCKS : Fld :=
  ⟨0x800108, 0x40, 2, 0, 24, .k, 1048576, .none, false, 0, noMax, 1⟩

/-- PGS_FREE.EMPTY_BINS (R141). -/
def F.PGS_FREE_EMPTY_BINS : Fld :=
  ⟨0x800110, 0x40, 2, 0, 19, .c, 0, .view, false, 0, noMax, 1⟩

/-- PGS_FREE.FREE_UNITS (R141). -/
def F.PGS_FREE_FREE_UNITS : Fld :=
  ⟨0x800110, 0x40, 2, 24, 40, .c, 0, .view, false, 0, noMax, 1⟩

/-- PGS_OUTBOUND.UNITS (R141). -/
def F.PGS_OUTBOUND_UNITS : Fld :=
  ⟨0x800118, 0x40, 2, 0, 40, .c, 0, .view, false, 0, noMax, 1⟩

/-- PGS_PTFREE.BLOCKS (R141). -/
def F.PGS_PTFREE_BLOCKS : Fld :=
  ⟨0x800120, 0x40, 2, 0, 24, .c, 0, .none, false, 0, noMax, 1⟩

/-- ATT_CTL.EN (R172). -/
def F.ATT_CTL_EN : Fld :=
  ⟨0xC00000, 0x0, 1, 0, 1, .k, 0, .none, false, 0, noMax, 1⟩

/-- ATT_CTL.BWD_EN (R172). -/
def F.ATT_CTL_BWD_EN : Fld :=
  ⟨0xC00000, 0x0, 1, 1, 1, .k, 0, .none, false, 0, noMax, 1⟩

/-- ATT_CTL.SPAN_PAGES (R172). -/
def F.ATT_CTL_SPAN_PAGES : Fld :=
  ⟨0xC00000, 0x0, 1, 8, 13, .k, 256, .none, false, 16, 4096, 1⟩

/-- ATT_CTL.ABSORB_BLOCK (R172). -/
def F.ATT_CTL_ABSORB_BLOCK : Fld :=
  ⟨0xC00000, 0x0, 1, 21, 8, .s, 128, .none, false, 1, 128, 1⟩

/-- ATT_CTL.EXPAND_HEADS (R172). -/
def F.ATT_CTL_EXPAND_HEADS : Fld :=
  ⟨0xC00000, 0x0, 1, 29, 8, .s, 32, .none, false, 1, 128, 1⟩

/-- ATT_STATUS.IDLE (R172). -/
def F.ATT_STATUS_IDLE : Fld :=
  ⟨0xC00008, 0x0, 1, 0, 1, .c, 1, .view, false, 0, noMax, 1⟩

/-- ATT_STATUS.LIVE (R172). -/
def F.ATT_STATUS_LIVE : Fld :=
  ⟨0xC00008, 0x0, 1, 1, 7, .c, 64, .view, false, 0, noMax, 1⟩

/-- ATT_RETIRED.MASK (R172). -/
def F.ATT_RETIRED_MASK : Fld :=
  ⟨0xC00010, 0x0, 1, 0, 64, .c, 0, .none, false, 0, noMax, 1⟩

/-- ATT_EMIT.QUEUE_KIB (R172). -/
def F.ATT_EMIT_QUEUE_KIB : Fld :=
  ⟨0xC00018, 0x0, 1, 0, 11, .l, 256, .none, false, 64, 1024, 1⟩

/-- ATT_CNT0.TILES_IN (R172). -/
def F.ATT_CNT0_TILES_IN : Fld :=
  ⟨0xC00020, 0x0, 1, 0, 32, .c, 0, .view, true, 0, noMax, 1⟩

/-- ATT_CNT0.TILES_OUT (R172). -/
def F.ATT_CNT0_TILES_OUT : Fld :=
  ⟨0xC00020, 0x0, 1, 32, 32, .c, 0, .view, true, 0, noMax, 1⟩

/-- ATT_CNT1.NULL (R172). -/
def F.ATT_CNT1_NULL : Fld :=
  ⟨0xC00028, 0x0, 1, 0, 16, .c, 0, .view, true, 0, noMax, 1⟩

/-- ATT_CNT1.DISCARD (R172). -/
def F.ATT_CNT1_DISCARD : Fld :=
  ⟨0xC00028, 0x0, 1, 16, 16, .c, 0, .view, true, 0, noMax, 1⟩

/-- ATT_CNT1.DUP (R172). -/
def F.ATT_CNT1_DUP : Fld :=
  ⟨0xC00028, 0x0, 1, 32, 16, .c, 0, .view, true, 0, noMax, 1⟩

/-- ATT_CNT1.LATE (R172). -/
def F.ATT_CNT1_LATE : Fld :=
  ⟨0xC00028, 0x0, 1, 48, 16, .c, 0, .view, true, 0, noMax, 1⟩

/-- ATT_LOAD.ARRAY_BUSY (R172). -/
def F.ATT_LOAD_ARRAY_BUSY : Fld :=
  ⟨0xC00030, 0x0, 1, 0, 32, .c, 0, .none, false, 0, noMax, 1⟩

/-- ATT_LOAD.ROW_CC (R172). -/
def F.ATT_LOAD_ROW_CC : Fld :=
  ⟨0xC00030, 0x0, 1, 32, 32, .c, 0, .none, false, 0, noMax, 1⟩

/-- ATT_ENG_STATUS.STATE (R173). -/
def F.ATT_ENG_STATUS_STATE : Fld :=
  ⟨0xC01000, 0x10, 64, 0, 2, .c, 0, .none, false, 0, noMax, 1⟩

/-- ATT_ENG_STATUS.WEAVE_SLOT (R173). -/
def F.ATT_ENG_STATUS_WEAVE_SLOT : Fld :=
  ⟨0xC01000, 0x10, 64, 8, 8, .c, 0, .none, false, 0, noMax, 1⟩

/-- ATT_ENG_STATUS.STALLS (R173). -/
def F.ATT_ENG_STATUS_STALLS : Fld :=
  ⟨0xC01000, 0x10, 64, 16, 32, .c, 0, .none, false, 0, noMax, 1⟩

/-- ATT_ENG_FAULT.CORRECTED (R173). -/
def F.ATT_ENG_FAULT_CORRECTED : Fld :=
  ⟨0xC01008, 0x10, 64, 0, 16, .c, 0, .none, false, 0, noMax, 1⟩

/-- ATT_ENG_FAULT.UNCORRECTED (R173). -/
def F.ATT_ENG_FAULT_UNCORRECTED : Fld :=
  ⟨0xC01008, 0x10, 64, 16, 16, .c, 0, .none, false, 0, noMax, 1⟩

/-- ATT_GRP_IN.BASE (R174). -/
def F.ATT_GRP_IN_BASE : Fld :=
  ⟨0xC02000, 0x10, 64, 0, 48, .c, 0, .none, false, 0, noMax, 1⟩

/-- ATT_GRP_IN.SLOT_KIB (R174). -/
def F.ATT_GRP_IN_SLOT_KIB : Fld :=
  ⟨0xC02000, 0x10, 64, 48, 8, .c, 8, .none, false, 4, 64, 1⟩

/-- ATT_GRP_SLOTS.SLOTS (R174). -/
def F.ATT_GRP_SLOTS_SLOTS : Fld :=
  ⟨0xC02008, 0x10, 64, 0, 17, .c, 4096, .none, false, 64, 65536, 1⟩

/-- ATT_GRP_SLOTS.MERGE_AT (R174). -/
def F.ATT_GRP_SLOTS_MERGE_AT : Fld :=
  ⟨0xC02008, 0x10, 64, 17, 1, .c, 0, .none, false, 0, noMax, 1⟩

/-- ATT_SYNC_W.FREE (R246). -/
def F.ATT_SYNC_W_FREE : Fld :=
  ⟨0xC00038, 0x0, 1, 0, 17, .c, 65536, .none, false, 0, noMax, 1⟩

/-- ATT_SYNC_W.WEAVE (R246). -/
def F.ATT_SYNC_W_WEAVE : Fld :=
  ⟨0xC00038, 0x0, 1, 17, 17, .c, 0, .none, false, 0, noMax, 1⟩

/-- ATT_SYNC_W.OTHER (R246). -/
def F.ATT_SYNC_W_OTHER : Fld :=
  ⟨0xC00038, 0x0, 1, 34, 17, .c, 0, .none, false, 0, noMax, 1⟩

/-- ATT_SYNC_E.FREE (R246). -/
def F.ATT_SYNC_E_FREE : Fld :=
  ⟨0xC00040, 0x0, 1, 0, 17, .c, 65536, .none, false, 0, noMax, 1⟩

/-- ATT_SYNC_E.WEAVE (R246). -/
def F.ATT_SYNC_E_WEAVE : Fld :=
  ⟨0xC00040, 0x0, 1, 17, 17, .c, 0, .none, false, 0, noMax, 1⟩

/-- ATT_SYNC_E.OTHER (R246). -/
def F.ATT_SYNC_E_OTHER : Fld :=
  ⟨0xC00040, 0x0, 1, 34, 17, .c, 0, .none, false, 0, noMax, 1⟩

/-- ATT_SYNC_SEL.ID (R246). -/
def F.ATT_SYNC_SEL_ID : Fld :=
  ⟨0xC00048, 0x0, 1, 0, 17, .l, 0, .none, true, 0, noMax, 1⟩

/-- ATT_SYNC_VAL.VALUE (R246). -/
def F.ATT_SYNC_VAL_VALUE : Fld :=
  ⟨0xC00050, 0x0, 1, 0, 32, .c, 0, .none, false, 0, noMax, 1⟩

/-- ATT_PRF_REGION.GIB (R246). -/
def F.ATT_PRF_REGION_GIB : Fld :=
  ⟨0xC00078, 0x0, 1, 0, 9, .k, 24, .none, false, 1, 256, 1⟩

/-- ATT_WV_STATUS.VALID (R247). -/
def F.ATT_WV_STATUS_VALID : Fld :=
  ⟨0xC03000, 0x20, 128, 0, 1, .c, 0, .none, false, 0, noMax, 1⟩

/-- ATT_WV_STATUS.PROFILE (R247). -/
def F.ATT_WV_STATUS_PROFILE : Fld :=
  ⟨0xC03000, 0x20, 128, 1, 6, .c, 0, .none, false, 0, noMax, 1⟩

/-- ATT_WV_STATUS.STAKES (R247). -/
def F.ATT_WV_STATUS_STAKES : Fld :=
  ⟨0xC03000, 0x20, 128, 7, 9, .c, 0, .none, false, 0, noMax, 1⟩

/-- ATT_WV_STATUS.LEN_KIB (R247). -/
def F.ATT_WV_STATUS_LEN_KIB : Fld :=
  ⟨0xC03000, 0x20, 128, 16, 24, .c, 0, .none, false, 0, noMax, 1⟩

/-- ATT_WV_STATUS.PORT_FB (R247). -/
def F.ATT_WV_STATUS_PORT_FB : Fld :=
  ⟨0xC03000, 0x20, 128, 40, 16, .c, 0, .none, false, 0, noMax, 1⟩

/-- ATT_WV_GROUPS.MASK (R247). -/
def F.ATT_WV_GROUPS_MASK : Fld :=
  ⟨0xC03008, 0x20, 128, 0, 64, .c, 0, .none, false, 0, noMax, 1⟩

/-- ATT_WV_ID.DIGEST (R247). -/
def F.ATT_WV_ID_DIGEST : Fld :=
  ⟨0xC03010, 0x20, 128, 0, 64, .c, 0, .none, false, 0, noMax, 1⟩

/-- ATT_PRF_STATUS.VALID (R247). -/
def F.ATT_PRF_STATUS_VALID : Fld :=
  ⟨0xC04000, 0x10, 64, 0, 1, .c, 0, .none, false, 0, noMax, 1⟩

/-- ATT_PRF_STATUS.LAYERS (R247). -/
def F.ATT_PRF_STATUS_LAYERS : Fld :=
  ⟨0xC04000, 0x10, 64, 1, 9, .c, 0, .none, false, 0, noMax, 1⟩

/-- ATT_PRF_STATUS.KV_KIND (R247). -/
def F.ATT_PRF_STATUS_KV_KIND : Fld :=
  ⟨0xC04000, 0x10, 64, 10, 1, .c, 0, .none, false, 0, noMax, 1⟩

/-- ATT_PRF_STATUS.STORE_FMT (R247). -/
def F.ATT_PRF_STATUS_STORE_FMT : Fld :=
  ⟨0xC04000, 0x10, 64, 11, 8, .c, 0, .none, false, 0, noMax, 1⟩

/-- ATT_PRF_STATUS.PARAM_MIB (R247). -/
def F.ATT_PRF_STATUS_PARAM_MIB : Fld :=
  ⟨0xC04000, 0x10, 64, 19, 14, .c, 0, .none, false, 0, noMax, 1⟩

/-- ATT_PRF_ID.DIGEST (R247). -/
def F.ATT_PRF_ID_DIGEST : Fld :=
  ⟨0xC04008, 0x10, 64, 0, 64, .c, 0, .none, false, 0, noMax, 1⟩

/-- ATT_PREEMPT.EN (R280). -/
def F.ATT_PREEMPT_EN : Fld :=
  ⟨0xC00058, 0x0, 1, 0, 1, .k, 1, .none, false, 0, noMax, 1⟩

/-- ATT_PREEMPT.WAIT_CC (R280). -/
def F.ATT_PREEMPT_WAIT_CC : Fld :=
  ⟨0xC00058, 0x0, 1, 1, 16, .l, 2048, .none, false, 0, noMax, 1⟩

/-- ATT_PREEMPT.YIELD_CC (R280). -/
def F.ATT_PREEMPT_YIELD_CC : Fld :=
  ⟨0xC00058, 0x0, 1, 17, 16, .l, 1024, .none, false, 0, noMax, 1⟩

/-- ATT_SAVE_W.LEVELS (R280). -/
def F.ATT_SAVE_W_LEVELS : Fld :=
  ⟨0xC00060, 0x0, 1, 0, 7, .c, 0, .none, false, 0, noMax, 1⟩

/-- ATT_SAVE_W.UNITS (R280). -/
def F.ATT_SAVE_W_UNITS : Fld :=
  ⟨0xC00060, 0x0, 1, 16, 32, .c, 0, .none, false, 0, noMax, 1⟩

/-- ATT_SAVE_E.LEVELS (R280). -/
def F.ATT_SAVE_E_LEVELS : Fld :=
  ⟨0xC00068, 0x0, 1, 0, 7, .c, 0, .none, false, 0, noMax, 1⟩

/-- ATT_SAVE_E.UNITS (R280). -/
def F.ATT_SAVE_E_UNITS : Fld :=
  ⟨0xC00068, 0x0, 1, 16, 32, .c, 0, .none, false, 0, noMax, 1⟩

/-- ATT_PREEMPT_CNT.CHEAP (R280). -/
def F.ATT_PREEMPT_CNT_CHEAP : Fld :=
  ⟨0xC00070, 0x0, 1, 0, 16, .c, 0, .none, false, 0, noMax, 1⟩

/-- ATT_PREEMPT_CNT.FULL (R280). -/
def F.ATT_PREEMPT_CNT_FULL : Fld :=
  ⟨0xC00070, 0x0, 1, 16, 16, .c, 0, .none, false, 0, noMax, 1⟩

/-- ATT_PREEMPT_CNT.YIELD (R280). -/
def F.ATT_PREEMPT_CNT_YIELD : Fld :=
  ⟨0xC00070, 0x0, 1, 32, 16, .c, 0, .none, false, 0, noMax, 1⟩

/-- ATT_PREEMPT_CNT.RESTORE (R280). -/
def F.ATT_PREEMPT_CNT_RESTORE : Fld :=
  ⟨0xC00070, 0x0, 1, 48, 16, .c, 0, .none, false, 0, noMax, 1⟩

/-- ATT_GRP_SCHED.WEIGHTING (R281). -/
def F.ATT_GRP_SCHED_WEIGHTING : Fld :=
  ⟨0xC06000, 0x40, 64, 0, 1, .c, 0, .none, false, 0, noMax, 1⟩

/-- ATT_GRP_SCHED.ADMIT_MODE (R281). -/
def F.ATT_GRP_SCHED_ADMIT_MODE : Fld :=
  ⟨0xC06000, 0x40, 64, 1, 1, .c, 0, .none, false, 0, noMax, 1⟩

/-- ATT_GRP_SCHED.CHUNK_OK (R281). -/
def F.ATT_GRP_SCHED_CHUNK_OK : Fld :=
  ⟨0xC06000, 0x40, 64, 2, 1, .c, 0, .none, false, 0, noMax, 1⟩

/-- ATT_GRP_SCHED.PUSH_ROWS (R281). -/
def F.ATT_GRP_SCHED_PUSH_ROWS : Fld :=
  ⟨0xC06000, 0x40, 64, 4, 8, .l, 64, .none, false, 1, 255, 1⟩

/-- ATT_GRP_LAT.TARGET_US (R281). -/
def F.ATT_GRP_LAT_TARGET_US : Fld :=
  ⟨0xC06008, 0x40, 64, 0, 13, .s, 400, .none, false, 50, 5000, 1⟩

/-- ATT_GRP_LAT.CHUNK_POS (R281). -/
def F.ATT_GRP_LAT_CHUNK_POS : Fld :=
  ⟨0xC06008, 0x40, 64, 13, 17, .s, 512, .none, false, 64, 65536, 64⟩

/-- ATT_GRP_LAT.ROW_PREFILL (R281). -/
def F.ATT_GRP_LAT_ROW_PREFILL : Fld :=
  ⟨0xC06008, 0x40, 64, 30, 19, .s, 2048, .none, false, 64, 262144, 64⟩

/-- ATT_GRP_TPT.TARGET_US (R281). -/
def F.ATT_GRP_TPT_TARGET_US : Fld :=
  ⟨0xC06010, 0x40, 64, 0, 13, .s, 4000, .none, false, 50, 5000, 1⟩

/-- ATT_GRP_TPT.CHUNK_POS (R281). -/
def F.ATT_GRP_TPT_CHUNK_POS : Fld :=
  ⟨0xC06010, 0x40, 64, 13, 17, .s, 4096, .none, false, 64, 65536, 64⟩

/-- ATT_GRP_TPT.ROW_PREFILL (R281). -/
def F.ATT_GRP_TPT_ROW_PREFILL : Fld :=
  ⟨0xC06010, 0x40, 64, 30, 19, .s, 32768, .none, false, 64, 262144, 64⟩

/-- ATT_GRP_PUSH.BASE (R281). -/
def F.ATT_GRP_PUSH_BASE : Fld :=
  ⟨0xC06018, 0x40, 64, 0, 48, .c, 0, .none, false, 0, noMax, 1⟩

/-- ATT_GRP_PUSH.SLOT_4K (R281). -/
def F.ATT_GRP_PUSH_SLOT_4K : Fld :=
  ⟨0xC06018, 0x40, 64, 48, 8, .c, 10, .none, false, 1, 80, 1⟩

/-- ATT_GRP_PUSH.LANES (R281). -/
def F.ATT_GRP_PUSH_LANES : Fld :=
  ⟨0xC06018, 0x40, 64, 56, 8, .c, 64, .none, false, 1, 128, 1⟩

/-- ATT_GRP_PUSH2.LANE_SLOTS (R281). -/
def F.ATT_GRP_PUSH2_LANE_SLOTS : Fld :=
  ⟨0xC06020, 0x40, 64, 0, 8, .c, 16, .none, false, 1, 255, 1⟩

/-- ATT_GRP_PCNT.OPEN (R281). -/
def F.ATT_GRP_PCNT_OPEN : Fld :=
  ⟨0xC06028, 0x40, 64, 0, 16, .c, 0, .none, false, 0, noMax, 1⟩

/-- ATT_GRP_PCNT.STALLED (R281). -/
def F.ATT_GRP_PCNT_STALLED : Fld :=
  ⟨0xC06028, 0x40, 64, 16, 16, .c, 0, .none, false, 0, noMax, 1⟩

/-- ATT_GRP_PCNT.DUP (R281). -/
def F.ATT_GRP_PCNT_DUP : Fld :=
  ⟨0xC06028, 0x40, 64, 32, 16, .c, 0, .none, false, 0, noMax, 1⟩

/-- ATT_GRP_PCNT.REJECTED (R281). -/
def F.ATT_GRP_PCNT_REJECTED : Fld :=
  ⟨0xC06028, 0x40, 64, 48, 16, .c, 0, .none, false, 0, noMax, 1⟩

/-- TOK_CTL.EN (R317). -/
def F.TOK_CTL_EN : Fld :=
  ⟨0x1000000, 0x0, 1, 0, 1, .k, 0, .none, false, 0, noMax, 1⟩

/-- TOK_STATUS.IDLE (R317). -/
def F.TOK_STATUS_IDLE : Fld :=
  ⟨0x1000008, 0x0, 1, 0, 1, .c, 1, .view, false, 0, noMax, 1⟩

/-- TOK_STATUS.LIVE (R317). -/
def F.TOK_STATUS_LIVE : Fld :=
  ⟨0x1000008, 0x0, 1, 1, 4, .c, 8, .view, false, 0, noMax, 1⟩

/-- TOK_STORE.FREE_KIB (R317). -/
def F.TOK_STORE_FREE_KIB : Fld :=
  ⟨0x1000010, 0x0, 1, 0, 16, .c, 49152, .none, false, 0, noMax, 1⟩

/-- TOK_STORE.STOP_SETS (R317). -/
def F.TOK_STORE_STOP_SETS : Fld :=
  ⟨0x1000010, 0x0, 1, 16, 16, .c, 0, .none, false, 0, noMax, 1⟩

/-- TOK_CACHE.HIT (R317). -/
def F.TOK_CACHE_HIT : Fld :=
  ⟨0x1000018, 0x0, 1, 0, 32, .c, 0, .none, false, 0, noMax, 1⟩

/-- TOK_CACHE.MISS (R317). -/
def F.TOK_CACHE_MISS : Fld :=
  ⟨0x1000018, 0x0, 1, 32, 32, .c, 0, .none, false, 0, noMax, 1⟩

/-- TOK_CNT0.DETOK (R317). -/
def F.TOK_CNT0_DETOK : Fld :=
  ⟨0x1000020, 0x0, 1, 0, 32, .c, 0, .none, false, 0, noMax, 1⟩

/-- TOK_CNT0.PROMPT_KIB (R317). -/
def F.TOK_CNT0_PROMPT_KIB : Fld :=
  ⟨0x1000020, 0x0, 1, 32, 32, .c, 0, .none, false, 0, noMax, 1⟩

/-- TOK_CNT1.STOPS (R317). -/
def F.TOK_CNT1_STOPS : Fld :=
  ⟨0x1000028, 0x0, 1, 0, 16, .c, 0, .view, true, 0, noMax, 1⟩

/-- TOK_CNT1.REJECTED (R317). -/
def F.TOK_CNT1_REJECTED : Fld :=
  ⟨0x1000028, 0x0, 1, 16, 16, .c, 0, .view, true, 0, noMax, 1⟩

/-- TOK_CNT1.STRAY (R317). -/
def F.TOK_CNT1_STRAY : Fld :=
  ⟨0x1000028, 0x0, 1, 32, 16, .c, 0, .view, true, 0, noMax, 1⟩

/-- TOK_CNT1.TEXT_OVF (R317). -/
def F.TOK_CNT1_TEXT_OVF : Fld :=
  ⟨0x1000028, 0x0, 1, 48, 16, .c, 0, .view, true, 0, noMax, 1⟩

/-- TOK_TKZ_STATUS.VALID (R318). -/
def F.TOK_TKZ_STATUS_VALID : Fld :=
  ⟨0x1001000, 0x10, 64, 0, 1, .c, 0, .none, false, 0, noMax, 1⟩

/-- TOK_TKZ_STATUS.VOCAB (R318). -/
def F.TOK_TKZ_STATUS_VOCAB : Fld :=
  ⟨0x1001000, 0x10, 64, 1, 21, .c, 0, .none, false, 0, noMax, 1⟩

/-- TOK_TKZ_STATUS.ON_CHIP (R318). -/
def F.TOK_TKZ_STATUS_ON_CHIP : Fld :=
  ⟨0x1001000, 0x10, 64, 22, 1, .c, 0, .none, false, 0, noMax, 1⟩

/-- TOK_TKZ_ID.DIGEST (R318). -/
def F.TOK_TKZ_ID_DIGEST : Fld :=
  ⟨0x1001008, 0x10, 64, 0, 64, .c, 0, .none, false, 0, noMax, 1⟩

/-- TOK_GRP_IN.BASE (R318). -/
def F.TOK_GRP_IN_BASE : Fld :=
  ⟨0x1002000, 0x10, 64, 0, 48, .c, 0, .none, false, 0, noMax, 1⟩

/-- TOK_GRP_IN.ENTRIES (R318). -/
def F.TOK_GRP_IN_ENTRIES : Fld :=
  ⟨0x1002000, 0x10, 64, 48, 16, .c, 32768, .none, false, 1, 32768, 1⟩

/-- GRM_CTL.EN (R319). -/
def F.GRM_CTL_EN : Fld :=
  ⟨0x1400000, 0x0, 1, 0, 1, .k, 0, .none, false, 0, noMax, 1⟩

/-- GRM_CTL.REFUSE_DEAD (R319). -/
def F.GRM_CTL_REFUSE_DEAD : Fld :=
  ⟨0x1400000, 0x0, 1, 1, 1, .l, 0, .none, false, 0, noMax, 1⟩

/-- GRM_CTL.MASK_LIMIT (R319). -/
def F.GRM_CTL_MASK_LIMIT : Fld :=
  ⟨0x1400000, 0x0, 1, 2, 21, .l, 65536, .none, false, 1024, 1048576, 1⟩

/-- GRM_STATUS.IDLE (R319). -/
def F.GRM_STATUS_IDLE : Fld :=
  ⟨0x1400008, 0x0, 1, 0, 1, .c, 1, .none, false, 0, noMax, 1⟩

/-- GRM_STATUS.LIVE (R319). -/
def F.GRM_STATUS_LIVE : Fld :=
  ⟨0x1400008, 0x0, 1, 1, 4, .c, 8, .none, false, 0, noMax, 1⟩

/-- GRM_REGION.GIB (R319). -/
def F.GRM_REGION_GIB : Fld :=
  ⟨0x1400010, 0x0, 1, 0, 7, .k, 8, .none, false, 1, 64, 1⟩

/-- GRM_FREE.FREE_MIB (R319). -/
def F.GRM_FREE_FREE_MIB : Fld :=
  ⟨0x1400018, 0x0, 1, 0, 32, .c, 0, .none, false, 0, noMax, 1⟩

/-- GRM_FREE.GRAMMARS (R319). -/
def F.GRM_FREE_GRAMMARS : Fld :=
  ⟨0x1400018, 0x0, 1, 32, 11, .c, 0, .none, false, 0, noMax, 1⟩

/-- GRM_CNT0.DEAD_END (R319). -/
def F.GRM_CNT0_DEAD_END : Fld :=
  ⟨0x1400020, 0x0, 1, 0, 16, .c, 0, .none, false, 0, noMax, 1⟩

/-- GRM_CNT0.ROLLBACK (R319). -/
def F.GRM_CNT0_ROLLBACK : Fld :=
  ⟨0x1400020, 0x0, 1, 16, 16, .c, 0, .none, false, 0, noMax, 1⟩

/-- GRM_CNT0.FORCED (R319). -/
def F.GRM_CNT0_FORCED : Fld :=
  ⟨0x1400020, 0x0, 1, 32, 16, .c, 0, .none, false, 0, noMax, 1⟩

/-- GRM_CNT0.OUT_OF_MASK (R319). -/
def F.GRM_CNT0_OUT_OF_MASK : Fld :=
  ⟨0x1400020, 0x0, 1, 48, 16, .c, 0, .none, false, 0, noMax, 1⟩

/-- GRM_CNT1.MASKS (R319). -/
def F.GRM_CNT1_MASKS : Fld :=
  ⟨0x1400028, 0x0, 1, 0, 32, .c, 0, .none, false, 0, noMax, 1⟩

/-- GRM_CNT1.FRESH (R319). -/
def F.GRM_CNT1_FRESH : Fld :=
  ⟨0x1400028, 0x0, 1, 32, 16, .c, 0, .none, false, 0, noMax, 1⟩

/-- GRM_CNT1.CACHE_MISS (R319). -/
def F.GRM_CNT1_CACHE_MISS : Fld :=
  ⟨0x1400028, 0x0, 1, 48, 16, .c, 0, .none, false, 0, noMax, 1⟩

/-- GRM_GRP_MASK.SLOTS (R320). -/
def F.GRM_GRP_MASK_SLOTS : Fld :=
  ⟨0x1402000, 0x40, 64, 0, 16, .c, 1024, .none, false, 1, 32768, 1⟩

/-- GRM_GRP_MASK.SLOT_KIB (R320). -/
def F.GRM_GRP_MASK_SLOT_KIB : Fld :=
  ⟨0x1402000, 0x40, 64, 16, 8, .c, 16, .none, false, 1, 128, 1⟩

/-- GRM_GRP_MASK.FREE (R320). -/
def F.GRM_GRP_MASK_FREE : Fld :=
  ⟨0x1402000, 0x40, 64, 24, 16, .c, 1024, .none, false, 0, noMax, 1⟩

/-- GRM_GRP_SAMP0.MEMBERS (R320). -/
def F.GRM_GRP_SAMP0_MEMBERS : Fld :=
  ⟨0x1402008, 0x40, 64, 0, 64, .c, 1, .none, false, 0, noMax, 1⟩

/-- GRM_GRP_SAMP1.MEMBERS (R320). -/
def F.GRM_GRP_SAMP1_MEMBERS : Fld :=
  ⟨0x1402010, 0x40, 64, 0, 64, .c, 0, .none, false, 0, noMax, 1⟩

/-- GRM_GRP_SAMP2.MEMBERS (R320). -/
def F.GRM_GRP_SAMP2_MEMBERS : Fld :=
  ⟨0x1402018, 0x40, 64, 0, 64, .c, 0, .none, false, 0, noMax, 1⟩

/-- GRM_GRP_SAMP3.MEMBERS (R320). -/
def F.GRM_GRP_SAMP3_MEMBERS : Fld :=
  ⟨0x1402020, 0x40, 64, 0, 64, .c, 0, .none, false, 0, noMax, 1⟩

/-- GRM_G_STATUS.VALID (R320). -/
def F.GRM_G_STATUS_VALID : Fld :=
  ⟨0x1404000, 0x10, 1024, 0, 1, .c, 0, .owned, false, 0, noMax, 1⟩

/-- GRM_G_STATUS.PARTITION (R320). -/
def F.GRM_G_STATUS_PARTITION : Fld :=
  ⟨0x1404000, 0x10, 1024, 1, 5, .c, 0, .owned, false, 0, noMax, 1⟩

/-- GRM_G_STATUS.STATES (R320). -/
def F.GRM_G_STATUS_STATES : Fld :=
  ⟨0x1404000, 0x10, 1024, 6, 21, .c, 0, .owned, false, 0, noMax, 1⟩

/-- GRM_G_STATUS.DEAD_REACH (R320). -/
def F.GRM_G_STATUS_DEAD_REACH : Fld :=
  ⟨0x1404000, 0x10, 1024, 27, 16, .c, 0, .owned, false, 0, noMax, 1⟩

/-- GRM_G_STATUS.BOUND (R320). -/
def F.GRM_G_STATUS_BOUND : Fld :=
  ⟨0x1404000, 0x10, 1024, 43, 16, .c, 0, .owned, false, 0, noMax, 1⟩

/-- GRM_G_ID.DIGEST (R320). -/
def F.GRM_G_ID_DIGEST : Fld :=
  ⟨0x1404008, 0x10, 1024, 0, 64, .c, 0, .owned, false, 0, noMax, 1⟩

/-- PRK_CTL.EN (R343). -/
def F.PRK_CTL_EN : Fld :=
  ⟨0x1800000, 0x0, 1, 0, 1, .k, 0, .none, false, 0, noMax, 1⟩

/-- PRK_CTL.EST_EN (R343). -/
def F.PRK_CTL_EST_EN : Fld :=
  ⟨0x1800000, 0x0, 1, 1, 1, .l, 1, .none, false, 0, noMax, 1⟩

/-- PRK_CTL.SPILL_EN (R343). -/
def F.PRK_CTL_SPILL_EN : Fld :=
  ⟨0x1800000, 0x0, 1, 2, 1, .l, 1, .none, false, 0, noMax, 1⟩

/-- PRK_STATUS.IDLE (R343). -/
def F.PRK_STATUS_IDLE : Fld :=
  ⟨0x1800008, 0x0, 1, 0, 1, .c, 1, .none, false, 0, noMax, 1⟩

/-- PRK_STATUS.PARKING (R343). -/
def F.PRK_STATUS_PARKING : Fld :=
  ⟨0x1800008, 0x0, 1, 1, 23, .c, 0, .none, false, 0, noMax, 1⟩

/-- PRK_STATUS.REVIVING (R343). -/
def F.PRK_STATUS_REVIVING : Fld :=
  ⟨0x1800008, 0x0, 1, 24, 23, .c, 0, .none, false, 0, noMax, 1⟩

/-- PRK_COEF0.K_HOLD (R343). -/
def F.PRK_COEF0_K_HOLD : Fld :=
  ⟨0x1800010, 0x0, 1, 0, 32, .s, 1056964608, .none, false, 0, noMax, 1⟩

/-- PRK_COEF0.K_WR (R343). -/
def F.PRK_COEF0_K_WR : Fld :=
  ⟨0x1800010, 0x0, 1, 32, 32, .s, 1028443341, .none, false, 0, noMax, 1⟩

/-- PRK_COEF1.K_FIX (R343). -/
def F.PRK_COEF1_K_FIX : Fld :=
  ⟨0x1800018, 0x0, 1, 0, 32, .s, 1157234688, .none, false, 0, noMax, 1⟩

/-- PRK_COEF1.K_TOK (R343). -/
def F.PRK_COEF1_K_TOK : Fld :=
  ⟨0x1800018, 0x0, 1, 32, 32, .s, 1101004800, .none, false, 0, noMax, 1⟩

/-- PRK_COEF2.K_TOK2 (R343). -/
def F.PRK_COEF2_K_TOK2 : Fld :=
  ⟨0x1800020, 0x0, 1, 0, 32, .s, 1084227584, .none, false, 0, noMax, 1⟩

/-- PRK_RATES.READ_GBS (R343). -/
def F.PRK_RATES_READ_GBS : Fld :=
  ⟨0x1800028, 0x0, 1, 0, 16, .s, 100, .none, false, 1, 65535, 1⟩

/-- PRK_RATES.WRITE_GBS (R343). -/
def F.PRK_RATES_WRITE_GBS : Fld :=
  ⟨0x1800028, 0x0, 1, 16, 16, .s, 48, .none, false, 1, 65535, 1⟩

/-- PRK_RATES.FAB_GBS (R343). -/
def F.PRK_RATES_FAB_GBS : Fld :=
  ⟨0x1800028, 0x0, 1, 32, 16, .s, 400, .none, false, 1, 65535, 1⟩

/-- PRK_RATES.PUSH_GBS (R343). -/
def F.PRK_RATES_PUSH_GBS : Fld :=
  ⟨0x1800028, 0x0, 1, 48, 16, .s, 100, .none, false, 1, 65535, 1⟩

/-- PRK_TIMING.MIRROR_MS (R343). -/
def F.PRK_TIMING_MIRROR_MS : Fld :=
  ⟨0x1800030, 0x0, 1, 0, 16, .l, 100, .none, false, 1, 10000, 1⟩

/-- PRK_TIMING.REBUILD_S (R343). -/
def F.PRK_TIMING_REBUILD_S : Fld :=
  ⟨0x1800030, 0x0, 1, 16, 16, .l, 60, .none, false, 1, 3600, 1⟩

/-- PRK_SPILL.LOW_PCT (R343). -/
def F.PRK_SPILL_LOW_PCT : Fld :=
  ⟨0x1800038, 0x0, 1, 0, 7, .s, 5, .none, false, 0, 99, 1⟩

/-- PRK_SPILL.HIGH_PCT (R343). -/
def F.PRK_SPILL_HIGH_PCT : Fld :=
  ⟨0x1800038, 0x0, 1, 7, 7, .s, 10, .none, false, 0, 100, 1⟩

/-- PRK_SPILL.SCAN_RATE (R343). -/
def F.PRK_SPILL_SCAN_RATE : Fld :=
  ⟨0x1800038, 0x0, 1, 16, 16, .s, 4096, .none, false, 1, 65535, 1⟩

/-- PRK_LOAD.QW_W (R343). -/
def F.PRK_LOAD_QW_W : Fld :=
  ⟨0x1800040, 0x0, 1, 0, 16, .c, 0, .none, false, 0, noMax, 1⟩

/-- PRK_LOAD.QR_W (R343). -/
def F.PRK_LOAD_QR_W : Fld :=
  ⟨0x1800040, 0x0, 1, 16, 16, .c, 0, .none, false, 0, noMax, 1⟩

/-- PRK_LOAD.QW_E (R343). -/
def F.PRK_LOAD_QW_E : Fld :=
  ⟨0x1800040, 0x0, 1, 32, 16, .c, 0, .none, false, 0, noMax, 1⟩

/-- PRK_LOAD.QR_E (R343). -/
def F.PRK_LOAD_QR_E : Fld :=
  ⟨0x1800040, 0x0, 1, 48, 16, .c, 0, .none, false, 0, noMax, 1⟩

/-- PRK_FAB.RHO_W (R343). -/
def F.PRK_FAB_RHO_W : Fld :=
  ⟨0x1800048, 0x0, 1, 0, 7, .c, 0, .none, false, 0, noMax, 1⟩

/-- PRK_FAB.RHO_E (R343). -/
def F.PRK_FAB_RHO_E : Fld :=
  ⟨0x1800048, 0x0, 1, 8, 7, .c, 0, .none, false, 0, noMax, 1⟩

/-- PRK_CNT0.PARKS (R343). -/
def F.PRK_CNT0_PARKS : Fld :=
  ⟨0x1800050, 0x0, 1, 0, 16, .c, 0, .none, false, 0, noMax, 1⟩

/-- PRK_CNT0.HISTORY (R343). -/
def F.PRK_CNT0_HISTORY : Fld :=
  ⟨0x1800050, 0x0, 1, 16, 16, .c, 0, .none, false, 0, noMax, 1⟩

/-- PRK_CNT0.REVIVES (R343). -/
def F.PRK_CNT0_REVIVES : Fld :=
  ⟨0x1800050, 0x0, 1, 32, 16, .c, 0, .none, false, 0, noMax, 1⟩

/-- PRK_CNT0.REBUILDS (R343). -/
def F.PRK_CNT0_REBUILDS : Fld :=
  ⟨0x1800050, 0x0, 1, 48, 16, .c, 0, .none, false, 0, noMax, 1⟩

/-- PRK_CNT1.OVERRIDDEN (R343). -/
def F.PRK_CNT1_OVERRIDDEN : Fld :=
  ⟨0x1800058, 0x0, 1, 0, 16, .c, 0, .none, false, 0, noMax, 1⟩

/-- PRK_CNT1.ABANDONED (R343). -/
def F.PRK_CNT1_ABANDONED : Fld :=
  ⟨0x1800058, 0x0, 1, 16, 16, .c, 0, .none, false, 0, noMax, 1⟩

/-- PRK_CNT1.MIRROR_FAIL (R343). -/
def F.PRK_CNT1_MIRROR_FAIL : Fld :=
  ⟨0x1800058, 0x0, 1, 32, 16, .c, 0, .none, false, 0, noMax, 1⟩

/-- PRK_CNT1.REVIVE_FAIL (R343). -/
def F.PRK_CNT1_REVIVE_FAIL : Fld :=
  ⟨0x1800058, 0x0, 1, 48, 16, .c, 0, .none, false, 0, noMax, 1⟩

/-- PRK_POLICY.MX4_OK (R344). -/
def F.PRK_POLICY_MX4_OK : Fld :=
  ⟨0x1801000, 0x10, 32, 0, 1, .s, 1, .owned, false, 0, noMax, 1⟩

/-- PRK_POLICY.HINTS_OK (R344). -/
def F.PRK_POLICY_HINTS_OK : Fld :=
  ⟨0x1801000, 0x10, 32, 1, 3, .s, 7, .owned, false, 0, noMax, 1⟩

/-- PRK_POLICY.PIN_MAX (R344). -/
def F.PRK_POLICY_PIN_MAX : Fld :=
  ⟨0x1801000, 0x10, 32, 4, 23, .s, 0, .owned, false, 0, 4194304, 1⟩

/-- PRK_POLICY.EQ (R344). -/
def F.PRK_POLICY_EQ : Fld :=
  ⟨0x1801000, 0x10, 32, 32, 16, .s, 0, .owned, false, 0, noMax, 1⟩

/-- PRK_PINNED.COUNT (R344). -/
def F.PRK_PINNED_COUNT : Fld :=
  ⟨0x1801008, 0x10, 32, 0, 23, .c, 0, .owned, false, 0, noMax, 1⟩

/-- HMP_CTL.EN (R376). -/
def F.HMP_CTL_EN : Fld :=
  ⟨0x1802000, 0x0, 1, 0, 1, .k, 0, .none, false, 0, noMax, 1⟩

/-- HMP_CTL.GC_EN (R376). -/
def F.HMP_CTL_GC_EN : Fld :=
  ⟨0x1802000, 0x0, 1, 1, 1, .l, 1, .none, false, 0, noMax, 1⟩

/-- HMP_CTL.WL_EN (R376). -/
def F.HMP_CTL_WL_EN : Fld :=
  ⟨0x1802000, 0x0, 1, 2, 1, .l, 1, .none, false, 0, noMax, 1⟩

/-- HMP_CTL.REFRESH_EN (R376). -/
def F.HMP_CTL_REFRESH_EN : Fld :=
  ⟨0x1802000, 0x0, 1, 3, 1, .l, 1, .none, false, 0, noMax, 1⟩

/-- HMP_STATUS.IDLE (R376). -/
def F.HMP_STATUS_IDLE : Fld :=
  ⟨0x1802008, 0x0, 1, 0, 1, .c, 1, .none, false, 0, noMax, 1⟩

/-- HMP_STATUS.STATE_W (R376). -/
def F.HMP_STATUS_STATE_W : Fld :=
  ⟨0x1802008, 0x0, 1, 1, 3, .c, 0, .none, false, 0, noMax, 1⟩

/-- HMP_STATUS.STATE_E (R376). -/
def F.HMP_STATUS_STATE_E : Fld :=
  ⟨0x1802008, 0x0, 1, 4, 3, .c, 0, .none, false, 0, noMax, 1⟩

/-- HMP_STATUS.LAST_OFF (R376). -/
def F.HMP_STATUS_LAST_OFF : Fld :=
  ⟨0x1802008, 0x0, 1, 7, 2, .c, 0, .none, false, 0, noMax, 1⟩

/-- HMP_DIRTY_CEIL.DELTA_MIB (R376). -/
def F.HMP_DIRTY_CEIL_DELTA_MIB : Fld :=
  ⟨0x1802010, 0x0, 1, 0, 16, .l, 1024, .none, false, 64, 1024, 1⟩

/-- HMP_DIRTY_CEIL.BUF_MIB (R376). -/
def F.HMP_DIRTY_CEIL_BUF_MIB : Fld :=
  ⟨0x1802010, 0x0, 1, 16, 16, .l, 2048, .none, false, 256, 2048, 1⟩

/-- HMP_DIRTY.DELTA_MIB (R376). -/
def F.HMP_DIRTY_DELTA_MIB : Fld :=
  ⟨0x1802018, 0x0, 1, 0, 16, .c, 0, .none, false, 0, noMax, 1⟩

/-- HMP_DIRTY.BUF_MIB (R376). -/
def F.HMP_DIRTY_BUF_MIB : Fld :=
  ⟨0x1802018, 0x0, 1, 16, 16, .c, 0, .none, false, 0, noMax, 1⟩

/-- HMP_GC.START_BLK (R376). -/
def F.HMP_GC_START_BLK : Fld :=
  ⟨0x1802020, 0x0, 1, 0, 8, .s, 16, .none, false, 4, 64, 1⟩

/-- HMP_GC.URGENT_BLK (R376). -/
def F.HMP_GC_URGENT_BLK : Fld :=
  ⟨0x1802020, 0x0, 1, 8, 8, .s, 6, .none, false, 2, 255, 1⟩

/-- HMP_GC.BG_PCT (R376). -/
def F.HMP_GC_BG_PCT : Fld :=
  ⟨0x1802020, 0x0, 1, 16, 7, .s, 20, .none, false, 1, 90, 1⟩

/-- HMP_WEAR.DELTA (R376). -/
def F.HMP_WEAR_DELTA : Fld :=
  ⟨0x1802028, 0x0, 1, 0, 16, .s, 250, .none, false, 16, 4096, 1⟩

/-- HMP_WEAR.RATED_PE (R376). -/
def F.HMP_WEAR_RATED_PE : Fld :=
  ⟨0x1802028, 0x0, 1, 16, 16, .c, 5000, .none, false, 0, noMax, 1⟩

/-- HMP_RD.LIMIT_K (R376). -/
def F.HMP_RD_LIMIT_K : Fld :=
  ⟨0x1802030, 0x0, 1, 0, 16, .s, 100, .none, false, 10, 1000, 1⟩

/-- HMP_RD.ECC_THRESH (R376). -/
def F.HMP_RD_ECC_THRESH : Fld :=
  ⟨0x1802030, 0x0, 1, 16, 8, .s, 96, .none, false, 16, 160, 1⟩

/-- HMP_RET.MAX_AGE_D (R376). -/
def F.HMP_RET_MAX_AGE_D : Fld :=
  ⟨0x1802038, 0x0, 1, 0, 16, .s, 90, .none, false, 1, 3650, 1⟩

/-- HMP_RET.RET_THRESH (R376). -/
def F.HMP_RET_RET_THRESH : Fld :=
  ⟨0x1802038, 0x0, 1, 16, 8, .s, 80, .none, false, 16, 160, 1⟩

/-- HMP_RETIRE.DIE_BAD (R376). -/
def F.HMP_RETIRE_DIE_BAD : Fld :=
  ⟨0x1802040, 0x0, 1, 0, 16, .s, 128, .none, false, 8, 4096, 1⟩

/-- HMP_RETIRE.DIE_UNC (R376). -/
def F.HMP_RETIRE_DIE_UNC : Fld :=
  ⟨0x1802040, 0x0, 1, 16, 16, .s, 32, .none, false, 1, 65535, 1⟩

/-- HMP_RETIRE.SPARE_MIN_PCT (R376). -/
def F.HMP_RETIRE_SPARE_MIN_PCT : Fld :=
  ⟨0x1802040, 0x0, 1, 32, 4, .s, 2, .none, false, 1, 10, 1⟩

/-- HMP_THERM.WARN_C (R376). -/
def F.HMP_THERM_WARN_C : Fld :=
  ⟨0x1802048, 0x0, 1, 0, 8, .l, 75, .none, false, 50, 255, 1⟩

/-- HMP_THERM.STOP_C (R376). -/
def F.HMP_THERM_STOP_C : Fld :=
  ⟨0x1802048, 0x0, 1, 8, 8, .l, 85, .none, false, 60, 90, 1⟩

/-- HMP_FLUSH.LAST_MS (R376). -/
def F.HMP_FLUSH_LAST_MS : Fld :=
  ⟨0x1802050, 0x0, 1, 0, 16, .c, 0, .none, false, 0, noMax, 1⟩

/-- HMP_FLUSH.MARGIN_MS (R376). -/
def F.HMP_FLUSH_MARGIN_MS : Fld :=
  ⟨0x1802050, 0x0, 1, 16, 16, .c, 0, .none, false, 0, noMax, 1⟩

/-- HMP_FLUSH.COUNT (R376). -/
def F.HMP_FLUSH_COUNT : Fld :=
  ⟨0x1802050, 0x0, 1, 32, 32, .c, 0, .none, false, 0, noMax, 1⟩

/-- HMP_CNT0.HOST_GIB (R376). -/
def F.HMP_CNT0_HOST_GIB : Fld :=
  ⟨0x1802058, 0x0, 1, 0, 32, .c, 0, .none, false, 0, noMax, 1⟩

/-- HMP_CNT0.NAND_GIB (R376). -/
def F.HMP_CNT0_NAND_GIB : Fld :=
  ⟨0x1802058, 0x0, 1, 32, 32, .c, 0, .none, false, 0, noMax, 1⟩

/-- HMP_D_SPACE.USER_PAGES (R377). -/
def F.HMP_D_SPACE_USER_PAGES : Fld :=
  ⟨0x1802100, 0x40, 2, 0, 32, .c, 3417968750, .none, false, 0, noMax, 1⟩

/-- HMP_D_SPACE.FREE_PAGES (R377). -/
def F.HMP_D_SPACE_FREE_PAGES : Fld :=
  ⟨0x1802100, 0x40, 2, 32, 32, .c, 0, .none, false, 0, noMax, 1⟩

/-- HMP_D_BLOCKS.ERASED (R377). -/
def F.HMP_D_BLOCKS_ERASED : Fld :=
  ⟨0x1802108, 0x40, 2, 0, 24, .c, 0, .none, false, 0, noMax, 1⟩

/-- HMP_D_BLOCKS.GROWN_BAD (R377). -/
def F.HMP_D_BLOCKS_GROWN_BAD : Fld :=
  ⟨0x1802108, 0x40, 2, 24, 24, .c, 0, .none, false, 0, noMax, 1⟩

/-- HMP_D_BLOCKS.RETIRED_LUNS (R377). -/
def F.HMP_D_BLOCKS_RETIRED_LUNS : Fld :=
  ⟨0x1802108, 0x40, 2, 48, 9, .c, 0, .none, false, 0, noMax, 1⟩

/-- HMP_D_WEAR.AVG_PE (R377). -/
def F.HMP_D_WEAR_AVG_PE : Fld :=
  ⟨0x1802110, 0x40, 2, 0, 16, .c, 0, .none, false, 0, noMax, 1⟩

/-- HMP_D_WEAR.MAX_PE (R377). -/
def F.HMP_D_WEAR_MAX_PE : Fld :=
  ⟨0x1802110, 0x40, 2, 16, 16, .c, 0, .none, false, 0, noMax, 1⟩

/-- HMP_D_WEAR.MIN_PE (R377). -/
def F.HMP_D_WEAR_MIN_PE : Fld :=
  ⟨0x1802110, 0x40, 2, 32, 16, .c, 0, .none, false, 0, noMax, 1⟩

/-- HMP_D_WEAR.WEAR_USED (R377). -/
def F.HMP_D_WEAR_WEAR_USED : Fld :=
  ⟨0x1802110, 0x40, 2, 48, 16, .c, 0, .none, false, 0, noMax, 1⟩

/-- HMP_D_ERR.UNCORR (R377). -/
def F.HMP_D_ERR_UNCORR : Fld :=
  ⟨0x1802118, 0x40, 2, 0, 16, .c, 0, .none, false, 0, noMax, 1⟩

/-- HMP_D_ERR.BUDDY_REPAIR (R377). -/
def F.HMP_D_ERR_BUDDY_REPAIR : Fld :=
  ⟨0x1802118, 0x40, 2, 16, 16, .c, 0, .none, false, 0, noMax, 1⟩

/-- HMP_D_ERR.REFRESH (R377). -/
def F.HMP_D_ERR_REFRESH : Fld :=
  ⟨0x1802118, 0x40, 2, 32, 16, .c, 0, .none, false, 0, noMax, 1⟩

/-- HMP_D_ERR.SPARE_LEFT (R377). -/
def F.HMP_D_ERR_SPARE_LEFT : Fld :=
  ⟨0x1802118, 0x40, 2, 48, 16, .c, 10000, .none, false, 0, noMax, 1⟩

/-- HMP_D_TEMP.NOW_C (R377). -/
def F.HMP_D_TEMP_NOW_C : Fld :=
  ⟨0x1802120, 0x40, 2, 0, 8, .c, 0, .none, false, 0, noMax, 1⟩

/-- HMP_D_TEMP.MAX_C (R377). -/
def F.HMP_D_TEMP_MAX_C : Fld :=
  ⟨0x1802120, 0x40, 2, 8, 8, .c, 0, .none, false, 0, noMax, 1⟩

/-- HLF_CTL.EN (R422). -/
def F.HLF_CTL_EN : Fld :=
  ⟨0x2000000, 0x0, 1, 0, 1, .k, 0, .none, false, 0, noMax, 1⟩

/-- HLF_CTL.UDP_PORT (R422). -/
def F.HLF_CTL_UDP_PORT : Fld :=
  ⟨0x2000000, 0x0, 1, 1, 16, .k, 6878, .none, false, 1024, 65535, 1⟩

/-- HLF_CTL.SPORT_BASE (R422). -/
def F.HLF_CTL_SPORT_BASE : Fld :=
  ⟨0x2000000, 0x0, 1, 17, 16, .k, 49152, .none, false, 1024, 65519, 1⟩

/-- HLF_STATUS.IDLE (R422). -/
def F.HLF_STATUS_IDLE : Fld :=
  ⟨0x2000008, 0x0, 1, 0, 1, .c, 1, .none, false, 0, noMax, 1⟩

/-- HLF_STATUS.CONNS (R422). -/
def F.HLF_STATUS_CONNS : Fld :=
  ⟨0x2000008, 0x0, 1, 1, 15, .c, 0, .none, false, 0, noMax, 1⟩

/-- HLF_STATUS.REGIONS (R422). -/
def F.HLF_STATUS_REGIONS : Fld :=
  ⟨0x2000008, 0x0, 1, 16, 17, .c, 0, .none, false, 0, noMax, 1⟩

/-- HLF_SELF.CTRL_ID (R422). -/
def F.HLF_SELF_CTRL_ID : Fld :=
  ⟨0x2000010, 0x0, 1, 0, 16, .c, 0, .none, false, 0, noMax, 1⟩

/-- HLF_CONN_CFG.PATHS (R422). -/
def F.HLF_CONN_CFG_PATHS : Fld :=
  ⟨0x2000018, 0x0, 1, 0, 5, .l, 16, .none, false, 1, 16, 1⟩

/-- HLF_CONN_CFG.FAIL_MS (R422). -/
def F.HLF_CONN_CFG_FAIL_MS : Fld :=
  ⟨0x2000018, 0x0, 1, 5, 16, .l, 100, .none, false, 10, 10000, 1⟩

/-- HLF_CONN_CFG.IDLE_MS (R422). -/
def F.HLF_CONN_CFG_IDLE_MS : Fld :=
  ⟨0x2000018, 0x0, 1, 21, 16, .l, 1000, .none, false, 10, 60000, 1⟩

/-- HLF_CONN_CFG.PROBE_MS (R422). -/
def F.HLF_CONN_CFG_PROBE_MS : Fld :=
  ⟨0x2000018, 0x0, 1, 37, 16, .l, 10, .none, false, 1, 1000, 1⟩

/-- HLF_CC.WIN_INIT_KIB (R422). -/
def F.HLF_CC_WIN_INIT_KIB : Fld :=
  ⟨0x2000020, 0x0, 1, 0, 16, .l, 256, .none, false, 0, noMax, 1⟩

/-- HLF_CC.WIN_MIN_KIB (R422). -/
def F.HLF_CC_WIN_MIN_KIB : Fld :=
  ⟨0x2000020, 0x0, 1, 16, 16, .l, 16, .none, false, 8, 1024, 1⟩

/-- HLF_CC.WIN_MAX_KIB (R422). -/
def F.HLF_CC_WIN_MAX_KIB : Fld :=
  ⟨0x2000020, 0x0, 1, 32, 16, .l, 4096, .none, false, 0, 16384, 1⟩

/-- HLF_CC.ADD_KIB (R422). -/
def F.HLF_CC_ADD_KIB : Fld :=
  ⟨0x2000020, 0x0, 1, 48, 16, .l, 8, .none, false, 1, 256, 1⟩

/-- HLF_TC.DSCP_DPATH (R422). -/
def F.HLF_TC_DSCP_DPATH : Fld :=
  ⟨0x2000028, 0x0, 1, 0, 6, .l, 34, .none, false, 0, noMax, 1⟩

/-- HLF_TC.DSCP_BULK (R422). -/
def F.HLF_TC_DSCP_BULK : Fld :=
  ⟨0x2000028, 0x0, 1, 8, 6, .l, 10, .none, false, 0, noMax, 1⟩

/-- HLF_CNT0.PKTS_IN (R422). -/
def F.HLF_CNT0_PKTS_IN : Fld :=
  ⟨0x2000030, 0x0, 1, 0, 32, .c, 0, .none, false, 0, noMax, 1⟩

/-- HLF_CNT0.PKTS_OUT (R422). -/
def F.HLF_CNT0_PKTS_OUT : Fld :=
  ⟨0x2000030, 0x0, 1, 32, 32, .c, 0, .none, false, 0, noMax, 1⟩

/-- HLF_CNT1.RETX (R422). -/
def F.HLF_CNT1_RETX : Fld :=
  ⟨0x2000038, 0x0, 1, 0, 16, .c, 0, .none, false, 0, noMax, 1⟩

/-- HLF_CNT1.AUTH_FAIL (R422). -/
def F.HLF_CNT1_AUTH_FAIL : Fld :=
  ⟨0x2000038, 0x0, 1, 16, 16, .c, 0, .none, false, 0, noMax, 1⟩

/-- HLF_CNT1.DUP (R422). -/
def F.HLF_CNT1_DUP : Fld :=
  ⟨0x2000038, 0x0, 1, 32, 16, .c, 0, .none, false, 0, noMax, 1⟩

/-- HLF_CNT1.STALE (R422). -/
def F.HLF_CNT1_STALE : Fld :=
  ⟨0x2000038, 0x0, 1, 48, 16, .c, 0, .none, false, 0, noMax, 1⟩

/-- HLF_CNT2.PATHS_RETIRED (R422). -/
def F.HLF_CNT2_PATHS_RETIRED : Fld :=
  ⟨0x2000040, 0x0, 1, 0, 16, .c, 0, .none, false, 0, noMax, 1⟩

/-- HLF_CNT2.PAGE_STALL (R422). -/
def F.HLF_CNT2_PAGE_STALL : Fld :=
  ⟨0x2000040, 0x0, 1, 16, 16, .c, 0, .none, false, 0, noMax, 1⟩

/-- HLF_CNT2.RETRY_AFTER (R422). -/
def F.HLF_CNT2_RETRY_AFTER : Fld :=
  ⟨0x2000040, 0x0, 1, 32, 16, .c, 0, .none, false, 0, noMax, 1⟩

/-- HLF_CNT2.BUSY (R422). -/
def F.HLF_CNT2_BUSY : Fld :=
  ⟨0x2000040, 0x0, 1, 48, 16, .c, 0, .none, false, 0, noMax, 1⟩

/-- HLF_CNT3.CONN_FAILED (R422). -/
def F.HLF_CNT3_CONN_FAILED : Fld :=
  ⟨0x2000048, 0x0, 1, 0, 16, .c, 0, .none, false, 0, noMax, 1⟩

/-- HLF_CNT3.STRAY (R422). -/
def F.HLF_CNT3_STRAY : Fld :=
  ⟨0x2000048, 0x0, 1, 16, 16, .c, 0, .none, false, 0, noMax, 1⟩

/-- HLF_CNT3.OVERRUN (R422). -/
def F.HLF_CNT3_OVERRUN : Fld :=
  ⟨0x2000048, 0x0, 1, 32, 16, .c, 0, .none, false, 0, noMax, 1⟩

/-- HLF_CNT3.BAD_HDR (R422). -/
def F.HLF_CNT3_BAD_HDR : Fld :=
  ⟨0x2000048, 0x0, 1, 48, 16, .c, 0, .none, false, 0, noMax, 1⟩

/-- HLF_PORT.ROLE (R423). -/
def F.HLF_PORT_ROLE : Fld :=
  ⟨0x2000100, 0x40, 16, 0, 2, .c, 0, .none, false, 0, noMax, 1⟩

/-- HLF_PORT.LINK (R423). -/
def F.HLF_PORT_LINK : Fld :=
  ⟨0x2000100, 0x40, 16, 2, 2, .c, 0, .none, false, 0, noMax, 1⟩

/-- HLF_PORT.LANES_OK (R423). -/
def F.HLF_PORT_LANES_OK : Fld :=
  ⟨0x2000100, 0x40, 16, 4, 4, .c, 0, .none, false, 0, noMax, 1⟩

/-- HLF_PORT.PFC_PRIOS (R423). -/
def F.HLF_PORT_PFC_PRIOS : Fld :=
  ⟨0x2000100, 0x40, 16, 8, 8, .k, 0, .none, false, 0, noMax, 1⟩

/-- HLF_PORT.VLAN (R423). -/
def F.HLF_PORT_VLAN : Fld :=
  ⟨0x2000100, 0x40, 16, 16, 12, .k, 0, .none, false, 0, 4094, 1⟩

/-- HLF_PORT_MAC.MAC (R423). -/
def F.HLF_PORT_MAC_MAC : Fld :=
  ⟨0x2000108, 0x40, 16, 0, 48, .c, 0, .none, false, 0, noMax, 1⟩

/-- HLF_PORT_NH.MAC (R423). -/
def F.HLF_PORT_NH_MAC : Fld :=
  ⟨0x2000110, 0x40, 16, 0, 48, .k, 0, .none, false, 0, noMax, 1⟩

/-- HLF_PORT_IP0.ADDR_LO (R423). -/
def F.HLF_PORT_IP0_ADDR_LO : Fld :=
  ⟨0x2000118, 0x40, 16, 0, 64, .k, 0, .none, false, 0, noMax, 1⟩

/-- HLF_PORT_IP1.ADDR_HI (R423). -/
def F.HLF_PORT_IP1_ADDR_HI : Fld :=
  ⟨0x2000120, 0x40, 16, 0, 64, .k, 0, .none, false, 0, noMax, 1⟩

/-- HLF_PORT_CNT.RX_DROP (R423). -/
def F.HLF_PORT_CNT_RX_DROP : Fld :=
  ⟨0x2000128, 0x40, 16, 0, 32, .c, 0, .none, false, 0, noMax, 1⟩

/-- HLF_PORT_CNT.FCS_ERR (R423). -/
def F.HLF_PORT_CNT_FCS_ERR : Fld :=
  ⟨0x2000128, 0x40, 16, 32, 32, .c, 0, .none, false, 0, noMax, 1⟩

/-- RCE_CTL.EN (R424). -/
def F.RCE_CTL_EN : Fld :=
  ⟨0x2800000, 0x0, 1, 0, 1, .k, 0, .none, false, 0, noMax, 1⟩

/-- RCE_CTL.CNP_GAP_US (R424). -/
def F.RCE_CTL_CNP_GAP_US : Fld :=
  ⟨0x2800000, 0x0, 1, 8, 16, .l, 50, .none, false, 1, 65535, 1⟩

/-- RCE_STATUS.IDLE (R424). -/
def F.RCE_STATUS_IDLE : Fld :=
  ⟨0x2800008, 0x0, 1, 0, 1, .c, 1, .none, false, 0, noMax, 1⟩

/-- RCE_STATUS.QPS (R424). -/
def F.RCE_STATUS_QPS : Fld :=
  ⟨0x2800008, 0x0, 1, 1, 17, .c, 0, .none, false, 0, noMax, 1⟩

/-- RCE_STATUS.QP_ERR (R424). -/
def F.RCE_STATUS_QP_ERR : Fld :=
  ⟨0x2800008, 0x0, 1, 18, 17, .c, 0, .none, false, 0, noMax, 1⟩

/-- RCE_CC.DEC_PCT (R424). -/
def F.RCE_CC_DEC_PCT : Fld :=
  ⟨0x2800010, 0x0, 1, 0, 8, .l, 50, .none, false, 1, 90, 1⟩

/-- RCE_CC.INC_MBPS (R424). -/
def F.RCE_CC_INC_MBPS : Fld :=
  ⟨0x2800010, 0x0, 1, 8, 16, .l, 5000, .none, false, 1, 65535, 1⟩

/-- RCE_CC.INC_US (R424). -/
def F.RCE_CC_INC_US : Fld :=
  ⟨0x2800010, 0x0, 1, 24, 16, .l, 55, .none, false, 1, 65535, 1⟩

/-- RCE_CC.MIN_PCT (R424). -/
def F.RCE_CC_MIN_PCT : Fld :=
  ⟨0x2800010, 0x0, 1, 40, 8, .l, 1, .none, false, 1, 100, 1⟩

/-- RCE_CNT0.PKTS_IN (R424). -/
def F.RCE_CNT0_PKTS_IN : Fld :=
  ⟨0x2800018, 0x0, 1, 0, 32, .c, 0, .none, false, 0, noMax, 1⟩

/-- RCE_CNT0.PKTS_OUT (R424). -/
def F.RCE_CNT0_PKTS_OUT : Fld :=
  ⟨0x2800018, 0x0, 1, 32, 32, .c, 0, .none, false, 0, noMax, 1⟩

/-- RCE_CNT1.DUP (R424). -/
def F.RCE_CNT1_DUP : Fld :=
  ⟨0x2800020, 0x0, 1, 0, 16, .c, 0, .none, false, 0, noMax, 1⟩

/-- RCE_CNT1.NAK_ACCESS (R424). -/
def F.RCE_CNT1_NAK_ACCESS : Fld :=
  ⟨0x2800020, 0x0, 1, 16, 16, .c, 0, .none, false, 0, noMax, 1⟩

/-- RCE_CNT1.NAK_SEQ (R424). -/
def F.RCE_CNT1_NAK_SEQ : Fld :=
  ⟨0x2800020, 0x0, 1, 32, 16, .c, 0, .none, false, 0, noMax, 1⟩

/-- RCE_CNT1.RNR (R424). -/
def F.RCE_CNT1_RNR : Fld :=
  ⟨0x2800020, 0x0, 1, 48, 16, .c, 0, .none, false, 0, noMax, 1⟩

/-- RCE_CNT2.CNP_SENT (R424). -/
def F.RCE_CNT2_CNP_SENT : Fld :=
  ⟨0x2800028, 0x0, 1, 0, 16, .c, 0, .none, false, 0, noMax, 1⟩

/-- RCE_CNT2.CNP_RCVD (R424). -/
def F.RCE_CNT2_CNP_RCVD : Fld :=
  ⟨0x2800028, 0x0, 1, 16, 16, .c, 0, .none, false, 0, noMax, 1⟩

/-- RCE_CNT2.RETRY (R424). -/
def F.RCE_CNT2_RETRY : Fld :=
  ⟨0x2800028, 0x0, 1, 32, 16, .c, 0, .none, false, 0, noMax, 1⟩

/-- RCE_CNT2.QP_ERR_EVENTS (R424). -/
def F.RCE_CNT2_QP_ERR_EVENTS : Fld :=
  ⟨0x2800028, 0x0, 1, 48, 16, .c, 0, .none, false, 0, noMax, 1⟩

/-- RCE_QP_SEL.INDEX (R424). -/
def F.RCE_QP_SEL_INDEX : Fld :=
  ⟨0x2800030, 0x0, 1, 0, 16, .l, 0, .none, true, 0, noMax, 1⟩

/-- RCE_QP_STATE.STATE (R424). -/
def F.RCE_QP_STATE_STATE : Fld :=
  ⟨0x2800038, 0x0, 1, 0, 2, .c, 0, .none, false, 0, noMax, 1⟩

/-- RCE_QP_STATE.SQ_PSN (R424). -/
def F.RCE_QP_STATE_SQ_PSN : Fld :=
  ⟨0x2800038, 0x0, 1, 2, 24, .c, 0, .none, false, 0, noMax, 1⟩

/-- RCE_QP_STATE.RQ_PSN (R424). -/
def F.RCE_QP_STATE_RQ_PSN : Fld :=
  ⟨0x2800038, 0x0, 1, 26, 24, .c, 0, .none, false, 0, noMax, 1⟩

/-- RCE_QP_STATE.PORT (R424). -/
def F.RCE_QP_STATE_PORT : Fld :=
  ⟨0x2800038, 0x0, 1, 50, 4, .c, 0, .none, false, 0, noMax, 1⟩

/-- SFT_CTL.EN (R463). -/
def F.SFT_CTL_EN : Fld :=
  ⟨0x3000000, 0x0, 1, 0, 1, .k, 0, .none, false, 0, noMax, 1⟩

/-- SFT_CTL.AUTO_MERGE (R463). -/
def F.SFT_CTL_AUTO_MERGE : Fld :=
  ⟨0x3000000, 0x0, 1, 1, 1, .l, 1, .none, false, 0, noMax, 1⟩

/-- SFT_CTL.WIDEN_MAX (R463). -/
def F.SFT_CTL_WIDEN_MAX : Fld :=
  ⟨0x3000000, 0x0, 1, 2, 16, .l, 4096, .none, false, 1, 65535, 1⟩

/-- SFT_STATUS.IDLE (R463). -/
def F.SFT_STATUS_IDLE : Fld :=
  ⟨0x3000008, 0x0, 1, 0, 1, .c, 1, .view, false, 0, noMax, 1⟩

/-- SFT_STATUS.LIVE (R463). -/
def F.SFT_STATUS_LIVE : Fld :=
  ⟨0x3000008, 0x0, 1, 1, 5, .c, 16, .view, false, 0, noMax, 1⟩

/-- SFT_REGION.GIB_W (R463). -/
def F.SFT_REGION_GIB_W : Fld :=
  ⟨0x3000010, 0x0, 1, 0, 7, .k, 16, .none, false, 0, 64, 1⟩

/-- SFT_REGION.GIB_E (R463). -/
def F.SFT_REGION_GIB_E : Fld :=
  ⟨0x3000010, 0x0, 1, 8, 7, .k, 16, .none, false, 0, 64, 1⟩

/-- SFT_FREE.MIB_W (R463). -/
def F.SFT_FREE_MIB_W : Fld :=
  ⟨0x3000018, 0x0, 1, 0, 32, .c, 0, .none, false, 0, noMax, 1⟩

/-- SFT_FREE.MIB_E (R463). -/
def F.SFT_FREE_MIB_E : Fld :=
  ⟨0x3000018, 0x0, 1, 32, 32, .c, 0, .none, false, 0, noMax, 1⟩

/-- SFT_CNT0.QUERIES (R463). -/
def F.SFT_CNT0_QUERIES : Fld :=
  ⟨0x3000020, 0x0, 1, 0, 32, .c, 0, .none, false, 0, noMax, 1⟩

/-- SFT_CNT0.INSERTS (R463). -/
def F.SFT_CNT0_INSERTS : Fld :=
  ⟨0x3000020, 0x0, 1, 32, 32, .c, 0, .none, false, 0, noMax, 1⟩

/-- SFT_CNT1.PARTIAL (R463). -/
def F.SFT_CNT1_PARTIAL : Fld :=
  ⟨0x3000028, 0x0, 1, 0, 16, .c, 0, .none, false, 0, noMax, 1⟩

/-- SFT_CNT1.WIDENED (R463). -/
def F.SFT_CNT1_WIDENED : Fld :=
  ⟨0x3000028, 0x0, 1, 16, 16, .c, 0, .none, false, 0, noMax, 1⟩

/-- SFT_CNT1.MERGES (R463). -/
def F.SFT_CNT1_MERGES : Fld :=
  ⟨0x3000028, 0x0, 1, 32, 16, .c, 0, .none, false, 0, noMax, 1⟩

/-- SFT_CNT1.DELETES (R463). -/
def F.SFT_CNT1_DELETES : Fld :=
  ⟨0x3000028, 0x0, 1, 48, 16, .c, 0, .none, false, 0, noMax, 1⟩

/-- SFT_CNT2.PROBES (R463). -/
def F.SFT_CNT2_PROBES : Fld :=
  ⟨0x3000030, 0x0, 1, 0, 32, .c, 0, .none, false, 0, noMax, 1⟩

/-- SFT_CNT2.SEL_WAITS (R463). -/
def F.SFT_CNT2_SEL_WAITS : Fld :=
  ⟨0x3000030, 0x0, 1, 32, 16, .c, 0, .none, false, 0, noMax, 1⟩

/-- SFT_CNT2.INDEXES (R463). -/
def F.SFT_CNT2_INDEXES : Fld :=
  ⟨0x3000030, 0x0, 1, 48, 16, .c, 0, .none, false, 0, noMax, 1⟩

/-- SHP_CTL.EN (R489). -/
def F.SHP_CTL_EN : Fld :=
  ⟨0x3400000, 0x0, 1, 0, 1, .k, 0, .none, false, 0, noMax, 1⟩

/-- SHP_STATUS.IDLE (R489). -/
def F.SHP_STATUS_IDLE : Fld :=
  ⟨0x3400008, 0x0, 1, 0, 1, .c, 1, .none, false, 0, noMax, 1⟩

/-- SHP_RESET_POLICY.POLICY (R489). -/
def F.SHP_RESET_POLICY_POLICY : Fld :=
  ⟨0x3400010, 0x0, 1, 0, 1, .s, 0, .none, false, 0, noMax, 1⟩

/-- SHP_NODE_SEL.KIND (R489). -/
def F.SHP_NODE_SEL_KIND : Fld :=
  ⟨0x3400018, 0x0, 1, 0, 2, .l, 0, .ownWrite, true, 0, noMax, 1⟩

/-- SHP_NODE_SEL.INDEX (R489). -/
def F.SHP_NODE_SEL_INDEX : Fld :=
  ⟨0x3400018, 0x0, 1, 2, 16, .l, 0, .ownWrite, true, 0, noMax, 1⟩

/-- SHP_NODE_CFG.VALID (R489). -/
def F.SHP_NODE_CFG_VALID : Fld :=
  ⟨0x3400020, 0x0, 1, 0, 1, .c, 0, .owned, false, 0, noMax, 1⟩

/-- SHP_NODE_CFG.SHAPE (R489). -/
def F.SHP_NODE_CFG_SHAPE : Fld :=
  ⟨0x3400020, 0x0, 1, 1, 1, .c, 0, .owned, false, 0, noMax, 1⟩

/-- SHP_NODE_CFG.RATE (R489). -/
def F.SHP_NODE_CFG_RATE : Fld :=
  ⟨0x3400020, 0x0, 1, 2, 32, .c, 0, .owned, false, 0, noMax, 1⟩

/-- SHP_NODE_CFG.OWNER (R489). -/
def F.SHP_NODE_CFG_OWNER : Fld :=
  ⟨0x3400020, 0x0, 1, 34, 5, .c, 0, .owned, false, 0, noMax, 1⟩

/-- SHP_NODE_CFG.BUDGET_ON (R489). -/
def F.SHP_NODE_CFG_BUDGET_ON : Fld :=
  ⟨0x3400020, 0x0, 1, 39, 1, .c, 0, .owned, false, 0, noMax, 1⟩

/-- SHP_NODE_LVL.BURST (R489). -/
def F.SHP_NODE_LVL_BURST : Fld :=
  ⟨0x3400028, 0x0, 1, 0, 40, .c, 0, .owned, false, 1, noMax, 1⟩

/-- SHP_NODE_LEVEL.LEVEL (R489). -/
def F.SHP_NODE_LEVEL_LEVEL : Fld :=
  ⟨0x3400030, 0x0, 1, 0, 48, .c, 0, .owned, false, 0, noMax, 1⟩

/-- SHP_NODE_BUD.BUDGET (R489). -/
def F.SHP_NODE_BUD_BUDGET : Fld :=
  ⟨0x3400038, 0x0, 1, 0, 64, .c, 0, .owned, false, 0, noMax, 1⟩

/-- SHP_NODE_SVC.PART_MASK (R489). -/
def F.SHP_NODE_SVC_PART_MASK : Fld :=
  ⟨0x3400040, 0x0, 1, 0, 32, .c, 0, .owned, false, 0, noMax, 1⟩

/-- SHP_NODE_SVC.PROMPT_W (R489). -/
def F.SHP_NODE_SVC_PROMPT_W : Fld :=
  ⟨0x3400040, 0x0, 1, 32, 11, .c, 0, .owned, false, 0, 1024, 1⟩

/-- SHP_NODE_SVC.REBUILD_W (R489). -/
def F.SHP_NODE_SVC_REBUILD_W : Fld :=
  ⟨0x3400040, 0x0, 1, 43, 11, .c, 0, .owned, false, 0, 1024, 1⟩

/-- SHP_NODE_OVH.OVERHEAD (R489). -/
def F.SHP_NODE_OVH_OVERHEAD : Fld :=
  ⟨0x3400048, 0x0, 1, 0, 16, .c, 0, .owned, false, 0, noMax, 1⟩

/-- SHP_CNT.SHAPED (R489). -/
def F.SHP_CNT_SHAPED : Fld :=
  ⟨0x3400050, 0x0, 1, 0, 16, .c, 0, .none, false, 0, noMax, 1⟩

/-- SHP_CNT.BUDGET_ENDS (R489). -/
def F.SHP_CNT_BUDGET_ENDS : Fld :=
  ⟨0x3400050, 0x0, 1, 16, 16, .c, 0, .none, false, 0, noMax, 1⟩

/-- SHP_CNT.CHARGED_M (R489). -/
def F.SHP_CNT_CHARGED_M : Fld :=
  ⟨0x3400050, 0x0, 1, 32, 32, .c, 0, .none, false, 0, noMax, 1⟩

/-- ISO_MODE.MODE (R489). -/
def F.ISO_MODE_MODE : Fld :=
  ⟨0x3400800, 0x0, 1, 0, 1, .c, 0, .view, false, 0, noMax, 1⟩

/-- ISO_MODE.STRICT_ACTIVE (R489). -/
def F.ISO_MODE_STRICT_ACTIVE : Fld :=
  ⟨0x3400800, 0x0, 1, 1, 1, .c, 0, .view, false, 0, noMax, 1⟩

/-- ISO_MODE.FRAME_EXP (R489). -/
def F.ISO_MODE_FRAME_EXP : Fld :=
  ⟨0x3400800, 0x0, 1, 4, 5, .c, 20, .view, false, 16, 24, 1⟩

/-- ISO_SHED.RANKS (R489). -/
def F.ISO_SHED_RANKS : Fld :=
  ⟨0x3400808, 0x0, 1, 0, 21, .s, 1754760, .none, false, 0, noMax, 1⟩

/-- ISO_SHED.STEP_MS (R489). -/
def F.ISO_SHED_STEP_MS : Fld :=
  ⟨0x3400808, 0x0, 1, 24, 8, .l, 20, .none, false, 1, 255, 1⟩

/-- ISO_SHED_ST.STAGE (R489). -/
def F.ISO_SHED_ST_STAGE : Fld :=
  ⟨0x3400810, 0x0, 1, 0, 3, .c, 0, .view, false, 0, noMax, 1⟩

/-- ISO_SHED_ST.LEVELS (R489). -/
def F.ISO_SHED_ST_LEVELS : Fld :=
  ⟨0x3400810, 0x0, 1, 3, 8, .c, 0, .view, false, 0, noMax, 1⟩

/-- ISO_SHED_ST.CHANGES (R489). -/
def F.ISO_SHED_ST_CHANGES : Fld :=
  ⟨0x3400810, 0x0, 1, 16, 16, .c, 0, .view, false, 0, noMax, 1⟩

/-- ISO_PART.STATE (R490). -/
def F.ISO_PART_STATE : Fld :=
  ⟨0x3401000, 0x40, 32, 0, 2, .c, 0, .owned, false, 0, noMax, 1⟩

/-- ISO_PART.PRIO_MAX (R490). -/
def F.ISO_PART_PRIO_MAX : Fld :=
  ⟨0x3401000, 0x40, 32, 2, 3, .c, 0, .owned, false, 0, noMax, 1⟩

/-- ISO_PART.SLOTS (R490). -/
def F.ISO_PART_SLOTS : Fld :=
  ⟨0x3401000, 0x40, 32, 5, 7, .c, 0, .owned, false, 0, 64, 1⟩

/-- ISO_PART.LEND (R490). -/
def F.ISO_PART_LEND : Fld :=
  ⟨0x3401000, 0x40, 32, 12, 1, .c, 1, .owned, false, 0, noMax, 1⟩

/-- ISO_PART.BORROW (R490). -/
def F.ISO_PART_BORROW : Fld :=
  ⟨0x3401000, 0x40, 32, 13, 1, .c, 1, .owned, false, 0, noMax, 1⟩

/-- ISO_PART.EQ (R490). -/
def F.ISO_PART_EQ : Fld :=
  ⟨0x3401000, 0x40, 32, 16, 16, .c, 0, .owned, false, 0, noMax, 1⟩

/-- ISO_PART.IDLE_EXPIRE_S (R490). -/
def F.ISO_PART_IDLE_EXPIRE_S : Fld :=
  ⟨0x3401000, 0x40, 32, 32, 32, .c, 0, .owned, false, 0, noMax, 1⟩

/-- ISO_PART_ENG.ENG_W (R490). -/
def F.ISO_PART_ENG_ENG_W : Fld :=
  ⟨0x3401008, 0x40, 32, 0, 6, .c, 0, .owned, false, 0, 32, 1⟩

/-- ISO_PART_ENG.ENG_E (R490). -/
def F.ISO_PART_ENG_ENG_E : Fld :=
  ⟨0x3401008, 0x40, 32, 8, 6, .c, 0, .owned, false, 0, 32, 1⟩

/-- ISO_PART_PAGES.UNITS_W (R490). -/
def F.ISO_PART_PAGES_UNITS_W : Fld :=
  ⟨0x3401010, 0x40, 32, 0, 32, .c, 0, .owned, false, 0, noMax, 1⟩

/-- ISO_PART_PAGES.UNITS_E (R490). -/
def F.ISO_PART_PAGES_UNITS_E : Fld :=
  ⟨0x3401010, 0x40, 32, 32, 32, .c, 0, .owned, false, 0, noMax, 1⟩

/-- ISO_PART_LIM.SESSIONS (R490). -/
def F.ISO_PART_LIM_SESSIONS : Fld :=
  ⟨0x3401018, 0x40, 32, 0, 23, .c, 0, .owned, false, 0, 4194304, 1⟩

/-- ISO_PART_LIM.CONTEXTS (R490). -/
def F.ISO_PART_LIM_CONTEXTS : Fld :=
  ⟨0x3401018, 0x40, 32, 23, 19, .c, 0, .owned, false, 0, 262144, 1⟩

/-- ISO_PART_LIM.BATCH (R490). -/
def F.ISO_PART_LIM_BATCH : Fld :=
  ⟨0x3401018, 0x40, 32, 42, 16, .c, 0, .owned, false, 0, 28672, 1⟩

/-- ISO_PART_LIM2.GRAMMARS (R490). -/
def F.ISO_PART_LIM2_GRAMMARS : Fld :=
  ⟨0x3401020, 0x40, 32, 0, 11, .c, 0, .owned, false, 0, 1024, 1⟩

/-- ISO_PART_LIM2.INDEXES (R490). -/
def F.ISO_PART_LIM2_INDEXES : Fld :=
  ⟨0x3401020, 0x40, 32, 11, 16, .c, 0, .owned, false, 0, noMax, 1⟩

/-- ISO_PART_LIM2.PT_BLOCKS (R490). -/
def F.ISO_PART_LIM2_PT_BLOCKS : Fld :=
  ⟨0x3401020, 0x40, 32, 27, 24, .c, 0, .owned, false, 0, noMax, 1⟩

/-- ISO_PART_USE.SESSIONS (R490). -/
def F.ISO_PART_USE_SESSIONS : Fld :=
  ⟨0x3401028, 0x40, 32, 0, 23, .c, 0, .owned, false, 0, noMax, 1⟩

/-- ISO_PART_USE.BATCH (R490). -/
def F.ISO_PART_USE_BATCH : Fld :=
  ⟨0x3401028, 0x40, 32, 23, 16, .c, 0, .owned, false, 0, noMax, 1⟩

/-- ISO_PART_USE.UNITS_K (R490). -/
def F.ISO_PART_USE_UNITS_K : Fld :=
  ⟨0x3401028, 0x40, 32, 39, 25, .c, 0, .owned, false, 0, noMax, 1⟩

/-- ISO_PART_CNT.QUOTA (R490). -/
def F.ISO_PART_CNT_QUOTA : Fld :=
  ⟨0x3401030, 0x40, 32, 0, 16, .c, 0, .owned, false, 0, noMax, 1⟩

/-- ISO_PART_CNT.THERMAL (R490). -/
def F.ISO_PART_CNT_THERMAL : Fld :=
  ⟨0x3401030, 0x40, 32, 16, 16, .c, 0, .owned, false, 0, noMax, 1⟩

/-- ISO_PART_CNT.ISO_GROUP (R490). -/
def F.ISO_PART_CNT_ISO_GROUP : Fld :=
  ⟨0x3401030, 0x40, 32, 32, 16, .c, 0, .owned, false, 0, noMax, 1⟩

/-- SEC_CTL.EN (R511). -/
def F.SEC_CTL_EN : Fld :=
  ⟨0x3800000, 0x0, 1, 0, 1, .k, 0, .none, false, 0, noMax, 1⟩

/-- SEC_CTL.REQUIRE_WRAPPED (R511). -/
def F.SEC_CTL_REQUIRE_WRAPPED : Fld :=
  ⟨0x3800000, 0x0, 1, 1, 1, .l, 0, .none, false, 0, noMax, 1⟩

/-- SEC_CTL.TENANT_ATTEST (R511). -/
def F.SEC_CTL_TENANT_ATTEST : Fld :=
  ⟨0x3800000, 0x0, 1, 2, 1, .l, 1, .none, false, 0, noMax, 1⟩

/-- SEC_STATUS.IDLE (R511). -/
def F.SEC_STATUS_IDLE : Fld :=
  ⟨0x3800008, 0x0, 1, 0, 1, .c, 1, .view, false, 0, noMax, 1⟩

/-- SEC_STATUS.ENROLLED (R511). -/
def F.SEC_STATUS_ENROLLED : Fld :=
  ⟨0x3800008, 0x0, 1, 1, 1, .c, 0, .view, false, 0, noMax, 1⟩

/-- SEC_STATUS.PREV_HELD (R511). -/
def F.SEC_STATUS_PREV_HELD : Fld :=
  ⟨0x3800008, 0x0, 1, 2, 1, .c, 0, .view, false, 0, noMax, 1⟩

/-- SEC_STATUS.LIVE_SEAL (R511). -/
def F.SEC_STATUS_LIVE_SEAL : Fld :=
  ⟨0x3800008, 0x0, 1, 3, 3, .c, 4, .view, false, 0, noMax, 1⟩

/-- SEC_SET_ID0.LO (R511). -/
def F.SEC_SET_ID0_LO : Fld :=
  ⟨0x3800010, 0x0, 1, 0, 64, .c, 0, .view, false, 0, noMax, 1⟩

/-- SEC_SET_ID1.HI (R511). -/
def F.SEC_SET_ID1_HI : Fld :=
  ⟨0x3800018, 0x0, 1, 0, 64, .c, 0, .view, false, 0, noMax, 1⟩

/-- SEC_KEYGEN.CUR (R511). -/
def F.SEC_KEYGEN_CUR : Fld :=
  ⟨0x3800020, 0x0, 1, 0, 32, .c, 0, .none, false, 0, noMax, 1⟩

/-- SEC_KEYGEN.PREV (R511). -/
def F.SEC_KEYGEN_PREV : Fld :=
  ⟨0x3800020, 0x0, 1, 32, 32, .c, 0, .none, false, 0, noMax, 1⟩

/-- SEC_SVN.L1 (R511). -/
def F.SEC_SVN_L1 : Fld :=
  ⟨0x3800028, 0x0, 1, 0, 16, .c, 0, .none, false, 0, noMax, 1⟩

/-- SEC_SVN.L2 (R511). -/
def F.SEC_SVN_L2 : Fld :=
  ⟨0x3800028, 0x0, 1, 16, 16, .c, 0, .none, false, 0, noMax, 1⟩

/-- SEC_SVN.MIN_L1 (R511). -/
def F.SEC_SVN_MIN_L1 : Fld :=
  ⟨0x3800028, 0x0, 1, 32, 16, .c, 0, .none, false, 0, noMax, 1⟩

/-- SEC_SVN.MIN_L2 (R511). -/
def F.SEC_SVN_MIN_L2 : Fld :=
  ⟨0x3800028, 0x0, 1, 48, 16, .c, 0, .none, false, 0, noMax, 1⟩

/-- SEC_BOOT.COUNT (R511). -/
def F.SEC_BOOT_COUNT : Fld :=
  ⟨0x3800030, 0x0, 1, 0, 64, .c, 0, .none, false, 0, noMax, 1⟩

/-- SEC_ENROL.SEQ (R511). -/
def F.SEC_ENROL_SEQ : Fld :=
  ⟨0x3800038, 0x0, 1, 0, 32, .c, 0, .none, false, 0, noMax, 1⟩

/-- SEC_STAGE.GIB (R511). -/
def F.SEC_STAGE_GIB : Fld :=
  ⟨0x3800040, 0x0, 1, 0, 7, .k, 16, .none, false, 0, 64, 1⟩

/-- SEC_STAGE.HOLD_S (R511). -/
def F.SEC_STAGE_HOLD_S : Fld :=
  ⟨0x3800040, 0x0, 1, 8, 11, .l, 60, .none, false, 1, 2047, 1⟩

/-- SEC_STAGE.STAGED (R511). -/
def F.SEC_STAGE_STAGED : Fld :=
  ⟨0x3800040, 0x0, 1, 20, 3, .c, 0, .none, false, 0, 4, 1⟩

/-- SEC_SCRUB.BUSY (R511). -/
def F.SEC_SCRUB_BUSY : Fld :=
  ⟨0x3800048, 0x0, 1, 0, 1, .c, 0, .none, false, 0, noMax, 1⟩

/-- SEC_SCRUB.MODE (R511). -/
def F.SEC_SCRUB_MODE : Fld :=
  ⟨0x3800048, 0x0, 1, 1, 2, .c, 0, .none, false, 0, noMax, 1⟩

/-- SEC_SCRUB.PCT (R511). -/
def F.SEC_SCRUB_PCT : Fld :=
  ⟨0x3800048, 0x0, 1, 3, 7, .c, 0, .none, false, 0, noMax, 1⟩

/-- SEC_CNT.ATTESTS (R511). -/
def F.SEC_CNT_ATTESTS : Fld :=
  ⟨0x3800050, 0x0, 1, 0, 16, .c, 0, .none, false, 0, noMax, 1⟩

/-- SEC_CNT.UNWRAP_FAIL (R511). -/
def F.SEC_CNT_UNWRAP_FAIL : Fld :=
  ⟨0x3800050, 0x0, 1, 16, 16, .c, 0, .none, false, 0, noMax, 1⟩

/-- SEC_CNT.ENROL_FAIL (R511). -/
def F.SEC_CNT_ENROL_FAIL : Fld :=
  ⟨0x3800050, 0x0, 1, 32, 16, .c, 0, .none, false, 0, noMax, 1⟩

/-- SEC_CNT.TAG_MISS (R511). -/
def F.SEC_CNT_TAG_MISS : Fld :=
  ⟨0x3800050, 0x0, 1, 48, 16, .c, 0, .none, false, 0, noMax, 1⟩

/-- SEC_MKGEN.GEN (R511). -/
def F.SEC_MKGEN_GEN : Fld :=
  ⟨0x3800100, 0x8, 32, 0, 32, .c, 1, .none, false, 0, noMax, 1⟩

/-- CMD_CTL.EN (R541). -/
def F.CMD_CTL_EN : Fld :=
  ⟨0x400000, 0x0, 1, 0, 1, .k, 0, .fn, false, 0, noMax, 1⟩

/-- CMD_CTL.SYS_EQ (R541). -/
def F.CMD_CTL_SYS_EQ : Fld :=
  ⟨0x400000, 0x0, 1, 16, 16, .l, 65535, .fn, false, 0, noMax, 1⟩

/-- CMD_STATUS.IDLE (R541). -/
def F.CMD_STATUS_IDLE : Fld :=
  ⟨0x400008, 0x0, 1, 0, 1, .c, 1, .fn, false, 0, noMax, 1⟩

/-- CMD_STATUS.RINGS (R541). -/
def F.CMD_STATUS_RINGS : Fld :=
  ⟨0x400008, 0x0, 1, 1, 7, .c, 0, .fn, false, 0, noMax, 1⟩

/-- CMD_STATUS.EQS (R541). -/
def F.CMD_STATUS_EQS : Fld :=
  ⟨0x400008, 0x0, 1, 8, 11, .c, 0, .fn, false, 0, noMax, 1⟩

/-- CMD_LIMITS.RINGS_MAX (R541). -/
def F.CMD_LIMITS_RINGS_MAX : Fld :=
  ⟨0x400010, 0x0, 1, 0, 7, .c, 64, .fn, false, 0, noMax, 1⟩

/-- CMD_LIMITS.EQS_MAX (R541). -/
def F.CMD_LIMITS_EQS_MAX : Fld :=
  ⟨0x400010, 0x0, 1, 7, 11, .c, 1024, .fn, false, 0, noMax, 1⟩

/-- CMD_LIMITS.VECTORS (R541). -/
def F.CMD_LIMITS_VECTORS : Fld :=
  ⟨0x400010, 0x0, 1, 18, 12, .c, 2048, .fn, false, 0, noMax, 1⟩

/-- CMD_CNT.COMMANDS (R541). -/
def F.CMD_CNT_COMMANDS : Fld :=
  ⟨0x400018, 0x0, 1, 0, 32, .c, 0, .fn, true, 0, noMax, 1⟩

/-- CMD_CNT.SEQ_GAP (R541). -/
def F.CMD_CNT_SEQ_GAP : Fld :=
  ⟨0x400018, 0x0, 1, 32, 16, .c, 0, .fn, true, 0, noMax, 1⟩

/-- CMD_CNT.REPLAYS (R541). -/
def F.CMD_CNT_REPLAYS : Fld :=
  ⟨0x400018, 0x0, 1, 48, 16, .c, 0, .fn, true, 0, noMax, 1⟩

/-- CMD_RQ_BASE.ADDR (R542). -/
def F.CMD_RQ_BASE_ADDR : Fld :=
  ⟨0x401000, 0x40, 64, 0, 64, .k, 0, .fnWrite, true, 0, noMax, 4096⟩

/-- CMD_RP_BASE.ADDR (R542). -/
def F.CMD_RP_BASE_ADDR : Fld :=
  ⟨0x401008, 0x40, 64, 0, 64, .k, 0, .fnWrite, true, 0, noMax, 4096⟩

/-- CMD_RQ_CFG.EN (R542). -/
def F.CMD_RQ_CFG_EN : Fld :=
  ⟨0x401010, 0x40, 64, 0, 1, .l, 0, .fnWrite, true, 0, noMax, 1⟩

/-- CMD_RQ_CFG.RQ_LOG2 (R542). -/
def F.CMD_RQ_CFG_RQ_LOG2 : Fld :=
  ⟨0x401010, 0x40, 64, 1, 5, .k, 6, .fnWrite, true, 6, 16, 1⟩

/-- CMD_RQ_CFG.RP_LOG2 (R542). -/
def F.CMD_RQ_CFG_RP_LOG2 : Fld :=
  ⟨0x401010, 0x40, 64, 6, 5, .k, 6, .fnWrite, true, 6, 18, 1⟩

/-- CMD_RQ_CFG.VECTOR (R542). -/
def F.CMD_RQ_CFG_VECTOR : Fld :=
  ⟨0x401010, 0x40, 64, 11, 11, .k, 0, .fnWrite, true, 0, noMax, 1⟩

/-- CMD_RQ_CFG.MOD_COUNT (R542). -/
def F.CMD_RQ_CFG_MOD_COUNT : Fld :=
  ⟨0x401010, 0x40, 64, 24, 8, .l, 1, .fnWrite, true, 0, noMax, 1⟩

/-- CMD_RQ_CFG.MOD_US (R542). -/
def F.CMD_RQ_CFG_MOD_US : Fld :=
  ⟨0x401010, 0x40, 64, 32, 16, .l, 8, .fnWrite, true, 0, noMax, 1⟩

/-- CMD_RQ_DB.TAIL (R542). -/
def F.CMD_RQ_DB_TAIL : Fld :=
  ⟨0x401018, 0x40, 64, 0, 32, .l, 0, .fnWrite, true, 0, noMax, 1⟩

/-- CMD_RP_DB.HEAD (R542). -/
def F.CMD_RP_DB_HEAD : Fld :=
  ⟨0x401020, 0x40, 64, 0, 32, .l, 0, .fnWrite, true, 0, noMax, 1⟩

/-- CMD_RP_DB.ARM (R542). -/
def F.CMD_RP_DB_ARM : Fld :=
  ⟨0x401020, 0x40, 64, 32, 1, .l, 0, .fnWrite, true, 0, noMax, 1⟩

/-- CMD_HSEQ.NEXT (R542). -/
def F.CMD_HSEQ_NEXT : Fld :=
  ⟨0x401028, 0x40, 64, 0, 32, .c, 0, .fn, true, 0, noMax, 1⟩

/-- CMD_HSEQ.LOG_LO (R542). -/
def F.CMD_HSEQ_LOG_LO : Fld :=
  ⟨0x401028, 0x40, 64, 32, 32, .c, 0, .fn, true, 0, noMax, 1⟩

/-- CMD_DSEQ.LAST (R542). -/
def F.CMD_DSEQ_LAST : Fld :=
  ⟨0x401030, 0x40, 64, 0, 32, .c, 0, .fn, true, 0, noMax, 1⟩

/-- CMD_RQ_STATUS.TAKEN (R542). -/
def F.CMD_RQ_STATUS_TAKEN : Fld :=
  ⟨0x401038, 0x40, 64, 0, 32, .c, 0, .fn, true, 0, noMax, 1⟩

/-- CMD_RQ_STATUS.STATE (R542). -/
def F.CMD_RQ_STATUS_STATE : Fld :=
  ⟨0x401038, 0x40, 64, 32, 2, .c, 0, .fn, true, 0, noMax, 1⟩

/-- CMD_RQ_STATUS.STALLED (R542). -/
def F.CMD_RQ_STATUS_STALLED : Fld :=
  ⟨0x401038, 0x40, 64, 34, 1, .c, 0, .fn, true, 0, noMax, 1⟩

/-- CMD_EQ_BASE.ADDR (R543). -/
def F.CMD_EQ_BASE_ADDR : Fld :=
  ⟨0x410000, 0x20, 1024, 0, 64, .k, 0, .fnWrite, true, 0, noMax, 4096⟩

/-- CMD_EQ_CFG.EN (R543). -/
def F.CMD_EQ_CFG_EN : Fld :=
  ⟨0x410008, 0x20, 1024, 0, 1, .l, 0, .fnWrite, true, 0, noMax, 1⟩

/-- CMD_EQ_CFG.LOG2 (R543). -/
def F.CMD_EQ_CFG_LOG2 : Fld :=
  ⟨0x410008, 0x20, 1024, 1, 5, .k, 8, .fnWrite, true, 8, 20, 1⟩

/-- CMD_EQ_CFG.VECTOR (R543). -/
def F.CMD_EQ_CFG_VECTOR : Fld :=
  ⟨0x410008, 0x20, 1024, 6, 11, .k, 0, .fnWrite, true, 0, noMax, 1⟩

/-- CMD_EQ_CFG.MOD_COUNT (R543). -/
def F.CMD_EQ_CFG_MOD_COUNT : Fld :=
  ⟨0x410008, 0x20, 1024, 24, 8, .l, 1, .fnWrite, true, 0, noMax, 1⟩

/-- CMD_EQ_CFG.MOD_US (R543). -/
def F.CMD_EQ_CFG_MOD_US : Fld :=
  ⟨0x410008, 0x20, 1024, 32, 16, .l, 8, .fnWrite, true, 0, noMax, 1⟩

/-- CMD_EQ_DB.HEAD (R543). -/
def F.CMD_EQ_DB_HEAD : Fld :=
  ⟨0x410010, 0x20, 1024, 0, 32, .l, 0, .fnWrite, true, 0, noMax, 1⟩

/-- CMD_EQ_DB.ARM (R543). -/
def F.CMD_EQ_DB_ARM : Fld :=
  ⟨0x410010, 0x20, 1024, 32, 1, .l, 0, .fnWrite, true, 0, noMax, 1⟩

/-- CMD_EQ_STATUS.ESEQ (R543). -/
def F.CMD_EQ_STATUS_ESEQ : Fld :=
  ⟨0x410018, 0x20, 1024, 0, 32, .c, 0, .fn, true, 0, noMax, 1⟩

/-- CMD_EQ_STATUS.BACKLOG (R543). -/
def F.CMD_EQ_STATUS_BACKLOG : Fld :=
  ⟨0x410018, 0x20, 1024, 32, 16, .c, 0, .fn, true, 0, noMax, 1⟩

/-- CMD_EQ_STATUS.LOST (R543). -/
def F.CMD_EQ_STATUS_LOST : Fld :=
  ⟨0x410018, 0x20, 1024, 48, 14, .c, 0, .fn, true, 0, noMax, 1⟩

/-- CMD_EQ_STATUS.STATE (R543). -/
def F.CMD_EQ_STATUS_STATE : Fld :=
  ⟨0x410018, 0x20, 1024, 62, 2, .c, 0, .fn, true, 0, noMax, 1⟩

/-- CKP_CTL.EN (R564). -/
def F.CKP_CTL_EN : Fld :=
  ⟨0x3C00000, 0x0, 1, 0, 1, .k, 0, .none, false, 0, noMax, 1⟩

/-- CKP_CTL.AUTO_EN (R564). -/
def F.CKP_CTL_AUTO_EN : Fld :=
  ⟨0x3C00000, 0x0, 1, 1, 1, .l, 1, .none, false, 0, noMax, 1⟩

/-- CKP_STATUS.IDLE (R564). -/
def F.CKP_STATUS_IDLE : Fld :=
  ⟨0x3C00008, 0x0, 1, 0, 1, .c, 1, .none, false, 0, noMax, 1⟩

/-- CKP_STATUS.ACTIVE (R564). -/
def F.CKP_STATUS_ACTIVE : Fld :=
  ⟨0x3C00008, 0x0, 1, 1, 7, .c, 0, .none, false, 0, 64, 1⟩

/-- CKP_CFG.LEAD_ROWS (R564). -/
def F.CKP_CFG_LEAD_ROWS : Fld :=
  ⟨0x3C00010, 0x0, 1, 0, 8, .s, 2, .none, false, 1, 255, 1⟩

/-- CKP_CFG.PRIO (R564). -/
def F.CKP_CFG_PRIO : Fld :=
  ⟨0x3C00010, 0x0, 1, 8, 3, .s, 1, .none, false, 0, 6, 1⟩

/-- CKP_CFG.PERIOD_S (R564). -/
def F.CKP_CFG_PERIOD_S : Fld :=
  ⟨0x3C00010, 0x0, 1, 16, 16, .s, 0, .none, false, 0, noMax, 1⟩

/-- CKP_CFG.MIN_GAP_S (R564). -/
def F.CKP_CFG_MIN_GAP_S : Fld :=
  ⟨0x3C00010, 0x0, 1, 32, 16, .s, 60, .none, false, 0, noMax, 1⟩

/-- CKP_CFG.WRITE_S (R564). -/
def F.CKP_CFG_WRITE_S : Fld :=
  ⟨0x3C00010, 0x0, 1, 48, 16, .s, 600, .none, false, 10, 65535, 1⟩

/-- CKP_TRIG.MASK (R564). -/
def F.CKP_TRIG_MASK : Fld :=
  ⟨0x3C00018, 0x0, 1, 0, 6, .l, 63, .none, false, 0, noMax, 1⟩

/-- CKP_TRIG.SHED_STAGE (R564). -/
def F.CKP_TRIG_SHED_STAGE : Fld :=
  ⟨0x3C00018, 0x0, 1, 8, 3, .l, 4, .none, false, 1, 7, 1⟩

/-- CKP_TRIG.AUTO_MX4 (R564). -/
def F.CKP_TRIG_AUTO_MX4 : Fld :=
  ⟨0x3C00018, 0x0, 1, 12, 1, .l, 0, .none, false, 0, noMax, 1⟩

/-- CKP_TRIG.AUTO_INDEXES (R564). -/
def F.CKP_TRIG_AUTO_INDEXES : Fld :=
  ⟨0x3C00018, 0x0, 1, 13, 1, .l, 1, .none, false, 0, noMax, 1⟩

/-- CKP_TRIG.AUTO_MIRROR (R564). -/
def F.CKP_TRIG_AUTO_MIRROR : Fld :=
  ⟨0x3C00018, 0x0, 1, 14, 1, .l, 1, .none, false, 0, noMax, 1⟩

/-- CKP_CNT.DONE (R564). -/
def F.CKP_CNT_DONE : Fld :=
  ⟨0x3C00020, 0x0, 1, 0, 16, .c, 0, .none, false, 0, noMax, 1⟩

/-- CKP_CNT.FAILED (R564). -/
def F.CKP_CNT_FAILED : Fld :=
  ⟨0x3C00020, 0x0, 1, 16, 16, .c, 0, .none, false, 0, noMax, 1⟩

/-- CKP_CNT.AUTO (R564). -/
def F.CKP_CNT_AUTO : Fld :=
  ⟨0x3C00020, 0x0, 1, 32, 16, .c, 0, .none, false, 0, noMax, 1⟩

/-- CKP_CNT.SKIPPED (R564). -/
def F.CKP_CNT_SKIPPED : Fld :=
  ⟨0x3C00020, 0x0, 1, 48, 16, .c, 0, .none, false, 0, noMax, 1⟩

/-- CKP_CNT1.RESTORES (R564). -/
def F.CKP_CNT1_RESTORES : Fld :=
  ⟨0x3C00028, 0x0, 1, 0, 16, .c, 0, .none, false, 0, noMax, 1⟩

/-- CKP_CNT1.MISMATCH (R564). -/
def F.CKP_CNT1_MISMATCH : Fld :=
  ⟨0x3C00028, 0x0, 1, 16, 16, .c, 0, .none, false, 0, noMax, 1⟩

/-- CKP_CNT1.WAITS (R564). -/
def F.CKP_CNT1_WAITS : Fld :=
  ⟨0x3C00028, 0x0, 1, 32, 16, .c, 0, .none, false, 0, noMax, 1⟩

/-- CKP_GRP_GEN.LAST (R565). -/
def F.CKP_GRP_GEN_LAST : Fld :=
  ⟨0x3C01000, 0x20, 64, 0, 32, .c, 0, .none, false, 0, noMax, 1⟩

/-- CKP_GRP_GEN.IN_PROG (R565). -/
def F.CKP_GRP_GEN_IN_PROG : Fld :=
  ⟨0x3C01000, 0x20, 64, 32, 1, .c, 0, .none, false, 0, noMax, 1⟩

/-- CKP_GRP_ROW.ROW (R565). -/
def F.CKP_GRP_ROW_ROW : Fld :=
  ⟨0x3C01008, 0x20, 64, 0, 48, .c, 0, .none, false, 0, noMax, 1⟩

/-- CKP_GRP_CUT.ROW (R565). -/
def F.CKP_GRP_CUT_ROW : Fld :=
  ⟨0x3C01010, 0x20, 64, 0, 48, .c, 0, .none, false, 0, noMax, 1⟩

/-- RST_CAUSE.CAUSE (R593). -/
def F.RST_CAUSE_CAUSE : Fld :=
  ⟨0x100000, 0x0, 1, 0, 8, .c, 0, .none, false, 0, noMax, 1⟩

/-- RST_CAUSE.DETAIL (R593). -/
def F.RST_CAUSE_DETAIL : Fld :=
  ⟨0x100000, 0x0, 1, 8, 16, .c, 0, .none, false, 0, noMax, 1⟩

/-- RST_CAUSE.BOOT (R593). -/
def F.RST_CAUSE_BOOT : Fld :=
  ⟨0x100000, 0x0, 1, 32, 32, .c, 0, .none, false, 0, noMax, 1⟩

/-- RST_CAUSE_TIME.NS (R593). -/
def F.RST_CAUSE_TIME_NS : Fld :=
  ⟨0x100008, 0x0, 1, 0, 64, .c, 0, .none, false, 0, noMax, 1⟩

/-- RST_STATE.PHASE (R593). -/
def F.RST_STATE_PHASE : Fld :=
  ⟨0x100010, 0x0, 1, 0, 3, .c, 0, .view, false, 0, noMax, 1⟩

/-- RST_STATE.STEP (R593). -/
def F.RST_STATE_STEP : Fld :=
  ⟨0x100010, 0x0, 1, 3, 4, .c, 1, .view, false, 0, noMax, 1⟩

/-- RST_STATE.DETAIL (R593). -/
def F.RST_STATE_DETAIL : Fld :=
  ⟨0x100010, 0x0, 1, 8, 8, .c, 0, .view, false, 0, noMax, 1⟩

/-- RST_STATE.SLOT (R593). -/
def F.RST_STATE_SLOT : Fld :=
  ⟨0x100010, 0x0, 1, 16, 1, .c, 0, .view, false, 0, noMax, 1⟩

/-- RST_CTL.GO (R593). -/
def F.RST_CTL_GO : Fld :=
  ⟨0x100018, 0x0, 1, 0, 1, .l, 0, .none, false, 0, noMax, 1⟩

/-- RST_BLK.RESETTING (R593). -/
def F.RST_BLK_RESETTING : Fld :=
  ⟨0x100020, 0x0, 1, 0, 12, .c, 0, .none, false, 0, noMax, 1⟩

/-- RST_BLK.IDLE (R593). -/
def F.RST_BLK_IDLE : Fld :=
  ⟨0x100020, 0x0, 1, 16, 12, .c, 4095, .none, false, 0, noMax, 1⟩

/-- RST_OPT_IMAGE.BYTES (R593). -/
def F.RST_OPT_IMAGE_BYTES : Fld :=
  ⟨0x100100, 0x8, 8, 0, 64, .c, 0, .none, false, 0, noMax, 1⟩

/-- CLK_STATUS.CORE_MHZ (R593). -/
def F.CLK_STATUS_CORE_MHZ : Fld :=
  ⟨0x100200, 0x0, 1, 0, 12, .c, 1800, .none, false, 0, noMax, 1⟩

/-- CLK_STATUS.REF_LOCK (R593). -/
def F.CLK_STATUS_REF_LOCK : Fld :=
  ⟨0x100200, 0x0, 1, 12, 1, .c, 0, .none, false, 0, noMax, 1⟩

/-- FLT_CTL.RETRIES (R594). -/
def F.FLT_CTL_RETRIES : Fld :=
  ⟨0x3E00000, 0x0, 1, 0, 4, .l, 3, .none, false, 1, 15, 1⟩

/-- FLT_CTL.WINDOW_H (R594). -/
def F.FLT_CTL_WINDOW_H : Fld :=
  ⟨0x3E00000, 0x0, 1, 8, 8, .s, 24, .none, false, 1, 168, 1⟩

/-- FLT_STATUS.RECORDS (R594). -/
def F.FLT_STATUS_RECORDS : Fld :=
  ⟨0x3E00008, 0x0, 1, 0, 32, .c, 0, .none, false, 0, noMax, 1⟩

/-- FLT_STATUS.LAST (R594). -/
def F.FLT_STATUS_LAST : Fld :=
  ⟨0x3E00008, 0x0, 1, 32, 32, .c, 0, .none, false, 0, noMax, 1⟩

/-- FLT_WR_REJECT.OFFSET (R594). -/
def F.FLT_WR_REJECT_OFFSET : Fld :=
  ⟨0x3E00010, 0x0, 1, 0, 26, .c, 0, .fn, true, 0, noMax, 1⟩

/-- FLT_WR_REJECT.FUNCTION (R594). -/
def F.FLT_WR_REJECT_FUNCTION : Fld :=
  ⟨0x3E00010, 0x0, 1, 26, 5, .c, 0, .fn, true, 0, noMax, 1⟩

/-- FLT_WR_REJECT.STATUS (R594). -/
def F.FLT_WR_REJECT_STATUS : Fld :=
  ⟨0x3E00010, 0x0, 1, 32, 16, .c, 0, .fn, true, 0, noMax, 1⟩

/-- FLT_WR_REJECT.COUNT (R594). -/
def F.FLT_WR_REJECT_COUNT : Fld :=
  ⟨0x3E00010, 0x0, 1, 48, 16, .c, 0, .fn, true, 0, noMax, 1⟩

/-- FLT_UNIT_SEL.KIND (R594). -/
def F.FLT_UNIT_SEL_KIND : Fld :=
  ⟨0x3E00018, 0x0, 1, 0, 8, .l, 0, .none, true, 0, noMax, 1⟩

/-- FLT_UNIT_SEL.INDEX (R594). -/
def F.FLT_UNIT_SEL_INDEX : Fld :=
  ⟨0x3E00018, 0x0, 1, 8, 16, .l, 0, .none, true, 0, noMax, 1⟩

/-- FLT_UNIT_CNT.CORR_WIN (R594). -/
def F.FLT_UNIT_CNT_CORR_WIN : Fld :=
  ⟨0x3E00020, 0x0, 1, 0, 24, .c, 0, .none, false, 0, noMax, 1⟩

/-- FLT_UNIT_CNT.TRANS_WIN (R594). -/
def F.FLT_UNIT_CNT_TRANS_WIN : Fld :=
  ⟨0x3E00020, 0x0, 1, 24, 16, .c, 0, .none, false, 0, noMax, 1⟩

/-- FLT_UNIT_CNT.STATE (R594). -/
def F.FLT_UNIT_CNT_STATE : Fld :=
  ⟨0x3E00020, 0x0, 1, 40, 2, .c, 0, .none, false, 0, noMax, 1⟩

/-- FLT_RET_SET_W.SETS (R594). -/
def F.FLT_RET_SET_W_SETS : Fld :=
  ⟨0x3E00028, 0x0, 1, 0, 64, .c, 0, .none, false, 0, noMax, 1⟩

/-- FLT_RET_SET_E.SETS (R594). -/
def F.FLT_RET_SET_E_SETS : Fld :=
  ⟨0x3E00030, 0x0, 1, 0, 64, .c, 0, .none, false, 0, noMax, 1⟩

/-- FLT_RET_ENG.SIFT (R594). -/
def F.FLT_RET_ENG_SIFT : Fld :=
  ⟨0x3E00038, 0x0, 1, 0, 16, .c, 0, .none, false, 0, noMax, 1⟩

/-- FLT_RET_ENG.TOKEN (R594). -/
def F.FLT_RET_ENG_TOKEN : Fld :=
  ⟨0x3E00038, 0x0, 1, 16, 8, .c, 0, .none, false, 0, noMax, 1⟩

/-- FLT_RET_ENG.MASK (R594). -/
def F.FLT_RET_ENG_MASK : Fld :=
  ⟨0x3E00038, 0x0, 1, 24, 8, .c, 0, .none, false, 0, noMax, 1⟩

/-- FLT_RET_ENG.MOVE (R594). -/
def F.FLT_RET_ENG_MOVE : Fld :=
  ⟨0x3E00038, 0x0, 1, 32, 32, .c, 0, .none, false, 0, noMax, 1⟩

/-- FLT_RET_LANES.LANES (R594). -/
def F.FLT_RET_LANES_LANES : Fld :=
  ⟨0x3E00040, 0x0, 1, 0, 64, .c, 0, .none, false, 0, noMax, 1⟩

/-- FLT_RET_MISC.SEAL (R594). -/
def F.FLT_RET_MISC_SEAL : Fld :=
  ⟨0x3E00048, 0x0, 1, 0, 4, .c, 0, .none, false, 0, noMax, 1⟩

/-- FLT_THRESH.CORR (R594). -/
def F.FLT_THRESH_CORR : Fld :=
  ⟨0x3E00100, 0x8, 11, 0, 24, .s, 0, .none, false, 1, 16777215, 1⟩

/-- FLT_THRESH.TRANS (R594). -/
def F.FLT_THRESH_TRANS : Fld :=
  ⟨0x3E00100, 0x8, 11, 24, 16, .s, 0, .none, false, 1, 65535, 1⟩

/-- ID_PART.PART (R600). -/
def F.ID_PART_PART : Fld :=
  ⟨0x0, 0x0, 1, 0, 16, .c, 29184, .view, false, 0, noMax, 1⟩

/-- ID_PART.FAMILY (R600). -/
def F.ID_PART_FAMILY : Fld :=
  ⟨0x0, 0x0, 1, 16, 8, .c, 1, .view, false, 0, noMax, 1⟩

/-- ID_PART.VARIANT (R600). -/
def F.ID_PART_VARIANT : Fld :=
  ⟨0x0, 0x0, 1, 24, 8, .c, 0, .view, false, 0, noMax, 1⟩

/-- ID_PART.LAYOUT (R600). -/
def F.ID_PART_LAYOUT : Fld :=
  ⟨0x0, 0x0, 1, 32, 16, .c, 1, .view, false, 0, noMax, 1⟩

/-- ID_PCI.VENDOR (R600). -/
def F.ID_PCI_VENDOR : Fld :=
  ⟨0x8, 0x0, 1, 0, 16, .c, 0, .view, false, 0, noMax, 1⟩

/-- ID_PCI.DEVICE (R600). -/
def F.ID_PCI_DEVICE : Fld :=
  ⟨0x8, 0x0, 1, 16, 16, .c, 0, .view, false, 0, noMax, 1⟩

/-- ID_PCI.SUBSYS_VENDOR (R600). -/
def F.ID_PCI_SUBSYS_VENDOR : Fld :=
  ⟨0x8, 0x0, 1, 32, 16, .c, 0, .view, false, 0, noMax, 1⟩

/-- ID_PCI.SUBSYS (R600). -/
def F.ID_PCI_SUBSYS : Fld :=
  ⟨0x8, 0x0, 1, 48, 16, .c, 0, .view, false, 0, noMax, 1⟩

/-- ID_REV.WEST_STEP (R600). -/
def F.ID_REV_WEST_STEP : Fld :=
  ⟨0x10, 0x0, 1, 0, 8, .c, 0, .view, false, 0, noMax, 1⟩

/-- ID_REV.EAST_STEP (R600). -/
def F.ID_REV_EAST_STEP : Fld :=
  ⟨0x10, 0x0, 1, 8, 8, .c, 0, .view, false, 0, noMax, 1⟩

/-- ID_REV.MODULE_REV (R600). -/
def F.ID_REV_MODULE_REV : Fld :=
  ⟨0x10, 0x0, 1, 16, 8, .c, 0, .view, false, 0, noMax, 1⟩

/-- ID_REV.ROM_VER (R600). -/
def F.ID_REV_ROM_VER : Fld :=
  ⟨0x10, 0x0, 1, 32, 32, .c, 0, .view, false, 0, noMax, 1⟩

/-- ID_FW.L1_VER (R600). -/
def F.ID_FW_L1_VER : Fld :=
  ⟨0x18, 0x0, 1, 0, 32, .c, 0, .view, false, 0, noMax, 1⟩

/-- ID_FW.L2_VER (R600). -/
def F.ID_FW_L2_VER : Fld :=
  ⟨0x18, 0x0, 1, 32, 32, .c, 0, .view, false, 0, noMax, 1⟩

/-- ID_SERIAL0.BYTES (R600). -/
def F.ID_SERIAL0_BYTES : Fld :=
  ⟨0x20, 0x0, 1, 0, 64, .c, 0, .view, false, 0, noMax, 1⟩

/-- ID_SERIAL1.BYTES (R600). -/
def F.ID_SERIAL1_BYTES : Fld :=
  ⟨0x28, 0x0, 1, 0, 64, .c, 0, .view, false, 0, noMax, 1⟩

/-- ID_MAC.BASE (R600). -/
def F.ID_MAC_BASE : Fld :=
  ⟨0x30, 0x0, 1, 0, 48, .c, 0, .view, false, 0, noMax, 1⟩

/-- ID_MAC.COUNT (R600). -/
def F.ID_MAC_COUNT : Fld :=
  ⟨0x30, 0x0, 1, 48, 8, .c, 16, .view, false, 0, noMax, 1⟩

/-- ID_FUNC.FUNCTION (R600). -/
def F.ID_FUNC_FUNCTION : Fld :=
  ⟨0x38, 0x0, 1, 0, 5, .c, 0, .view, false, 0, noMax, 1⟩

/-- ID_FUNC.PARTITION (R600). -/
def F.ID_FUNC_PARTITION : Fld :=
  ⟨0x38, 0x0, 1, 5, 5, .c, 0, .view, false, 0, noMax, 1⟩

/-- ID_FUNC.IS_VF (R600). -/
def F.ID_FUNC_IS_VF : Fld :=
  ⟨0x38, 0x0, 1, 10, 1, .c, 0, .view, false, 0, noMax, 1⟩

/-- ID_FUNC.TOTAL_VFS (R600). -/
def F.ID_FUNC_TOTAL_VFS : Fld :=
  ⟨0x38, 0x0, 1, 16, 5, .c, 0, .view, false, 0, noMax, 1⟩

/-- ID_FUNC.WIN_LOG2 (R600). -/
def F.ID_FUNC_WIN_LOG2 : Fld :=
  ⟨0x38, 0x0, 1, 24, 6, .c, 26, .view, false, 0, noMax, 1⟩

/-- ID_CAP0.ATT_ENGINES (R600). -/
def F.ID_CAP0_ATT_ENGINES : Fld :=
  ⟨0x40, 0x0, 1, 0, 8, .c, 64, .view, false, 0, noMax, 1⟩

/-- ID_CAP0.HBM_STACKS (R600). -/
def F.ID_CAP0_HBM_STACKS : Fld :=
  ⟨0x40, 0x0, 1, 8, 5, .c, 16, .view, false, 0, noMax, 1⟩

/-- ID_CAP0.NAND_PKGS (R600). -/
def F.ID_CAP0_NAND_PKGS : Fld :=
  ⟨0x40, 0x0, 1, 13, 7, .c, 64, .view, false, 0, noMax, 1⟩

/-- ID_CAP0.PORTS (R600). -/
def F.ID_CAP0_PORTS : Fld :=
  ⟨0x40, 0x0, 1, 20, 5, .c, 16, .view, false, 0, noMax, 1⟩

/-- Fields of the windows, part 0. -/
def F.part0 : List Fld :=
    [F.TIM_CTL_EN, F.TIM_CTL_PPS_EN, F.TIM_CTL_PTP_DOMAIN, F.TIM_CTL_PTP_PORTS, F.TIM_STATUS_SYNC,
   F.TIM_STATUS_PPS_OK, F.TIM_STATUS_OFFSET_NS, F.TIM_WALL_NS, F.TIM_MONO_NS, F.TIM_WDOG_STALL_EXP,
   F.TIM_DPATH_STAKE_US, F.TIM_DPATH_ROW_MS, F.TIM_DPATH_BEACON_MS, F.TIM_SESS_IDLE_PARK_MS, F.TIM_LEASE_RENEW_MS,
   F.TIM_LEASE_EXPIRY_MS, F.TIM_LEASE_DRAIN_MS, F.TIM_FAB_RTO_US, F.TIM_FAB_RETRIES, F.TIM_FAB_PAGE_STALL_US,
   F.TIM_MAINT_BLK_IDLE_MS, F.TIM_MAINT_CKPT_MS, F.TIM_MAINT_RETAIN_H, F.TIM_HOLD_LIMIT_S, F.TIM_GRP_CFG_GROUP_ID,
   F.TIM_GRP_CFG_TK_CTRL, F.TIM_GRP_CFG_DEPUTY, F.TIM_GRP_SHAPE_MEMBERS, F.TIM_GRP_SHAPE_STAKES,
   F.TIM_GRP_SHAPE_CTRLS, F.TIM_GRP_SHAPE_TK_EPOCH, F.TIM_ROW_ROW, F.TIM_ROW_PHASE, F.TIM_ROW_VOIDS,
   F.TIM_STAKE_CLOSED, F.TIM_STAKE_ANY_CLOSED, F.TIM_STAKE_LAGGING, F.TIM_GRP_CNT_STALE_DB, F.TIM_GRP_CNT_BAD_DB,
   F.TIM_GRP_CNT_STAKE_TO]

/-- Fields of the windows, part 1. -/
def F.part1 : List Fld :=
    [F.TIM_GRP_CNT_VOIDED, F.TIM_GRP_CTL_RESTART, F.PGS_CTL_EN, F.PGS_CTL_TRACK_EN, F.PGS_STATUS_IDLE,
   F.PGS_BRIM_PAGES, F.PGS_ADMIT_EVICT_PRIO, F.PGS_ADMIT_EVICT_MAX, F.PGS_ADMIT_BORROW, F.PGS_TRACK_HOT_THRESH,
   F.PGS_TRACK_DECAY_EXP, F.PGS_TRACK_MOVES_MAX, F.PGS_TRACK_LOW_WATER, F.PGS_CNT_DEFER, F.PGS_CNT_HELD,
   F.PGS_CNT_COW, F.PGS_CNT_MOVES, F.PGS_REGION_BINS, F.PGS_REGION_BASE, F.PGS_PTPOOL_BLOCKS, F.PGS_FREE_EMPTY_BINS,
   F.PGS_FREE_FREE_UNITS, F.PGS_OUTBOUND_UNITS, F.PGS_PTFREE_BLOCKS, F.ATT_CTL_EN, F.ATT_CTL_BWD_EN,
   F.ATT_CTL_SPAN_PAGES, F.ATT_CTL_ABSORB_BLOCK, F.ATT_CTL_EXPAND_HEADS, F.ATT_STATUS_IDLE, F.ATT_STATUS_LIVE,
   F.ATT_RETIRED_MASK, F.ATT_EMIT_QUEUE_KIB, F.ATT_CNT0_TILES_IN, F.ATT_CNT0_TILES_OUT, F.ATT_CNT1_NULL,
   F.ATT_CNT1_DISCARD, F.ATT_CNT1_DUP, F.ATT_CNT1_LATE, F.ATT_LOAD_ARRAY_BUSY]

/-- Fields of the windows, part 2. -/
def F.part2 : List Fld :=
    [F.ATT_LOAD_ROW_CC, F.ATT_ENG_STATUS_STATE, F.ATT_ENG_STATUS_WEAVE_SLOT, F.ATT_ENG_STATUS_STALLS,
   F.ATT_ENG_FAULT_CORRECTED, F.ATT_ENG_FAULT_UNCORRECTED, F.ATT_GRP_IN_BASE, F.ATT_GRP_IN_SLOT_KIB,
   F.ATT_GRP_SLOTS_SLOTS, F.ATT_GRP_SLOTS_MERGE_AT, F.ATT_SYNC_W_FREE, F.ATT_SYNC_W_WEAVE, F.ATT_SYNC_W_OTHER,
   F.ATT_SYNC_E_FREE, F.ATT_SYNC_E_WEAVE, F.ATT_SYNC_E_OTHER, F.ATT_SYNC_SEL_ID, F.ATT_SYNC_VAL_VALUE,
   F.ATT_PRF_REGION_GIB, F.ATT_WV_STATUS_VALID, F.ATT_WV_STATUS_PROFILE, F.ATT_WV_STATUS_STAKES,
   F.ATT_WV_STATUS_LEN_KIB, F.ATT_WV_STATUS_PORT_FB, F.ATT_WV_GROUPS_MASK, F.ATT_WV_ID_DIGEST,
   F.ATT_PRF_STATUS_VALID, F.ATT_PRF_STATUS_LAYERS, F.ATT_PRF_STATUS_KV_KIND, F.ATT_PRF_STATUS_STORE_FMT,
   F.ATT_PRF_STATUS_PARAM_MIB, F.ATT_PRF_ID_DIGEST, F.ATT_PREEMPT_EN, F.ATT_PREEMPT_WAIT_CC, F.ATT_PREEMPT_YIELD_CC,
   F.ATT_SAVE_W_LEVELS, F.ATT_SAVE_W_UNITS, F.ATT_SAVE_E_LEVELS, F.ATT_SAVE_E_UNITS, F.ATT_PREEMPT_CNT_CHEAP]

/-- Fields of the windows, part 3. -/
def F.part3 : List Fld :=
    [F.ATT_PREEMPT_CNT_FULL, F.ATT_PREEMPT_CNT_YIELD, F.ATT_PREEMPT_CNT_RESTORE, F.ATT_GRP_SCHED_WEIGHTING,
   F.ATT_GRP_SCHED_ADMIT_MODE, F.ATT_GRP_SCHED_CHUNK_OK, F.ATT_GRP_SCHED_PUSH_ROWS, F.ATT_GRP_LAT_TARGET_US,
   F.ATT_GRP_LAT_CHUNK_POS, F.ATT_GRP_LAT_ROW_PREFILL, F.ATT_GRP_TPT_TARGET_US, F.ATT_GRP_TPT_CHUNK_POS,
   F.ATT_GRP_TPT_ROW_PREFILL, F.ATT_GRP_PUSH_BASE, F.ATT_GRP_PUSH_SLOT_4K, F.ATT_GRP_PUSH_LANES,
   F.ATT_GRP_PUSH2_LANE_SLOTS, F.ATT_GRP_PCNT_OPEN, F.ATT_GRP_PCNT_STALLED, F.ATT_GRP_PCNT_DUP,
   F.ATT_GRP_PCNT_REJECTED, F.TOK_CTL_EN, F.TOK_STATUS_IDLE, F.TOK_STATUS_LIVE, F.TOK_STORE_FREE_KIB,
   F.TOK_STORE_STOP_SETS, F.TOK_CACHE_HIT, F.TOK_CACHE_MISS, F.TOK_CNT0_DETOK, F.TOK_CNT0_PROMPT_KIB,
   F.TOK_CNT1_STOPS, F.TOK_CNT1_REJECTED, F.TOK_CNT1_STRAY, F.TOK_CNT1_TEXT_OVF, F.TOK_TKZ_STATUS_VALID,
   F.TOK_TKZ_STATUS_VOCAB, F.TOK_TKZ_STATUS_ON_CHIP, F.TOK_TKZ_ID_DIGEST, F.TOK_GRP_IN_BASE, F.TOK_GRP_IN_ENTRIES]

/-- Fields of the windows, part 4. -/
def F.part4 : List Fld :=
    [F.GRM_CTL_EN, F.GRM_CTL_REFUSE_DEAD, F.GRM_CTL_MASK_LIMIT, F.GRM_STATUS_IDLE, F.GRM_STATUS_LIVE,
   F.GRM_REGION_GIB, F.GRM_FREE_FREE_MIB, F.GRM_FREE_GRAMMARS, F.GRM_CNT0_DEAD_END, F.GRM_CNT0_ROLLBACK,
   F.GRM_CNT0_FORCED, F.GRM_CNT0_OUT_OF_MASK, F.GRM_CNT1_MASKS, F.GRM_CNT1_FRESH, F.GRM_CNT1_CACHE_MISS,
   F.GRM_GRP_MASK_SLOTS, F.GRM_GRP_MASK_SLOT_KIB, F.GRM_GRP_MASK_FREE, F.GRM_GRP_SAMP0_MEMBERS,
   F.GRM_GRP_SAMP1_MEMBERS, F.GRM_GRP_SAMP2_MEMBERS, F.GRM_GRP_SAMP3_MEMBERS, F.GRM_G_STATUS_VALID,
   F.GRM_G_STATUS_PARTITION, F.GRM_G_STATUS_STATES, F.GRM_G_STATUS_DEAD_REACH, F.GRM_G_STATUS_BOUND,
   F.GRM_G_ID_DIGEST, F.PRK_CTL_EN, F.PRK_CTL_EST_EN, F.PRK_CTL_SPILL_EN, F.PRK_STATUS_IDLE, F.PRK_STATUS_PARKING,
   F.PRK_STATUS_REVIVING, F.PRK_COEF0_K_HOLD, F.PRK_COEF0_K_WR, F.PRK_COEF1_K_FIX, F.PRK_COEF1_K_TOK,
   F.PRK_COEF2_K_TOK2, F.PRK_RATES_READ_GBS]

/-- Fields of the windows, part 5. -/
def F.part5 : List Fld :=
    [F.PRK_RATES_WRITE_GBS, F.PRK_RATES_FAB_GBS, F.PRK_RATES_PUSH_GBS, F.PRK_TIMING_MIRROR_MS,
   F.PRK_TIMING_REBUILD_S, F.PRK_SPILL_LOW_PCT, F.PRK_SPILL_HIGH_PCT, F.PRK_SPILL_SCAN_RATE, F.PRK_LOAD_QW_W,
   F.PRK_LOAD_QR_W, F.PRK_LOAD_QW_E, F.PRK_LOAD_QR_E, F.PRK_FAB_RHO_W, F.PRK_FAB_RHO_E, F.PRK_CNT0_PARKS,
   F.PRK_CNT0_HISTORY, F.PRK_CNT0_REVIVES, F.PRK_CNT0_REBUILDS, F.PRK_CNT1_OVERRIDDEN, F.PRK_CNT1_ABANDONED,
   F.PRK_CNT1_MIRROR_FAIL, F.PRK_CNT1_REVIVE_FAIL, F.PRK_POLICY_MX4_OK, F.PRK_POLICY_HINTS_OK, F.PRK_POLICY_PIN_MAX,
   F.PRK_POLICY_EQ, F.PRK_PINNED_COUNT, F.HMP_CTL_EN, F.HMP_CTL_GC_EN, F.HMP_CTL_WL_EN, F.HMP_CTL_REFRESH_EN,
   F.HMP_STATUS_IDLE, F.HMP_STATUS_STATE_W, F.HMP_STATUS_STATE_E, F.HMP_STATUS_LAST_OFF, F.HMP_DIRTY_CEIL_DELTA_MIB,
   F.HMP_DIRTY_CEIL_BUF_MIB, F.HMP_DIRTY_DELTA_MIB, F.HMP_DIRTY_BUF_MIB, F.HMP_GC_START_BLK]

/-- Fields of the windows, part 6. -/
def F.part6 : List Fld :=
    [F.HMP_GC_URGENT_BLK, F.HMP_GC_BG_PCT, F.HMP_WEAR_DELTA, F.HMP_WEAR_RATED_PE, F.HMP_RD_LIMIT_K,
   F.HMP_RD_ECC_THRESH, F.HMP_RET_MAX_AGE_D, F.HMP_RET_RET_THRESH, F.HMP_RETIRE_DIE_BAD, F.HMP_RETIRE_DIE_UNC,
   F.HMP_RETIRE_SPARE_MIN_PCT, F.HMP_THERM_WARN_C, F.HMP_THERM_STOP_C, F.HMP_FLUSH_LAST_MS, F.HMP_FLUSH_MARGIN_MS,
   F.HMP_FLUSH_COUNT, F.HMP_CNT0_HOST_GIB, F.HMP_CNT0_NAND_GIB, F.HMP_D_SPACE_USER_PAGES, F.HMP_D_SPACE_FREE_PAGES,
   F.HMP_D_BLOCKS_ERASED, F.HMP_D_BLOCKS_GROWN_BAD, F.HMP_D_BLOCKS_RETIRED_LUNS, F.HMP_D_WEAR_AVG_PE,
   F.HMP_D_WEAR_MAX_PE, F.HMP_D_WEAR_MIN_PE, F.HMP_D_WEAR_WEAR_USED, F.HMP_D_ERR_UNCORR, F.HMP_D_ERR_BUDDY_REPAIR,
   F.HMP_D_ERR_REFRESH, F.HMP_D_ERR_SPARE_LEFT, F.HMP_D_TEMP_NOW_C, F.HMP_D_TEMP_MAX_C, F.HLF_CTL_EN,
   F.HLF_CTL_UDP_PORT, F.HLF_CTL_SPORT_BASE, F.HLF_STATUS_IDLE, F.HLF_STATUS_CONNS, F.HLF_STATUS_REGIONS,
   F.HLF_SELF_CTRL_ID]

/-- Fields of the windows, part 7. -/
def F.part7 : List Fld :=
    [F.HLF_CONN_CFG_PATHS, F.HLF_CONN_CFG_FAIL_MS, F.HLF_CONN_CFG_IDLE_MS, F.HLF_CONN_CFG_PROBE_MS,
   F.HLF_CC_WIN_INIT_KIB, F.HLF_CC_WIN_MIN_KIB, F.HLF_CC_WIN_MAX_KIB, F.HLF_CC_ADD_KIB, F.HLF_TC_DSCP_DPATH,
   F.HLF_TC_DSCP_BULK, F.HLF_CNT0_PKTS_IN, F.HLF_CNT0_PKTS_OUT, F.HLF_CNT1_RETX, F.HLF_CNT1_AUTH_FAIL,
   F.HLF_CNT1_DUP, F.HLF_CNT1_STALE, F.HLF_CNT2_PATHS_RETIRED, F.HLF_CNT2_PAGE_STALL, F.HLF_CNT2_RETRY_AFTER,
   F.HLF_CNT2_BUSY, F.HLF_CNT3_CONN_FAILED, F.HLF_CNT3_STRAY, F.HLF_CNT3_OVERRUN, F.HLF_CNT3_BAD_HDR,
   F.HLF_PORT_ROLE, F.HLF_PORT_LINK, F.HLF_PORT_LANES_OK, F.HLF_PORT_PFC_PRIOS, F.HLF_PORT_VLAN, F.HLF_PORT_MAC_MAC,
   F.HLF_PORT_NH_MAC, F.HLF_PORT_IP0_ADDR_LO, F.HLF_PORT_IP1_ADDR_HI, F.HLF_PORT_CNT_RX_DROP,
   F.HLF_PORT_CNT_FCS_ERR, F.RCE_CTL_EN, F.RCE_CTL_CNP_GAP_US, F.RCE_STATUS_IDLE, F.RCE_STATUS_QPS,
   F.RCE_STATUS_QP_ERR]

/-- Fields of the windows, part 8. -/
def F.part8 : List Fld :=
    [F.RCE_CC_DEC_PCT, F.RCE_CC_INC_MBPS, F.RCE_CC_INC_US, F.RCE_CC_MIN_PCT, F.RCE_CNT0_PKTS_IN,
   F.RCE_CNT0_PKTS_OUT, F.RCE_CNT1_DUP, F.RCE_CNT1_NAK_ACCESS, F.RCE_CNT1_NAK_SEQ, F.RCE_CNT1_RNR,
   F.RCE_CNT2_CNP_SENT, F.RCE_CNT2_CNP_RCVD, F.RCE_CNT2_RETRY, F.RCE_CNT2_QP_ERR_EVENTS, F.RCE_QP_SEL_INDEX,
   F.RCE_QP_STATE_STATE, F.RCE_QP_STATE_SQ_PSN, F.RCE_QP_STATE_RQ_PSN, F.RCE_QP_STATE_PORT, F.SFT_CTL_EN,
   F.SFT_CTL_AUTO_MERGE, F.SFT_CTL_WIDEN_MAX, F.SFT_STATUS_IDLE, F.SFT_STATUS_LIVE, F.SFT_REGION_GIB_W,
   F.SFT_REGION_GIB_E, F.SFT_FREE_MIB_W, F.SFT_FREE_MIB_E, F.SFT_CNT0_QUERIES, F.SFT_CNT0_INSERTS,
   F.SFT_CNT1_PARTIAL, F.SFT_CNT1_WIDENED, F.SFT_CNT1_MERGES, F.SFT_CNT1_DELETES, F.SFT_CNT2_PROBES,
   F.SFT_CNT2_SEL_WAITS, F.SFT_CNT2_INDEXES, F.SHP_CTL_EN, F.SHP_STATUS_IDLE, F.SHP_RESET_POLICY_POLICY]

/-- Fields of the windows, part 9. -/
def F.part9 : List Fld :=
    [F.SHP_NODE_SEL_KIND, F.SHP_NODE_SEL_INDEX, F.SHP_NODE_CFG_VALID, F.SHP_NODE_CFG_SHAPE, F.SHP_NODE_CFG_RATE,
   F.SHP_NODE_CFG_OWNER, F.SHP_NODE_CFG_BUDGET_ON, F.SHP_NODE_LVL_BURST, F.SHP_NODE_LEVEL_LEVEL,
   F.SHP_NODE_BUD_BUDGET, F.SHP_NODE_SVC_PART_MASK, F.SHP_NODE_SVC_PROMPT_W, F.SHP_NODE_SVC_REBUILD_W,
   F.SHP_NODE_OVH_OVERHEAD, F.SHP_CNT_SHAPED, F.SHP_CNT_BUDGET_ENDS, F.SHP_CNT_CHARGED_M, F.ISO_MODE_MODE,
   F.ISO_MODE_STRICT_ACTIVE, F.ISO_MODE_FRAME_EXP, F.ISO_SHED_RANKS, F.ISO_SHED_STEP_MS, F.ISO_SHED_ST_STAGE,
   F.ISO_SHED_ST_LEVELS, F.ISO_SHED_ST_CHANGES, F.ISO_PART_STATE, F.ISO_PART_PRIO_MAX, F.ISO_PART_SLOTS,
   F.ISO_PART_LEND, F.ISO_PART_BORROW, F.ISO_PART_EQ, F.ISO_PART_IDLE_EXPIRE_S, F.ISO_PART_ENG_ENG_W,
   F.ISO_PART_ENG_ENG_E, F.ISO_PART_PAGES_UNITS_W, F.ISO_PART_PAGES_UNITS_E, F.ISO_PART_LIM_SESSIONS,
   F.ISO_PART_LIM_CONTEXTS, F.ISO_PART_LIM_BATCH, F.ISO_PART_LIM2_GRAMMARS]

/-- Fields of the windows, part 10. -/
def F.part10 : List Fld :=
    [F.ISO_PART_LIM2_INDEXES, F.ISO_PART_LIM2_PT_BLOCKS, F.ISO_PART_USE_SESSIONS, F.ISO_PART_USE_BATCH,
   F.ISO_PART_USE_UNITS_K, F.ISO_PART_CNT_QUOTA, F.ISO_PART_CNT_THERMAL, F.ISO_PART_CNT_ISO_GROUP, F.SEC_CTL_EN,
   F.SEC_CTL_REQUIRE_WRAPPED, F.SEC_CTL_TENANT_ATTEST, F.SEC_STATUS_IDLE, F.SEC_STATUS_ENROLLED,
   F.SEC_STATUS_PREV_HELD, F.SEC_STATUS_LIVE_SEAL, F.SEC_SET_ID0_LO, F.SEC_SET_ID1_HI, F.SEC_KEYGEN_CUR,
   F.SEC_KEYGEN_PREV, F.SEC_SVN_L1, F.SEC_SVN_L2, F.SEC_SVN_MIN_L1, F.SEC_SVN_MIN_L2, F.SEC_BOOT_COUNT,
   F.SEC_ENROL_SEQ, F.SEC_STAGE_GIB, F.SEC_STAGE_HOLD_S, F.SEC_STAGE_STAGED, F.SEC_SCRUB_BUSY, F.SEC_SCRUB_MODE,
   F.SEC_SCRUB_PCT, F.SEC_CNT_ATTESTS, F.SEC_CNT_UNWRAP_FAIL, F.SEC_CNT_ENROL_FAIL, F.SEC_CNT_TAG_MISS,
   F.SEC_MKGEN_GEN, F.CMD_CTL_EN, F.CMD_CTL_SYS_EQ, F.CMD_STATUS_IDLE, F.CMD_STATUS_RINGS]

/-- Fields of the windows, part 11. -/
def F.part11 : List Fld :=
    [F.CMD_STATUS_EQS, F.CMD_LIMITS_RINGS_MAX, F.CMD_LIMITS_EQS_MAX, F.CMD_LIMITS_VECTORS, F.CMD_CNT_COMMANDS,
   F.CMD_CNT_SEQ_GAP, F.CMD_CNT_REPLAYS, F.CMD_RQ_BASE_ADDR, F.CMD_RP_BASE_ADDR, F.CMD_RQ_CFG_EN,
   F.CMD_RQ_CFG_RQ_LOG2, F.CMD_RQ_CFG_RP_LOG2, F.CMD_RQ_CFG_VECTOR, F.CMD_RQ_CFG_MOD_COUNT, F.CMD_RQ_CFG_MOD_US,
   F.CMD_RQ_DB_TAIL, F.CMD_RP_DB_HEAD, F.CMD_RP_DB_ARM, F.CMD_HSEQ_NEXT, F.CMD_HSEQ_LOG_LO, F.CMD_DSEQ_LAST,
   F.CMD_RQ_STATUS_TAKEN, F.CMD_RQ_STATUS_STATE, F.CMD_RQ_STATUS_STALLED, F.CMD_EQ_BASE_ADDR, F.CMD_EQ_CFG_EN,
   F.CMD_EQ_CFG_LOG2, F.CMD_EQ_CFG_VECTOR, F.CMD_EQ_CFG_MOD_COUNT, F.CMD_EQ_CFG_MOD_US, F.CMD_EQ_DB_HEAD,
   F.CMD_EQ_DB_ARM, F.CMD_EQ_STATUS_ESEQ, F.CMD_EQ_STATUS_BACKLOG, F.CMD_EQ_STATUS_LOST, F.CMD_EQ_STATUS_STATE,
   F.CKP_CTL_EN, F.CKP_CTL_AUTO_EN, F.CKP_STATUS_IDLE, F.CKP_STATUS_ACTIVE]

/-- Fields of the windows, part 12. -/
def F.part12 : List Fld :=
    [F.CKP_CFG_LEAD_ROWS, F.CKP_CFG_PRIO, F.CKP_CFG_PERIOD_S, F.CKP_CFG_MIN_GAP_S, F.CKP_CFG_WRITE_S,
   F.CKP_TRIG_MASK, F.CKP_TRIG_SHED_STAGE, F.CKP_TRIG_AUTO_MX4, F.CKP_TRIG_AUTO_INDEXES, F.CKP_TRIG_AUTO_MIRROR,
   F.CKP_CNT_DONE, F.CKP_CNT_FAILED, F.CKP_CNT_AUTO, F.CKP_CNT_SKIPPED, F.CKP_CNT1_RESTORES, F.CKP_CNT1_MISMATCH,
   F.CKP_CNT1_WAITS, F.CKP_GRP_GEN_LAST, F.CKP_GRP_GEN_IN_PROG, F.CKP_GRP_ROW_ROW, F.CKP_GRP_CUT_ROW,
   F.RST_CAUSE_CAUSE, F.RST_CAUSE_DETAIL, F.RST_CAUSE_BOOT, F.RST_CAUSE_TIME_NS, F.RST_STATE_PHASE,
   F.RST_STATE_STEP, F.RST_STATE_DETAIL, F.RST_STATE_SLOT, F.RST_CTL_GO, F.RST_BLK_RESETTING, F.RST_BLK_IDLE,
   F.RST_OPT_IMAGE_BYTES, F.CLK_STATUS_CORE_MHZ, F.CLK_STATUS_REF_LOCK, F.FLT_CTL_RETRIES, F.FLT_CTL_WINDOW_H,
   F.FLT_STATUS_RECORDS, F.FLT_STATUS_LAST, F.FLT_WR_REJECT_OFFSET]

/-- Fields of the windows, part 13. -/
def F.part13 : List Fld :=
    [F.FLT_WR_REJECT_FUNCTION, F.FLT_WR_REJECT_STATUS, F.FLT_WR_REJECT_COUNT, F.FLT_UNIT_SEL_KIND,
   F.FLT_UNIT_SEL_INDEX, F.FLT_UNIT_CNT_CORR_WIN, F.FLT_UNIT_CNT_TRANS_WIN, F.FLT_UNIT_CNT_STATE,
   F.FLT_RET_SET_W_SETS, F.FLT_RET_SET_E_SETS, F.FLT_RET_ENG_SIFT, F.FLT_RET_ENG_TOKEN, F.FLT_RET_ENG_MASK,
   F.FLT_RET_ENG_MOVE, F.FLT_RET_LANES_LANES, F.FLT_RET_MISC_SEAL, F.FLT_THRESH_CORR, F.FLT_THRESH_TRANS,
   F.ID_PART_PART, F.ID_PART_FAMILY, F.ID_PART_VARIANT, F.ID_PART_LAYOUT, F.ID_PCI_VENDOR, F.ID_PCI_DEVICE,
   F.ID_PCI_SUBSYS_VENDOR, F.ID_PCI_SUBSYS, F.ID_REV_WEST_STEP, F.ID_REV_EAST_STEP, F.ID_REV_MODULE_REV,
   F.ID_REV_ROM_VER, F.ID_FW_L1_VER, F.ID_FW_L2_VER, F.ID_SERIAL0_BYTES, F.ID_SERIAL1_BYTES, F.ID_MAC_BASE,
   F.ID_MAC_COUNT, F.ID_FUNC_FUNCTION, F.ID_FUNC_PARTITION, F.ID_FUNC_IS_VF, F.ID_FUNC_TOTAL_VFS]

/-- Fields of the windows, part 14. -/
def F.part14 : List Fld :=
  [F.ID_FUNC_WIN_LOG2, F.ID_CAP0_ATT_ENGINES, F.ID_CAP0_HBM_STACKS, F.ID_CAP0_NAND_PKGS, F.ID_CAP0_PORTS]

/-- Every field of the windows. -/
def F.all : List Fld :=
  F.part0 ++ F.part1 ++ F.part2 ++ F.part3 ++ F.part4 ++ F.part5 ++ F.part6 ++ F.part7 ++ F.part8 ++ F.part9 ++ F.part10 ++ F.part11 ++ F.part12 ++ F.part13 ++ F.part14

end Sys2Proof.Machine
end

