-- ==== Sys2Proof/Machine/Ops.lean ====
section
/-! DEFINITION. The named operations over memory, registers, replies, events, interrupts and messages. -/
namespace Sys2Proof.Machine
open Sys2Proof

/-! ## HBM: bytes by local offset, bit 47 the die (R35, R379) -/

/-- The HBM of both dies: listed bytes under rising local offsets; an unlisted byte reads 0 (log entry 3). -/
abbrev Memory := List Host.Cell

/-- A local offset lies in the HBM of a die: bit 47 names the die (R379, R624). -/
def inHbm (a : Nat) : Bool := a < 2 ^ 48 && a % 2 ^ 47 < Config.dieBytes

/-- The byte at a local offset. -/
def Memory.read : Memory → Nat → Byte
  | [], _ => 0
  | (k, v) :: m, a => if a = k then v else if a < k then 0 else Memory.read m a

/-- The table with one byte changed: a zero byte is not listed. -/
def Memory.write : Memory → Nat → Byte → Memory
  | [], a, b => if b = 0 then [] else [(a, b)]
  | (k, v) :: m, a, b =>
    if a < k then (if b = 0 then (k, v) :: m else (a, b) :: (k, v) :: m)
    else if a = k then (if b = 0 then m else (k, b) :: m)
    else (k, v) :: Memory.write m a b

/-- A write of one byte; an offset outside the dies holds nothing and takes nothing. -/
def Memory.writeIn (m : Memory) (a : Nat) (b : Byte) : Memory := if inHbm a then Memory.write m a b else m

/-- A write of a byte string from a local offset upward. -/
def Memory.writeAll : Memory → Nat → Bytes → Memory
  | m, _, [] => m
  | m, a, b :: bs => Memory.writeAll (Memory.writeIn m a b) (a + 1) bs

/-- `n` bytes from a local offset upward. -/
def Memory.readN (m : Memory) (a : Nat) : Nat → Bytes
  | 0 => []
  | n + 1 => Memory.read m a :: Memory.readN m (a + 1) n

/-- Offsets strictly rise from above `lo`, lie in the HBM, and no listed byte is 0. -/
def Memory.wfFrom : Memory → Nat → Bool
  | [], _ => true
  | (k, v) :: m, lo => decide (lo ≤ k) && inHbm k && decide (v ≠ 0) && Memory.wfFrom m (k + 1)

/-- The canonical form of the HBM: equal contents are equal lists. -/
def Memory.wf (m : Memory) : Bool := Memory.wfFrom m 0

/-- Several writes in order. -/
def Memory.apply : Memory → List (Nat × Bytes) → Memory
  | m, [] => m
  | m, (a, bs) :: ws => Memory.apply (Memory.writeAll m a bs) ws

/-- A write of HBM bytes by the step under way. -/
def Dev.poke (d : Dev) (a : Nat) (bs : Bytes) : Dev := { d with wr := d.wr ++ [(a, bs)] }

/-! ## Registers (R8, R12 to R19, R596 to R601) -/

/-- The value of a field after reset, for the fields whose instances differ (R490, R541, R573, R584). -/
def Fld.resetAt (f : Fld) (fn i : Nat) : Nat :=
  if f.addr = F.FLT_THRESH_CORR.addr then
    if f.lo = 0 then (if i = 2 then 16384 else if i = 4 then 65535 else 1024) else if i = 2 then 16 else 8
  else if f.addr = F.CMD_LIMITS_RINGS_MAX.addr ∧ fn ≠ 0 then (if f.lo = 0 then 16 else 64)
  else if f.addr = F.ISO_PART_STATE.addr ∧ i = 0 then
    (if f.lo = 0 then 1 else if f.lo = 2 then 7 else if f.lo = 5 then 64 else f.reset)
  else f.reset

/-- The value in effect of a field's instance `i` in function `fn`. -/
def Dev.gf (d : Dev) (f : Fld) (fn i : Nat) : Nat := NMap.getD d.regs (f.key fn i) (f.resetAt fn i)
/-- The value in effect of instance `i` of a field. -/
def Dev.gi (d : Dev) (f : Fld) (i : Nat) : Nat := d.gf f 0 i
/-- The value in effect of a field. -/
def Dev.g (d : Dev) (f : Fld) : Nat := d.gf f 0 0
/-- A one-bit field is set. -/
def Dev.on (d : Dev) (f : Fld) : Bool := d.g f == 1

/-- The fields with one value changed. -/
def Dev.sf (d : Dev) (f : Fld) (fn i v : Nat) : Dev :=
  { d with regs := NMap.put d.regs (f.key fn i) (v % 2 ^ f.w) }
/-- The fields with instance `i` of one changed. -/
def Dev.si (d : Dev) (f : Fld) (i v : Nat) : Dev := d.sf f 0 i v
/-- The fields with one changed. -/
def Dev.s (d : Dev) (f : Fld) (v : Nat) : Dev := d.sf f 0 0 v

/-- A saturating counter counts `n`. -/
def Dev.sati (d : Dev) (f : Fld) (i n : Nat) : Dev := d.si f i (satAdd f.w (d.gi f i) n)
/-- A saturating counter counts `n`. -/
def Dev.sat (d : Dev) (f : Fld) (n : Nat) : Dev := d.sati f 0 n
/-- A wrapping counter counts `n`. -/
def Dev.wrap (d : Dev) (f : Fld) (n : Nat) : Dev := d.s f (wrapAdd f.w (d.g f) n)
/-- A saturating counter of a function counts `n`. -/
def Dev.satf (d : Dev) (f : Fld) (fn i n : Nat) : Dev := d.sf f fn i (satAdd f.w (d.gf f fn i) n)

/-- Partition of the session with an id; 0 for an id that names none. -/
def Dev.partOf (d : Dev) (sid : Nat) : Nat := ((d.ses.tab.find? fun e => e.2.d.sid == sid).map (·.2.d.partition)).getD 0
/-- An entry of an on-chip store is read by a session: with the tag of its partition it gives what it holds; with another it gives `zero`,
and the miss is counted (R508). Operator tables, which every partition may read, are no session's data and pass no such read. -/
def Dev.readTagged {α : Type} (d : Dev) (tag part : Nat) (held zero : α) : α × Dev :=
  if tag = part then (held, d) else (zero, d.sat F.SEC_CNT_TAG_MISS 1)
/-- A counter that every window reads counts `n` for the device and for the partition concerned (R484). -/
def Dev.cntP (d : Dev) (f : Fld) (p n : Nat) (wraps : Bool) : Dev :=
  let one (d : Dev) (k : Nat) : Dev :=
    d.sf f k 0 (if wraps then wrapAdd f.w (d.gf f k 0) n else satAdd f.w (d.gf f k 0) n)
  if p = 0 then one d 0 else one (one d 0) p

/-- A field at its value after reset. -/
def Dev.clr (d : Dev) (f : Fld) (fn i : Nat) : Dev := { d with regs := NMap.del d.regs (f.key fn i) }

/-! ## Time, free values -/

/-- TIM_MONO in ns (R63). -/
def Dev.now (d : Dev) : Nat := d.g F.TIM_MONO_NS
/-- TIM_WALL in ns (R63). -/
def Dev.wall (d : Dev) : Nat := d.g F.TIM_WALL_NS

/-- A timer's expiry: TIM_MONO stands at its deadline or beyond, and TIM_WALL has counted the time that passed (R63). -/
def Dev.reach (d : Dev) (deadline : Nat) : Dev :=
  let t := max d.now deadline
  (d.s F.TIM_MONO_NS t).s F.TIM_WALL_NS (d.wall + (t - d.now))

/-- One nanosecond passes: both counters count (R63). -/
def Dev.tick (d : Dev) : Dev :=
  (d.s F.TIM_MONO_NS ((d.now + 1) % 2 ^ 64)).s F.TIM_WALL_NS ((d.wall + 1) % 2 ^ 64)

/-- A fresh free value and the block that has drawn it. -/
def Dev.draw (d : Dev) : Nat × Dev := (Config.freeNat d.free, { d with free := d.free + 1 })

/-- Something is sent. -/
def Dev.emit (d : Dev) (o : Out) : Dev := { d with out := d.out ++ [o] }

/-- The priority of a frame: the three high bits of its traffic class (log entry 83). -/
def Wire.prio (w : Wire) : Nat := w.tclass / 32
/-- A frame leaves its port, or waits there while its priority is paused (R386). -/
def Dev.sendFrame (d : Dev) (w : Wire) (o : Out) : Dev :=
  if bitOf (NMap.getD d.hall.paused w.port 0) w.prio then
    { d with stopped := d.stopped ++ [(w.port, w.prio, o)] }
  else d.emit o

/-- Several things are sent, in order. -/
def Dev.emits (d : Dev) (os : List Out) : Dev := { d with out := d.out ++ os }

/-! ## Interrupts (R537) -/

/-- The MSI-X message of a vector is sent, or its pending bit is set while it is masked. -/
def Dev.msix (d : Dev) (fn vec : Nat) : Dev :=
  if d.cmd.unmasked.contains (fn, vec) then d.emit (.msix fn vec)
  else { d with cmd := { d.cmd with pendingVec := d.cmd.pendingVec ++ (if d.cmd.pendingVec.contains (fn, vec) then [] else [(fn, vec)]) } }

/-- Index of a ring in the ring table. -/
def ringKey (fn r : Nat) : Nat := fn * 64 + r
/-- Index of a queue in the queue table. -/
def queueKey (fn q : Nat) : Nat := fn * 1024 + q

/-- A ring beside its registers. -/
def Dev.ring (d : Dev) (fn r : Nat) : Ring := NMap.getD d.cmd.rings (ringKey fn r) {}
/-- The rings with one changed. -/
def Dev.setRing (d : Dev) (fn r : Nat) (x : Ring) : Dev :=
  { d with cmd := { d.cmd with rings := NMap.put d.cmd.rings (ringKey fn r) x } }
/-- A queue beside its registers. -/
def Dev.queue (d : Dev) (fn q : Nat) : EvQueue := NMap.getD d.cmd.queues (queueKey fn q) {}
/-- The queues with one changed. -/
def Dev.setQueue (d : Dev) (fn q : Nat) (x : EvQueue) : Dev :=
  { d with cmd := { d.cmd with queues := NMap.put d.cmd.queues (queueKey fn q) x } }

/-- Entries at or beyond HEAD: a difference of free-running 32-bit counts (R515). -/
def beyond (written head : Nat) : Nat := (written + 2 ^ 32 - head) % 2 ^ 32

/-- Moderation with `n` entries at or beyond HEAD: the message is sent, which disarms; MOD_US runs from the first entry, or from
the arm if entries were there before; or the arm waits (R537). -/
def Arm.check (x : Arm) (n : Nat) : Arm × Bool :=
  let ts := x.stamps.drop (x.stamps.length - n)
  let x := { x with
    stamps := ts
    due := none }
  if !x.armed || n == 0 then (x, false)
  else if max 1 x.count ≤ n then ({ x with armed := false }, true)
  else ({ x with due := some (max x.since (ts.headD x.since) + x.us * 1000) }, false)
/-- An entry is written at a time. -/
def Arm.stamp (x : Arm) (t : Nat) : Arm := { x with stamps := x.stamps ++ [t] }
/-- A write of HEAD with ARM = 1 arms with the moderation in effect (R537, R542, R543). -/
def Arm.set (x : Arm) (now count us : Nat) : Arm :=
  { x with
    armed := true
    since := now
    count := count
    us := us }

/-- Interrupt moderation of a reply ring after a write of an entry or of HEAD (R537). -/
def Dev.modRing (d : Dev) (fn r : Nat) : Dev :=
  let x := d.ring fn r
  let (a, fire) := x.arm.check (beyond x.replies (d.gf F.CMD_RP_DB_HEAD fn r))
  let d := d.setRing fn r { x with arm := a }
  if fire then d.msix fn (d.gf F.CMD_RQ_CFG_VECTOR fn r) else d

/-- Interrupt moderation of an event queue (R537). -/
def Dev.modQueue (d : Dev) (fn q : Nat) : Dev :=
  let x := d.queue fn q
  let (a, fire) := x.arm.check (beyond x.written (d.gf F.CMD_EQ_DB_HEAD fn q))
  let d := d.setQueue fn q { x with arm := a }
  if fire then d.msix fn (d.gf F.CMD_EQ_CFG_VECTOR fn q) else d

/-! ## Events (R529, R533 to R536) -/

/-- The default queue of a function; none while CMD_CTL.SYS_EQ names none (R533). -/
def Dev.defaultQueue (d : Dev) (fn : Nat) : Option Nat :=
  if fn = 0 then (if d.g F.CMD_CTL_SYS_EQ = 0xFFFF then none else some (d.g F.CMD_CTL_SYS_EQ))
  else some (d.gi F.ISO_PART_EQ fn)

/-- The queue that an EQ field names (R519, R533). -/
def Dev.queueOf (d : Dev) (fn eq : Nat) : Option Nat := if eq = 0xFFFF then d.defaultQueue fn else some eq

/-- Entries that a function's backlog holds (R540). -/
def backlogMax (fn : Nat) : Nat := if fn = 0 then 65536 else 8192

/-- The events held for a function. -/
def Dev.held (d : Dev) (fn : Nat) : List Held := NMap.getD d.cmd.backlog fn []
/-- The backlogs with one function's changed. -/
def Dev.setHeld (d : Dev) (fn : Nat) (h : List Held) : Dev :=
  { d with cmd := { d.cmd with backlog := NMap.put d.cmd.backlog fn h } }

/-- A queue is enabled, without error, and has room below HEAD + size (R534). -/
def Dev.queueRoom (d : Dev) (fn q : Nat) : Bool :=
  d.gf F.CMD_EQ_CFG_EN fn q == 1 && d.gf F.CMD_EQ_STATUS_STATE fn q == 1 &&
    beyond (d.queue fn q).written (d.gf F.CMD_EQ_DB_HEAD fn q) < 2 ^ d.gf F.CMD_EQ_CFG_LOG2 fn q

/-- A queue whose entries cannot be written enters ERROR at its first write, which clears EN (R513, R543). -/
def Dev.tryQueue (d : Dev) (fn q : Nat) : Dev :=
  if d.queueRoom fn q && (d.queue fn q).noWrite then (d.sf F.CMD_EQ_STATUS_STATE fn q 3).sf F.CMD_EQ_CFG_EN fn q 0 else d
/-- The next ESEQ of a queue is taken (R529). -/
def Dev.takeEseq (d : Dev) (fn q : Nat) : Nat × Dev :=
  let n := (d.gf F.CMD_EQ_STATUS_ESEQ fn q + 1) % 2 ^ 32
  (n, d.sf F.CMD_EQ_STATUS_ESEQ fn q n)

/-- An event entry is written to a queue (R517, R531, R532, R537). -/
def Dev.writeEvent (d : Dev) (fn q eseq : Nat) (late : Bool) (e : Event) : Dev :=
  let x := d.queue fn q
  let size := 2 ^ d.gf F.CMD_EQ_CFG_LOG2 fn q
  let d := d.emit (.event fn q (x.written % size) eseq (x.written / size % 2 == 0) late e)
  (d.setQueue fn q { x with
    written := (x.written + 1) % 2 ^ 32
    arm := x.arm.stamp d.now }).modQueue fn q

/-- Held events of queue `q` are written in ESEQ order while the queue has room; those without a number take one
(R529, R534). -/
def Dev.drainHeld (d : Dev) (fn q : Nat) : List Held → List Held → Dev
  | [], kept => d.setHeld fn kept.reverse
  | h :: hs, kept =>
    let mine := match h.queue with
      | some k => k == q
      | none => d.defaultQueue fn == some q
    if mine && d.queueRoom fn q then
      match h.eseq with
      | some n => Dev.drainHeld (d.writeEvent fn q n true h.ev) fn q hs kept
      | none =>
        let (n, d) := d.takeEseq fn q
        Dev.drainHeld (d.writeEvent fn q n true h.ev) fn q hs kept
    else Dev.drainHeld d fn q hs (h :: kept)

/-- Held events of a queue come first: those that no queue has numbered yet, then in ESEQ order (R529). -/
def heldOrder (hs : List Held) : List Held := hs.filter (·.eseq.isNone) ++ hs.filter (·.eseq.isSome)

/-- The event that reports lost events (R529, R534). -/
def overflowEvent (first n wall : Nat) : Event := { typ := 0x21, args := [first, n], time := wall }

/-- A queue with room writes what is held for it, then reports what was lost (R529, R534). -/
def Dev.drain (d : Dev) (fn q : Nat) : Dev :=
  let d := if (d.held fn).isEmpty then d else d.tryQueue fn q
  let d := d.drainHeld fn q (heldOrder (d.held fn)) []
  let d := if d.defaultQueue fn = some q ∧ d.queueRoom fn q ∧ 0 < NMap.getD d.cmd.lostUnnumbered fn 0 then
      let n := NMap.getD d.cmd.lostUnnumbered fn 0
      let d := { d with cmd := { d.cmd with lostUnnumbered := NMap.del d.cmd.lostUnnumbered fn } }
      let (k, d) := d.takeEseq fn q
      d.writeEvent fn q k false (overflowEvent 0 n d.wall)
    else d
  let x := d.queue fn q
  if 0 < x.lostNow ∧ d.queueRoom fn q then
    let d := d.setQueue fn q { x with lostNow := 0, firstLost := 0 }
    let (k, d) := d.takeEseq fn q
    d.writeEvent fn q k false (overflowEvent x.firstLost x.lostNow d.wall)
  else d

/-- An event is posted to the queue that an EQ field names (R529, R532 to R534). -/
def Dev.post (d : Dev) (fn eq : Nat) (e : Event) : Dev :=
  let e := { e with time := d.wall }
  match d.queueOf fn eq with
  | none =>
    if (d.held fn).length < backlogMax fn then d.setHeld fn (d.held fn ++ [{ ev := e }])
    else
      let lost := NMap.put d.cmd.lostUnnumbered fn (NMap.getD d.cmd.lostUnnumbered fn 0 + 1)
      { d with cmd := { d.cmd with lostUnnumbered := lost } }
  | some q =>
    let d := d.tryQueue fn q
    let (n, d) := d.takeEseq fn q
    let waits := (d.held fn).any fun h => h.queue == some q || (h.queue == none && d.defaultQueue fn == some q)
    if d.queueRoom fn q && !waits then d.writeEvent fn q n false e
    else if (d.held fn).length < backlogMax fn then
      d.setHeld fn (d.held fn ++ [{ queue := some q, eseq := some n, ev := e }])
    else
      let x := d.queue fn q
      let d := d.satf F.CMD_EQ_STATUS_LOST fn q 1
      d.setQueue fn q { x with lostNow := x.lostNow + 1, firstLost := if x.lostNow = 0 then n else x.firstLost }

/-- An event to partition 0's default queue (R533, R535). -/
def Dev.post0 (d : Dev) (e : Event) : Dev := d.post 0 0xFFFF e

/-- An event to the default queue of a partition's function (R533). -/
def Dev.postP (d : Dev) (p : Nat) (e : Event) : Dev := d.post p 0xFFFF e

/-- Partitions that exist: 0, and those ACTIVE or DESTROYING (R464, R490). -/
def Dev.partitions (d : Dev) : List Nat := (List.range 32).filter fun p => p == 0 || d.gi F.ISO_PART_STATE p != 0

/-- A device-wide event reaches the default queue of every partition (R487, R532). -/
def Dev.postAll (d : Dev) (e : Event) : Dev := d.partitions.foldl (fun d p => d.postP p e) d

/-! ## Write rejections (R17) -/

/-- A write is discarded: the rejection is recorded for the writing function, counted and posted (R17, R594). The
physical function's record shows the last rejection of any function. -/
def Dev.reject (d : Dev) (fn off : Nat) (st : Status) : Dev :=
  let rec1 (d : Dev) (k : Nat) : Dev :=
    ((d.sf F.FLT_WR_REJECT_OFFSET k 0 off).sf F.FLT_WR_REJECT_FUNCTION k 0 fn).sf F.FLT_WR_REJECT_STATUS k 0 st.code
      |>.satf F.FLT_WR_REJECT_COUNT k 0 1
  let d := rec1 d fn
  let d := if fn = 0 then d else rec1 d 0
  d.post fn 0xFFFF { typ := 0x02, status := st.code, args := [off, fn, d.gf F.FLT_WR_REJECT_COUNT fn 0] }

/-! ## Replies (R516, R517, R521, R526 to R528) -/

/-- A reply ring has room: entries written and not consumed are below its size (R516). -/
def Dev.ringRoom (d : Dev) (fn r : Nat) : Bool :=
  beyond (d.ring fn r).replies (d.gf F.CMD_RP_DB_HEAD fn r) < 2 ^ d.gf F.CMD_RQ_CFG_RP_LOG2 fn r

/-- A reply entry is written, taking the next DSEQ; a ring without room then shows STALLED (R516, R517, R528). -/
def Dev.writeReply (d : Dev) (fn r : Nat) (rep : Reply) : Dev :=
  let x := d.ring fn r
  let size := 2 ^ d.gf F.CMD_RQ_CFG_RP_LOG2 fn r
  let n := (d.gf F.CMD_DSEQ_LAST fn r + 1) % 2 ^ 32
  let rep : Reply := { rep with dseq := n, phase := x.replies / size % 2 == 0 }
  let d := d.sf F.CMD_DSEQ_LAST fn r n
  let d := d.emit (.reply fn r (x.replies % size) rep)
  let d := (d.setRing fn r { x with
    replies := (x.replies + 1) % 2 ^ 32
    arm := x.arm.stamp d.now }).modRing fn r
  d.sf F.CMD_RQ_STATUS_STALLED fn r (b2n !(d.ringRoom fn r))

/-- Replies that wait for room are written, oldest first, while the reply ring has room (R516). -/
def Dev.flushReplies (d : Dev) (fn r : Nat) : List Reply → Dev
  | [] => d.setRing fn r { d.ring fn r with waiting := [] }
  | rep :: rs =>
    if d.ringRoom fn r then Dev.flushReplies (d.writeReply fn r rep) fn r rs
    else (d.setRing fn r { d.ring fn r with waiting := rep :: rs }).sf F.CMD_RQ_STATUS_STALLED fn r 1

/-- A ring writes replies: it is RUNNING. A ring that stops, is disabled or is in error writes none (R528, R538, R542). -/
def Dev.ringWrites (d : Dev) (fn r : Nat) : Bool := d.gf F.CMD_RQ_STATUS_STATE fn r == 1

/-- A ring whose replies cannot be written enters ERROR at the first, which clears EN (R513, R542). -/
def Dev.tryRing (d : Dev) (fn r : Nat) : Dev :=
  if d.ringWrites fn r && (d.ring fn r).noWrite then (d.sf F.CMD_RQ_STATUS_STATE fn r 3).sf F.CMD_RQ_CFG_EN fn r 0 else d
/-- A reply goes to the reply ring, behind those that wait for room; a disabled ring writes none (R516, R528). -/
def Dev.sendReply (d : Dev) (fn r : Nat) (rep : Reply) : Dev :=
  let d := d.tryRing fn r
  if d.ringWrites fn r then d.flushReplies fn r ((d.ring fn r).waiting ++ [rep]) else d

/-- Replies that the log of a ring keeps (R527). -/
def logMax : Nat := 256

/-- The reply of an executed HSEQ enters the log, which keeps the last 256 (R527). -/
def Dev.logReply (d : Dev) (fn r : Nat) (rep : Reply) : Dev :=
  let x := d.ring fn r
  let log := (x.log ++ [rep]).drop (x.log.length + 1 - logMax)
  let d := d.setRing fn r { x with log := log }
  d.sf F.CMD_HSEQ_LOG_LO fn r ((log.head?.map (·.hseq)).getD rep.hseq)

/-! ## Messages between controllers (R405) -/

/-- This controller's id (R422). -/
def Dev.self (d : Dev) : Nat := d.g F.HLF_SELF_CTRL_ID

/-- Fabric ports in the hall role, ascending (R385). -/
def Dev.hallPorts (d : Dev) : List Nat := (List.range 16).filter fun p => d.gi F.HLF_PORT_ROLE p == 2
/-- The entry of a connection that is not CLOSED; one in FAILED only where there is no other (R392, R393, R396). -/
def Dev.connOf (d : Dev) (peer : Nat) (bulk : Bool) : Option Nat :=
  let mine (st : Bool) (e : Nat × Conn) : Bool :=
    e.2.peer == peer && e.2.bulk == bulk && e.2.state != .closed && (e.2.state == .failed) == st
  match d.hall.conns.find? (mine false) with
  | some e => some e.1
  | none => (d.hall.conns.find? (mine true)).map (·.1)
/-- A connection. -/
def Dev.conn (d : Dev) (i : Nat) : Conn := NMap.getD d.hall.conns i {}
/-- The connections with one changed. -/
def Dev.setConn (d : Dev) (i : Nat) (x : Conn) : Dev := { d with hall := { d.hall with conns := NMap.put d.hall.conns i x } }
/-- The connections with one changed by `f`. -/
def Dev.updConn (d : Dev) (i : Nat) (f : Conn → Conn) : Dev := d.setConn i (f (d.conn i))
/-- The QHT header of a packet of a connection: 64 bytes, little-endian, reserved bits 0 (R7, R389). `args` are the packet's own fields:
of a data packet those of `Conn.dataArgs`, of an ACK those of R408, of CONN_REQ, CONN_ACCEPT and REKEY those of `Dev.reqArgs` (a REKEY's
with its TSN after them), of a CONN_REJECT its reason and the receiver's index, and of the others their TSN. -/
def Dev.qhtHeader (d : Dev) (x : Conn) (path kind : Nat) (args : List Nat) (len : Nat) : Bytes :=
  let a (k : Nat) : Nat := args.getD k 0
  let mine := if kind = 7 then 0 else if kind ∈ [5, 6, 11] then a 0 else if kind ≤ 3 then a 15 else (d.connOf x.peer x.bulk).getD 0
  let head : List Put :=
    [⟨0, 0, 4, 1⟩, ⟨0, 4, 4, kind⟩, ⟨0, 16, 4, path⟩, ⟨0, 32, 32, x.epoch⟩, ⟨8, 0, 16, d.self⟩, ⟨8, 16, 16, x.peer⟩,
     ⟨8, 32, 14, if kind = 7 then a 1 else x.peerConn⟩, ⟨8, 46, 14, mine⟩, ⟨8, 60, 1, b2n x.bulk⟩]
  let rest : List Put :=
    if kind ≤ 3 then
      [⟨0, 8, 1, a 4⟩, ⟨0, 9, 1, a 5⟩, ⟨0, 20, 5, a 6⟩, ⟨0x10, 0, 48, a 0⟩, ⟨0x18, 0, 32, a 1⟩, ⟨0x18, 32, 24, a 2⟩, ⟨0x20, 0, 25, a 3⟩,
       ⟨0x20, 25, 13, len⟩, ⟨0x28, 0, 64, a 9⟩, ⟨0x30, 0, 16, a 7⟩, ⟨0x30, 16, 32, a 8⟩, ⟨0x38, 0, 17, a 10⟩, ⟨0x38, 17, 1, a 11⟩,
       ⟨0x38, 32, 32, a 12⟩]
    else if kind = 4 then
      [⟨0x10, 0, 48, a 0⟩, ⟨0x18, 0, 64, a 1⟩, ⟨0x20, 0, 32, a 2⟩, ⟨0x20, 32, 16, a 3⟩, ⟨0x28, 0, 32, a 4⟩, ⟨0x28, 32, 16, a 5⟩,
       ⟨0x30, 0, 32, a 6⟩]
    else if kind = 11 then [⟨0x10, 0, 48, a 5⟩, ⟨0x20, 25, 13, len⟩]
    else if kind ∈ [5, 6, 7] then [⟨0x20, 25, 13, len⟩]
    else [⟨0, 9, 1, a 1⟩, ⟨0x10, 0, 48, a 0⟩]
  pack 64 (head ++ rest)
/-- The payload of a packet: of CONN_REQ, CONN_ACCEPT and REKEY the record of R394 before the addresses and the key exchange, of a
CONN_REJECT its reason (R390), of a data packet its data. -/
def qhtPayload (kind : Nat) (args : List Nat) (data : Bytes) : Bytes :=
  let a (k : Nat) : Nat := args.getD k 0
  if kind ∈ [5, 6, 11] then
    pack 0x20 [⟨0, 0, 14, a 0⟩, ⟨0, 14, 1, a 1⟩, ⟨0, 32, 32, a 2⟩, ⟨8, 0, 64, a 3⟩, ⟨0x10, 0, 4, a 4⟩] ++ data
  else if kind = 7 then leBytes 4 (a 0)
  else data
/-- The IP address of a port (R387, R423). -/
def Dev.portIp (d : Dev) (p : Nat) : Nat := d.gi F.HLF_PORT_IP1_ADDR_HI p * 2 ^ 64 + d.gi F.HLF_PORT_IP0_ADDR_LO p
/-- The headers that every frame of a port carries: next-hop MAC, VLAN, own address; over IPv4 where the address is an IPv4-mapped one
(R386, R387). -/
def Dev.portWire (d : Dev) (p : Nat) : Wire :=
  { port := p
    mac := d.gi F.HLF_PORT_NH_MAC p
    vlan := d.gi F.HLF_PORT_VLAN p
    src := d.portIp p
    v4 := d.portIp p / 2 ^ 32 == 0xFFFF }
/-- The local HALL port of a path: of the ports that the connection had as it opened (R410). -/
def Dev.pathPort (d : Dev) (x : Conn) (path : Nat) : Nat :=
  let ps := if x.ports.isEmpty then d.hallPorts else x.ports
  ps.getD (path % max 1 ps.length) 16
/-- The peer's address on a path (R410); before the peer has named its addresses, the one that the network gives (log entry 83). -/
def Conn.pathAddr (x : Conn) (path : Nat) : Nat := x.addrs.getD (path % max 1 x.naddr) (Config.peerAddr x.peer path)
/-- The nonce of a packet: TSN, then SRC_CONN and CLASS with one zero bit, then CONN_EPOCH, from its header (R391). -/
def qhtNonce (hdr : Bytes) : Bytes := slice hdr 0x10 6 ++ leBytes 2 (fieldAt hdr 8 46 15) ++ slice hdr 4 4
/-- A packet's payload as it leaves: sealed under the key of its direction, the header its associated data, with the tag after it; the
packets that agree on the keys are in the clear, and have no tag (R391). -/
def Conn.seal (x : Conn) (kind : Nat) (hdr body : Bytes) : Bytes :=
  if kind ∈ [5, 6, 7] then body else Config.gcmSeal x.txKey (qhtNonce hdr) hdr body
/-- A QHT packet leaves (R386 to R391); without a HALL port none can. -/
def Dev.packet (d : Dev) (x : Conn) (path kind : Nat) (args : List Nat) (data : Bytes) : Dev :=
  if d.hallPorts.isEmpty then d
  else
    let body := qhtPayload kind args data
    let hdr := d.qhtHeader x path kind args body.length
    let cipher := x.seal kind hdr body
    let w : Wire := { d.portWire (d.pathPort x path) with
      dst := x.pathAddr path
      tclass := 4 * (if x.bulk then d.g F.HLF_TC_DSCP_BULK else d.g F.HLF_TC_DSCP_DPATH) + 2
      sport := d.g F.HLF_CTL_SPORT_BASE + path
      dport := d.g F.HLF_CTL_UDP_PORT
      tag := cipher.drop body.length }
    (d.wrap F.HLF_CNT0_PKTS_OUT 1).sendFrame w (.qht x.peer x.bulk path w hdr body (cipher.take body.length))
/-- CONN, CLASS, EPOCH, BOOT and NADDR of a CONN_REQ, CONN_ACCEPT or REKEY, as its arguments (R394). -/
def Dev.reqArgs (d : Dev) (i : Nat) (x : Conn) : List Nat :=
  [i, b2n x.bulk, x.myEpoch, d.g F.SEC_BOOT_COUNT, min 8 d.hallPorts.length]
/-- The addresses and the key exchange of such a packet (R394, R504). -/
def Dev.reqBody (d : Dev) (x : Conn) : Bytes :=
  padTo 128 ((d.hallPorts.take 8).flatMap fun p => leBytes 8 (d.gi F.HLF_PORT_IP0_ADDR_LO p) ++ leBytes 8 (d.gi F.HLF_PORT_IP1_ADDR_HI p)) ++
    leBytes 4 x.keyGen ++ leBytes 4 0 ++ padTo 144 (Config.keyExchange x.keys)
/-- CONN_REQ is sent on path 0 (R394). -/
def Dev.sendReq (d : Dev) (i : Nat) : Dev :=
  let x := d.conn i
  d.packet x 0 5 (d.reqArgs i x) (d.reqBody x)
/-- A fresh proposal for the keys of a connection: a non-zero random EPOCH and an ephemeral key (R394, R504). -/
def Dev.propose (d : Dev) (x : Conn) : Conn × Dev :=
  let k := d.free
  let (v, d) := d.draw
  ({ x with
     myEpoch := v % (2 ^ 32 - 1) + 1
     keys := k
     keyGen := d.g F.SEC_KEYGEN_CUR }, d)
/-- The AES-256-GCM keys of a connection, from this side's ephemeral key and the peer's: the two EPOCH values, the request's first, are
the salt; the first 32 bytes key the direction from the lower id to the higher (R505). -/
def Dev.keyed (d : Dev) (x : Conn) (asked : Bool) (pub : Bytes) : Conn :=
  let salt := if asked then leBytes 4 x.myEpoch ++ leBytes 4 x.peerEpoch else leBytes 4 x.peerEpoch ++ leBytes 4 x.myEpoch
  let info := [0x51, 0x48, 0x54] ++ leBytes 2 (min d.self x.peer) ++ leBytes 2 (max d.self x.peer) ++ leBytes 1 (b2n x.bulk)
  let k := Config.hkdf64 (Config.ephemeral x.keys pub) salt info
  let low := decide (d.self < x.peer)
  { x with
    txKey := if low then k.take 32 else k.drop 32
    rxKey := if low then k.drop 32 else k.take 32 }
/-- No message of a connection is unresolved in either direction (R393, R397). -/
def Conn.quiet (x : Conn) : Bool := x.msgs.isEmpty && x.tracks.isEmpty && x.pkts.isEmpty

/-! ## Packets of a connection (R389, R391, R400, R409 to R411) -/

/-- Bytes of a KiB window. -/
def QPath.room (p : QPath) (n : Nat) : Bool := p.live && decide (p.outstanding + n ≤ p.window * 1024)
/-- The LIVE path with the fewest outstanding bytes that has room, the lowest index first (R411). -/
def Conn.bestPath (x : Conn) (n : Nat) : Option Nat :=
  ((x.paths.zipIdx.filter fun e => e.1.room n).foldl (fun (b : Option (QPath × Nat)) e =>
    match b with
    | some o => if e.1.outstanding < o.1.outstanding then some e else b
    | none => some e) none).map (·.2)
/-- The next LIVE path after one, with wrap-around, that has room (R409). -/
def Conn.nextPath (x : Conn) (last n : Nat) : Option Nat :=
  let k := x.paths.length
  ((List.range k).map fun i => (last + 1 + i) % k).find? fun p => ((x.paths[p]?).map (·.room n)).getD false
/-- A connection with one path changed. -/
def Conn.updPath (x : Conn) (p : Nat) (f : QPath → QPath) : Conn :=
  { x with paths := x.paths.zipIdx.map fun e => if e.2 = p then f e.1 else e.1 }
/-- Packets are forgotten, and their bytes leave the windows of their paths (R411). -/
def Conn.dropPkts (x : Conn) (gone : QPkt → Bool) : Conn :=
  let x := (x.pkts.filter fun k => gone k && !k.queued).foldl (fun (x : Conn) k =>
    x.updPath k.path fun p => { p with outstanding := p.outstanding - k.len }) x
  { x with pkts := x.pkts.filter fun k => !gone k }
/-- The message that a packet belongs to: its own MSN among those sent, or the peer's for READ_RESP. -/
def Conn.msgOf (x : Conn) (kind msn : Nat) : Option QMsg := x.msgs.find? fun y => y.msn == some msn && (y.type == 2) == (kind == 2)
/-- The fields of a data packet: TSN, MSN, OFFSET, TOTAL_LEN, LAST, RETX, PARTITION, REGION, REGION_GEN, HALL_ADDR, COUNTER,
NOTIFY, INCR, CONN_EPOCH, DST_CONN and SRC_CONN (R389). -/
def Conn.dataArgs (x : Conn) (i : Nat) (y : QMsg) (k : QPkt) : List Nat :=
  [k.tsn, k.msn, k.offset, y.len, b2n (k.offset + k.len == y.len), b2n (k.tries != 0), y.partition,
   if y.type = 3 then y.service else y.region, y.regionGen, y.addr, y.counter, b2n y.notify, y.incr, x.epoch, x.peerConn, i]
/-- A packet leaves on a path under the next TSN (R391, R409): one of a message, a CLOSE or a REKEY. -/
def Dev.sendPkt (d : Dev) (i path : Nat) (k : QPkt) : Dev :=
  let x := d.conn i
  let k := { k with
    tsn := x.tsn
    path := path
    sent := d.now
    rto := d.g F.TIM_FAB_RTO_US
    limit := d.g F.TIM_FAB_RETRIES
    queued := false
    after := false }
  let x := ({ x with
    tsn := x.tsn + 1
    pkts := x.pkts ++ [k] }).updPath path fun p => { p with outstanding := p.outstanding + k.len }
  let d := d.setConn i x
  if k.kind = 11 then d.packet x path 11 (d.reqArgs i x ++ [k.tsn]) (d.reqBody x)
  else match x.msgOf k.kind k.msn with
  | some y => d.packet x path k.kind (x.dataArgs i y k) (if k.kind = 1 then [] else slice y.body k.offset k.len)
  | none => d.packet x path k.kind [k.tsn, b2n (k.tries != 0)] []
/-- A CLOSE or a REKEY leaves on the best path, or waits for one; like a data packet it is sent again until it is acknowledged (R401,
R409). -/
def Dev.sendCtl (d : Dev) (i kind : Nat) : Dev :=
  let k : QPkt := { kind := kind, first := d.now }
  match (d.conn i).bestPath 0 with
  | some p => d.sendPkt i p k
  | none => d.updConn i fun x => { x with pkts := x.pkts ++ [{ k with queued := true }] }
/-- A connection without unresolved messages drains: CLOSE is sent (R393, R397). -/
def Dev.sendClose (d : Dev) (i : Nat) : Dev :=
  let x := d.conn i
  if x.closeSent then d
  else (d.setConn i { x with
    state := .draining
    closeSent := true }).sendCtl i 8
/-- When all entries are in use, the quiet OPEN connection that has been idle longest drains (R397). -/
def Dev.evictConn (d : Dev) : Dev :=
  let best := d.hall.conns.foldl (fun (b : Option (Nat × Conn)) e =>
    if e.2.state = .opened ∧ e.2.quiet then
      match b with
      | some x => if e.2.lastUse < x.2.lastUse then some e else b
      | none => some e
    else b) none
  match best with
  | some e => d.sendClose e.1
  | none => d
/-- A connection to a peer starts, if an entry is free (R393, R394, R397). -/
def Dev.connect (d : Dev) (peer : Nat) (bulk : Bool) : Dev :=
  match NMap.freeFrom d.hall.conns 16384 0 with
  | none => d.evictConn
  | some i =>
    let (x, d) := d.propose
      { state := .connecting
        peer := peer
        bulk := bulk
        reqTries := 1
        reqAt := d.now + 4000 * d.g F.TIM_FAB_RTO_US
        lastUse := d.now }
    (d.setConn i x).sendReq i
/-- This controller is enrolled: it holds a set key (R499, R504). -/
def Dev.enrolled (d : Dev) : Bool := d.sec.setKey.isSome
/-- A message is submitted for a peer and class: to an OPEN or CONNECTING connection, or it waits for one, which is asked for
when there is none. A controller that is not enrolled sends nothing: its messages complete with DENIED (R393, R504). -/
def Dev.submit (d : Dev) (peer : Nat) (bulk : Bool) (x : QMsg) : Dev :=
  if !d.enrolled then d.emit (.done peer bulk x.type (if x.type = 3 then x.service else x.region) none Status.denied.code)
  else
    let wait (d : Dev) : Dev := { d with hall := { d.hall with wait := d.hall.wait ++ [(peer, bulk, x)] } }
    match d.connOf peer bulk with
    | some i =>
      let c := d.conn i
      if c.state = .opened then d.setConn i { c with msgs := c.msgs ++ [x] } else wait d
    | none => if d.on F.HLF_CTL_EN then (wait d).connect peer bulk else wait d
/-- A SEND to a service on the DPATH connection (R392, R405). -/
def Dev.send (d : Dev) (dst service : Nat) (data : Bytes) : Dev :=
  (d.emit (.send dst service false data)).submit dst false { type := 3, service := service, body := data, len := data.length }
/-- A SEND to a service on the BULK connection (R392, R405). -/
def Dev.sendBulk (d : Dev) (dst service : Nat) (data : Bytes) : Dev :=
  (d.emit (.send dst service true data)).submit dst true { type := 3, service := service, body := data, len := data.length }
/-- Remote writes into a region of another controller on the BULK connection, in messages of at most 16 MiB (R389, R402). -/
def Dev.write (d : Dev) (dst region gen addr part : Nat) (data : Bytes) : Dev :=
  (List.range (ceilDiv data.length 16777216)).foldl (fun (d : Dev) i =>
    let piece := slice data (16777216 * i) 16777216
    d.submit dst true
      { type := 0
        region := region
        regionGen := gen
        addr := addr + 16777216 * i
        partition := part
        body := piece
        len := piece.length }) d
/-- A remote read of a WARM session's pages from the region that their holder reported (R337, R380, R404). The buffer that takes the data is
the controller's choice, a free value (log entry 2). -/
def Dev.fetch (d : Dev) (holder : WarmHolder) (sid part bytes : Nat) : Dev :=
  let d := d.emit (.fetch holder.ctrl sid bytes)
  let (dest, d) := d.draw
  (List.range (ceilDiv bytes 16777216)).foldl (fun (d : Dev) i =>
    d.submit holder.ctrl true
      { type := 1
        region := holder.region
        regionGen := holder.gen
        addr := holder.addr + 16777216 * i
        partition := part
        dest := dest % 2 ^ 48 + 16777216 * i
        len := min 16777216 (bytes - 16777216 * i) }) d
/-- A received message is resolved with a status (R403). -/
def Dev.resolve (d : Dev) (src service : Nat) (st : Status) : Dev := d.emit (.resolve src service st 0)

/-! ## Partitions and their limits (R464, R466, R477, R490) -/

/-- A partition is ACTIVE; partition 0 always (R464). -/
def Dev.active (d : Dev) (p : Nat) : Bool := d.gi F.ISO_PART_STATE p == 1
/-- Tenant partitions that are ACTIVE. -/
def Dev.tenants (d : Dev) : List Nat := (List.range 32).filter fun p => p != 0 && d.active p

/-- The limits in effect of a tenant partition. -/
def Dev.limits (d : Dev) (p : Nat) : Limits :=
  { prioMax := d.gi F.ISO_PART_PRIO_MAX p
    slots := d.gi F.ISO_PART_SLOTS p
    lend := d.gi F.ISO_PART_LEND p == 1
    borrow := d.gi F.ISO_PART_BORROW p == 1
    eq := d.gi F.ISO_PART_EQ p
    idleExpire := d.gi F.ISO_PART_IDLE_EXPIRE_S p
    engW := d.gi F.ISO_PART_ENG_ENG_W p
    engE := d.gi F.ISO_PART_ENG_ENG_E p
    unitsW := d.gi F.ISO_PART_PAGES_UNITS_W p
    unitsE := d.gi F.ISO_PART_PAGES_UNITS_E p
    sessions := d.gi F.ISO_PART_LIM_SESSIONS p
    contexts := d.gi F.ISO_PART_LIM_CONTEXTS p
    batch := d.gi F.ISO_PART_LIM_BATCH p
    grammars := d.gi F.ISO_PART_LIM2_GRAMMARS p
    indexes := d.gi F.ISO_PART_LIM2_INDEXES p
    ptBlocks := d.gi F.ISO_PART_LIM2_PT_BLOCKS p }
/-- STRICT is in effect (R477). -/
def Dev.strict (d : Dev) : Bool := d.on F.ISO_MODE_MODE
/-- Slots of an arbitration frame that a partition owns (R478, R490). -/
def Dev.partSlots (d : Dev) (p : Nat) : Nat :=
  if p = 0 then 64 - (d.tenants.map fun q => (d.limits q).slots).foldl (· + ·) 0 else (d.limits p).slots

end Sys2Proof.Machine
end

