-- ==== Sys2Proof/Machine/State.lean ====
section
/-! DEFINITION. The machine's state, its faults and refusals, and the state after reset. -/
namespace Sys2Proof.Machine
open Sys2Proof

/-- The whole machine. -/
structure State where
  /-- Registers, tables, queues, counters, modes, pins and what has been sent. -/
  dev : Dev := {}
  /-- The HBM bytes of both dies that are not 0, by rising local offset. -/
  hbm : List Host.Cell := []
  /-- Commands and events that wait, first in, first out. -/
  pending : List Instr := []
  deriving DecidableEq, Repr

/-- Why a step stops. -/
inductive Fault where
  /-- An event names a unit that the block does not have (a port, engine, half, function, group or vector beyond the
  fitted number). No meaning raises it: such an event does not occur, and leaves the state unchanged (log entry 9); safe. -/
  | noSuchUnit
  deriving DecidableEq, Repr

/-- Why a command has no meaning. -/
inductive Refusal where
  /-- The command has no meaning yet: raised by the dispatch alone; safe. -/
  | notModelled (mnemonic : String)
  deriving DecidableEq, Repr

/-- Default option bytes with their check word (R573). -/
def optDefault : Bytes :=
  [0x51, 0x4F, 1, 2, 31, 0, 0x3A, 0, 3, 2, 175, 0, 0, 0, 0, 0, 0, 0, 0, 0, 0, 0, 0, 0, 0, 0, 0, 0, 0, 0, 0, 0,
   0, 0, 0, 0, 0, 0, 0, 0, 0, 0, 0, 0, 0, 0, 0, 0, 0, 0, 0, 0, 0, 0, 0, 0, 0, 0, 0, 0, 27, 201, 248, 115]

/-- The machine right after a reset: every register at its reset value, no session, no memory byte listed, no command
waiting; the cause is a first power-on (R566); the boot store holds valid images and default option bytes (log entry 6). -/
def State.reset : State :=
  { dev :=
      { regs := [(F.RST_CAUSE_CAUSE.key 0 0, 1)]
        halves := [(0, {}), (1, {})]
        rst :=
          { optA := optDefault
            optB := optDefault
            images := [(0, {}), (1, {})] } } }

end Sys2Proof.Machine
end

