-- ==== Sys2Proof/Machine/Run.lean ====
section
/-! DEFINITION. How a meaning acts on the state: it computes the block's next registers and tables from the HBM bytes and
the present ones; the HBM writes it collected are then made, and the queue of waiting commands stays. -/
namespace Sys2Proof.Machine
open Sys2Proof

/-- The state with a block in place of the present one, after the block's HBM writes. -/
def State.put (s : State) (d : Dev) : State :=
  { s with
    dev := { d with wr := [] }
    hbm := Memory.apply s.hbm d.wr }

/-- A meaning of the module's supervisor, which acts whatever state the controller is in (R602 to R618). -/
def onModule (f : Memory → Dev → Dev) (s : State) : Host.Outcome State Fault Refusal :=
  .next (s.put (f s.hbm s.dev))
/-- A meaning of the controller: it always completes; a controller that is held in reset, without power or in the
power-loss flush does nothing (R373, R606, R610). -/
def onDev (f : Memory → Dev → Dev) (s : State) : Host.Outcome State Fault Refusal :=
  onModule (fun m d => if d.rst.held then d else f m d) s

/-- A meaning of an event of a unit: an event that names a unit that is not fitted does not occur, and changes nothing (log
entry 9). -/
def onUnit (fitted : Bool) (f : Memory → Dev → Dev) (s : State) : Host.Outcome State Fault Refusal :=
  onDev (fun m d => if fitted then f m d else d) s

end Sys2Proof.Machine
end

