-- ==== Sys2Proof/Machine/Codec.lean ====
section
/-! DEFINITION. The byte layouts of the records that the chapters define: descriptor, context, completion record, reply,
event; and the CRC-32C of their check words (R76, R86, R95, R521, R532, R536). -/
namespace Sys2Proof.Machine
open Sys2Proof

/-- One bit of CRC-32C (Castagnoli), reflected. -/
def crcBit (c : Nat) : Nat := if c % 2 = 1 then (c / 2) ^^^ 0x82F63B78 else c / 2
/-- One byte of CRC-32C. -/
def crcByte (c : Nat) (b : Byte) : Nat :=
  crcBit (crcBit (crcBit (crcBit (crcBit (crcBit (crcBit (crcBit (c ^^^ b.toNat))))))))
/-- CRC-32C of a byte string (R77). -/
def crc32c (bs : Bytes) : Nat := (bs.foldl crcByte 0xFFFFFFFF) ^^^ 0xFFFFFFFF

/-- The session state of a code (R76). -/
def SState.ofCode (n : Nat) : SState :=
  match n with
  | 1 => .open | 2 => .running | 3 => .waiting | 4 => .parking | 5 => .parked | 6 => .history | 7 => .reviving
  | 8 => .migrating | 9 => .closed | _ => .free
/-- The tier of a code (R76). -/
def Tier.ofCode (n : Nat) : Tier := match n with | 0 => .hot | 1 => .warm | 2 => .parked | 3 => .history | _ => .gone
/-- The lease state of a code (R76). -/
def Lease.ofCode (n : Nat) : Lease := match n with | 1 => .held | 2 => .offered | 3 => .reclaimed | _ => .none

/-- The descriptor's fields as R76 lays them out. -/
def Desc.puts (d : Desc) : List Put :=
  [⟨0x0, 0, 64, d.sid⟩,
   ⟨0x8, 0, 4, d.state.code⟩,
   ⟨0x8, 4, 3, d.tier.code⟩,
   ⟨0x8, 7, 1, b2n d.kill⟩,
   ⟨0x8, 8, 5, d.partition⟩,
   ⟨0x8, 13, 3, d.prio⟩,
   ⟨0x8, 16, 6, d.profile⟩,
   ⟨0x8, 22, 6, d.group⟩,
   ⟨0x8, 28, 1, b2n d.select⟩,
   ⟨0x8, 29, 1, b2n d.mx4⟩,
   ⟨0x8, 30, 1, b2n d.split⟩,
   ⟨0x8, 31, 1, b2n d.grammarBound⟩,
   ⟨0x8, 32, 4, d.hint⟩,
   ⟨0x8, 36, 2, d.deadPolicy⟩,
   ⟨0x8, 38, 7, d.rollbackN⟩,
   ⟨0x8, 48, 16, d.buddy⟩,
   ⟨0x10, 0, 32, d.ownerEpoch⟩,
   ⟨0x10, 32, 16, d.ownerCtrl⟩,
   ⟨0x10, 48, 2, d.lease.code⟩,
   ⟨0x18, 0, 16, d.subscriber⟩,
   ⟨0x18, 16, 12, d.service⟩,
   ⟨0x18, 28, 6, d.port⟩,
   ⟨0x20, 0, 23, d.committed⟩,
   ⟨0x20, 23, 23, d.histLen⟩,
   ⟨0x28, 0, 48, d.ptRoot⟩,
   ⟨0x30, 0, 48, d.histAddr⟩,
   ⟨0x38, 0, 23, d.histDurable⟩,
   ⟨0x38, 23, 1, b2n d.imageValid⟩,
   ⟨0x38, 24, 1, b2n d.imageMx4⟩,
   ⟨0x38, 25, 1, b2n d.mirrorValid⟩,
   ⟨0x40, 0, 64, d.imageHandle⟩,
   ⟨0x48, 0, 64, d.histHandle⟩,
   ⟨0x50, 0, 32, d.turnId⟩,
   ⟨0x50, 32, 18, d.ctx⟩,
   ⟨0x50, 50, 1, b2n d.ctxValid⟩,
   ⟨0x50, 51, 1, b2n d.turnQueued⟩,
   ⟨0x50, 52, 1, b2n d.stopMatch⟩,
   ⟨0x58, 0, 48, d.lastRow⟩,
   ⟨0x60, 0, 64, d.idleSince⟩,
   ⟨0x68, 0, 6, d.tokenizer⟩,
   ⟨0x68, 8, 14, d.stopSet⟩,
   ⟨0x68, 24, 10, d.grammarId⟩,
   ⟨0x70, 0, 48, d.grmState⟩,
   ⟨0x78, 0, 32, d.siftIndex⟩,
   ⟨0x80, 0, 23, d.rangeLo⟩,
   ⟨0x80, 23, 23, d.rangeHi⟩,
   ⟨0x80, 46, 6, d.rangeIdx⟩,
   ⟨0x80, 52, 6, d.rangeCnt⟩,
   ⟨0x88, 0, 64, d.charged⟩,
   ⟨0x90, 0, 64, d.opened⟩]

/-- The 256 bytes of a descriptor, with CHECK and VERSION (R76, R77). -/
def Desc.bytes (d : Desc) : Bytes :=
  let body := pack 0xF8 d.puts
  body ++ leBytes 4 (crc32c body) ++ [1, 0, 0, 0]

/-- CHECK of a descriptor's bytes verifies (R77). -/
def descCheck (bs : Bytes) : Bool := bs.length == 256 && crc32c (bs.take 0xF8) == leAt bs 0xF8 4

/-- The descriptor that 256 bytes spell (R76). -/
def Desc.ofBytes (bs : Bytes) : Desc :=
  { sid := fieldAt bs 0x0 0 64
    state := SState.ofCode (fieldAt bs 0x8 0 4)
    tier := Tier.ofCode (fieldAt bs 0x8 4 3)
    kill := fieldAt bs 0x8 7 1 == 1
    partition := fieldAt bs 0x8 8 5
    prio := fieldAt bs 0x8 13 3
    profile := fieldAt bs 0x8 16 6
    group := fieldAt bs 0x8 22 6
    select := fieldAt bs 0x8 28 1 == 1
    mx4 := fieldAt bs 0x8 29 1 == 1
    split := fieldAt bs 0x8 30 1 == 1
    grammarBound := fieldAt bs 0x8 31 1 == 1
    hint := fieldAt bs 0x8 32 4
    deadPolicy := fieldAt bs 0x8 36 2
    rollbackN := fieldAt bs 0x8 38 7
    buddy := fieldAt bs 0x8 48 16
    ownerEpoch := fieldAt bs 0x10 0 32
    ownerCtrl := fieldAt bs 0x10 32 16
    lease := Lease.ofCode (fieldAt bs 0x10 48 2)
    subscriber := fieldAt bs 0x18 0 16
    service := fieldAt bs 0x18 16 12
    port := fieldAt bs 0x18 28 6
    committed := fieldAt bs 0x20 0 23
    histLen := fieldAt bs 0x20 23 23
    ptRoot := fieldAt bs 0x28 0 48
    histAddr := fieldAt bs 0x30 0 48
    histDurable := fieldAt bs 0x38 0 23
    imageValid := fieldAt bs 0x38 23 1 == 1
    imageMx4 := fieldAt bs 0x38 24 1 == 1
    mirrorValid := fieldAt bs 0x38 25 1 == 1
    imageHandle := fieldAt bs 0x40 0 64
    histHandle := fieldAt bs 0x48 0 64
    turnId := fieldAt bs 0x50 0 32
    ctx := fieldAt bs 0x50 32 18
    ctxValid := fieldAt bs 0x50 50 1 == 1
    turnQueued := fieldAt bs 0x50 51 1 == 1
    stopMatch := fieldAt bs 0x50 52 1 == 1
    lastRow := fieldAt bs 0x58 0 48
    idleSince := fieldAt bs 0x60 0 64
    tokenizer := fieldAt bs 0x68 0 6
    stopSet := fieldAt bs 0x68 8 14
    grammarId := fieldAt bs 0x68 24 10
    grmState := fieldAt bs 0x70 0 48
    siftIndex := fieldAt bs 0x78 0 32
    rangeLo := fieldAt bs 0x80 0 23
    rangeHi := fieldAt bs 0x80 23 23
    rangeIdx := fieldAt bs 0x80 46 6
    rangeCnt := fieldAt bs 0x80 52 6
    charged := fieldAt bs 0x88 0 64
    opened := fieldAt bs 0x90 0 64 }

/-- The kind of a context as its code (R86). -/
def CtxKind.code : CtxKind → Nat | .turn => 0 | .revive => 1 | .rebuild => 2 | .migrateOut => 3 | .migrateIn => 4
/-- The phase of a context as its code (R86). -/
def CtxPhase.code : CtxPhase → Nat
  | .queued => 0 | .prefill => 1 | .decode => 2 | .tierMove => 3 | .cancelling => 4 | .done => 5

/-- The 64 bytes of a request context (R86). -/
def Ctx.bytes (c : Ctx) : Bytes :=
  pack 64
    [⟨0, 0, 64, c.sid⟩, ⟨8, 0, 32, c.hseq⟩, ⟨8, 32, 3, c.kind.code⟩, ⟨8, 35, 4, c.phase.code⟩, ⟨8, 39, 3, c.prio⟩,
     ⟨8, 42, 1, b2n c.kill⟩, ⟨8, 43, 1, b2n c.keep⟩, ⟨8, 44, 1, b2n c.batchSlot.isSome⟩,
     ⟨8, 45, 15, c.batchSlot.getD 0⟩, ⟨0x10, 0, 32, c.mapEpoch⟩, ⟨0x10, 32, 32, c.ownerEpoch⟩,
     ⟨0x18, 0, 48, c.admitRow⟩, ⟨0x18, 48, 8, c.deferrals⟩, ⟨0x18, 56, 6, c.group⟩, ⟨0x20, 0, 23, c.baseCommitted⟩,
     ⟨0x20, 23, 23, c.baseHist⟩, ⟨0x28, 0, 23, c.promptLen⟩, ⟨0x28, 23, 23, c.genTokens⟩, ⟨0x28, 46, 2, c.rollbacks⟩,
     ⟨0x30, 0, 23, c.maxNew⟩, ⟨0x30, 32, 16, c.eq⟩, ⟨0x38, 0, 24, c.resvPages⟩, ⟨0x38, 24, 32, c.charge⟩,
     ⟨0x38, 56, 8, c.cause.getD 0⟩]

/-- The 64 bytes of a completion record (R95). -/
def Completion.bytes (c : Completion) : Bytes :=
  pack 64
    [⟨0, 0, 64, c.sid⟩, ⟨8, 0, 32, c.hseq⟩, ⟨8, 32, 16, c.status⟩, ⟨8, 48, 8, c.cause⟩, ⟨8, 56, 1, b2n c.final⟩,
     ⟨8, 57, 1, b2n c.stopMatch⟩, ⟨8, 58, 1, b2n c.nonconform⟩, ⟨8, 59, 1, b2n c.overridden⟩,
     ⟨0x10, 0, 32, c.turnId⟩, ⟨0x10, 32, 2, c.rollbacks⟩, ⟨0x10, 34, 14, c.voided⟩, ⟨0x18, 0, 23, c.genTokens⟩,
     ⟨0x18, 23, 23, c.promptTokens⟩, ⟨0x20, 0, 48, c.firstRow⟩, ⟨0x28, 0, 48, c.row⟩, ⟨0x30, 0, 32, c.textBytes⟩,
     ⟨0x30, 32, 16, c.dropped⟩, ⟨0x38, 0, 32, c.cutOffset⟩, ⟨0x38, 32, 32, c.charge⟩]

/-- The 128 bytes of a reply entry (R521). -/
def Reply.bytes (r : Reply) : Bytes :=
  pack 16
    [⟨0, 0, 32, r.hseq⟩, ⟨0, 32, 32, r.dseq⟩, ⟨8, 0, 16, r.status.code⟩, ⟨8, 16, 16, r.opcode⟩, ⟨8, 32, 1, b2n r.phase⟩,
     ⟨8, 33, 1, b2n r.replay⟩, ⟨8, 34, 1, b2n r.bypass⟩, ⟨8, 48, 16, r.small⟩] ++ padTo 112 r.result

/-- The 64-byte body of an event (R532, R536). -/
def Event.body (e : Event) : Bytes :=
  match e.comp with
  | some c => c.bytes
  | none =>
    pack 16 [⟨0, 0, 64, e.subject⟩, ⟨8, 0, 16, e.status⟩, ⟨8, 16, 8, e.cause⟩, ⟨8, 32, 32, e.hseq⟩]
      ++ padTo 48 ((e.args.take 6).flatMap (leBytes 8))

/-- The 128 bytes of an event entry (R532). -/
def Event.bytes (e : Event) (eseq : Nat) (phase backlogged : Bool) : Bytes :=
  pack 64 [⟨0, 0, 32, eseq⟩, ⟨0, 32, 8, e.typ⟩, ⟨0, 40, 1, b2n phase⟩, ⟨0, 41, 1, b2n backlogged⟩, ⟨8, 0, 64, e.time⟩]
    ++ e.body

end Sys2Proof.Machine
end

