-- ==== Sys2Proof/Machine/Pages.lean ====
section
/-! DEFINITION. The page store: classes, regions, bins, frames, page tables, references and reclamation (chapter 4). -/
namespace Sys2Proof.Machine
open Sys2Proof

/-! ## Slab classes and layout (R105 to R111, R624) -/

/-- Frame sizes of the classes in KiB (R107). -/
def classTab : List Nat := [4, 8, 12, 16, 20, 24, 28, 32, 40, 48, 56, 64, 80, 96, 112, 128]
/-- Frame size of a class in bytes. -/
def classBytes (c : Nat) : Nat := classTab.getD c 128 * 1024
/-- Frame size of a class in 4 KiB units (R109). -/
def classUnits (c : Nat) : Nat := classTab.getD c 128 / 4
/-- Frames that a bin of the class holds (R107). -/
def classFrames (c : Nat) : Nat := 2 ^ 24 / classBytes c
/-- Payload of a page: 64 slots and the trailer (R106). -/
def pagePayload (slotBytes : Nat) : Nat := 64 * slotBytes + 64
/-- The smallest class that holds a payload; none above 128 KiB (R106). -/
def classFor (payload : Nat) : Option Nat := (List.range 16).find? fun c => payload ≤ classBytes c

/-- Home die of a local slot: bit 21 (R35). -/
def slotDie (slot : Nat) : Nat := slot / 2 ^ 21 % 2

/-- Retired sets of a die, as bits (R586). -/
def Dev.retSets (d : Dev) (die : Nat) : Nat := if die = 0 then d.g F.FLT_RET_SET_W_SETS else d.g F.FLT_RET_SET_E_SETS
/-- A 16 MiB block of a die lies in a retired set (R586). -/
def Dev.blockRetired (d : Dev) (die blk : Nat) : Bool := bitOf (d.retSets die) (blk % 64)

/-- Blocks `a` of `[lo, lo + n)` with `a mod 64 = j`. -/
def blocksOfSet (lo n j : Nat) : Nat := (lo + n + 63 - j) / 64 - (lo + 63 - j) / 64
/-- Blocks of retired sets in `[lo, lo + n)` of a die. -/
def Dev.retiredIn (d : Dev) (die lo n : Nat) : Nat :=
  if d.retSets die = 0 then 0
  else ((List.range 64).filter fun j => bitOf (d.retSets die) j).foldl (fun a j => a + blocksOfSet lo n j) 0

/-- Blocks of the fixed regions of a die (R624). -/
def Dev.fixedBlocks (d : Dev) (die : Nat) : Nat :=
  256 + 32 + 1024 + 64 + 64 * d.g F.ATT_PRF_REGION_GIB + 128 + 64 * d.g F.GRM_REGION_GIB
    + 64 * (if die = 0 then d.g F.SFT_REGION_GIB_W else d.g F.SFT_REGION_GIB_E)
    + (if die = 0 then 64 * d.g F.SEC_STAGE_GIB else 0)

/-- The least block count above `lo` whose live blocks reach `need` (R624). -/
def Dev.liveEnd (d : Dev) (die need : Nat) : Nat → Nat → Nat
  | 0, e => e
  | k + 1, e => if need ≤ e - d.retiredIn die 0 e then e else Dev.liveEnd d die need k (need + d.retiredIn die 0 e)
/-- First block above the fixed regions of a die (R624). -/
def Dev.fixedEnd (d : Dev) (die : Nat) : Nat := d.liveEnd die (d.fixedBlocks die) 64 (d.fixedBlocks die)

/-- Bins that hold the frame records and the bin table (R111). -/
def recordBins (bins : Nat) : Nat := ceilDiv bins 256 + 1
/-- Bins that the page-table pool reaches into (R111). -/
def poolBins (blocks : Nat) : Nat := ceilDiv blocks 4096
/-- Bins below both: the bins that hold pages (R111). -/
def pageBinsOf (bins blocks : Nat) : Nat := bins - (recordBins bins + poolBins blocks)
/-- Page bins of a die. -/
def Dev.pageBins (d : Dev) (die : Nat) : Nat := pageBinsOf (d.gi F.PGS_REGION_BINS die) (d.gi F.PGS_PTPOOL_BLOCKS die)

/-- A page region is laid out (R141). -/
def Dev.laidOut (d : Dev) (die bins base pool : Nat) : Bool :=
  1 ≤ bins && base + bins ≤ Config.dieBins && d.fixedEnd die ≤ base && recordBins bins + poolBins pool < bins
/-- The page region of a die is laid out. -/
def Dev.dieLaidOut (d : Dev) (die : Nat) : Bool :=
  d.laidOut die (d.gi F.PGS_REGION_BINS die) (d.gi F.PGS_REGION_BASE die) (d.gi F.PGS_PTPOOL_BLOCKS die)

/-- Both dies are laid out afresh: the page region fills each die above its fixed regions (R624). -/
def Dev.layOut (d : Dev) : Dev :=
  [0, 1].foldl (fun d die =>
    (d.si F.PGS_REGION_BASE die (d.fixedEnd die)).si F.PGS_REGION_BINS die (Config.dieBins - d.fixedEnd die)) d

/-! ## Bins and frames (R108 to R112, R119) -/

/-- The null page id (R110). -/
def nullPage : Nat := 0xFFFFFFFF
/-- Die of a page id (R110). -/
def pageDie (id : Nat) : Nat := id / 2 ^ 31 % 2
/-- Bin key of a page id: die * 2^19 + bin (R110). -/
def pageBin (id : Nat) : Nat := id / 2 ^ 12
/-- The frame record of a page id; a frame that is not listed is FREE (R112). -/
def Dev.frame (d : Dev) (id : Nat) : Frame := NMap.getD d.pgs.frames id {}
/-- The frames with one changed. -/
def Dev.setFrame (d : Dev) (id : Nat) (f : Frame) : Dev :=
  { d with pgs := { d.pgs with frames := NMap.put d.pgs.frames id f } }
/-- Local offset of a frame: bit 47 the die (R110, R379). -/
def Dev.frameAddr (d : Dev) (id : Nat) : Nat :=
  let die := pageDie id
  die * 2 ^ 47 + (d.gi F.PGS_REGION_BASE die + id / 2 ^ 12 % 2 ^ 19) * 2 ^ 24
    + id % 2 ^ 12 * classBytes (NMap.getD d.pgs.bins (pageBin id) 0)
/-- A page id names a frame of its die's page region (R110). -/
def Dev.pageOk (d : Dev) (id : Nat) : Bool :=
  id < 2 ^ 32 && id / 2 ^ 12 % 2 ^ 19 < d.gi F.PGS_REGION_BINS (pageDie id) &&
    id % 2 ^ 12 < classFrames (NMap.getD d.pgs.bins (pageBin id) 0)

/-- Frames of a bin that are not FREE. -/
def Dev.binUsed (d : Dev) (bin : Nat) : Nat := NMap.cnt d.pgs.frames fun id _ => pageBin id == bin
/-- The block of a bin lies in a retired set: nothing more is allocated there (R586). -/
def Dev.binRetired (d : Dev) (bin : Nat) : Bool :=
  d.blockRetired (bin / 2 ^ 19) (d.gi F.PGS_REGION_BASE (bin / 2 ^ 19) + bin % 2 ^ 19)
/-- Assigned bins of a class on a die that still take frames. -/
def Dev.classBins (d : Dev) (die c : Nat) : List Nat :=
  (d.pgs.bins.filter fun e => e.1 / 2 ^ 19 == die && e.2 == c && !d.binRetired e.1).map (·.1)
/-- Free frames of a class on a die (R109). -/
def Dev.freeFrames (d : Dev) (die c : Nat) : Nat :=
  (d.classBins die c).foldl (fun a b => a + (classFrames c - d.binUsed b)) 0
/-- Empty bins of a die (R108). -/
def Dev.emptyBins (d : Dev) (die : Nat) : Nat :=
  d.pageBins die - NMap.cnt d.pgs.bins (fun b _ => b / 2 ^ 19 == die && !d.binRetired b)
    - d.retiredIn die (d.gi F.PGS_REGION_BASE die) (d.pageBins die)
/-- Available units of a class on a die (R109). -/
def Dev.avail (d : Dev) (die c : Nat) : Nat :=
  (d.freeFrames die c + d.emptyBins die * classFrames c) * classUnits c

/-- The assigned bin of the class with the fewest free frames above none, the lowest on a tie (R108). -/
def Dev.fullestBin (d : Dev) (die c : Nat) : Option Nat :=
  (d.classBins die c).foldl (fun best b =>
    if classFrames c ≤ d.binUsed b then best
    else match best with
      | none => some b
      | some x => if d.binUsed x < d.binUsed b then some b else best) none
/-- The lowest bin from `lo` that is neither assigned nor retired, among `n`. -/
def Dev.lowestEmpty (d : Dev) (die : Nat) : Nat → Nat → Option Nat
  | 0, _ => none
  | n + 1, lo =>
    if NMap.has d.pgs.bins (die * 2 ^ 19 + lo) || d.binRetired (die * 2 ^ 19 + lo) then Dev.lowestEmpty d die n (lo + 1)
    else some (die * 2 ^ 19 + lo)

/-- A frame of class `c` on a die is taken: page id, and the store with the frame RESERVED at REFCOUNT 1 (R108, R119). Its HEAT_ROW is 0 until
its first decay: no rule gives one, and it sets how many halvings the first read counts (DESIGN CHOICE, log entry 80). -/
def Dev.takeFrame (d : Dev) (die c : Nat) (f : Frame) : Option (Nat × Dev) :=
  let bin? := match d.fullestBin die c with
    | some b => some b
    | none => d.lowestEmpty die (d.pageBins die) 0
  match bin? with
  | none => none
  | some b =>
    match NMap.freeFrom d.pgs.frames (classFrames c) (b * 2 ^ 12) with
    | none => none
    | some id =>
      let d := { d with pgs := { d.pgs with bins := NMap.put d.pgs.bins b c } }
      some (id, d.setFrame id { f with cls := c, refcount := 1, fstate := 1, heatRow := 0 })

/-- A frame is read by a station in a row: HEAT counts the row once, after the halvings that are due (R128). The row is that of the reading
session's group, also for a frame that sessions of several groups share (DESIGN CHOICE, log entry 80). -/
def Dev.heatFrame (d : Dev) (id row : Nat) : Dev :=
  let f := d.frame id
  if f.lastRead = row + 1 then d
  else
    let k := (row + 2 ^ 17 - f.heatRow) % 2 ^ 17 / 2 ^ d.g F.PGS_TRACK_DECAY_EXP
    d.setFrame id { f with
      heat := satAdd 8 (f.heat / 2 ^ k) 1
      heatRow := if 0 < k then row % 2 ^ 17 else f.heatRow
      lastRead := row + 1 }

/-- A frame returns straight to the free list. -/
def Dev.freeFrame (d : Dev) (id : Nat) : Dev := { d with pgs := { d.pgs with frames := NMap.del d.pgs.frames id } }

/-- The session at a local slot. -/
def Dev.sess (d : Dev) (slot : Nat) : Session := NMap.getD d.ses.tab slot {}
/-- The row of a group may still read a frame that has been dropped (R100, R103, R119). -/
def Dev.readBy (d : Dev) (id g : Nat) : Dev :=
  { d with pgs := { d.pgs with dropped := NMap.put d.pgs.dropped id (g :: (NMap.getD d.pgs.dropped id []).erase g) } }
/-- A reference to a frame is dropped; at REFCOUNT 0 it goes to RECLAIM. The row of a session that takes part in one may read
the frame until its boundary (R100, R119). -/
def Dev.dropRef (d : Dev) (slot id : Nat) : Dev :=
  let f := d.frame id
  let f := if f.ownerValid && f.owner == slot then { f with ownerValid := false } else f
  let d := if (d.sess slot).inRow then d.readBy id (d.sess slot).d.group else d
  if f.refcount ≤ 1 then d.setFrame id { f with refcount := 0, fstate := 3 }
  else d.setFrame id { f with refcount := f.refcount - 1 }

/-- A frame gains a reference (R119, R121). -/
def Dev.addRef (d : Dev) (id : Nat) : Dev := d.setFrame id { d.frame id with refcount := (d.frame id).refcount + 1 }

/-- The class that stands for a bin taken for fixed regions relocated out of a retired set (R586). -/
def fixedClass : Nat := 16
/-- Bins without a frame become empty (R108); those that hold relocated fixed regions stay taken (R586). -/
def Dev.emptyOut (d : Dev) : Dev :=
  { d with pgs := { d.pgs with bins := NMap.keep d.pgs.bins fun b c => c == fixedClass || 0 < d.binUsed b } }

/-- Frames that a capture still needs stay in RECLAIM (R554). -/
def Dev.captureHolds (d : Dev) (id : Nat) : Bool :=
  d.ckp.shards.any fun sh => sh.caps.any fun c =>
    c.todo.any fun k => (NMap.get? c.sess.pt k).any fun e => e.pageId == id

/-- A frame lies in a released region that messages still place into or read from (R382). -/
def Dev.regionHolds (d : Dev) (id : Nat) : Bool :=
  d.hall.released.any fun e => decide (e.2.base ≤ d.frameAddr id) && decide (d.frameAddr id < e.2.base + e.2.length)
/-- The reclaim list empties into the free list, but for frames that a group's row may still read or that a message still uses, and bins without frames become
empty (R103, R119, R131 step 4, R382). -/
def Dev.reclaimFrames (d : Dev) : Dev :=
  let keep := d.pgs.frames.filter fun e => e.2.fstate != 3 || d.captureHolds e.1 || d.regionHolds e.1 || NMap.has d.pgs.dropped e.1
  ({ d with pgs := { d.pgs with frames := keep } }).emptyOut
/-- The row of a group has ended: it reads no frame and no page-table block any more (R103, R116). -/
def Dev.rowRead (d : Dev) (g : Nat) : Dev :=
  let left := (d.pgs.dropped.map fun e => (e.1, e.2.erase g)).filter fun e => !e.2.isEmpty
  let back (die : Nat) : List (Nat × Nat) :=
    NMap.getD d.pgs.blocksBack die [] ++ NMap.getD d.pgs.blocksBack (die + 2 * (g + 1)) []
  let own := (d.pgs.blocksBack.filter fun e => e.1 / 2 != g + 1 && e.1 / 2 != 0)
  { d with pgs := { d.pgs with
    dropped := left
    blocksBack := (([(0, back 0), (1, back 1)]).filter fun e => !e.2.isEmpty) ++ own } }

/-! ## Sessions, page tables and the pool (R113 to R116, R207) -/

/-- The sessions with one changed. -/
def Dev.setSess (d : Dev) (slot : Nat) (x : Session) : Dev :=
  { d with ses := { d.ses with tab := NMap.put d.ses.tab slot x } }
/-- The sessions with the one at a slot changed by `f`. -/
def Dev.updSess (d : Dev) (slot : Nat) (f : Session → Session) : Dev := d.setSess slot (f (d.sess slot))
/-- The sessions with one descriptor changed by `f`. -/
def Dev.updDesc (d : Dev) (slot : Nat) (f : Desc → Desc) : Dev :=
  d.updSess slot fun x => { x with d := f x.d }
/-- The profile of a session. -/
def Dev.prof (d : Dev) (x : Session) : Profile := NMap.getD d.att.profiles x.d.profile {}

/-- Blocks of a leaf: a run of ten with selection (R207). -/
def leafBlocks (p : Profile) : Nat := if 0 < p.selGroups then 10 else 1
/-- Pool blocks that a session holds: its page table and its grammar area (R116, R305). -/
def Dev.blocksOf (d : Dev) (x : Session) : Nat :=
  b2n x.ptHeld + x.ptLeaves.length * leafBlocks (d.prof x) + x.ptDirs.length + (if x.area then 6 else 0)
/-- Blocks of a die's pool that wait for a reclamation step, as runs: first block and count (R116). -/
def Dev.backRuns (d : Dev) (die : Nat) : List (Nat × Nat) := (d.pgs.blocksBack.filter fun e => e.1 % 2 == die).flatMap (·.2)
/-- Pool blocks of a die that are free (R116). -/
def Dev.poolFree (d : Dev) (die : Nat) : Nat :=
  d.gi F.PGS_PTPOOL_BLOCKS die - (d.backRuns die).foldl (fun a r => a + r.2) 0
    - d.ses.tab.foldl (fun a e => if slotDie e.1 = die then a + d.blocksOf e.2 else a) 0

/-- Leaves that a set of pages needs: layer * 128 + leaf. -/
def leavesOf (keys : List Nat) : List Nat := (keys.map fun k => k / 65536 * 128 + k % 65536 / 512).dedup
/-- Directories that leaves need: one of four layers once a layer has a leaf above its first (R113). -/
def dirsOf (leaves : List Nat) : List Nat := ((leaves.filter fun l => l % 128 != 0).map fun l => l / 512).dedup
/-- Leaves and directories that a session must still take to hold more pages, after a root if it has none (R113). -/
def Session.newBlocks (x : Session) (more : List Nat) : List Nat × List Nat :=
  let leaves := (leavesOf more).filter fun l => !NMap.has x.ptLeaves l
  (leaves, (dirsOf leaves).filter fun j => !NMap.has x.ptDirs j)
/-- Blocks that a session must still take to hold more pages. -/
def Dev.blocksNeeded (d : Dev) (x : Session) (more : List Nat) : Nat :=
  let (leaves, dirs) := x.newBlocks more
  (if x.ptHeld || more.isEmpty then 0 else 1) + leaves.length * leafBlocks (d.prof x) + dirs.length

/-- Local offset of a die's page-table pool: it ends where the frame records begin (R111). -/
def Dev.poolBase (d : Dev) (die : Nat) : Nat :=
  let bins := d.gi F.PGS_REGION_BINS die
  die * 2 ^ 47 + (d.gi F.PGS_REGION_BASE die + bins - recordBins bins) * 2 ^ 24 - d.gi F.PGS_PTPOOL_BLOCKS die * 4096
/-- Local offset of a block of a die's pool (R113). -/
def Dev.blockAddr (d : Dev) (die b : Nat) : Nat := d.poolBase die + b * 4096
/-- Runs of pool blocks that a session holds: first block and count (R113, R207, R305). -/
def Dev.runsOf (d : Dev) (slot : Nat) (x : Session) : List (Nat × Nat) :=
  let at' (a : Nat) : Nat := (a - d.poolBase (slotDie slot)) / 4096
  (if x.ptHeld then [(at' x.d.ptRoot, 1)] else []) ++ (x.ptLeaves.map fun e => (e.2, leafBlocks (d.prof x))) ++
    (x.ptDirs.map fun e => (e.2, 1)) ++ if x.area then [(at' x.d.grmState, 6)] else []
/-- Runs of a die's pool that are not free. -/
def Dev.poolRuns (d : Dev) (die : Nat) : List (Nat × Nat) :=
  d.backRuns die ++ d.ses.tab.flatMap fun e => if slotDie e.1 = die then d.runsOf e.1 e.2 else []
/-- The lowest start from `c` of `n` blocks that meet none of the runs, with fuel for as many runs as there are. -/
def clearOf (runs : List (Nat × Nat)) (n : Nat) : Nat → Nat → Nat
  | 0, c => c
  | k + 1, c => match runs.find? fun r => r.1 < c + n && c < r.1 + r.2 with
    | some r => clearOf runs n k (r.1 + r.2)
    | none => c
/-- First blocks of new runs, each at the lowest place that is free; none if the pool lacks one (R116, R207; log entry 70). -/
def placeRuns (blocks : Nat) : List (Nat × Nat) → List Nat → Option (List Nat)
  | _, [] => some []
  | runs, n :: ns =>
    let c := clearOf runs n runs.length 0
    if blocks < c + n then none else (placeRuns blocks ((c, n) :: runs) ns).map (c :: ·)
/-- Sizes of the runs that a session takes to hold more pages: the leaves, the directories, then the root (R113, R207). -/
def Dev.newRuns (d : Dev) (x : Session) (more : List Nat) : List Nat :=
  let (leaves, dirs) := x.newBlocks more
  leaves.map (fun _ => leafBlocks (d.prof x)) ++ dirs.map (fun _ => 1) ++ if x.ptHeld || more.isEmpty then [] else [1]
/-- A die's pool has the runs (R116). -/
def Dev.poolHolds (d : Dev) (die : Nat) (sizes : List Nat) : Bool :=
  (placeRuns (d.gi F.PGS_PTPOOL_BLOCKS die) (d.poolRuns die) sizes).isSome

/-- A session takes the pool blocks that more pages need, where the pool has them (R113, R116). -/
def Dev.takeBlocks (d : Dev) (slot : Nat) (more : List Nat) : Dev :=
  let x := d.sess slot
  let die := slotDie slot
  let (leaves, dirs) := x.newBlocks more
  match placeRuns (d.gi F.PGS_PTPOOL_BLOCKS die) (d.poolRuns die) (d.newRuns x more) with
  | none => d
  | some bs =>
    let put (m : NMap Nat) (e : Nat × Nat) : NMap Nat := NMap.put m e.1 e.2
    d.setSess slot { x with
      ptHeld := x.ptHeld || !more.isEmpty
      ptLeaves := (leaves.zip bs).foldl put x.ptLeaves
      ptDirs := (dirs.zip (bs.drop leaves.length)).foldl put x.ptDirs
      ptVia := (x.ptVia ++ (leaves.filter fun l => l % 128 != 0).map fun l => l / 128).dedup
      d := if x.ptHeld || more.isEmpty then x.d else { x.d with ptRoot := d.blockAddr die (bs.getLast?.getD 0) } }

/-- Leaves without entries and directories without leaves return to the pool at a reclamation step (R116). -/
def Session.dropBlocks (x : Session) : Session :=
  let used := leavesOf (NMap.keys x.pt ++ x.resv.map fun r => r.layer * 65536 + r.page)
  let leaves := NMap.keep x.ptLeaves fun l _ => used.contains l
  let via := x.ptVia.filter fun y => leaves.any fun e => e.1 / 128 == y
  { x with ptLeaves := leaves, ptVia := via, ptDirs := NMap.keep x.ptDirs fun j _ => via.any fun y => y / 4 == j }

/-- Runs of blocks that a session gives back wait for a reclamation step: the next one, or the next of its group while a row may
read them (R103, R116). -/
def Dev.giveBlocks (d : Dev) (slot : Nat) (runs : List (Nat × Nat)) : Dev :=
  let x := d.sess slot
  let key := slotDie slot + if x.inRow then 2 * (x.d.group + 1) else 0
  if runs.isEmpty then d
  else { d with pgs := { d.pgs with blocksBack := NMap.put d.pgs.blocksBack key (NMap.getD d.pgs.blocksBack key [] ++ runs) } }

/-- The reclamation step's pool work (R116): what no row may still read returns. -/
def Dev.reclaimBlocks (d : Dev) : Dev :=
  { d with
    pgs := { d.pgs with blocksBack := NMap.keep d.pgs.blocksBack fun k _ => 2 ≤ k }
    ses := { d.ses with tab := NMap.mapV d.ses.tab fun _ x => if x.inRow then x else x.dropBlocks } }

/-- Page keys of a session from page `lo` of every layer upward. -/
def Session.pagesFrom (x : Session) (lo : Nat) : List Nat :=
  ((x.pt.filter fun e => lo ≤ e.1 % 65536).map (·.1))

/-- References of the entries under `keys` are dropped, and their signatures cleared (R100, R119, R206). -/
def Dev.dropPages (d : Dev) (slot : Nat) (keys : List Nat) : Dev :=
  let x := d.sess slot
  let d := keys.foldl (fun d k => match NMap.get? x.pt k with
    | some e => d.dropRef slot e.pageId
    | none => d) d
  d.setSess slot { x with
    pt := x.pt.filter fun e => !keys.contains e.1
    sigs := x.sigs.filter fun e => !keys.contains e.1
    newSigs := x.newSigs.filter fun e => !keys.contains e.1
    coarse := x.coarse.filter fun e => !keys.any fun k => k / 65536 == e.1 / 1024 && k % 65536 / 64 == e.1 % 1024 }

/-- Copies that a session waits for are not made (R122). -/
def Dev.dropCopies (d : Dev) (slot : Nat) : Dev :=
  { d with pgs := { d.pgs with copies := d.pgs.copies.filter fun c => c.1 != slot } }
/-- The contexts of a session hold no reserved page any more (R86). -/
def Dev.noResvPages (d : Dev) (slot : Nat) : Dev :=
  { d with ses := { d.ses with ctxs := NMap.mapV d.ses.ctxs fun _ c => if c.slot = slot then { c with resvPages := 0 } else c } }
/-- Reserved frames of a session are given up: unshared, they go to the reclaim list (R86, R100, R139). -/
def Dev.dropResv (d : Dev) (slot : Nat) : Dev :=
  let x := d.sess slot
  let d := x.resv.foldl (fun d r => d.dropRef slot r.pageId) d
  ((d.dropCopies slot).noResvPages slot).setSess slot { x with resv := [] }

/-- Reserved frames of a session return straight to the free list (R131 step 6). -/
def Dev.freeResv (d : Dev) (slot : Nat) : Dev :=
  let x := d.sess slot
  let d := x.resv.foldl (fun d r => d.freeFrame r.pageId) d
  ((d.dropCopies slot).noResvPages slot).setSess slot { x with resv := [] }

/-- A session releases its whole page table (R103, R116, R331, R336). DEFAULT_PLACE stays with the session, and hints that wait are dropped
(R127; DESIGN CHOICE, log entry 80). -/
def Dev.dropTable (d : Dev) (slot : Nat) : Dev :=
  let d := (d.dropResv slot).dropPages slot (NMap.keys (d.sess slot).pt)
  let x := d.sess slot
  let d := d.giveBlocks slot (d.runsOf slot { x with area := false })
  d.setSess slot { x with
    ptHeld := false
    ptLeaves := []
    ptDirs := []
    ptVia := []
    sigs := []
    coarse := []
    newSigs := []
    hints := []
    d := { x.d with ptRoot := 0 } }

/-- Units that a session holds on a die in frames that it alone references: those that its release frees (R135, R322, R331). -/
def Dev.unitsOn (d : Dev) (x : Session) (die : Nat) : Nat :=
  (x.pt.filter fun e => pageDie e.2.pageId == die && (d.frame e.2.pageId).refcount == 1).foldl (fun a e => a + classUnits e.2.cls) 0
/-- Units held on a die by sessions in PARKING (R135, R331 step 1). -/
def Dev.outbound (d : Dev) (die : Nat) : Nat :=
  d.ses.tab.foldl (fun a e => if e.2.d.state == .parking then a + d.unitsOn e.2 die else a) 0
/-- Units of frames that are FREE or in empty bins of a die, over all classes (R141). -/
def Dev.freeUnits (d : Dev) (die : Nat) : Nat :=
  d.emptyBins die * 4096 + (List.range 16).foldl (fun a c => a + d.freeFrames die c * classUnits c) 0
/-- Pages that the store of a die keeps it from being laid out afresh (R141, R624). -/
def Dev.pagesInUse (d : Dev) (die : Nat) : Bool :=
  d.pgs.frames.any (fun e => pageDie e.1 == die) || d.pgs.bins.any (fun e => e.1 / 2 ^ 19 == die) ||
    d.poolFree die != d.gi F.PGS_PTPOOL_BLOCKS die

end Sys2Proof.Machine
end

