-- ==== Sys2Proof/Machine/Regs.lean ====
section
/-! DEFINITION. Blocks, their enable fields and idle conditions, and the write path of registers (R8, R12 to R19, R67,
R141, R343, R376, R541 to R543, R574, R596 to R598). -/
namespace Sys2Proof.Machine
open Sys2Proof

/-! ## Blocks (R13, R574) -/

/-- The enable fields of the blocks. -/
def enableFields : List Fld :=
  [F.TIM_CTL_EN, F.PGS_CTL_EN, F.ATT_CTL_EN, F.TOK_CTL_EN, F.GRM_CTL_EN, F.PRK_CTL_EN, F.HMP_CTL_EN, F.HLF_CTL_EN,
   F.RCE_CTL_EN, F.SFT_CTL_EN, F.SHP_CTL_EN, F.SEC_CTL_EN, F.CKP_CTL_EN, F.CMD_CTL_EN]

/-- Prerequisites of a block, by their enable fields (R574). -/
def prereqs (f : Fld) : List Fld :=
  if f = F.PGS_CTL_EN then [F.HMP_CTL_EN]
  else if f = F.ATT_CTL_EN then [F.PGS_CTL_EN, F.RCE_CTL_EN]
  else if f = F.TOK_CTL_EN then [F.ATT_CTL_EN]
  else if f = F.GRM_CTL_EN then [F.TOK_CTL_EN]
  else if f = F.PRK_CTL_EN then [F.SEC_CTL_EN, F.HMP_CTL_EN]
  else if f = F.HMP_CTL_EN then [F.SEC_CTL_EN]
  else if f = F.HLF_CTL_EN then [F.TIM_CTL_EN, F.SEC_CTL_EN]
  else if f = F.RCE_CTL_EN then [F.TIM_CTL_EN]
  else if f = F.SFT_CTL_EN then [F.ATT_CTL_EN]
  else if f = F.SHP_CTL_EN then [F.PGS_CTL_EN]
  else if f = F.SEC_CTL_EN then [F.TIM_CTL_EN]
  else if f = F.CKP_CTL_EN then [F.HLF_CTL_EN, F.HMP_CTL_EN]
  else []

/-- The enable fields of a row of the block table (R574). -/
def rowEnables (row : Nat) : List Fld :=
  match row with
  | 0 => [F.TIM_CTL_EN] | 1 => [F.PGS_CTL_EN] | 2 => [F.ATT_CTL_EN] | 3 => [F.TOK_CTL_EN] | 4 => [F.GRM_CTL_EN]
  | 5 => [F.PRK_CTL_EN, F.HMP_CTL_EN] | 6 => [F.HLF_CTL_EN] | 7 => [F.RCE_CTL_EN] | 8 => [F.SFT_CTL_EN]
  | 9 => [F.SHP_CTL_EN] | 10 => [F.SEC_CTL_EN] | 11 => [F.CKP_CTL_EN] | _ => []

/-- The enable field that a register's fields belong to, by its offset; none for ID_, RST_, CLK_ and FLT_ (R13). -/
def enableOf (off : Nat) : Option Fld :=
  if off < 0x200000 then none
  else if off < 0x400000 then some F.TIM_CTL_EN
  else if off < 0x800000 then some F.CMD_CTL_EN
  else if off < 0xC00000 then some F.PGS_CTL_EN
  else if off < 0x1000000 then some F.ATT_CTL_EN
  else if off < 0x1400000 then some F.TOK_CTL_EN
  else if off < 0x1800000 then some F.GRM_CTL_EN
  else if off < 0x1802000 then some F.PRK_CTL_EN
  else if off < 0x2000000 then some F.HMP_CTL_EN
  else if off < 0x2800000 then some F.HLF_CTL_EN
  else if off < 0x3000000 then some F.RCE_CTL_EN
  else if off < 0x3400000 then some F.SFT_CTL_EN
  else if off < 0x3800000 then some F.SHP_CTL_EN
  else if off < 0x3C00000 then some F.SEC_CTL_EN
  else if off < 0x3E00000 then some F.CKP_CTL_EN
  else none

/-- Phase of a group (R70). -/
def Dev.phase (d : Dev) (g : Nat) : Nat := d.gi F.TIM_ROW_PHASE g
/-- The drain of a block that is to be reset begins: it takes no new work, and BLK_IDLE_MS runs (R576). -/
def Dev.startDrain (d : Dev) (row : Nat) : Dev :=
  let d := (rowEnables row).foldl (fun (d : Dev) en => d.s en 0) d
  let stops := (rowEnables row).map (·.addr)
  let till := d.now + d.g F.TIM_MAINT_BLK_IDLE_MS * 1000000
  { d with rst := { d.rst with
    stopping := d.rst.stopping.filter (fun a => !stops.contains a) ++ stops
    blocks := d.rst.blocks.map fun b => if b.row = row then { b with deadline := till } else b } }
/-- A group has left its boundary: block resets that waited for it go on (R576). -/
def Dev.boundaryOver (d : Dev) (g : Nat) : Dev :=
  let due := d.rst.blocks.filter fun b => b.groups == [g]
  let d := { d with rst := { d.rst with blocks := d.rst.blocks.map fun b => { b with groups := b.groups.filter (· != g) } } }
  due.foldl (fun (d : Dev) b => d.startDrain b.row) d
/-- The phase of a group changes. -/
def Dev.setPhase (d : Dev) (g : Nat) (p : Phase) : Dev :=
  let d := d.si F.TIM_ROW_PHASE g p.code
  if p = .boundary then d else d.boundaryOver g

/-- The idle condition of a block, by its enable field (R574). -/
def Dev.idle (d : Dev) (en : Fld) : Bool :=
  if en = F.TIM_CTL_EN then d.groups.all fun e => d.phase e.1 == 0 || d.phase e.1 == 4
  else if en = F.PGS_CTL_EN then d.pgs.moves.isEmpty && d.pgs.copies.isEmpty
  else if en = F.ATT_CTL_EN then
    d.att.engines.all (fun e => e.2.running.isNone && e.2.saved.isEmpty) && d.att.heldTiles.isEmpty && d.att.emitQ.isEmpty
  else if en = F.PRK_CTL_EN then d.prk.parks.isEmpty && d.prk.revives.isEmpty
  else if en = F.HMP_CTL_EN then d.halves.all fun e => e.2.buffer.isEmpty && e.2.queued.isEmpty
  else if en = F.HLF_CTL_EN then d.hall.conns.all fun e => e.2.state != .opened || e.2.msgs.isEmpty
  else if en = F.RCE_CTL_EN then d.hall.qps.all fun e => e.2.sent.isEmpty && e.2.reads == 0
  else if en = F.SFT_CTL_EN then d.sft.idx.all fun e => e.2.merging.isNone
  else if en = F.SEC_CTL_EN then d.sec.scrub.isNone && d.iso.destroying.isEmpty
  else if en = F.CKP_CTL_EN then d.ckp.prog.isEmpty
  else if en = F.CMD_CTL_EN then d.cmd.rings.all fun e => e.2.busy.isNone
  else true

/-- A block stops and is not yet idle (R13). -/
def Dev.stopping (d : Dev) (en : Fld) : Bool := d.rst.stopping.contains en.addr && !d.idle en
/-- A block runs: enabled, or stopping (R13). -/
def Dev.running (d : Dev) (en : Fld) : Bool := d.on en || d.stopping en

/-- A ring is RUNNING or has not yet reached DISABLED (R541). -/
def Dev.ringRuns (d : Dev) (fn r : Nat) : Bool :=
  d.gf F.CMD_RQ_CFG_EN fn r == 1 || d.gf F.CMD_RQ_STATUS_STATE fn r != 0
/-- A queue is enabled or has not yet reached DISABLED (R541). -/
def Dev.queueRuns (d : Dev) (fn q : Nat) : Bool :=
  d.gf F.CMD_EQ_CFG_EN fn q == 1 || d.gf F.CMD_EQ_STATUS_STATE fn q != 0

/-- The block of a field runs, or the field is one of a port whose role is not OFF (R13, R423, R541). -/
def Dev.fieldRuns (d : Dev) (f : Fld) (fn i : Nat) : Bool :=
  if 0x401000 ≤ f.addr ∧ f.addr < 0x402000 then d.ringRuns fn i
  else if 0x410000 ≤ f.addr ∧ f.addr < 0x420000 then d.queueRuns fn i
  else if 0x2000100 ≤ f.addr ∧ f.addr < 0x2000500 then d.running F.HLF_CTL_EN || d.gi F.HLF_PORT_ROLE i != 0
  else match enableOf f.addr with
    | some en => d.running en
    | none => false

/-! ## Finding the fields of an offset -/

/-- The instance of a field's register at an offset. -/
def Fld.instAt (f : Fld) (off : Nat) : Option Nat :=
  if f.stride = 0 then (if off = f.addr then some 0 else none)
  else if f.addr ≤ off ∧ (off - f.addr) % f.stride = 0 ∧ (off - f.addr) / f.stride < f.count then
    some ((off - f.addr) / f.stride)
  else none
/-- Kinds that have a FLT_THRESH register (R594). -/
def threshKinds : List Nat := [1, 2, 4, 6, 7, 8, 9, 10]
/-- The fields of the register at an offset, with the instance (R596). -/
def fieldsAt (off : Nat) : List (Fld × Nat) :=
  F.all.filterMap fun f => match f.instAt off with
    | some i => if f.addr = F.FLT_THRESH_CORR.addr ∧ !threshKinds.contains i then none else some (f, i)
    | none => none

/-- Instances of a ring or queue register that a function has (R540, R541). -/
def Dev.instLimit (d : Dev) (f : Fld) (fn : Nat) : Nat :=
  if 0x401000 ≤ f.addr ∧ f.addr < 0x402000 then d.gf F.CMD_LIMITS_RINGS_MAX fn 0
  else if 0x410000 ≤ f.addr ∧ f.addr < 0x420000 then d.gf F.CMD_LIMITS_EQS_MAX fn 0
  else f.count

/-! ## Ranges (R18, R67, R141, R343, R376) -/

/-- An FP32 word that is finite and not below zero, −0.0 included (R343). -/
def coefOk (v : Nat) : Bool := bits v 23 8 != 255 && (!bitOf v 31 || v == 0x80000000)

/-- The value lies in the field's stated range, against the other values in effect. PGS_BRIM.PAGES is one register for both dies: where their
page units differ, its bound is that of the lesser die (R140; DESIGN CHOICE, log entry 80). -/
def Dev.rangeOk (d : Dev) (f : Fld) (fn i v : Nat) : Bool :=
  f.rmin ≤ v && v ≤ f.rmax && v % f.rstep == 0 && v < 2 ^ f.w &&
  (if f = F.TIM_DPATH_STAKE_US then v ≤ 1000 * d.g F.TIM_DPATH_ROW_MS
   else if f = F.TIM_DPATH_ROW_MS then d.g F.TIM_DPATH_STAKE_US ≤ 1000 * v && d.g F.TIM_DPATH_BEACON_MS < v
   else if f = F.TIM_DPATH_BEACON_MS then v < d.g F.TIM_DPATH_ROW_MS
   else if f = F.TIM_LEASE_RENEW_MS then 3 * v ≤ d.g F.TIM_LEASE_EXPIRY_MS
   else if f = F.TIM_LEASE_EXPIRY_MS then 3 * d.g F.TIM_LEASE_RENEW_MS ≤ v
   else if f = F.ATT_GRP_LAT_TARGET_US ∨ f = F.ATT_GRP_TPT_TARGET_US then v ≤ d.g F.TIM_DPATH_STAKE_US
   else if f = F.PGS_BRIM_PAGES then v ≤ min (d.pageBins 0) (d.pageBins 1) * 4096
   else if f = F.PRK_COEF0_K_HOLD ∨ f = F.PRK_COEF0_K_WR ∨ f = F.PRK_COEF1_K_FIX ∨ f = F.PRK_COEF1_K_TOK ∨
     f = F.PRK_COEF2_K_TOK2 then coefOk v
   else if f = F.PRK_SPILL_HIGH_PCT then d.g F.PRK_SPILL_LOW_PCT + 1 ≤ v && v ≤ 100
   else if f = F.HMP_GC_START_BLK then d.g F.HMP_GC_URGENT_BLK + 1 ≤ v
   else if f = F.HMP_GC_URGENT_BLK then v + 1 ≤ d.g F.HMP_GC_START_BLK
   else if f = F.HMP_THERM_WARN_C then v + 5 ≤ d.g F.HMP_THERM_STOP_C
   else if f = F.HMP_THERM_STOP_C then d.g F.HMP_THERM_WARN_C + 5 ≤ v
   else if f = F.HLF_CC_WIN_INIT_KIB then d.g F.HLF_CC_WIN_MIN_KIB ≤ v && v ≤ d.g F.HLF_CC_WIN_MAX_KIB
   else if f = F.HLF_CC_WIN_MAX_KIB then d.g F.HLF_CC_WIN_MIN_KIB ≤ v
   else if f = F.SHP_NODE_SEL_KIND then v ≤ 2
   else if f = F.ISO_PART_PRIO_MAX then v ≤ (if i = 0 then 7 else 6)
   else if f = F.ISO_PART_PAGES_UNITS_W then v ≤ d.pageBins 0 * 4096
   else if f = F.ISO_PART_PAGES_UNITS_E then v ≤ d.pageBins 1 * 4096
   else if f = F.ISO_SHED_RANKS then (List.range 7).all fun l => bits v (3 * l) 3 ≤ 6
   else if f = F.CMD_RQ_CFG_VECTOR ∨ f = F.CMD_EQ_CFG_VECTOR then v < d.gf F.CMD_LIMITS_VECTORS fn 0
   else if f = F.PGS_PTPOOL_BLOCKS then
     1 ≤ v && (d.gi F.PGS_REGION_BINS i == 0 ||
       d.laidOut i (d.gi F.PGS_REGION_BINS i) (d.gi F.PGS_REGION_BASE i) v)
   else true)

/-- The value that an accepted write leaves: a coefficient written −0.0 takes +0.0 (R343). -/
def normal (f : Fld) (v : Nat) : Nat :=
  if v = 0x80000000 ∧ (f = F.PRK_COEF0_K_HOLD ∨ f = F.PRK_COEF0_K_WR ∨ f = F.PRK_COEF1_K_FIX ∨ f = F.PRK_COEF1_K_TOK ∨
    f = F.PRK_COEF2_K_TOK2) then 0 else v

/-! ## What a write of a field with an action of its own does, beside its value -/

/-- Actions that a write starts; each is a row of the command table. -/
inductive Act where
  | enable (en : Fld) | stop (en : Fld) | relayout (f : Fld) (v : Nat) | restart (g : Nat) | go
  | tail (fn r v : Nat) | rpHead (fn r v : Nat) (arm : Bool) | eqHead (fn q v : Nat) (arm : Bool)
  | ringOn (fn r : Nat) | ringOff (fn r : Nat) | queueOn (fn q : Nat) | queueOff (fn q : Nat)
  | sysEq (v : Nat)
  deriving DecidableEq, Repr

/-- The HBM region sizes that software may change (R624). -/
def regionFields : List Fld :=
  [F.ATT_PRF_REGION_GIB, F.GRM_REGION_GIB, F.SFT_REGION_GIB_W, F.SFT_REGION_GIB_E, F.SEC_STAGE_GIB]

/-- The action of a field, if its write has one; `whole` is the register value written. -/
def Dev.actOf (d : Dev) (f : Fld) (fn i v whole : Nat) : Option Act :=
  if enableFields.contains f then (if v = 1 then some (.enable f) else some (.stop f))
  else if regionFields.contains f then some (.relayout f v)
  else if f = F.TIM_GRP_CTL_RESTART then (if v = 1 then some (.restart i) else none)
  else if f = F.RST_CTL_GO then (if v = 1 then some .go else none)
  else if f = F.CMD_RQ_DB_TAIL then some (.tail fn i v)
  else if f = F.CMD_RP_DB_HEAD then some (.rpHead fn i v (bitOf whole 32))
  else if f = F.CMD_EQ_DB_HEAD then some (.eqHead fn i v (bitOf whole 32))
  else if f = F.CMD_RQ_CFG_EN then
    (if v = d.gf f fn i ∧ (v = 1 ∨ d.gf F.CMD_RQ_STATUS_STATE fn i != 3) then none
     else if v = 1 then some (.ringOn fn i) else some (.ringOff fn i))
  else if f = F.CMD_EQ_CFG_EN then
    (if v = d.gf f fn i ∧ (v = 1 ∨ d.gf F.CMD_EQ_STATUS_STATE fn i != 3) then none
     else if v = 1 then some (.queueOn fn i) else some (.queueOff fn i))
  else if f = F.CMD_CTL_SYS_EQ then some (.sysEq v)
  else none

/-- Fields that read 0 whatever is written: their write is an action only (R70, R542, R543, R593). -/
def actionOnly (f : Fld) : Bool :=
  f = F.TIM_GRP_CTL_RESTART || f = F.RST_CTL_GO || f = F.CMD_RP_DB_ARM || f = F.CMD_EQ_DB_ARM

/-- The most recent value written to a field, pending or in effect (R14). -/
def Dev.latest (d : Dev) (f : Fld) (fn i : Nat) : Nat :=
  match (d.pendS.filter fun e => e.1 == f.key fn i).getLast? with
  | some e => e.2
  | none => d.gf f fn i

/-! ## Pending S values (R15, R16) -/

/-- The block of a key's register: its enable field's offset, 0 for none. -/
def keyBlock (key : Nat) : Nat :=
  match enableOf (key / 64 % 2 ^ 26) with
  | some en => en.addr
  | none => 0

/-- A group is in a row or at its end: what it reads of S fields changes at its own next boundary only (R15). -/
def Dev.inRows (d : Dev) (g : Nat) : Bool := d.phase g != 0 && d.phase g != 4
/-- All pending S values take effect in the order in which they were written, at the boundary of group `g`; every other group in a
row keeps the values that it sees until its own next boundary (R15). -/
def Dev.applyS (d : Dev) (g : Nat) : Dev :=
  let keep (m : NMap (Option Nat)) (e : Nat × Nat) : NMap (Option Nat) :=
    if NMap.has m e.1 then m else NMap.put m e.1 (NMap.get? d.regs e.1)
  { d with
    regs := d.pendS.foldl (fun m e => NMap.put m e.1 e.2) d.regs
    groups := NMap.mapV d.groups fun h x =>
      if h = g then { x with oldS := [] } else if d.inRows h then { x with oldS := d.pendS.foldl keep x.oldS } else x
    pendS := [] }
/-- The groups see the value in effect of the S fields that `p` holds of the keys of (R14, R16). -/
def Dev.seeNow (d : Dev) (p : Nat → Bool) : Dev :=
  { d with groups := NMap.mapV d.groups fun _ x => { x with oldS := NMap.keep x.oldS fun k _ => !p k } }
/-- The value of an S field that a group sees in its row (R15). -/
def Dev.seen (d : Dev) (g : Nat) (f : Fld) : Nat :=
  match (NMap.get? d.groups g).bind fun x => NMap.get? x.oldS (f.key 0 0) with
  | some v => v.getD (f.resetAt 0 0)
  | none => d.g f

/-- The pending S values of a block are discarded (R16). -/
def Dev.discardS (d : Dev) (en : Fld) : Dev :=
  { d with pendS := d.pendS.filter fun e => keyBlock e.1 != en.addr }.seeNow fun k => keyBlock k == en.addr

end Sys2Proof.Machine
end

