-- ==== Sys2Proof/Machine/Tiles.lean ====
section
/-! DEFINITION. Output tiles: null tiles, and the order in which EMIT sends the tiles of a stake; how RoCEv2
messages leave a queue pair (R48, R154 to R157, R387, R417, R418). -/
namespace Sys2Proof.Machine
open Sys2Proof

/-- A group beside its registers. -/
def Dev.group (d : Dev) (g : Nat) : Group := NMap.getD d.groups g {}
/-- The groups with one changed. -/
def Dev.setGroup (d : Dev) (g : Nat) (x : Group) : Dev := { d with groups := NMap.put d.groups g x }
/-- The groups with one changed by `f`. -/
def Dev.updGroup (d : Dev) (g : Nat) (f : Group → Group) : Dev := d.setGroup g (f (d.group g))
/-- The current row of a group (R70). -/
def Dev.row (d : Dev) (g : Nat) : Nat := d.gi F.TIM_ROW_ROW g
/-- A stake of the current row has closed (R48, R70). -/
def Dev.closed (d : Dev) (g s : Nat) : Bool :=
  d.gi F.TIM_STAKE_ANY_CLOSED g == 1 && decide (s ≤ d.gi F.TIM_STAKE_CLOSED g)

/-! ## The home of a session (R71, R440) -/

/-- Home controller of a session id. -/
def sidHome (sid : Nat) : Nat := sid / 2 ^ 48 % 2 ^ 16
/-- The home of a session: its acting home for the session's lifetime, once there is one, and until that is known the buddy of a home that
is listed as lost (R440). -/
def Dev.homeOf (d : Dev) (sid : Nat) : Nat :=
  let h := sidHome sid
  match NMap.get? d.own.actHome sid with
  | some a => a
  | none => if d.own.lostCtrls.contains h then ((d.own.buddies.find? fun e => e.1 == h).map (·.2)).getD h else h

/-! ## Writes to members (R229, R257, R418, R421) -/

/-- A port is up, not retired, and in the accelerator role (R229, R385). -/
def Dev.portAccel (d : Dev) (p : Nat) : Bool :=
  d.gi F.HLF_PORT_ROLE p == 1 && d.gi F.HLF_PORT_LINK p != 0 && bits (d.g F.FLT_RET_LANES_LANES) (4 * p) 4 != 15
/-- The queue pair in RTS that carries a member of a group on a port (R418). -/
def Dev.qpOn (d : Dev) (g m p : Nat) : Option Nat :=
  (d.hall.qps.find? fun e => e.2.memberValid && e.2.group == g && e.2.member == m && e.2.port == p && e.2.state == .rts).map (·.1)
/-- The queue pair that EMIT uses for a member, and a fallback counted (R229). -/
def Dev.pickQp (d : Dev) (g m dflt : Nat) : Nat × Dev :=
  match (d.group g).bound with
  | none => (dflt, d)
  | some b =>
    let p := (NMap.getD d.att.weaves b.slot {}).ports.getD m 0xFF
    if p = 0xFF then (dflt, d)
    else match (if d.portAccel p then d.qpOn g m p else none) with
      | some q => (q, d)
      | none => (dflt, d.sati F.ATT_WV_STATUS_PORT_FB b.slot 1)

/-- What a write to a member was: tile, batch list, mask directory, beacon, push acknowledgement. -/
inductive Carries where
  | tile | list | mask | other
  deriving DecidableEq, Repr
/-- The code of a purpose in the list of writes not acknowledged. -/
def Carries.code : Carries → Nat | .tile => 0 | .list => 1 | .mask => 2 | .other => 3

/-- A queue pair carries traffic: it is in RTS, and RoCEv2 is enabled (R418, R424). -/
def Dev.qpUp (d : Dev) (x : Qp) : Bool := d.on F.RCE_CTL_EN && x.state == .rts
/-- A queue pair enters ERROR; its requests under way end (R424). -/
def Dev.qpError (d : Dev) (i : Nat) : Dev :=
  match NMap.get? d.hall.qps i with
  | some q => { d with hall := { d.hall with qps := NMap.put d.hall.qps i { q with state := .error, sent := [], reads := 0 } } }
  | none => d
/-- The headers of a queue pair's frames: one UDP source port per queue pair, RoCEv2's destination port, the record's peer address,
traffic class and P_Key (R386, R387, R417, R418; the destination port is RoCEv2's own, log entry 83). -/
def Dev.qpWire (d : Dev) (i : Nat) (x : Qp) : Wire :=
  { d.portWire x.port with
    dst := x.peerGid
    tclass := x.tclass
    sport := 0xC000 + (0x10000 + i) % 0x4000
    dport := 4791
    pkey := x.pkey }
/-- Packets of a message: one per 4,096 bytes (R417; DEDUCED, log entry 33). -/
def packets (n : Nat) : Nat := max 1 (ceilDiv n 4096)
/-- A message takes its PSNs and waits for its acknowledgement; the ACK timer runs (R418, R421). -/
def Dev.qpSend (d : Dev) (q bytes : Nat) (what : Carries) (m : Nat) : Dev :=
  match NMap.get? d.hall.qps q with
  | none => d
  | some x =>
    let n := packets bytes
    let last := (x.sqPsn + n - 1) % 2 ^ 24
    let x := { x with
      sqPsn := (x.sqPsn + n) % 2 ^ 24
      sent := x.sent ++ [(last, what.code, m)]
      ackAt := match x.ackAt with
        | some t => some t
        | none => some (d.now + 4096 * 2 ^ x.timeout) }
    let d := { d with hall := { d.hall with qps := NMap.put d.hall.qps q x } }
    d.s F.RCE_CNT0_PKTS_OUT (wrapAdd F.RCE_CNT0_PKTS_OUT.w (d.g F.RCE_CNT0_PKTS_OUT) n)
/-- An RDMA WRITE on a queue pair in RTS; one that cannot be written is lost (R421). -/
def Dev.rdma (d : Dev) (q rkey addr : Nat) (imm : Option Nat) (data : Bytes) (what : Carries) (m : Nat) : Dev :=
  match NMap.get? d.hall.qps q with
  | some x => if d.qpUp x then (d.qpSend q data.length what m).sendFrame (d.qpWire q x) (.rdma q (d.qpWire q x) rkey addr imm data) else d
  | none => d

/-- Reasons of null tiles (R157). -/
inductive Reason where
  | none | killed | voided | notAdmitted | staleGen | remap | badTile | unitFault | dup | late
  deriving DecidableEq, Repr

/-- The code of a reason (R157). -/
def Reason.code : Reason → Nat
  | .none => 0 | .killed => 1 | .voided => 2 | .notAdmitted => 3 | .staleGen => 4 | .remap => 5 | .badTile => 6
  | .unitFault => 7 | .dup => 8 | .late => 9

/-- The header of an output tile that answers a query tile (R154). -/
def QTile.answer (q : QTile) : OTile :=
  { qp := q.qp
    sid := q.sid
    row := q.row
    stake := q.stake
    layer := q.layer
    pos := q.pos
    npos := q.npos
    head0 := q.head0
    nheads := q.nheads
    kind := q.kind
    ofmt := q.ofmt
    tileSlot := q.tileSlot }

/-- A null tile (R157). -/
def QTile.null (q : QTile) (why : Reason) : OTile := { q.answer with null := true, reason := why.code }

/-- A tile is sent on the queue pair of R229, and counted; its immediate data holds STAKE and TILE_SLOT (R156, R172). -/
def Dev.sendTile (d : Dev) (g m rkey addr : Nat) (t : OTile) : Dev :=
  let d := d.cntP F.ATT_CNT0_TILES_OUT (d.partOf t.sid) 1 true
  let d := if t.null then d.cntP F.ATT_CNT1_NULL (d.partOf t.sid) 1 false else d
  let (q, d) := d.pickQp g m t.qp
  match NMap.get? d.hall.qps q with
  | some x =>
    let w := d.qpWire q x
    if d.qpUp x then
      (d.qpSend q (64 + t.payload.length) .tile m).sendFrame w (.tile q w rkey addr (t.stake * 2 ^ 24 + t.tileSlot) t)
    else d
  | none => d

/-- The bytes of an output tile (R154). -/
def OTile.bytes (t : OTile) : Bytes :=
  pack 64
    [⟨0, 0, 64, t.sid⟩, ⟨8, 0, 48, t.row⟩, ⟨8, 48, 8, t.stake⟩, ⟨8, 56, 8, t.layer⟩, ⟨0x10, 0, 23, t.pos⟩,
     ⟨0x10, 23, 7, t.npos⟩, ⟨0x10, 30, 9, t.head0⟩, ⟨0x10, 39, 9, t.nheads⟩, ⟨0x10, 48, 4, t.kind⟩,
     ⟨0x10, 52, 1, b2n t.stakeEnd⟩, ⟨0x10, 53, 1, b2n t.null⟩, ⟨0x10, 54, 1, b2n t.isPartial⟩, ⟨0x10, 55, 1, b2n t.empty⟩,
     ⟨0x10, 56, 4, t.reason⟩, ⟨0x18, 0, 6, t.rangeIdx⟩, ⟨0x18, 6, 6, t.rangeCnt⟩, ⟨0x18, 32, 32, t.ownerEpoch⟩,
     ⟨0x20, 0, 8, t.ofmt⟩, ⟨0x20, 32, 16, t.tileSlot⟩, ⟨0x28, 0, 32, t.payload.length⟩, ⟨0x30, 0, 32, t.mapEpoch⟩,
     ⟨0x30, 32, 16, t.remapCtrl⟩] ++ t.payload
/-- Two works are the same session's work for one stake and kind. -/
def Work.same (a b : Work) : Bool :=
  a.group == b.group && a.slot == b.slot && a.stake == b.stake && a.kind == b.kind && a.pos == b.pos
/-- A tile of a work is answered, and leaves it. -/
def Dev.dropTile (d : Dev) (w : Work) (t : Nat × QTile) : Dev :=
  let left (v : Work) : Work := { v with tiles := v.tiles.erase t, emitted := (v.tiles.erase t).isEmpty }
  { d with att := { d.att with work := d.att.work.map fun v => if w.same v then left v else v } }

/-- Query tiles of a stake of the row in progress that a member still waits for. -/
def Dev.unanswered (d : Dev) (g m s : Nat) : Bool :=
  d.att.work.any fun w => w.group == g && w.stake == s && !w.emitted && w.tiles.any fun t => t.1 == m

/-- Late tiles of a member's stake go out, after its STAKE_END tile (R153). -/
def Dev.sendLate (d : Dev) (g m s : Nat) : Dev :=
  let mine (e : Nat × Nat × Nat × Nat × OTile) : Bool := e.1 == g && e.2.1 == m && e.2.2.2.2.stake == s
  let d' := { d with att := { d.att with lateQ := d.att.lateQ.filter fun e => !mine e } }
  (d.att.lateQ.filter mine).foldl (fun d e => d.sendTile g m e.2.2.1 e.2.2.2.1 e.2.2.2.2) d'

/-- The place of a tile in a buffer of the EMIT queue is free once the tile has left: that of its session, or else of its block or
stake (R227, R230). -/
def Dev.freePlace (d : Dev) (t : OTile) : Dev :=
  if t.buf = 0 then d
  else
    let held := NMap.getD d.att.present (t.buf - 1) []
    let mark := match d.ses.tab.find? fun e => e.2.d.sid == t.sid with
      | some e => if held.contains e.1 then e.1 else 2 ^ 22
      | none => 2 ^ 22
    { d with att := { d.att with present := NMap.put d.att.present (t.buf - 1) (held.erase mark) } }
/-- A tile leaves EMIT staging: its bytes, read for its session (R508). -/
def Dev.unstage (d : Dev) (t : OTile) : OTile × Dev :=
  let sent : OTile := { t with tag := 0, buf := 0 }
  (d.freePlace t).readTagged t.tag (d.partOf t.sid) sent { sent with payload := t.payload.map fun _ => 0 }
/-- The held tile of a member's stake goes out with STAKE_END once the stake has closed and every other tile of it to
that member has been sent (R156). -/
def Dev.flushStake (d : Dev) (g m s : Nat) : Dev :=
  if !d.closed g s || d.unanswered g m s then d
  else match d.att.emitQ.find? fun e => e.1 == g && e.2.1 == m && e.2.2.2.2.stake == s with
    | none => d.sendLate g m s
    | some e =>
      let d := { d with att := { d.att with emitQ := d.att.emitQ.filter (· != e) } }
      let (t, d) := d.unstage e.2.2.2.2
      (d.sendTile g m e.2.2.1 e.2.2.2.1 { t with stakeEnd := true }).sendLate g m s

/-- EMIT takes a tile of a stake of the row: one tile of each member and stake is held back (R156). -/
def Dev.emitTile (d : Dev) (g m rkey addr : Nat) (t : OTile) : Dev :=
  let prev := d.att.emitQ.find? fun e => e.1 == g && e.2.1 == m && e.2.2.2.2.stake == t.stake
  let d := match prev with
    | some e =>
      let (t, d) := ({ d with att := { d.att with emitQ := d.att.emitQ.filter (· != e) } }).unstage e.2.2.2.2
      d.sendTile g m e.2.2.1 e.2.2.2.1 t
    | none => d
  let d := { d with att := { d.att with emitQ := d.att.emitQ ++ [(g, m, rkey, addr, { t with tag := d.partOf t.sid })] } }
  d.flushStake g m t.stake

/-- The null tile that answers a query tile; `target` is the controller that REMAP names (R157). -/
def Dev.nullTile (d : Dev) (q : QTile) (why : Reason) (target : Nat) : OTile :=
  let held := d.ses.tab.find? fun e => e.2.d.sid == q.sid
  { q.null why with
    mapEpoch := if why = .remap then d.own.current else 0
    remapCtrl := if why = .remap then target else 0
    ownerEpoch := (held.map (·.2.d.ownerEpoch)).getD 0 }
/-- The descriptor of a session that this controller holds a range of, and the home to which its partials go under MERGE_AT = HOME
(R164). -/
def Dev.partialHome (d : Dev) (g sid : Nat) : Option (Nat × Desc) :=
  match d.ses.tab.find? fun e => e.2.d.sid == sid with
  | some e =>
    let home := d.homeOf sid
    if e.2.d.split && d.gi F.ATT_GRP_SLOTS_MERGE_AT g == 1 && home != d.self then some (home, e.2.d) else none
  | none => none
/-- A null partial goes to the home in place of a null tile (R164, R165). -/
def Dev.sendNullPartial (d : Dev) (home : Nat) (x : Desc) (t : OTile) : Dev :=
  d.send home 4 { t with
    isPartial := true
    rangeIdx := x.rangeIdx
    rangeCnt := x.rangeCnt
    mapEpoch := d.own.current }.bytes
/-- The reason that a member is given for a tile which its session does not compute in the row: under MERGE_AT = HOME, the home of a split
session answers with the merged tile, whose reason is VOIDED (R164). -/
def Dev.homeReason (d : Dev) (g sid : Nat) (why : Reason) : Reason :=
  let own := d.ses.tab.any fun e => e.2.d.sid == sid && e.2.d.split && d.homeOf sid == d.self
  if own && d.gi F.ATT_GRP_SLOTS_MERGE_AT g == 1 && (why == .killed || why == .notAdmitted || why == .badTile || why == .unitFault) then
    .voided
  else why
/-- A query tile that is not computed is answered by a null tile (R153, R157), or, for the range of a split session under MERGE_AT = HOME,
by a null partial; a repeat, whose first copy has its partial, is answered to the member (R164, R165; log entry 73). A tile of a stake
of the row in progress that has not closed goes through the stake's order; a LATE tile follows its stake's STAKE_END tile; every other
is sent at once. -/
def Dev.nullAnswer (d : Dev) (g m : Nat) (q : QTile) (why : Reason) (target : Nat := 0) : Dev :=
  let t := d.nullTile q (d.homeReason g q.sid why) target
  let held' := d.att.emitQ.any fun e => e.1 == g && e.2.1 == m && e.2.2.2.2.stake == q.stake
  match if why = .dup then none else d.partialHome g q.sid with
  | some (home, x) => d.sendNullPartial home x t
  | none =>
    if q.row = d.row g ∧ q.stake < d.gi F.TIM_GRP_SHAPE_STAKES g ∧ !d.closed g q.stake ∧ d.phase g = 1 then d.emitTile g m q.replyKey q.replyAddr t
    else if q.row = d.row g ∧ why = .late ∧ (held' ∨ d.unanswered g m q.stake) then
      { d with att := { d.att with lateQ := d.att.lateQ ++ [(g, m, q.replyKey, q.replyAddr, t)] } }
    else d.sendTile g m q.replyKey q.replyAddr t

/-- A query tile that a work has taken is answered by a null tile, which goes through the order of its stake: the last one to a member
after the stake has closed carries STAKE_END (R156, R157). -/
def Dev.nullTaken (d : Dev) (w : Work) (t : Nat × QTile) (why : Reason) : Dev :=
  let o := d.nullTile t.2 (d.homeReason w.group t.2.sid why) 0
  match d.partialHome w.group t.2.sid with
  | some (home, x) => (d.dropTile w t).sendNullPartial home x o
  | none => (d.dropTile w t).emitTile w.group t.1 t.2.replyKey t.2.replyAddr o
/-- The query tiles of a session that are still unanswered are answered by null tiles (R98, R157). -/
def Dev.nullWork (d : Dev) (slot : Nat) (why : Reason) : Dev :=
  let mine := d.att.work.filter fun w => w.slot == slot && !w.emitted
  let d := mine.foldl (fun d w => w.tiles.foldl (fun d t => d.nullTaken w t why) d) d
  { d with att := { d.att with work := d.att.work.map fun w => if w.slot == slot then { w with tiles := [], emitted := true } else w } }

end Sys2Proof.Machine
end

