-- ==== Sys2Proof/Machine/Vcp.lean ====
section
/-! DEFINITION. The Volcor Command Protocol: taking an entry, the order of checks, sequence numbers, replies
(R513 to R530). -/
namespace Sys2Proof.Machine
open Sys2Proof

/-- What the execution of a command gives: the block, the reply's status, SMALL and RESULT, or a reply still to be
decided. -/
structure Res where
  dev : Dev
  st : Status := .ok
  small : Nat := 0
  result : Bytes := []
  later : Bool := false
  deriving DecidableEq, Repr

/-- A reply with a status alone. -/
def Dev.res (d : Dev) (st : Status) : Res := { dev := d, st := st }
/-- RETRY_AFTER with the earliest useful retry (R522). -/
def Dev.retry (d : Dev) (us : Nat) : Res := { dev := d, st := .retryAfter, result := leBytes 4 us }
/-- REMAP with the map epoch and the target (R445, R522). -/
def Dev.remap (d : Dev) (target : Nat) : Res :=
  { dev := d, st := .remap, result := leBytes 4 d.own.current ++ leBytes 2 target }
/-- FAULT with its cause: 1 host memory, 2 device unit, 3 hamper, 4 fabric (R522). -/
def Dev.faultRes (d : Dev) (cause : Nat) : Res := { dev := d, st := .fault, small := cause }

/-- Partition 0 alone may issue the command (R524). -/
def fromZero (h : Hdr) : Bool := h.fn == 0

/-- RST_STATE.PHASE (R572): 0 STARTUP, 1 TEST, 2 RECOVERY, 3 SERVICE, 4 FAILED. -/
def Dev.bootPhase (d : Dev) : Nat := d.g F.RST_STATE_PHASE

/-- Bound of start-up in ms for the kind under way: the steps of R571, steps 6 and 7 in parallel. -/
def Dev.startBoundMs (d : Dev) : Nat :=
  let s3 := if d.rst.startKind = 0 then 150 else if d.rst.startKind = 1 then 600 else 40
  40 + 60 + s3 + 50 + 50 + max (if d.rst.unclean then 20000 else 500) 500

/-- RETRY_US of a command in phase STARTUP (R572). -/
def Dev.startRetryUs (d : Dev) : Nat :=
  let done := d.rst.startAt + d.startBoundMs * 1000000
  1000 * max 1 (ceilDiv (done - d.now) 1000000)

/-- The ring takes its next entry: VCP runs, the ring is RUNNING and enabled, not STALLED, an entry waits, and no earlier
command of the ring is being executed, but for a replay of that one (R513, R515, R516, R518, R526). -/
def Dev.takes (d : Dev) (h : Hdr) : Bool :=
  d.on F.CMD_CTL_EN && d.bootPhase != 4 && decide (h.ring < d.gf F.CMD_LIMITS_RINGS_MAX h.fn 0) &&
  d.gf F.CMD_RQ_CFG_EN h.fn h.ring == 1 && d.gf F.CMD_RQ_STATUS_STATE h.fn h.ring == 1 &&
  d.gf F.CMD_RQ_STATUS_STALLED h.fn h.ring == 0 &&
  d.gf F.CMD_RQ_STATUS_TAKEN h.fn h.ring != d.gf F.CMD_RQ_DB_TAIL h.fn h.ring &&
  (match (d.ring h.fn h.ring).busy with
   | none => true
   | some (n, _) => n == h.hseq)

/-- An entry is taken (R515). -/
def Dev.take (d : Dev) (h : Hdr) : Dev :=
  d.sf F.CMD_RQ_STATUS_TAKEN h.fn h.ring ((d.gf F.CMD_RQ_STATUS_TAKEN h.fn h.ring + 1) % 2 ^ 32)

/-- HSEQ − NEXT_HSEQ as a signed 32-bit value (R526). -/
def Dev.seqDiff (d : Dev) (h : Hdr) : Int := signed 32 (h.hseq + 2 ^ 32 - d.gf F.CMD_HSEQ_NEXT h.fn h.ring)

/-- A reply is decided: it is logged when its HSEQ is executed in sequence, and written, but by no ring that stops, which is then
DISABLED, and not where the ring was reset since (R526 to R528, R538, R542). -/
def Res.decideAs (x : Res) (fn r hseq op : Nat) (logged : Bool) : Dev :=
  let again := (x.dev.ring fn r).again
  let muted := (x.dev.ring fn r).muted && !again
  let rep : Reply := { hseq := hseq, status := x.st, opcode := op, small := x.small, result := x.result }
  let d := x.dev.setRing fn r { x.dev.ring fn r with busy := none, again := false, muted := false }
  let d := if logged then d.sf F.CMD_CNT_COMMANDS fn 0 (wrapAdd 32 (d.gf F.CMD_CNT_COMMANDS fn 0) 1) else d
  let d := if logged then d.logReply fn r rep else d
  if d.gf F.CMD_RQ_STATUS_STATE fn r = 2 then d.sf F.CMD_RQ_STATUS_STATE fn r 0
  else if muted then d
  else d.sendReply fn r { rep with bypass := !logged, replay := again }

/-- The reply of a command that waits is decided. -/
def Res.answer (x : Res) (fn r : Nat) : Dev :=
  match (x.dev.ring fn r).busy with
  | some (hseq, op, logged) => x.decideAs fn r hseq op logged
  | none => x.dev

/-- A reply to an entry that is not executed: SEQ_GAP with the expected HSEQ (R522, R526). -/
def Dev.seqGap (d : Dev) (h : Hdr) (op : Nat) : Dev :=
  let d := d.satf F.CMD_CNT_SEQ_GAP h.fn 0 1
  d.sendReply h.fn h.ring
    { hseq := h.hseq, status := .seqGap, opcode := op, result := leBytes 4 (d.gf F.CMD_HSEQ_NEXT h.fn h.ring) }

/-- A logged reply is written again, or will be once it is decided (R526). -/
def Dev.replay (d : Dev) (h : Hdr) (op : Nat) : Dev :=
  match (d.ring h.fn h.ring).log.find? (·.hseq == h.hseq) with
  | some rep => (d.satf F.CMD_CNT_REPLAYS h.fn 0 1).sendReply h.fn h.ring { rep with replay := true }
  | none =>
    match (d.ring h.fn h.ring).busy with
    | some (n, _) =>
      if n = h.hseq then
        (d.satf F.CMD_CNT_REPLAYS h.fn 0 1).setRing h.fn h.ring { d.ring h.fn h.ring with again := true }
      else d.seqGap h op
    | none => d.seqGap h op

/-- An EQ field names the default queue or a queue of the function (R519, R523). -/
def Dev.eqOk (d : Dev) (h : Hdr) : Bool := h.eq == 0xFFFF || decide (h.eq < d.gf F.CMD_LIMITS_EQS_MAX h.fn 0)

/-- Checks 2 to 5 of R523 and, if they pass, the command's own rules: the issuer (R464, R524, R572), the reserved bits
and the parameters, the host memory. -/
def Dev.checked (d : Dev) (h : Hdr) (may params data : Bool) (run : Dev → Res) : Res :=
  if !may || (h.fn != 0 && (d.bootPhase == 1 || d.bootPhase == 2 || d.gi F.ISO_PART_STATE h.fn != 1)) then d.res .denied
  else if !h.clean || !d.eqOk h || !params then d.res .badParam
  else if data && !h.dma then d.faultRes 1
  else run d

/-- A tenant has been idle for IDLE_EXPIRE_S: a command that is accepted as it expires is DENIED, and the partition expires all the same
(R468). -/
def Dev.expires (d : Dev) (p : Nat) : Bool :=
  let s := d.gi F.ISO_PART_IDLE_EXPIRE_S p
  p != 0 && d.active p && s != 0 && decide (NMap.getD d.iso.lastCmd p 0 + s * 1000000000 ≤ d.now)
/-- A command is executed: NEXT_HSEQ advances, and its reply is decided now or later (R468, R518, R526). -/
def Dev.executeAs (d : Dev) (h : Hdr) (op : Nat) (logged may params data : Bool) (run : Dev → Res) : Dev :=
  let late := d.expires h.fn
  let d := if logged then d.sf F.CMD_HSEQ_NEXT h.fn h.ring ((h.hseq + 1) % 2 ^ 32) else d
  let d := if late then d else { d with iso := { d.iso with lastCmd := NMap.put d.iso.lastCmd h.fn d.now } }
  let x := d.checked h (may && !late) params data run
  if x.later then x.dev.setRing h.fn h.ring { x.dev.ring h.fn h.ring with busy := some (h.hseq, op, logged) }
  else x.decideAs h.fn h.ring h.hseq op logged

/-- A command entry reaches the front of its ring and is taken, executed, replayed or answered SEQ_GAP (R515, R518,
R526); a ring that takes nothing leaves it there. -/
def Dev.command (d : Dev) (h : Hdr) (op : Nat) (may params data : Bool) (run : Dev → Res) : Dev :=
  if !d.takes h then d
  else
    let d := d.take h
    let k := d.seqDiff h
    if k = 0 then d.executeAs h op true may params data run
    else if -256 ≤ k ∧ k ≤ -1 then d.replay h op
    else d.seqGap h op

/-- What a command of a disabled block is answered: BUSY (R13), but FAULT while a reset of the token, grammar or search block
drains it (R574, R576). -/
def Dev.offAnswer (d : Dev) (en : Fld) : Res :=
  if d.rst.blocks.any fun b => (b.row == 3 || b.row == 4 || b.row == 8) && (rowEnables b.row).contains en then d.faultRes 2
  else d.res .busy
/-- The blocks that parks, revives and checkpoints write the hamper with (R574). -/
def parkBlocks : List Fld := [F.PRK_CTL_EN, F.HMP_CTL_EN]
/-- Parks and revives can run: both blocks of row 5 are enabled. -/
def Dev.parkOn (d : Dev) : Bool := d.on F.PRK_CTL_EN && d.on F.HMP_CTL_EN
/-- The grammar block loads the image of LOAD_GRAMMAR (R574). -/
def loadBlocks : List Fld := [F.GRM_CTL_EN]
/-- A command of a block that is disabled is not executed, and one in phase STARTUP is answered RETRY_AFTER (R13, R572). -/
def Dev.needs (d : Dev) (ens : List Fld) (run : Dev → Res) : Res :=
  if d.bootPhase = 0 then d.retry d.startRetryUs
  else match ens.find? fun en => !d.on en with
    | none => run d
    | some en => d.offAnswer en

end Sys2Proof.Machine
end

