-- ==== Sys2Proof/Machine/Sessions.lean ====
section
/-! DEFINITION. Session ids, descriptors, contexts, epochs, completion records, cancellation and closing (chapter 3,
R445). -/
namespace Sys2Proof.Machine
open Sys2Proof

/-! ## Ids (R71, R72, R570) -/

/-- Generation of a session id. -/
def sidGen (sid : Nat) : Nat := sid / 2 ^ 22 % 2 ^ 26
/-- Slot of a session id. -/
def sidSlot (sid : Nat) : Nat := sid % 2 ^ 22
/-- The session id of a home, generation and slot (R71). -/
def mkSid (home gen slot : Nat) : Nat := home * 2 ^ 48 + gen * 2 ^ 22 + slot

/-- Generation that a slot issues next (R72, R570). -/
def Dev.nextGen (d : Dev) (slot : Nat) : Nat := NMap.getD d.ses.gens slot (Config.firstGen (d.g F.SEC_BOOT_COUNT))
/-- A slot may be allocated: FREE, not quarantined, its generation below the last, and no pin of its last session held (R72, R82,
R587). -/
def Dev.slotFree (d : Dev) (slot : Nat) : Bool :=
  !NMap.has d.ses.tab slot && !d.flt.quarantined.contains slot && d.nextGen slot < 0x3FFFFFF &&
    !d.att.leaving.any fun e => e.2.2 == slot
/-- The lowest slot from `lo`, among `n`, that may be allocated. -/
def Dev.lowestSlot (d : Dev) : Nat → Nat → Option Nat
  | 0, _ => none
  | n + 1, lo => if d.slotFree lo then some lo else Dev.lowestSlot d n (lo + 1)

/-- The local slot of the session with an id: its own slot at home, its guest slot elsewhere (R73, R74). -/
def Dev.slotOf (d : Dev) (sid : Nat) : Option Nat :=
  let s := if sidHome sid = d.self then some (sidSlot sid) else NMap.get? d.own.guests sid
  match s with
  | some slot => match NMap.get? d.ses.tab slot with
    | some x => if x.d.sid = sid then some slot else none
    | none => none
  | none => none

/-- An id of this home that its slot does not hold: a hall message that names it is rejected with STALE_GEN and touches nothing
(R31, R73). -/
def Dev.oldId (d : Dev) (sid : Nat) : Bool := sidHome sid == d.self && (d.slotOf sid).isNone

/-- The pages of a session are read for a park, a WARM copy, a checkpoint or a handoff, in a row of its group (R128). -/
def Dev.heatSession (d : Dev) (slot : Nat) : Dev :=
  let x := d.sess slot
  x.pt.foldl (fun (d : Dev) e => d.heatFrame e.2.pageId (d.row x.d.group)) d

/-! ## Epochs (R444, R445) -/

/-- What the epochs of work that names a session decide. -/
inductive EpochSays where
  | accept | future | remap (target : Nat) | stale
  deriving DecidableEq, Repr

/-- A map epoch is the previous one within its drain window (R444). -/
def Dev.prevEpoch (d : Dev) (m : Nat) : Bool :=
  match d.own.previous with
  | some (p, ends) => m == p && decide (d.now < ends)
  | none => false

/-- The owner of a session by local knowledge, if there is any: the descriptor here, a forwarding entry, a directory entry here (R439). -/
def Dev.ownerKnown (d : Dev) (sid : Nat) : Option Nat :=
  match d.ses.tab.find? fun e => e.2.d.sid == sid with
  | some e => some e.2.d.ownerCtrl
  | none => match d.own.forwards.find? fun f => f.1 == sid with
    | some f => some f.2.1
    | none => (NMap.get? d.own.dir sid).map (·.ownerCtrl)
/-- The owner of a session by local knowledge, or its home (R439, R445). -/
def Dev.ownerHint (d : Dev) (sid : Nat) : Nat := (d.ownerKnown sid).getD (d.homeOf sid)

/-- This controller owns the session at a slot (R425, R427). -/
def Dev.owns (d : Dev) (slot : Nat) : Bool := (d.sess slot).d.ownerCtrl == d.self
/-- This controller holds a position range of a session that another controller owns (R27, R74). -/
def Dev.holdsRange (d : Dev) (slot : Nat) : Bool :=
  let x := (d.sess slot).d
  x.split && x.ownerCtrl != d.self && NMap.get? d.own.guests x.sid == some slot
/-- This controller serves the session at a slot, whole or as a range (R27, R333, R425). -/
def Dev.serving (d : Dev) (slot : Nat) : Bool := d.owns slot || d.holdsRange slot
/-- The tier of a session: for a split one the coldest of its ranges, in the order HOT, WARM, PARKED, HISTORY (R27). -/
def Session.coldest (x : Session) : Tier :=
  if x.d.split then x.ranges.foldl (fun t r => if t.code < r.tier.code then r.tier else t) x.d.tier else x.d.tier
/-- The session at a slot is fenced (R430). -/
def Dev.fenced (d : Dev) (slot : Nat) : Bool := ((NMap.get? d.own.ownLeases slot).map (·.fenced)).getD false

/-- What R445 says of work that names a session of another home that is not held here. -/
def Dev.foreign (d : Dev) (sid m : Nat) : EpochSays := if d.own.current < m then .future else .remap (d.ownerHint sid)
/-- The checks of R445 on a map epoch and an owner epoch; map epoch 0 of a command is the current one (R519). -/
def Dev.epochs (d : Dev) (slot m o : Nat) : EpochSays :=
  let x := (d.sess slot).d
  if d.own.current < m then .future
  else if m < d.own.current ∧ !d.prevEpoch m then .remap (d.ownerHint x.sid)
  else if !d.serving slot then .remap (d.ownerHint x.sid)
  else if o ≠ 0 ∧ o < x.ownerEpoch then .stale
  else if x.ownerEpoch < o then .remap (d.homeOf x.sid)
  else if d.fenced slot then .stale
  else .accept

/-! ## The descriptor cache (R77, R81 to R83) -/

/-- The fixed hash that chooses the cache set of a slot; the spec gives no formula. -/
def cacheSet (slot : Nat) : Nat := Config.cacheHash (slot % 2 ^ 21) % 2048
/-- Lines of a die's cache. -/
def Dev.lines (d : Dev) (die : Nat) : List CacheLine := NMap.getD d.ses.cache die []
/-- The caches with one die's changed. -/
def Dev.setLines (d : Dev) (die : Nat) (l : List CacheLine) : Dev :=
  { d with ses := { d.ses with cache := NMap.put d.ses.cache die l } }
/-- A descriptor is written back to HBM with its CHECK (R77, R81). -/
def Dev.writeBack (d : Dev) (slot : Nat) : Dev := d.updSess slot fun x => { x with stored := x.d.bytes }
/-- The line to evict from a set: unpinned, least recently used. -/
def lruOf (ls : List CacheLine) : Option CacheLine :=
  (ls.filter fun l => !l.pinned).foldl (fun best l => match best with
    | none => some l
    | some b => if l.used < b.used then some l else some b) none
/-- A descriptor enters the cache of its die, evicting the least recently used unpinned line of a full set, which is
written back; a set whose 16 ways are pinned takes none (R81, R83). The fetch that brought it in has not failed (R77). -/
def Dev.cacheIn (d : Dev) (slot : Nat) (pin : Bool) : Dev :=
  let die := slotDie slot
  let ls := d.lines die
  let d := { d with ses := { d.ses with
    accepts := d.ses.accepts + 1
    fetches := d.ses.fetches.filter fun f => f.slot != slot } }
  let line : CacheLine := { slot := slot, pinned := pin, used := d.ses.accepts, tag := (d.sess slot).d.partition }
  if ls.any fun l => l.slot == slot then
    d.setLines die (ls.map fun l => if l.slot == slot then { line with
      pinned := pin || l.pinned
      tag := l.tag } else l)
  else
    let set := ls.filter fun l => cacheSet l.slot == cacheSet slot
    if set.length < 16 then d.setLines die (ls ++ [line])
    else match lruOf set with
      | none => d
      | some old => (d.writeBack old.slot).setLines die (ls.filter (· != old) ++ [line])
/-- A reference to a session's descriptor uses its cache line, and brings it in on a miss (R81, R83). -/
def Dev.touch (d : Dev) (slot : Nat) : Dev := d.cacheIn slot false

/-- A session's descriptor is read through its cache line: whether it was found. A line with another partition's tag reads as zeros, in which
no session is found (R81, R508). -/
def Dev.readLine (d : Dev) (slot : Nat) : Bool × Dev :=
  let d := d.touch slot
  let part := (d.sess slot).d.partition
  match (d.lines (slotDie slot)).find? fun l => l.slot == slot with
  | some l => d.readTagged l.tag part true false
  | none => (true, d)

/-! ## Hall messages that name a session (R73, R81, R405) -/

/-- A hall message of a service that names a session is resolved OK, and a reference to the descriptor that it finds. -/
def Dev.heard (d : Dev) (src service sid : Nat) : Dev :=
  let d := d.resolve src service .ok
  match d.slotOf sid with
  | some slot => d.touch slot
  | none => d
/-- The same, resolved STALE_GEN for an old id, which touches nothing; else it is acted on. -/
def Dev.onHall (d : Dev) (src service sid : Nat) (run : Dev → Dev) : Dev :=
  if d.oldId sid then d.resolve src service .staleGen else run (d.heard src service sid)

/-! ## Messages of ownership (R405, R428, R432) -/

/-- Services 2 (OWNER) and 3 (DIRECTORY) of SENDs (R405, R432). -/
def svcOwner : Nat := 2
/-- Service 3 (DIRECTORY). -/
def svcDir : Nat := 3

/-- The 48-byte header of an OWNER or DIRECTORY message, and its body (R432). -/
def Dev.ownMsg (d : Dev) (kind status sid epoch ctrl state tier histLen addr region gen : Nat) (body : Bytes) : Bytes :=
  pack 48
    [⟨0, 0, 8, kind⟩, ⟨0, 16, 16, status⟩, ⟨0, 32, 32, d.own.current⟩, ⟨8, 0, 64, sid⟩, ⟨0x10, 0, 32, epoch⟩,
     ⟨0x10, 32, 16, ctrl⟩, ⟨0x18, 0, 16, d.g F.TIM_LEASE_RENEW_MS⟩, ⟨0x18, 16, 16, d.g F.TIM_LEASE_EXPIRY_MS⟩,
     ⟨0x18, 32, 4, state⟩, ⟨0x18, 36, 3, tier⟩, ⟨0x18, 39, 23, histLen⟩, ⟨0x20, 0, 64, addr⟩, ⟨0x28, 0, 16, region⟩,
     ⟨0x28, 16, 32, gen⟩] ++ body
/-- A session is owned, or held as a range, here and its home is elsewhere (R428, R437). -/
def Dev.away (d : Dev) (slot : Nat) : Bool := d.serving slot && d.homeOf (d.sess slot).d.sid != d.self
/-- STATE_SYNC to the home of a session owned away from it (R428). That of a range's controller has the range's index and positions as its
body (R333, R340; log entry 37). -/
def Dev.stateSync (d : Dev) (slot : Nat) (body : Bytes) : Dev :=
  if d.away slot then
    let x := (d.sess slot).d
    let body := if x.split ∧ x.ownerCtrl ≠ d.self then [x.rangeIdx, x.rangeLo, x.rangeHi].flatMap (leBytes 4) else body
    d.send (d.homeOf x.sid) svcOwner
      (d.ownMsg 13 0 x.sid x.ownerEpoch d.self x.state.code x.tier.code x.histLen 0 0 0 body)
  else d

/-! ## The hall directory (R438, R439) -/

/-- Shard of a session (R438). -/
def Dev.shardOf (d : Dev) (sid : Nat) : Nat := crc32c (leBytes 8 sid) % 2 ^ d.own.shardLog2
/-- Primary and replica of a session's shard (R438). -/
def Dev.holders (d : Dev) (sid : Nat) : Option (Nat × Nat) :=
  (d.own.shards.find? fun s => s.1 == d.shardOf sid).map (·.2)
/-- The shard holder that is asked about a session: the primary, or the replica of a lost one (R438, R439). -/
def Dev.askedHolder (d : Dev) (sid : Nat) : Option Nat :=
  (d.holders sid).map fun e => if d.own.lostCtrls.contains e.1 then e.2 else e.1
/-- DIR_GET to a shard holder (R433, R439). -/
def Dev.dirGet (d : Dev) (holder sid : Nat) : Dev := d.send holder svcDir (d.ownMsg 19 0 sid 0 0 0 0 0 0 0 0 [])
/-- The owner of a session whose home is lost, and of which nothing is known here, is asked of the directory, once until it answers
(R439). -/
def Dev.seek (d : Dev) (sid : Nat) : Dev :=
  if !d.own.lostCtrls.contains (sidHome sid) || (d.ownerKnown sid).isSome || d.own.asked.contains sid then d
  else match d.askedHolder sid with
    | none => d
    | some h => if h = d.self then d
      else ({ d with own := { d.own with asked := d.own.asked ++ [sid] } }).dirGet h sid

/-! ## Commands that name a session (R73, R89, R523) -/

/-- A function may issue a session's command: its own partition, or partition 0 where the chapter allows it (R89). A
session that is not found is decided by R73. -/
def Dev.mayUse (d : Dev) (fn sid : Nat) (zeroToo : Bool) : Bool :=
  match d.slotOf sid with
  | some slot => (d.sess slot).d.partition == fn || (zeroToo && fn == 0)
  | none => true

/-- Step 6 of R523: R73, then a quarantined slot (R587), then R445. -/
def Dev.onSession (d : Dev) (h : Hdr) (sid : Nat) (run : Nat → Dev → Res) : Res :=
  match d.slotOf sid with
  | none =>
    if sidHome sid = d.self then
      (if d.flt.quarantined.contains (sidSlot sid) then d.faultRes 2 else d.res .staleGen)
    else match d.foreign sid h.mapEpoch with
      | .future => d.retry 1000
      | _ => (d.seek sid).remap (d.ownerHint sid)
  | some slot =>
    let (seen, d) := d.readLine slot
    if !seen then d.res .staleGen
    else if (d.sess slot).lost then d.faultRes 2
    else match d.epochs slot (if h.mapEpoch = 0 then d.own.current else h.mapEpoch) h.ownerEpoch with
      | .future => d.retry 1000
      | .remap t => d.remap t
      | .stale => d.res .staleGen
      | .accept => run slot d

/-! ## Contexts (R84, R86) -/

/-- A request context. -/
def Dev.ctx (d : Dev) (i : Nat) : Ctx := NMap.getD d.ses.ctxs i {}
/-- The contexts with one changed. -/
def Dev.setCtx (d : Dev) (i : Nat) (c : Ctx) : Dev := { d with ses := { d.ses with ctxs := NMap.put d.ses.ctxs i c } }
/-- The contexts with one changed by `f`. -/
def Dev.updCtx (d : Dev) (i : Nat) (f : Ctx → Ctx) : Dev := d.setCtx i (f (d.ctx i))
/-- A context is allocated on a die: bit 17 of its index names the die (R84). -/
def Dev.newCtx (d : Dev) (die : Nat) (c : Ctx) : Option (Nat × Dev) :=
  match NMap.freeFrom d.ses.ctxs 131072 (die * 131072) with
  | none => none
  | some i =>
    let d := { d with ses := { d.ses with accepts := d.ses.accepts + 1 } }
    let part := if NMap.has d.ses.tab c.slot then (d.sess c.slot).d.partition else c.fn
    some (i, d.setCtx i { c with
      accepted := d.ses.accepts
      tag := part })
/-- A context is freed. -/
def Dev.freeCtx (d : Dev) (i : Nat) : Dev := { d with ses := { d.ses with ctxs := NMap.del d.ses.ctxs i } }
/-- A context is read for a session of a partition (R508). -/
def Dev.readCtx (d : Dev) (i part : Nat) : Ctx × Dev :=
  let c := d.ctx i
  d.readTagged c.tag part c {}
/-- The turn context of a session. -/
def Dev.turnCtx (d : Dev) (slot : Nat) : Option Nat :=
  if (d.sess slot).d.ctxValid then some (d.sess slot).d.ctx else none

/-! ## Pins (R82) -/

/-- A descriptor is no longer pinned: it is written back as its session leaves the rows (R81, R82). -/
def Dev.unpin (d : Dev) (slot : Nat) : Dev :=
  let die := slotDie slot
  (d.writeBack slot).setLines die ((d.lines die).map fun l => if l.slot == slot then { l with pinned := false } else l)
/-- Pinned descriptors of a die (R82). -/
def Dev.pins (d : Dev) (die : Nat) : Nat :=
  d.ses.ctxs.foldl (fun a e => if e.2.batchSlot.isSome && slotDie e.2.slot == die then a + 1 else a) 0 +
    NMap.cnt d.att.leaving fun _ e => slotDie e.2 == die
/-- The cache forgets the descriptor of a slot that is FREE, but for one that is still pinned (R81, R82). -/
def Dev.dropLine (d : Dev) (slot : Nat) : Dev :=
  if d.att.leaving.any fun e => e.2.2 == slot then d
  else { d with ses := { d.ses with cache := NMap.mapV d.ses.cache fun _ ls => ls.filter fun l => l.slot != slot } }
/-- The batch slots and pins that ended work of a group's sessions still held are released at a boundary (R82, R85, R103). -/
def Dev.letGo (d : Dev) (g : Nat) : Dev :=
  (d.att.leaving.filter fun e => e.2.1 == g).foldl (fun (d : Dev) e =>
    let d := { d with att := { d.att with
      batchSlots := NMap.del d.att.batchSlots e.1
      leaving := NMap.del d.att.leaving e.1 } }
    if NMap.has d.ses.tab e.2.2 then d.unpin e.2.2 else d.dropLine e.2.2) d

/-! ## States and the idle timer (R87, R90) -/

/-- The condition under which the idle timer runs (R90). -/
def idleCond (x : Desc) : Bool :=
  (x.state == .open || x.state == .waiting) && !x.turnQueued && x.tier == .hot
/-- The idle timer starts, or restarts, if its condition holds, and else stops (R90). -/
def Dev.idleStart (d : Dev) (slot : Nat) : Dev :=
  d.updSess slot fun x => { x with
    idleMs := d.g F.TIM_SESS_IDLE_PARK_MS
    d := { x.d with idleSince := if idleCond x.d then d.now else 0 } }
/-- OPEN before the first turn, WAITING after it (R87). -/
def restState (x : Desc) : SState := if x.turnId = 0 then .open else .waiting
/-- COMMITTED as it will be from the next boundary on (R78). -/
def Session.committedNext (x : Session) : Nat := x.pendCommitted.getD x.d.committed
/-- A session takes a state and a tier; the idle timer follows (R87, R90). -/
def Dev.setState (d : Dev) (slot : Nat) (st : SState) (t : Tier) : Dev :=
  (d.updDesc slot fun x => { x with state := st, tier := t }).idleStart slot

/-- TIER_CHANGED of a session (R535): the tier, the state, and the row at which it took effect. -/
def Dev.tierEvent (d : Dev) (fn eq slot : Nat) (st : Status) (row : Nat) : Dev :=
  let y := d.sess slot
  d.post fn eq { typ := 0x05, subject := y.d.sid, status := st.code, args := [y.coldest.code, y.d.state.code, row] }

/-- Queue of session events without a context: PRK_POLICY.EQ of its partition (R328, R533). -/
def Dev.postSess (d : Dev) (slot : Nat) (e : Event) : Dev :=
  let p := (d.sess slot).d.partition
  d.post p (d.gi F.PRK_POLICY_EQ p) { e with subject := (d.sess slot).d.sid }

/-! ## Completion records (R95 to R97) -/

/-- Status that a cause carries (R96). -/
def causeStatus (c : Nat) : Status :=
  if c ≤ 3 then .ok else if c = 4 then .deadEnd else if c ≤ 8 then .partialDone else .fault
/-- Order in which end causes are reported (R97); lower is first. -/
def causeRank (c : Nat) : Nat :=
  if c = 6 then 0 else if c = 5 then 1 else if c = 0x20 then 2 else if c = 4 then 3 else if c = 3 then 4
  else if c = 0 then 5 else if c = 1 then 6 else if c = 7 then 7 else if c = 2 then 8 else if c = 8 then 9 else 10
/-- The cause latched of two (R97). -/
def firstCause (a : Option Nat) (c : Nat) : Option Nat :=
  match a with
  | some b => if causeRank c < causeRank b then some c else some b
  | none => some c
/-- An end cause arises for a context (R97). -/
def Dev.latch (d : Dev) (i c : Nat) : Dev := d.updCtx i fun x => { x with cause := firstCause x.cause c }

/-- The completion record of a turn (R95). -/
def Dev.record (d : Dev) (slot i cause : Nat) (final : Bool) (row : Nat) : Completion :=
  let c := d.ctx i
  { sid := c.sid
    hseq := c.hseq
    status := (causeStatus cause).code
    cause := cause
    final := final
    stopMatch := c.stopMatch
    nonconform := c.nonconform
    overridden := c.overridden || (d.sess slot).overridden
    turnId := (d.sess slot).d.turnId
    rollbacks := c.rollbacks
    voided := min c.voidRows 16383
    genTokens := c.genTokens
    promptTokens := c.promptLen
    firstRow := c.admitRow
    row := row
    textBytes := c.textBytes
    dropped := c.dropped
    cutOffset := c.cutOffset
    charge := c.charge }

/-- A completion record is posted to the queue of its command (R95, R533); what it says of an override is said once (R328). -/
def Dev.postRecord (d : Dev) (slot i cause : Nat) (final : Bool) (row : Nat) : Dev :=
  let c := d.ctx i
  let r := d.record slot i cause final row
  let d := (d.updSess slot fun x => { x with overridden := false }).updCtx i fun c => { c with overridden := false }
  d.post c.fn c.eq { typ := 0x01, subject := c.sid, status := r.status, cause := cause, hseq := c.hseq, comp := some r }

/-- The acknowledgement of a push tile (R262). -/
def Dev.pushAck (d : Dev) (g : Nat) (t : PTile) (st : Status) (target : Nat) : Dev :=
  let d := if st = .dup then d.sati F.ATT_GRP_PCNT_DUP g 1
    else if st = .ok then d else d.sati F.ATT_GRP_PCNT_REJECTED g 1
  let re := st == .remap
  let body := pack 32
    [⟨0, 0, 64, t.sid⟩, ⟨8, 0, 32, t.pushId⟩, ⟨8, 32, 8, t.layer⟩, ⟨0x10, 0, 23, t.pos⟩, ⟨0x10, 32, 16, t.tileSlot⟩,
     ⟨0x18, 0, 16, st.code⟩, ⟨0x18, 16, 32, if re then d.own.current else 0⟩, ⟨0x18, 48, 16, if re then target else 0⟩]
  d.rdma t.qp t.replyKey t.replyAddr (some (0x020000 + t.tileSlot)) body .other 0
/-- Pushes of a session are abandoned: nothing more of them is placed, tiles that wait for their placement are answered STALE_GEN, and
signatures of pages that they filled are discarded, since these never commit (R98, R205, R206, R262, R265, R268). -/
def Dev.dropPushes (d : Dev) (slot : Nat) : Dev :=
  let mine := d.att.pushes.filter fun p => p.slot == slot
  let d := if mine.isEmpty then d else d.updSess slot fun x => { x with newSigs := [], unsigned := [] }
  let d := { d with att := { d.att with pushes := d.att.pushes.filter fun p => p.slot != slot } }
  mine.foldl (fun d p => p.waiting.foldl (fun d t => d.pushAck p.group t .staleGen 0) d) d

/-- The batch slot and the pin of a context are released (R82, R85, R103). -/
def Dev.leaveRows (d : Dev) (slot i : Nat) : Dev :=
  let c := d.ctx i
  let d := match c.batchSlot with
    | some b => { d with att := { d.att with batchSlots := NMap.del d.att.batchSlots b } }
    | none => d
  let d := d.setCtx i { c with batchSlot := none }
  (d.unpin slot).updSess slot fun x => { x with inRow := false, heldOut := false, voided := none }

/-- Work of a session ends: within a row in which it takes part, its batch slot and its pin are held until the boundary at which the session
leaves the rows; else they are released with it (R82, R85, R103). -/
def Dev.quitRows (d : Dev) (slot i : Nat) : Dev :=
  let c := d.ctx i
  match c.batchSlot with
  | none => d
  | some b =>
    if (d.sess slot).inRow then
      ({ d with att := { d.att with leaving := NMap.put d.att.leaving b ((d.sess slot).d.group, slot) } }).setCtx i
        { c with batchSlot := none }
    else d.leaveRows slot i

/-- State of a session whose turn has ended: WAITING after RUNNING, OPEN if a cancelled turn was its first; another turn that ends while
it is queued leaves the state (R87, R99). -/
def endState (x : Desc) (cause : Nat) : SState :=
  if x.state == .running || x.state == .open || x.state == .waiting then
    (if cause = 5 ∧ x.turnId ≤ 1 then .open else if x.state == .running then .waiting else x.state)
  else x.state

/-- A turn that ends before its batch is admitted leaves the batch, whose size falls by one (R268). -/
def Dev.leaveBatch (d : Dev) (i : Nat) : Dev :=
  let g := (d.ctx i).group
  if (d.group g).batches.isEmpty then d
  else d.updGroup g fun x => { x with
    batches := (x.batches.map fun b => if b.2.2.contains i then (b.1, b.2.1 - 1, b.2.2.erase i) else b).filter
      fun b => b.2.1 != 0 }
/-- A turn that ends in a boundary is remembered until the boundary is over, so that a cancel that comes too late is known (R101). -/
def Dev.noteEnded (d : Dev) (slot row : Nat) : Dev :=
  let x := (d.sess slot).d
  if d.phase x.group = 2 then d.updSess slot fun y => { y with endedTurn := some (x.turnId, row) } else d
/-- A turn ended in the boundary that is under way (R101). -/
def Dev.justEnded (d : Dev) (slot turn : Nat) : Bool :=
  let x := d.sess slot
  d.phase x.d.group == 2 && x.endedTurn == some (turn, d.row x.d.group)
/-- The exclusions of a turn end with it (R315). -/
def Dev.endGrammar (d : Dev) (slot : Nat) : Dev :=
  { d with tok := { d.tok with areas := NMap.upd d.tok.areas slot fun a => { a with excl := [], mask := none } } }
/-- A turn ends: the final record is posted, the context is freed, the session rests (R87, R95, R103). -/
def Dev.finishTurn (d : Dev) (slot i row : Nat) : Dev :=
  let c := d.ctx i
  let cause := c.cause.getD 5
  let d := d.postRecord slot i cause true row
  let d := (d.leaveBatch i).endGrammar slot
  let d := (d.quitRows slot i).freeCtx i
  let d := d.noteEnded slot row
  let d := d.updDesc slot fun x => { x with
    ctxValid := false
    ctx := 0
    turnQueued := false
    stopMatch := c.stopMatch
    state := if x.state == .closed then .closed else endState x cause }
  d.idleStart slot

/-! ## Cancellation (R98 to R103) -/

/-- Signatures and coarse records of positions at or above COMMITTED are no longer valid (R206). -/
def Dev.clearAbove (d : Dev) (slot : Nat) : Dev :=
  d.updSess slot fun x => { x with
    sigs := x.sigs.filter fun e => (e.1 % 65536 + 1) * 64 ≤ x.d.committed
    newSigs := x.newSigs.filter fun e => (e.1 % 65536 + 1) * 64 ≤ x.d.committed
    coarse := x.coarse.filter fun e => (e.1 % 1024 + 1) * 4096 ≤ x.d.committed
    chunks := (x.chunks.map fun c => (c.1, min c.2 x.d.committed)).filter fun c => c.1 < c.2 }
/-- COMMITTED and HIST_LEN return to the counts before the turn (R99). -/
def Dev.toBase (d : Dev) (slot i : Nat) : Dev :=
  let c := d.ctx i
  (d.updSess slot fun x => { x with
    hist := x.hist.take c.baseHist
    d := { x.d with
      committed := min x.d.committed c.baseCommitted
      histLen := c.baseHist
      histDurable := min x.d.histDurable c.baseHist } }).clearAbove slot

/-- First page that holds no position below `n`. -/
def firstWholePage (n : Nat) : Nat := ceilDiv n 64

/-- The pages that a cancellation gives up are dropped at the moment of the kill (R100). -/
def Dev.dropCancelled (d : Dev) (slot i : Nat) (keep : Bool) : Dev :=
  let d := d.dropResv slot
  let x := d.sess slot
  let lo := firstWholePage (if keep then x.d.committed else (d.ctx i).baseCommitted)
  d.dropPages slot (x.pagesFrom lo)

/-- The push of a rebuild under way is abandoned with what is reserved for it; the rebuild takes part in rows again from a later boundary. -/
def Dev.stopRebuild (d : Dev) (slot : Nat) : Dev :=
  match NMap.get? d.prk.revives slot, (d.sess slot).tierCtx with
  | some r, some i => if r.mode = 2 then ((d.dropPushes slot).dropResv slot).quitRows slot i else d
  | _, _ => d

/-- A turn is cancelled with a cause (R98 to R101): a session in a row has its row voided and its tiles answered
KILLED, and its turn ends at the boundary; any other turn ends at once. A turn that is still queued takes no tier work with it: a
revive or a rebuild of its session goes on; with KEEP = 0 the pages that hold only positions from BASE_COMMITTED on go at once, and a
rebuild that may have filled some of them pushes the shortened history anew (R100; log entry 30). -/
def Dev.cancelTurn (d : Dev) (slot i : Nat) (keep : Bool) (cause : Nat) : Dev :=
  let x := d.sess slot
  let queued := x.d.turnQueued
  let d := d.updCtx i fun c => { c with
    kill := true
    keep := keep
    phase := .cancelling
    cause := firstCause c.cause cause }
  let d := if !queued then (d.dropPushes slot).dropCancelled slot i keep
    else if keep then d
    else
      let d := d.stopRebuild slot
      d.dropPages slot ((d.sess slot).pagesFrom (firstWholePage (d.ctx i).baseCommitted))
  if x.inRow && !queued then (d.updSess slot fun x => { x with voided := some cause }).nullWork slot .killed
  else
    let d := if keep then d else d.toBase slot i
    d.finishTurn slot i x.d.lastRow

/-- The release of a hamper object is asked for: it takes effect once its reads have completed (R349). -/
def Dev.askRelease (d : Dev) (handle : Nat) : Dev :=
  let half := handle / 2 ^ 23 % 2
  let i := handle % 2 ^ 23
  let x : Half := NMap.getD d.halves half {}
  match NMap.get? x.objs i with
  | some o =>
    if o.valid && o.gen == handle / 2 ^ 32 then
      let x := { x with objs := NMap.put x.objs i { o with releasing := true } }
      { d with halves := NMap.put d.halves half x }
    else d
  | none => d

/-- A MIRROR message (R335). -/
def mirrorMsg (kind status partition obj prio sid offset length epoch : Nat) (body : Bytes) : Bytes :=
  pack 64
    [⟨0, 0, 8, kind⟩, ⟨0, 16, 16, status⟩, ⟨0, 32, 5, partition⟩, ⟨0, 40, 3, obj⟩, ⟨0, 43, 3, prio⟩, ⟨8, 0, 64, sid⟩,
     ⟨0x10, 0, 64, offset⟩, ⟨0x18, 0, 64, length⟩, ⟨0x20, 0, 32, epoch⟩] ++ body
/-- A MIRROR message of a session to its buddy on the BULK connection (R335); what the buddy then holds is kept in mind (R102). -/
def Dev.toBuddy (d : Dev) (slot kind obj offset length : Nat) (body : Bytes) : Dev :=
  let x := (d.sess slot).d
  let d := d.updSess slot fun y => { y with
    mirrored := if kind = 1 ∨ kind = 4 then true else if kind = 5 ∧ obj = 0 then false else y.mirrored
    histOpen := if kind = 1 ∧ obj = 4 then true else if kind = 5 ∧ obj ≠ 3 then false else y.histOpen }
  d.sendBulk x.buddy 5 (mirrorMsg kind 0 x.partition obj x.prio x.sid offset length x.ownerEpoch body)

/-- The next generation of an index slot, skipping 0 (R447). -/
def nextIndexGen (g : Nat) : Nat := if g = 0xFFFF then 1 else g + 1
/-- Index that a handle names: die * 32,768 + slot (R447). -/
def indexKey (handle : Nat) : Nat := handle % 2 ^ 16
/-- A search index is released: its slot's generation advances, and a session bound to it is bound no more (R447,
R449). -/
def Dev.dropIndex (d : Dev) (handle : Nat) : Dev :=
  match NMap.get? d.sft.idx (indexKey handle) with
  | some x =>
    if x.gen = handle / 2 ^ 16 then
      { d with
        sft := { d.sft with
          idx := NMap.del d.sft.idx (indexKey handle)
          gens := NMap.put d.sft.gens (indexKey handle) (nextIndexGen x.gen) }
        ses := { d.ses with tab := NMap.mapV d.ses.tab fun _ y =>
          if y.d.siftIndex = handle then { y with d := { y.d with siftIndex := 0 } } else y } }
    else d
  | none => d

/-- One descriptor fewer names a stop set; at none it is released, the empty set never (R295). -/
def Dev.dropStops (d : Dev) (i : Nat) : Dev :=
  match NMap.get? d.tok.stops i with
  | some x =>
    if i = 0 then d
    else if x.count ≤ 1 then { d with tok := { d.tok with stops := NMap.del d.tok.stops i } }
    else { d with tok := { d.tok with stops := NMap.put d.tok.stops i { x with count := x.count - 1 } } }
  | none => d

/-- The mask slot and the grammar area of a session are released; between boundaries the blocks wait for the next
reclamation step (R116, R305, R331). -/
def Dev.releaseArea (d : Dev) (slot : Nat) : Dev :=
  if !(d.sess slot).area then d
  else
    let runs := d.runsOf slot { d.sess slot with ptHeld := false, ptLeaves := [], ptDirs := [] }
    let d := if d.groups.all fun e => d.phase e.1 == 0 then d else d.giveBlocks slot runs
    let d := d.updSess slot fun x => { x with
      area := false
      d := { x.d with grmState := 0 } }
    { d with tok := { d.tok with areas := NMap.del d.tok.areas slot } }

/-- A grammar is unbound from a session: its mask slot and grammar area are released, and a grammar of a tenant that no
session remains bound to is released (R299, R305). -/
def Dev.unbindGrammar (d : Dev) (slot : Nat) : Dev :=
  let x := d.sess slot
  if !x.d.grammarBound then d
  else
    let g := x.d.grammarId
    let d := (d.releaseArea slot).updDesc slot fun x => { x with
      grammarBound := false
      grammarId := 0
      deadPolicy := 0
      rollbackN := 0 }
    let owner := (NMap.getD d.tok.grams g {}).partition
    if owner != 0 && !d.ses.tab.any (fun e => e.2.d.grammarBound && e.2.d.grammarId == g) then
      { d with tok := { d.tok with grams := NMap.del d.tok.grams g } }
    else d

/-- No decode group runs rows. -/
def Dev.noGroupRuns (d : Dev) : Bool := d.groups.all fun e => d.phase e.1 == 0

/-- A slot returns to FREE: its generation advances by one, and a slot that reaches the last is counted and not reused (R31, R72). -/
def Dev.slotBack (d : Dev) (slot gen : Nat) : Dev :=
  { d with
    ses := { d.ses with gens := NMap.put d.ses.gens slot (min gen 0x3FFFFFF) }
    flt := if 0x3FFFFFF ≤ gen ∧ !d.flt.spent.contains slot then { d.flt with spent := d.flt.spent ++ [slot] } else d.flt }
/-- A CLOSED slot returns to FREE once its pages are reclaimed and every release is confirmed: its generation advances
(R31, R72, R103). -/
def Dev.tryFree (d : Dev) (slot : Nat) : Dev :=
  let x := d.sess slot
  if x.d.state == .closed && x.reclaimed && x.waits.isEmpty then
    let home := sidHome x.d.sid == d.self
    let d := (d.dropStops x.d.stopSet).slotBack slot (if home then sidGen x.d.sid + 1 else d.nextGen slot + 1)
    let d := d.dropLine slot
    { d with
      ses := { d.ses with tab := NMap.del d.ses.tab slot }
      tok := { d.tok with areas := NMap.del d.tok.areas slot, tails := NMap.del d.tok.tails slot }
      iso := { d.iso with tallies := NMap.del d.iso.tallies slot }
      flt := { d.flt with voidRuns := NMap.del d.flt.voidRuns slot }
      own := { d.own with
        guests := NMap.del d.own.guests x.d.sid
        dirWrites := NMap.del d.own.dirWrites x.d.sid } }
  else d

/-- A release that a CLOSED session waits for is confirmed (R103). -/
def Dev.confirm (d : Dev) (slot what : Nat) : Dev :=
  if (d.sess slot).waits.contains what then
    (d.updSess slot fun x => { x with waits := x.waits.erase what }).tryFree slot
  else d

/-! ## Regions (R379 to R382) -/

/-- A message of a connection that is not resolved places into a region of a generation or reads from it, or a RoCEv2 READ is held for one
of its pages (R382). -/
def Dev.regionUsed (d : Dev) (i gen : Nat) : Bool :=
  (d.hall.conns.any fun e => e.2.tracks.any fun t => t.2.region == i && t.2.regionGen == gen && t.2.type != 3 && t.2.status.isNone) ||
    d.hall.qps.any fun q => q.2.held.any fun h => h.2.1 == i
/-- A region is released: its generation advances, its index waits its turn for reuse, and its memory waits for the messages that still use
it (R381, R382). -/
def Dev.dropRegion (d : Dev) (i : Nat) : Dev :=
  match NMap.get? d.hall.regions i with
  | none => d
  | some r => { d with hall := { d.hall with
      released := if d.regionUsed i r.gen then d.hall.released ++ [(i, r)] else d.hall.released
      regions := NMap.del d.hall.regions i
      regGens := NMap.put d.hall.regGens i (if r.gen = 0xFFFFFFFF then 1 else r.gen + 1)
      freeRegs := d.hall.freeRegs ++ [i] } }
/-- A range of a die's HBM is free for a window or a buffer: within the HBM, outside the page region, and apart from every region and from
every released region whose memory is not given back (R141, R379, R382). -/
def Dev.hbmFree (d : Dev) (die a n : Nat) : Bool :=
  let lo := d.gi F.PGS_REGION_BASE die * 2 ^ 24
  let hi := lo + d.gi F.PGS_REGION_BINS die * 2 ^ 24
  let apart (r : Region) : Bool :=
    let b := r.base % 2 ^ 47
    r.base / 2 ^ 47 != die || decide (a + n ≤ b) || decide (b + r.length ≤ a)
  decide (a + n ≤ Config.dieBytes) && (decide (lo = hi) || decide (a + n ≤ lo) || decide (hi ≤ a)) &&
    d.hall.regions.all (fun e => apart e.2) && d.hall.released.all fun e => apart e.2
/-- The local offset, the same on each of some dies, at which a window or buffer of `n` bytes goes: a place that the controller chooses, a
free value, if it is free, else the first free one of offset 0, the ends of the page regions and the ends of regions (R379, R525; log entry
2). -/
def Dev.hbmPlace (d : Dev) (dies : List Nat) (n align start : Nat) : Option Nat :=
  let up (a : Nat) : Nat := ceilDiv a align * align
  let ok (a : Nat) : Bool := dies.all fun die => d.hbmFree die a n
  let page := dies.map fun die => up ((d.gi F.PGS_REGION_BASE die + d.gi F.PGS_REGION_BINS die) * 2 ^ 24)
  let ends := (d.hall.regions ++ d.hall.released).map fun e => up (e.2.base % 2 ^ 47 + e.2.length)
  let s := start % Config.dieBytes / align * align
  ((0 :: page ++ ends).find? ok).map fun a => if ok s then s else a
/-- A region index for a new region: one never used, else the one released least recently (R381); none if all are in use. -/
def Dev.freeRegion (d : Dev) : Option Nat :=
  if d.hall.nextReg < 65536 then some d.hall.nextReg else d.hall.freeRegs.head?
/-- A region is created (R379 to R381). -/
def Dev.newRegion (d : Dev) (r : Region) : Option (Nat × Dev) :=
  match d.freeRegion with
  | none => none
  | some i =>
    let fresh := d.hall.nextReg < 65536
    some (i, { d with hall := { d.hall with
      regions := NMap.put d.hall.regions i { r with gen := NMap.getD d.hall.regGens i 1 }
      nextReg := if fresh then d.hall.nextReg + 1 else d.hall.nextReg
      freeRegs := if fresh then d.hall.freeRegs else d.hall.freeRegs.drop 1 } })
/-- The RoCEv2 key of a region (R381). -/
def Dev.regionKey (d : Dev) (i : Nat) : Nat :=
  ((NMap.get? d.hall.regions i).map (·.gen)).getD 0 % 256 * 2 ^ 24 + i

/-! ## Offers of a handoff (R84, R434) -/

/-- Ownership with one part changed. -/
def Dev.updOwn (d : Dev) (f : Own → Own) : Dev := { d with own := f d.own }
/-- The handoff of a session under way at its source. -/
def Dev.handOut (d : Dev) (sid : Nat) : Option HandOut := NMap.get? d.own.outs sid
/-- A handoff ends at its source, whose context is freed (R84); a move list tries again at a later boundary. -/
def Dev.endOut (d : Dev) (sid : Nat) : Dev :=
  match d.handOut sid with
  | some o => (d.freeCtx o.ctx).updOwn fun w => { w with outs := NMap.del w.outs sid }
  | none => d
/-- A handoff ends at its target: its copy region, the hamper objects reserved for it and its context are released (R84, R435). -/
def Dev.endIn (d : Dev) (sid : Nat) : Dev :=
  match NMap.get? d.own.ins sid with
  | none => d
  | some y =>
    let d := if y.accepted then d.dropRegion y.region else d
    let d := [y.imageHandle, y.histHandle].foldl (fun (d : Dev) h => if h = 0 then d else d.askRelease h) d
    (d.freeCtx y.ctx).updOwn fun o => { o with ins := NMap.del o.ins sid }

/-! ## Decisions of the home of a split session (R27, R59, R333) -/

/-- The state that a decision of the home moves a range to: PARKING for 0, HISTORY for 1, REVIVING for 3, CLOSED for 7, else the resting
one or, for 5, 6 and 8, the present one (R87, R102, R333). -/
def decidedState (x : Desc) (decision : Nat) : SState :=
  if decision = 0 then .parking else if decision = 1 then .history else if decision = 3 then .reviving
  else if decision = 7 then .closed else if 5 ≤ decision then x.state else restState x
/-- A decision of the home of a split session goes to some controllers as a STATE_SYNC that names the state and the tier to take, and has as
its body the decision in 4 bytes and its argument in 8 (log entry 37). -/
def Dev.tellCtrls (d : Dev) (slot decision arg : Nat) (to' : List Nat) : Dev :=
  let x := d.sess slot
  let tier := if decision = 2 then Tier.warm else if decision = 7 then .gone else x.d.tier
  to'.foldl (fun (d : Dev) c =>
    (d.emit (.range c x.d.sid decision)).send c svcOwner
      (d.ownMsg 13 0 x.d.sid x.d.ownerEpoch d.self (decidedState x.d decision).code tier.code x.d.histLen 0 0 0
        (leBytes 4 decision ++ leBytes 8 arg))) d
/-- The home of a split session sends its decision to the controller of every range: 0 IMAGE, 1 HISTORY, 2 WARM with the holder, 3 revive
with 1 for the image and 2 for a rebuild, 4 abandon, 5 the row is void, 6 what the session took in from a row on is discarded, with the row,
7 close, 8 a new epoch, with the epoch (R59, R102, R333, R437; DESIGN CHOICE, log entry 37: R432 has no message of its own for it). -/
def Dev.tellRanges (d : Dev) (slot decision : Nat) (arg : Nat := 0) : Dev :=
  let x := d.sess slot
  if x.d.split && d.homeOf x.d.sid == d.self then d.tellCtrls slot decision arg (x.ranges.map (·.ctrl)) else d
/-- The same, to the owner of a session owned elsewhere as well. -/
def Dev.tellAll (d : Dev) (slot decision arg : Nat) : Dev :=
  let x := d.sess slot
  let d := d.tellRanges slot decision arg
  if x.d.split && d.homeOf x.d.sid == d.self && x.d.ownerCtrl != d.self then d.tellCtrls slot decision arg [x.d.ownerCtrl] else d

/-! ## Closing (R102, R103) -/

/-- A park or a revive under way is abandoned: its object, or what its holder has taken, is released, and its context freed (R91,
R102, R332). -/
def Dev.abandonTier (d : Dev) (slot : Nat) : Dev :=
  let d := match NMap.get? d.prk.parks slot with
    | some p =>
      let d := { d.askRelease p.handle with prk := { d.prk with parks := NMap.del d.prk.parks slot } }
      if p.target = 2 then d.emit (.warm p.holder.ctrl (d.sess slot).d.sid true 0)
      else if p.fromWarm then d.updDesc slot fun x => { x with tier := .warm }
      else d
    | none => d
  let d := match (NMap.get? d.prk.revives slot).bind (·.region) with
    | some r => d.dropRegion r
    | none => d
  let d := { d with prk := { d.prk with revives := NMap.del d.prk.revives slot } }
  let d := match (d.sess slot).tierCtx with
    | some i => ((d.dropPushes slot).quitRows slot i).freeCtx i
    | none => d
  d.updSess slot fun x => { x with tierCtx := none, pendHistory := false }

/-- A session closes (R102, R103): any turn ends with CLOSED, every page reference is dropped, tier work and a handoff are abandoned,
and the hamper image, the history, the mirror and a WARM holding are released, and so is what a park had written or a holder had
taken for it: the slot waits for all of these. A home tells the controllers of the ranges, and an owner elsewhere its home (R29, R428). -/
def Dev.closeSession (d : Dev) (slot : Nat) : Dev :=
  let d := d.updDesc slot fun x => { x with kill := true }
  let d := match d.turnCtx slot with
    | some i => d.cancelTurn slot i false 6
    | none => d
  let parked := NMap.get? d.prk.parks slot
  let d := (d.endOut (d.sess slot).d.sid).endIn (d.sess slot).d.sid
  let d := ((d.abandonTier slot).dropTable slot).unbindGrammar slot
  let d := d.dropIndex (d.sess slot).d.siftIndex
  let x := d.sess slot
  let partial' := (parked.map (·.handle)).getD 0
  let handles := ([x.d.imageHandle, x.d.histHandle, partial'].filter (· != 0)).dedup
  let d := handles.foldl (fun d h => d.askRelease h) d
  let buddy := x.d.buddy != 0 && (x.mirrored || x.d.mirrorValid || x.d.histDurable != 0)
  let d := if buddy then d.toBuddy slot 5 0 0 0 [] else d
  let placing := (parked.map (·.target)).getD 0 == 2
  let warm := x.d.tier == .warm
  let d := if warm then d.emit (.warm x.warmHolder.ctrl x.d.sid true 0) else d
  let d := d.updSess slot fun x => { x with
    waits := handles ++ (if buddy then [1] else []) ++ (if warm || placing then [2] else [])
    reclaimed := d.noGroupRuns
    d := { x.d with state := .closed, tier := .gone, idleSince := 0 } }
  let d := (d.tellRanges slot 7).stateSync slot []
  if d.noGroupRuns then (d.reclaimFrames.reclaimBlocks).tryFree slot else d

end Sys2Proof.Machine
end

