-- ==== Sys2Proof/Machine/Times.lean ====
section
/-! DEFINITION. Messages of the TIME service, batch lists, and how a group begins its rows (R51 to R53, R56, R256, R625). -/
namespace Sys2Proof.Machine
open Sys2Proof

/-- Services of SENDs (R405). -/
def svcTime : Nat := 1

/-- Group id of a group (R70). -/
def Dev.gid (d : Dev) (g : Nat) : Nat := d.gi F.TIM_GRP_CFG_GROUP_ID g
/-- Timekeeper held for a group. -/
def Dev.tk (d : Dev) (g : Nat) : Nat := d.gi F.TIM_GRP_CFG_TK_CTRL g
/-- Deputy held for a group. -/
def Dev.deputy (d : Dev) (g : Nat) : Nat := d.gi F.TIM_GRP_CFG_DEPUTY g
/-- Timekeeper epoch held for a group. -/
def Dev.tkEpoch (d : Dev) (g : Nat) : Nat := d.gi F.TIM_GRP_SHAPE_TK_EPOCH g
/-- This controller is the timekeeper of a group. -/
def Dev.isTk (d : Dev) (g : Nat) : Bool := d.tk g == d.self
/-- This controller issues the beacons of a group: it is the timekeeper, and none of its beacons has been rejected with STALE_GEN
(R51, R60). -/
def Dev.issues (d : Dev) (g : Nat) : Bool := d.isTk g && !(d.group g).silenced
/-- The installed map epoch (R441, R443). -/
def Dev.installedEpoch (d : Dev) : Nat := (d.own.installed.map (·.epoch)).getD 0
/-- Group index that holds a group id. -/
def Dev.groupOf (d : Dev) (gid : Nat) : Option Nat := (List.range 64).find? fun g => gid != 0 && d.gid g == gid

/-- The 32-byte header of a TIME message (R53). -/
def Dev.timeHdr (d : Dev) (g kind status row flags : Nat) : Bytes :=
  pack 32
    [⟨0, 0, 8, kind⟩, ⟨0, 16, 16, status⟩, ⟨0, 32, 32, d.gid g⟩, ⟨8, 0, 48, row⟩, ⟨0x10, 0, 32, d.tkEpoch g⟩,
     ⟨0x10, 32, 32, d.installedEpoch⟩, ⟨0x18, 0, 5, flags⟩]
/-- The 32 bytes of a beacon (R52). -/
def Beacon.bytes (b : Beacon) : Bytes :=
  pack 32
    [⟨0, 0, 48, b.row⟩, ⟨8, 0, 32, b.tkEpoch⟩, ⟨8, 32, 32, b.groupId⟩, ⟨0x10, 0, 1, b2n b.void⟩,
     ⟨0x10, 1, 1, b2n b.resync⟩, ⟨0x10, 2, 1, b2n b.cut⟩, ⟨0x10, 3, 1, b2n b.reconf⟩, ⟨0x10, 4, 1, b2n b.memberLost⟩,
     ⟨0x18, 0, 64, b.voidMap⟩]

/-- The 64-byte header of a batch list (R256). -/
def Dev.listHdr (d : Dev) (g row n : Nat) : Bytes :=
  pack 64 [⟨0, 0, 48, row⟩, ⟨0, 48, 16, d.self⟩, ⟨8, 0, 32, d.gid g⟩, ⟨8, 32, 32, n⟩, ⟨0x10, 0, 32, d.own.current⟩]
/-- The 16 bytes of an entry (R256). -/
def BatchEntry.bytes (e : BatchEntry) : Bytes :=
  pack 16 [⟨0, 0, 64, e.sid⟩, ⟨8, 0, 23, e.pos⟩, ⟨8, 23, 17, e.npos⟩, ⟨8, 40, 3, e.role.code⟩, ⟨8, 43, 3, e.prio⟩]
/-- A batch list goes to every member, whose acknowledgement is waited for (R256, R257). -/
def Dev.writeList (d : Dev) (g row : Nat) (es : List BatchEntry) : Dev :=
  let body := d.listHdr g row es.length ++ es.flatMap BatchEntry.bytes
  (d.group g).members.foldl (fun d e =>
    let (q, d) := d.pickQp g e.1 e.2.qp
    (d.rdma q e.2.planKey e.2.planAddr (some 0x010000) body .list e.1).updGroup g fun x =>
      { x with acksWanted := if x.acksWanted.contains e.1 then x.acksWanted else x.acksWanted ++ [e.1] }) d

/-- The beacon is written into every member's beacon slot: bytes 8 to 15, then bytes 0 to 7 (R51). -/
def Dev.writeBeacon (d : Dev) (g : Nat) (b : Beacon) : Dev :=
  (d.group g).members.foldl (fun d e =>
    let d := d.rdma e.2.qp e.2.beaconKey (e.2.beaconAddr + 8) none (slice b.bytes 8 8) .other e.1
    d.rdma e.2.qp e.2.beaconKey e.2.beaconAddr none (slice b.bytes 0 8) .other e.1) d

/-- The timekeeper issues a beacon: to every other controller of the group, to the members' beacon slots, and to itself,
where it is held until ROW_BEGIN (R51, R54). -/
def Dev.issueBeacon (d : Dev) (g : Nat) (b : Beacon) : Dev :=
  let others := (d.group g).ctrls.filter (· != d.self)
  let d := others.foldl (fun d c => d.send c svcTime (d.timeHdr g 1 0 b.row 0 ++ b.bytes)) d
  (d.writeBeacon g b).updGroup g fun x => { x with
    lastBeacon := some b
    heldBeacon := some (d.self, b)
    reports := []
    roundRow := b.row
    roundRestart := false
    lostDeadline := none }

/-- A group holds its configuration, has a weave bound, and the time block is enabled (R625). -/
def Dev.groupReady (d : Dev) (g : Nat) : Bool :=
  d.gid g != 0 && (d.group g).bound.isSome && d.on F.TIM_CTL_EN

/-- The timekeeper of an IDLE group issues the first beacon once every controller of the list is ready, itself included
(R625). -/
def Dev.firstBeacon (d : Dev) (g : Nat) : Dev :=
  let x := d.group g
  let others := x.ctrls.filter (· != d.self)
  if d.issues g && d.phase g == 0 && d.groupReady g && x.readySent && x.heldBeacon.isNone && others.all (NMap.has x.mapReady) then
    let top := (others.map fun c => (NMap.getD x.mapReady c (0, 0)).2).foldl max (d.row g)
    d.issueBeacon g { row := top + 1, tkEpoch := d.tkEpoch g, groupId := d.gid g, resync := true, reconf := true }
  else d

/-- A controller that meets the conditions of R625 writes an empty batch list to every member and sends MAP_READY to the
timekeeper, once. The list's ROW is the controller's own row + 1, since the group's first row is not known yet (DESIGN CHOICE; log
entry 72). -/
def Dev.checkReady (d : Dev) (g : Nat) : Dev :=
  if d.phase g = 0 ∧ d.groupReady g ∧ !(d.group g).readySent then
    let d := d.writeList g (d.row g + 1) []
    let d := d.updGroup g fun x => { x with
      readySent := true
      batch := []
      nextBatch := []
      acksWanted := [] }
    if d.isTk g then d.firstBeacon g else d.send (d.tk g) svcTime (d.timeHdr g 4 0 (d.row g) 0)
  else d
/-- Every IDLE group is checked, as after the time block is enabled (R625). -/
def Dev.checkReadyAll (d : Dev) : Dev := (List.range 64).foldl (fun d g => d.checkReady g) d

end Sys2Proof.Machine
end

