-- ==== Sys2Proof/Machine/Warn.lean ====
section
/-! DEFINITION. How a checkpoint of a group begins: messages of the CHECKPOINT service, generations, cut rows, early
warnings (R545, R547 to R549, R558). -/
namespace Sys2Proof.Machine
open Sys2Proof

/-- Service of checkpoint messages (R405, R558). -/
def svcCkpt : Nat := 6
/-- The 64-byte header of a checkpoint message, with its body (R558). -/
def ckptMsg (kind cause status gid manifest cutRow flags off len : Nat) (body : Bytes) : Bytes :=
  pack 64
    [⟨0, 0, 8, kind⟩, ⟨0, 8, 8, cause⟩, ⟨0, 16, 16, status⟩, ⟨0, 32, 32, gid⟩, ⟨8, 0, 64, manifest⟩, ⟨0x10, 0, 48, cutRow⟩,
     ⟨0x18, 0, 5, flags⟩, ⟨0x20, 0, 64, off⟩, ⟨0x28, 0, 64, len⟩] ++ body
/-- The generation in progress of a group (R545). -/
def Dev.prog (d : Dev) (g : Nat) : Option CkpProg := NMap.get? d.ckp.prog g
/-- CKP_GRP_GEN.IN_PROG, CKP_GRP_CUT and CKP_STATUS.ACTIVE follow the generations in progress (R564, R565). -/
def Dev.showProg (d : Dev) (g : Nat) : Dev :=
  ((d.si F.CKP_GRP_GEN_IN_PROG g (b2n (d.prog g).isSome)).si F.CKP_GRP_CUT_ROW g (((d.prog g).map (·.cutRow)).getD 0)).s
    F.CKP_STATUS_ACTIVE d.ckp.prog.length
/-- The generations in progress with one changed. -/
def Dev.setProg (d : Dev) (g : Nat) (p : CkpProg) : Dev :=
  ({ d with ckp := { d.ckp with prog := NMap.put d.ckp.prog g p } }).showProg g
/-- A generation in progress ends. -/
def Dev.endProg (d : Dev) (g : Nat) : Dev := ({ d with ckp := { d.ckp with prog := NMap.del d.ckp.prog g } }).showProg g
/-- FLAGS of a generation (R558). -/
def CkpProg.flags (p : CkpProg) : Nat := b2n p.mx4 + 2 * b2n p.indexes + 4 * b2n p.mirror
/-- A checkpoint message to every other controller of a group. -/
def Dev.ckptAll (d : Dev) (g kind cause status manifest cutRow flags : Nat) : Dev :=
  ((d.group g).ctrls.filter (· != d.self)).foldl (fun d c =>
    d.send c svcCkpt (ckptMsg kind cause status (d.gid g) manifest cutRow flags 0 0 [])) d
/-- PREPARE goes to every controller of the group (R549). -/
def Dev.sendPrepare (d : Dev) (g : Nat) (p : CkpProg) : Dev := d.ckptAll g 4 0 0 p.manifest p.cutRow p.flags

/-- The timekeeper begins a checkpoint: the next generation, the cut row, PREPARE (R545, R549, R552). -/
def Dev.startCkpt (d : Dev) (g flags cutRow : Nat) (origin : Bool) (fn eq hseq : Nat) : Dev × CkpProg :=
  let gen := NMap.getD d.ckp.lastGen g 0 + 1
  let p : CkpProg :=
    { manifest := d.gid g * 2 ^ 32 + gen
      cutRow := max cutRow (d.row g + d.seen g F.CKP_CFG_LEAD_ROWS)
      mx4 := bitOf flags 0
      indexes := bitOf flags 1
      mirror := bitOf flags 2
      fn := fn
      eq := eq
      hseq := hseq
      timekeeper := true
      origin := origin
      prepared := [d.self]
      barrier := some (d.now + d.seen g F.TIM_MAINT_CKPT_MS * 1000000) }
  let d := { d with ckp := { d.ckp with lastGen := NMap.put d.ckp.lastGen g gen } }
  ((d.setProg g p).sendPrepare g p, p)
/-- Flags of an automatic checkpoint (R547, R564). -/
def Dev.autoFlags (d : Dev) : Nat := d.g F.CKP_TRIG_AUTO_MX4 + 2 * d.g F.CKP_TRIG_AUTO_INDEXES + 4 * d.g F.CKP_TRIG_AUTO_MIRROR
/-- A trigger at the timekeeper: a checkpoint starts, or the trigger is counted as skipped (R547). -/
def Dev.autoCkpt (d : Dev) (g : Nat) : Dev :=
  let recent := match NMap.get? d.ckp.lastCut g with
    | some t => decide (d.now < t + d.seen g F.CKP_CFG_MIN_GAP_S * 1000000000)
    | none => false
  if (d.prog g).isSome || recent then d.sat F.CKP_CNT_SKIPPED 1
  else (d.startCkpt g d.autoFlags 0 true 0 0xFFFF 0).1.sat F.CKP_CNT_AUTO 1
/-- An early warning is seen: the timekeeper of every group is asked for a checkpoint (R547). -/
def Dev.ckptWarn (d : Dev) (bit : Nat) : Dev :=
  if !d.on F.CKP_CTL_EN || !d.on F.CKP_CTL_AUTO_EN || !bitOf (d.g F.CKP_TRIG_MASK) bit then d
  else ((List.range 64).filter fun g => d.gid g != 0).foldl (fun (d : Dev) g =>
    if d.isTk g then d.autoCkpt g
    else d.send (d.tk g) svcCkpt (ckptMsg 1 bit 0 (d.gid g) 0 0 0 0 0 [])) d

/-! ## Writes below a cut (R554) -/

/-- A write to a position of a page that a capture under way still needs: the page is captured first, and the wait is
counted (R554). -/
def Dev.awaitPage (d : Dev) (sid key pos : Nat) : Dev :=
  let mine (c : Capture) : Bool := c.sid == sid && c.todo.contains key && decide (pos < c.cCut)
  if d.ckp.shards.any fun s => s.caps.any mine then
    let shards := d.ckp.shards.map fun s => { s with caps := s.caps.map fun c => if mine c then { c with todo := c.todo.erase key } else c }
    ({ d with ckp := { d.ckp with shards := shards } }).sat F.CKP_CNT1_WAITS 1
  else d
/-- A write of a history token that a capture under way still needs (R554). -/
def Dev.awaitHist (d : Dev) (sid i : Nat) : Dev :=
  let mine (c : Capture) : Bool := c.sid == sid && !c.histDone && decide (i < c.hCut)
  if d.ckp.shards.any fun s => s.caps.any mine then
    let shards := d.ckp.shards.map fun s => { s with caps := s.caps.map fun c => if mine c then { c with histDone := true } else c }
    ({ d with ckp := { d.ckp with shards := shards } }).sat F.CKP_CNT1_WAITS 1
  else d

end Sys2Proof.Machine
end

