-- ==== Sys2Proof/Machine/Faults.lean ====
section
/-! DEFINITION. Units, their fault counters and thresholds, fault records, and what every retirement reports (R579 to R584,
R589, R591, R592). -/
namespace Sys2Proof.Machine
open Sys2Proof

/-! ## Fault records (R591, R592) -/

/-- The 64 bytes of a fault record (R591). -/
def FaultRec.bytes (r : FaultRec) : Bytes :=
  pack 64
    [⟨0, 0, 32, r.index⟩, ⟨0, 32, 4, r.cls⟩, ⟨0, 36, 4, r.action⟩, ⟨0, 40, 8, r.kind⟩, ⟨0, 48, 16, r.unit⟩, ⟨8, 0, 64, r.time⟩,
     ⟨0x10, 0, 24, r.corr⟩, ⟨0x10, 24, 16, r.trans⟩, ⟨0x10, 40, 5, r.attempts⟩, ⟨0x18, 0, 64, r.loc⟩, ⟨0x20, 0, 64, r.session⟩,
     ⟨0x28, 0, 32, r.affected⟩, ⟨0x30, 0, 48, r.row⟩, ⟨0x38, 0, 16, r.status⟩, ⟨0x38, 48, 16, r.block⟩]
/-- The last `n` of a list. -/
def lastOf {α : Type} (n : Nat) (xs : List α) : List α := xs.drop (xs.length - n)

/-- Key of a unit: kind and index (R583). -/
def unitKey (kind idx : Nat) : Nat := kind * 65536 + idx
/-- Hourly buckets of a unit within the window (R581). -/
def Dev.window (d : Dev) (kind idx : Nat) : List Bucket :=
  (NMap.getD d.flt.buckets (unitKey kind idx) []).take (d.g F.FLT_CTL_WINDOW_H)
/-- CORR_WIN of a unit. -/
def Dev.corrWin (d : Dev) (kind idx : Nat) : Nat := (d.window kind idx).foldl (fun a b => a + b.corr) 0
/-- TRANS_WIN of a unit. -/
def Dev.transWin (d : Dev) (kind idx : Nat) : Nat := (d.window kind idx).foldl (fun a b => a + b.trans) 0
/-- Events of a unit are counted in the bucket of the hour (R581). -/
def Dev.countUnit (d : Dev) (kind idx corr trans : Nat) : Dev :=
  let bs := match NMap.getD d.flt.buckets (unitKey kind idx) [] with
    | [] => [{ corr := corr, trans := trans }]
    | b :: bs => { corr := b.corr + corr, trans := b.trans + trans } :: bs
  { d with flt := { d.flt with buckets := NMap.put d.flt.buckets (unitKey kind idx) bs } }

/-- A fault record is written: it takes the next INDEX and the counters of its unit; one with ACTION 3 or 4 goes to the boot
store too, and one with ACTION 2 or above is posted to partition 0 (R591, R592). -/
def Dev.faultRecord (d : Dev) (r : FaultRec) : Dev :=
  let n := d.g F.FLT_STATUS_RECORDS
  let unit := if r.kind = 15 then 0xFFFF else r.unit
  let r : FaultRec := { r with
    index := n
    unit := unit
    time := d.wall
    corr := min (2 ^ 24 - 1) (d.corrWin r.kind r.unit)
    trans := min 65535 (d.transWin r.kind r.unit) }
  let flt := { d.flt with
    records := lastOf 4096 (d.flt.records ++ [r])
    bootLog := if 3 ≤ r.action ∧ r.action ≤ 4 then lastOf 256 (d.flt.bootLog ++ [r]) else d.flt.bootLog }
  let d := { d with flt := flt }
  let d := (d.s F.FLT_STATUS_RECORDS ((n + 1) % 2 ^ 32)).s F.FLT_STATUS_LAST n
  if 2 ≤ r.action then d.post0 { typ := 0x20, status := Status.fault.code, args := [n] } else d

/-! ## Units (R583, R584, R589) -/

/-- Units of a kind that can be retired; 0 for the other kinds (R583). -/
def unitCount (kind : Nat) : Nat :=
  match kind with
  | 1 => 64 | 2 => 1024 | 3 => 512 | 4 => 64 | 6 => 16 | 7 => 8 | 8 => 8 | 9 => 32 | 10 => 4
  | _ => 0
/-- A unit is retired (R584, R594). -/
def Dev.unitRetired (d : Dev) (kind idx : Nat) : Bool :=
  match kind with
  | 1 => bitOf (d.g F.ATT_RETIRED_MASK) idx
  | 2 => bitOf (if idx / 512 = 0 then d.g F.FLT_RET_SET_W_SETS else d.g F.FLT_RET_SET_E_SETS) (idx % 64)
  | 3 => (NMap.getD d.halves (idx / 256) {}).retired.contains (idx % 256)
  | 4 => bitOf (d.g F.FLT_RET_LANES_LANES) idx
  | 6 => bitOf (d.g F.FLT_RET_ENG_SIFT) idx
  | 7 => bitOf (d.g F.FLT_RET_ENG_TOKEN) idx
  | 8 => bitOf (d.g F.FLT_RET_ENG_MASK) idx
  | 9 => bitOf (d.g F.FLT_RET_ENG_MOVE) idx
  | 10 => bitOf (d.g F.FLT_RET_MISC_SEAL) idx
  | _ => false
/-- What every retirement reports: a record with ACTION 3, UNIT_RETIRED to every partition, an entry in the boot store but
for fabric lanes, and the early warning of checkpoints (R487, R547, R589, R591). -/
def Dev.noteRetired (d : Dev) (kind idx : Nat) : Dev :=
  let d := d.faultRecord { cls := 3, action := 3, kind := kind, unit := idx }
  let key := unitKey kind idx
  let d := if kind = 4 ∨ d.flt.retired.contains key then d
    else { d with flt := { d.flt with retired := d.flt.retired ++ [key] } }
  (d.postAll { typ := 0x31, args := [kind, idx] }).ckptWarn 2

end Sys2Proof.Machine
end

