-- ==== Sys2Proof/Machine/Hamper.lean ====
section
/-! DEFINITION. The hamper: space, object records, reservation, the write buffer and its queues (chapter 12). -/
namespace Sys2Proof.Machine
open Sys2Proof

/-! ## Halves, their state and space (R345, R346, R358, R369) -/

/-- Pages of a half, raw (R345). -/
def halfPages : Nat := 3906994176
/-- User pages of a half at delivery (R346). -/
def halfUser : Nat := 3417968750
/-- Pages of a block (R345). -/
def blockPages : Nat := 1536
/-- Blocks of a lun: four planes of 2,484 (R345). -/
def lunBlocks : Nat := 9936

/-- A half of the hamper. -/
def Dev.half (d : Dev) (h : Nat) : Half := NMap.getD d.halves h {}
/-- The halves with one changed. -/
def Dev.setHalf (d : Dev) (h : Nat) (x : Half) : Dev := { d with halves := NMap.put d.halves h x }
/-- The halves with one changed by `f`. -/
def Dev.updHalf (d : Dev) (h : Nat) (f : Half → Half) : Dev := d.setHalf h (f (d.half h))
/-- The state of a half as HMP_STATUS shows it (R376). -/
def Dev.hstate (d : Dev) (h : Nat) : Nat := if h = 0 then d.g F.HMP_STATUS_STATE_W else d.g F.HMP_STATUS_STATE_E
/-- A half takes a state. -/
def Dev.setHstate (d : Dev) (h : Nat) (x : HState) : Dev :=
  if h = 0 then d.s F.HMP_STATUS_STATE_W x.code else d.s F.HMP_STATUS_STATE_E x.code
/-- A half serves commands: READY, WRITE_LIMITED or READ_ONLY (R375). -/
def Dev.hready (d : Dev) (h : Nat) : Bool := 2 ≤ d.hstate h && d.hstate h ≤ 4
/-- Both halves serve commands. -/
def Dev.hamperReady (d : Dev) : Bool := d.hready 0 && d.hready 1

/-- Pages reserved by valid objects of a half (R358). -/
def Half.reserved (x : Half) : Nat := x.objs.foldl (fun a e => if e.2.valid then a + e.2.pages else a) 0
/-- USER_PAGES of a half. -/
def Dev.userPages (d : Dev) (h : Nat) : Nat := d.gi F.HMP_D_SPACE_USER_PAGES h
/-- Free user pages of a half (R358). -/
def Dev.freePages (d : Dev) (h : Nat) : Nat := d.userPages h - (d.half h).reserved

/-- The two fixed root blocks, on luns 0 and 128 (R355; log entry 20). -/
def isRoot (b : Nat) : Bool := b == 0 || b == 128 * lunBlocks
/-- The block under a key; a block that is not listed is ERASED, but for one FLUSH block of each plane of a live lun and
the two root blocks, which are open for root records alone (R355, R360; log entry 20). -/
def Half.block (x : Half) (b : Nat) : HBlock :=
  match NMap.get? x.blocks b with
  | some k => k
  | none =>
    if b % 2484 = 2483 then { state := .flush }
    else if isRoot b then { state := .opened, stream := 4 }
    else {}
/-- The blocks with one changed. -/
def Half.setBlock (x : Half) (b : Nat) (k : HBlock) : Half := { x with blocks := NMap.put x.blocks b k }
/-- Lun of a block. -/
def lunOf (b : Nat) : Nat := b / lunBlocks
/-- BAD blocks of a half: GROWN_BAD (R367). -/
def Half.grownBad (x : Half) : Nat := NMap.cnt x.blocks fun _ k => k.state == .bad
/-- Blocks of a lun that are not listed, and so ERASED with no erase of their own. -/
def Half.freshIn (x : Half) (lun : Nat) : Nat :=
  let fixed := 4 + (if lun = 0 ∨ lun = 128 then 1 else 0)
  let dflt := x.blocks.filter fun e => lunOf e.1 == lun && e.1 % 2484 != 2483 && e.1 != 0 && e.1 != 128 * lunBlocks
  lunBlocks - fixed - dflt.length
/-- ERASED blocks of a lun (R361). -/
def Half.erasedIn (x : Half) (lun : Nat) : Nat :=
  if x.retired.contains lun then 0
  else x.freshIn lun + (x.blocks.filter fun e => lunOf e.1 == lun && e.2.state == .erased).length
/-- ERASED blocks of a half. -/
def Half.erased (x : Half) : Nat := (List.range 256).foldl (fun a l => a + x.erasedIn l) 0

/-- Live luns of a half. -/
def Half.liveLuns (x : Half) : Nat := 256 - x.retired.length
/-- System pages of a half: object records twice, map and directory twice, root blocks, FLUSH blocks (R369; log entry
21). -/
def sysPages (luns : Nat) : Nat := 65536 + 2097664 + 3072 + 6144 * luns
/-- Good pages of a half: neither BAD nor on a retired lun (R369). -/
def Half.goodPages (x : Half) : Nat :=
  halfPages - 15261696 * x.retired.length
    - blockPages * NMap.cnt x.blocks (fun b k => k.state == .bad && !x.retired.contains (lunOf b))
/-- Spare of a half, below 0 once the good pages no longer cover USER_PAGES at delivery and the system pages (R369). -/
def Half.spareInt (x : Half) : Int := (x.goodPages : Int) - halfUser - sysPages x.liveLuns
/-- Spare of a half as SPARE_LEFT shows it (R369). -/
def Half.spare (x : Half) : Nat := x.spareInt.toNat
/-- Spare of a half at delivery. -/
def spareNew : Nat := halfPages - halfUser - sysPages 256
/-- SPARE_LEFT in 0.01 % units (R369). -/
def Half.spareLeft (x : Half) : Nat := 10000 * x.spare / spareNew
/-- The least spare of a half (R369). -/
def Dev.spareMin (d : Dev) : Nat := halfPages * d.g F.HMP_RETIRE_SPARE_MIN_PCT / 100

/-- State of a half that has restored its map, by its space (R369). -/
def Dev.spaceState (d : Dev) (h : Nat) : HState :=
  let excess := (d.half h).reserved - d.userPages h
  if excess = 0 then .ready
  else if excess < d.spareMin - d.spareMin / 2 then .writeLimited
  else .readOnly
/-- Pages that history flushes may still take: the free user pages and, in WRITE_LIMITED, the spare down to half its minimum (R358,
R369). -/
def Dev.histLimit (d : Dev) (h : Nat) : Nat := d.userPages h + (if d.hstate h = 3 then d.spareMin - d.spareMin / 2 else 0)
/-- Pages that are free for history flushes (R358, R369). -/
def Dev.histRoom (d : Dev) (h : Nat) : Nat := d.histLimit h - (d.half h).reserved
/-- A half in service takes the state that its space gives. -/
def Dev.fixHstate (d : Dev) (h : Nat) : Dev := if d.hready h then d.setHstate h (d.spaceState h) else d
/-- A half whose spare has fallen below its minimum lowers USER_PAGES (R369). -/
def Dev.checkSpare (d : Dev) (h : Nat) : Dev :=
  let x := d.half h
  let want := ((halfUser : Int) - (d.spareMin - x.spareInt)).toNat
  let d := if x.spareInt < d.spareMin ∧ want < d.userPages h then
      ((d.si F.HMP_D_SPACE_USER_PAGES h want).post0 { typ := 0x1F, args := [h, want] }).ckptWarn 3
    else d
  d.fixHstate h

/-! ## The dirty ceiling (R355, R357) -/

/-- Map delta of both halves in bytes (R355). -/
def Dev.mapDelta (d : Dev) : Nat := d.halves.foldl (fun a e => a + 16384 * (e.2.dirty.length + e.2.dirtyDir.length)) 0
/-- Bytes in the write buffer of both halves (R356). -/
def Dev.bufBytes (d : Dev) : Nat := d.halves.foldl (fun a e => a + 16384 * e.2.buffer.length) 0
/-- The dirty ceiling is reached (R357); a LOW bank lowers it to 64 MiB of delta and 256 MiB of buffer (R605). -/
def Dev.ceiling (d : Dev) : Bool :=
  let low (v n : Nat) : Nat := if d.pwr.bank = 0 then v else min v n
  low (d.g F.HMP_DIRTY_CEIL_DELTA_MIB) 64 * 2 ^ 20 ≤ d.mapDelta || low (d.g F.HMP_DIRTY_CEIL_BUF_MIB) 256 * 2 ^ 20 ≤ d.bufBytes

/-- A map entry changes: its segment, and the directory page of the segment, are dirty from the first change (R355). -/
def Half.touch (x : Half) (lpn : Nat) : Half :=
  let seg := lpn / 4096
  { x with
    dirty := if x.dirty.contains seg then x.dirty else x.dirty ++ [seg] }

/-! ## Object records and their pages (R348; log entry 79) -/

/-- The object record under an index as the half holds it. -/
def Half.obj (x : Half) (i : Nat) : HObj := NMap.getD x.objs i {}
/-- The system LPN of the page that holds a record: 256 records of 64 bytes (R348). -/
def recordLpn (i : Nat) : Nat := 0xF0000000 + i / 256
/-- The system LPN of an object's overflow extent page (R348; log entry 79). -/
def extLpn (i : Nat) : Nat := 0xF0008000 + i
/-- The eight bytes of an extent: first LPN and page count (R348). -/
def extBytes (e : Nat × Nat) : Bytes := leBytes 8 (e.1 + e.2 * 2 ^ 32)
/-- The 64 bytes of an object record (R348). -/
def HObj.bytes (o : HObj) (i : Nat) : Bytes :=
  pack 64
    ([⟨0, 0, 64, o.sid⟩, ⟨8, 0, 32, o.gen⟩, ⟨8, 32, 3, o.kind⟩, ⟨8, 35, 1, b2n o.valid⟩, ⟨8, 36, 1, b2n o.damaged⟩,
      ⟨8, 37, 1, b2n o.complete⟩, ⟨8, 38, 5, o.partition⟩, ⟨0x10, 0, 64, o.length⟩, ⟨0x18, 0, 32, o.pages⟩,
      ⟨0x18, 32, 12, o.extents.length⟩] ++
     ((o.extents.take 3).zipIdx.map fun e => ⟨0x20 + 8 * e.2, 0, 64, e.1.1 + e.1.2 * 2 ^ 32⟩) ++
     [⟨0x38, 0, 32, if 3 < o.extents.length then extLpn i else 0xFFFFFFFF⟩])
/-- The bytes of a system page of objects: 256 records, or the extents of one from its fourth on (R348). -/
def Half.systemData (x : Half) (lpn : Nat) : Bytes :=
  if lpn < 0xF0008000 then (List.range 256).flatMap fun k => (x.obj (256 * (lpn - 0xF0000000) + k)).bytes (256 * (lpn - 0xF0000000) + k)
  else ((x.obj (lpn - 0xF0008000)).extents.drop 3).flatMap extBytes
/-- A system page waits in the SYSTEM queue of its half, once, with every record that it is written for (R348, R359). -/
def Half.queueSystem (x : Half) (lpn : Nat) (recs : List Nat) : Half :=
  let old := (x.queued.filter fun b => b.lpn == lpn).flatMap (·.recs)
  { x with queued := x.queued.filter (fun b => b.lpn != lpn) ++
    [{ lpn := lpn, system := true, recs := old.filter (fun i => !recs.contains i) ++ recs }] }
/-- A record of the half changes: its page is written back, and the page of its further extents (R348). -/
def Half.putObj (x : Half) (i : Nat) (o : HObj) : Half :=
  let x := { x with objs := NMap.put x.objs i o }.queueSystem (recordLpn i) [i]
  if 3 < o.extents.length then x.queueSystem (extLpn i) [i] else x

/-- A page enters the write buffer with its map change recorded (R356). -/
def Half.bufferIn (x : Half) (b : HBuf) : Half :=
  let x := x.touch b.lpn
  let old := (x.buffer.filter fun o => o.lpn == b.lpn).flatMap (·.recs)
  { x with
    buffer := x.buffer.filter (fun o => o.lpn != b.lpn) ++
      [{ b with recs := old.filter (fun i => !b.recs.contains i) ++ b.recs }]
    hostPages := x.hostPages + 1 }
/-- An object is COMPLETE from the entry into the buffer of the last byte of its LENGTH (R348, R356). -/
def Half.noteComplete (x : Half) (i : Nat) : Half :=
  let o := x.obj i
  if o.valid && !o.complete && decide (o.length ≤ o.data.length) && x.queued.all (fun b => b.system || b.index != i) then
    x.putObj i { o with complete := true }
  else x

/-- Pages that wait enter the buffer in the order given, until the ceiling is reached (R357). -/
def Dev.takeIn (d : Dev) (h : Nat) : List HBuf → Dev
  | [] => d
  | b :: bs =>
    if d.ceiling then d
    else
      let x := d.half h
      let x := { x with queued := x.queued.erase b }.bufferIn b
      Dev.takeIn (d.setHalf h (if b.system then x else x.noteComplete b.index)) h bs
/-- The pages that wait in a half in the order of its write queues: SYSTEM, HISTORY, then priority 7 down to 0 (R359). -/
def Half.writeOrder (x : Half) : List HBuf :=
  x.queued.filter (·.system) ++ x.queued.filter (fun b => !b.system && b.history) ++
    (List.range 8).flatMap fun k => x.queued.filter fun b => !b.system && !b.history && b.prio == 7 - k
/-- The pages that wait in a half are taken in order; a record that becomes COMPLETE by it follows (R348, R357, R359). -/
def Dev.serveHalf (d : Dev) (h : Nat) : Dev :=
  let d := d.takeIn h (d.half h).writeOrder
  d.takeIn h (d.half h).writeOrder

/-! ## Handles, and mirrors that are sealed (R335, R347, R349, R356) -/

/-- The handle of an object record (R347). -/
def mkHandle (half kind gen index : Nat) : Nat := gen * 2 ^ 32 + kind * 2 ^ 24 + half * 2 ^ 23 + index
/-- Half of a handle. -/
def handleHalf (n : Nat) : Nat := n / 2 ^ 23 % 2
/-- Record index of a handle. -/
def handleIndex (n : Nat) : Nat := n % 2 ^ 23

/-- The object that a handle names, if its record is valid and of its generation (R349). -/
def Dev.obj (d : Dev) (handle : Nat) : Option HObj :=
  match NMap.get? (d.half (handleHalf handle)).objs (handleIndex handle) with
  | some o => if handle != 0 && o.valid && o.gen == handle / 2 ^ 32 then some o else none
  | none => none
/-- An object is changed by `f`. -/
def Dev.updObj (d : Dev) (handle : Nat) (f : HObj → HObj) : Dev :=
  match d.obj handle with
  | some o => d.updHalf (handleHalf handle) fun x => x.putObj (handleIndex handle) (f o)
  | none => d

/-- Reads under way of an object, which its record does not hold (R349). -/
def Dev.updReads (d : Dev) (handle : Nat) (f : Nat → Nat) : Dev :=
  match d.obj handle with
  | some o => d.updHalf (handleHalf handle) fun x => { x with objs := NMap.put x.objs (handleIndex handle) { o with reads := f o.reads } }
  | none => d

/-- The media key generations of the partitions, with the half whose pages they encrypt (R506). -/
structure Media where
  half : Nat := 0
  gens : List Nat := []
  deriving DecidableEq, Repr
/-- The present media keys of a half (R506, R511). -/
def Dev.media (d : Dev) (h : Nat) : Media := { half := h, gens := (List.range 32).map fun p => d.gi F.SEC_MKGEN_GEN p }
/-- The media key generation of a partition. -/
def Media.gen (k : Media) (p : Nat) : Nat := k.gens.getD p 0
/-- The media key of a partition under a generation, mk(p, g): an XTS key pair (R506; log entry 76). -/
def mediaKey (p g : Nat) : Bytes :=
  Config.hkdf64 Config.storageRoot (leBytes 4 p) ([0x51, 0x4C, 0x4E, 0x20, 0x68, 0x61, 0x6D, 0x70, 0x65, 0x72] ++ leBytes 4 g)
/-- The tag of a page as the spare area holds it: 32 bytes, with the CRC-32C of the data and the tag bytes before it (R354). -/
def HTag.bytes (t : HTag) (data : Bytes) : Bytes :=
  let head := pack 24 [⟨0, 0, 32, t.lpn⟩, ⟨0, 32, 5, t.partition⟩, ⟨0, 37, 3, t.kind⟩, ⟨8, 0, 64, t.seq⟩, ⟨0x10, 0, 23, t.index⟩,
    ⟨0x10, 32, 32, t.gen⟩]
  head ++ leBytes 4 (crc32c (data ++ head)) ++ leBytes 4 0
/-- What a programmed page holds: its 16,384 data bytes encrypted with the tweak (half << 32) | LPN under the media key of the tag's
partition, and the tag in the clear (R354, R506; log entry 76). -/
def Media.cell (k : Media) (t : HTag) (data : Bytes) : Bytes :=
  let unit := Config.xts (mediaKey t.partition t.keyGen) (k.half * 2 ^ 32 + t.lpn) (padTo 16384 data)
  unit ++ t.bytes unit
/-- A programmed page can still be read: its partition's media key is the one it was written under (R507). -/
def Half.legible (x : Half) (k : Media) (ppa : Nat) : Bool :=
  let t := NMap.getD x.tags ppa {}
  t.keyGen == k.gen t.partition
/-- An object as a read of it finds it: with a page under a media key that is gone, it returns no data (R507). -/
def Dev.readObj (d : Dev) (handle : Nat) : Option HObj :=
  (d.obj handle).map fun o =>
    let x := d.half (handleHalf handle)
    let mine (l : Nat) : Bool := o.extents.any fun e => e.1 ≤ l && l < e.1 + e.2
    if x.map.any fun e => mine e.1 && !x.legible (d.media (handleHalf handle)) e.2 then
      { o with
        data := []
        holes := []
        damaged := true }
    else o

/-- Every byte written to an object is durable (R356). -/
def Dev.objDurable (d : Dev) (handle : Nat) : Bool :=
  (d.half (handleHalf handle)).queued.all fun b => b.system || b.index != handleIndex handle

/-! ## Pages of an object, and the reads of their blocks (R348, R365) -/

/-- The LPN of a page of an object (R348). -/
def lpnAt : List (Nat × Nat) → Nat → Option Nat
  | [], _ => none
  | e :: es, i => if i < e.2 then some (e.1 + i) else lpnAt es (i - e.2)

/-- The page of an object that an LPN is. -/
def pageIn : List (Nat × Nat) → Nat → Nat
  | [], _ => 0
  | e :: es, l => if e.1 ≤ l ∧ l < e.1 + e.2 then l - e.1 else e.2 + pageIn es l

/-- `n` page reads of a block are counted; at the limit it is queued for refresh (R365). -/
def Half.readBlock (x : Half) (limit b n : Nat) : Half :=
  let k := x.block b
  let x := x.setBlock b { k with reads := k.reads + n }
  if limit ≤ k.reads + n ∧ !x.refreshQ.contains b ∧ !x.retainQ.contains b ∧ !isRoot b then
    { x with refreshQ := x.refreshQ ++ [b] }
  else x
/-- Page reads that bring a block to its refresh (R365). -/
def Dev.readLimit (d : Dev) : Nat := 1000 * d.g F.HMP_RD_LIMIT_K
/-- A range of bytes of an object is read: each of its pages that is not in the buffer is a read of its block (R365). -/
def Dev.countReads (d : Dev) (handle off len : Nat) : Dev :=
  match d.obj handle with
  | none => d
  | some o =>
    if len = 0 then d
    else
      let first := off / 16384
      let n := (off + len - 1) / 16384 + 1 - first
      d.updHalf (handleHalf handle) fun x => (List.range n).foldl (fun x i =>
        match (lpnAt o.extents (first + i)).bind fun l => if x.buffer.any (·.lpn == l) then none else NMap.get? x.map l with
        | some ppa => x.readBlock d.readLimit (ppa / blockPages) 1
        | none => x) x
/-- Bytes of an object cannot be read here: they lie in a page that is lost, or past what a DAMAGED object still holds; of one that is
DAMAGED as a whole, no byte can (R335, R364). -/
def HObj.lacks (o : HObj) (off len : Nat) : Bool :=
  (o.damaged && (o.holes.isEmpty || decide (o.data.length < min o.length (off + len)))) ||
    o.holes.any fun k => decide (16384 * k < off + len) && decide (off < 16384 * (k + 1))

/-- A checkpoint mirror that has been sealed and is durable is acknowledged (R356, R558). -/
def Dev.ackCkptSeals (d : Dev) : Dev :=
  let due (d : Dev) (x : CkpMirror) : Bool := x.sealed && !x.acked && d.objDurable x.handle
  let mirrors := d.ckp.mirrors.map fun x => if due d x then { x with acked := true } else x
  (d.ckp.mirrors.filter (due d)).foldl (fun (d : Dev) x =>
    d.send x.sender svcCkpt (ckptMsg 9 0 0 (x.manifest / 2 ^ 32) x.manifest 0 (8 * x.die + 16 * b2n x.isManifest) 0 0 []))
    { d with ckp := { d.ckp with mirrors := mirrors } }
/-- A SYNC_ACK of the home (R428, R433). -/
def Dev.syncAck (d : Dev) (owner sid epoch n : Nat) (st : Status) : Dev :=
  d.send owner svcOwner (d.ownMsg 14 st.code sid epoch 0 0 0 n 0 0 0 [])
/-- History tokens that owners elsewhere have flushed are acknowledged once they are durable here (R428). -/
def Dev.ackSyncs (d : Dev) : Dev :=
  d.own.syncs.foldl (fun (d : Dev) e => match d.slotOf e.1 with
    | none => d
    | some slot =>
      let x := (d.sess slot).d
      if !d.objDurable x.histHandle then d
      else
        let d := { d with own := { d.own with syncs := d.own.syncs.erase e } }
        (d.updDesc slot fun x => { x with histDurable := max x.histDurable e.2.2 }).syncAck e.2.1 e.1 x.ownerEpoch e.2.2 .ok) d
/-- Mirrors whose SEAL waits and whose bytes are all durable are acknowledged: OK if the digest verifies (R335). -/
def Dev.ackSeals (d : Dev) : Dev :=
  d.prk.mirrors.foldl (fun (d : Dev) e =>
    match e.2.sealing with
    | none => d
    | some (src, obj, digest) =>
      let hd := (if obj = 3 then e.2.image else e.2.hist).getD 0
      match d.readObj hd with
      | none => d
      | some o =>
        if !d.objDurable hd then d
        else
          let d := d.countReads hd 0 o.length
          let ok := padTo 48 (Config.sha384 o.data) == digest
          let d := { d with prk := { d.prk with
            mirrors := NMap.put d.prk.mirrors e.1 { e.2 with
              sealing := none
              whole := if obj = 3 then ok else e.2.whole } } }
          d.sendBulk src 5 (mirrorMsg 6 (if ok then 0 else Status.digestFail.code) e.2.partition obj 0 e.1 0
            (if ok then o.length else 0) e.2.ownerEpoch [])) d.ackCkptSeals.ackSyncs

/-- The queues of both halves are served, and seals that waited for it are acknowledged (R335, R357, R359). -/
def Dev.admitAll (d : Dev) : Dev := ((d.serveHalf 0).serveHalf 1).ackSeals

/-! ## Objects (R347 to R351) -/

/-- Longest extent (R348). -/
def extMax : Nat := 16777215
/-- A run of LPNs as extents (R348). -/
def cutRun : Nat → Nat → Nat → List (Nat × Nat)
  | 0, _, _ => []
  | k + 1, s, n => if n = 0 then [] else (s, min n extMax) :: cutRun k (s + min n extMax) (n - min n extMax)
/-- The start in a free run that the allocator prefers: the first 4,096-page boundary that leaves room, else the run's
start (R350). -/
def startIn (r : Nat × Nat) (n : Nat) : Option (Nat × Bool) :=
  let a := ceilDiv r.1 4096 * 4096
  if a + n ≤ r.1 + r.2 then some (a, true) else if n ≤ r.2 then some (r.1, false) else none
/-- The free runs without `[s, s + n)`. -/
def cutFree (free : List (Nat × Nat)) (s n : Nat) : List (Nat × Nat) :=
  free.flatMap fun r =>
    if r.1 ≤ s ∧ s + n ≤ r.1 + r.2 then
      (if r.1 < s then [(r.1, s - r.1)] else []) ++ (if s + n < r.1 + r.2 then [(s + n, r.1 + r.2 - (s + n))] else [])
    else [r]
/-- The longest free run. -/
def longest (free : List (Nat × Nat)) : Option (Nat × Nat) :=
  free.foldl (fun b r => match b with
    | none => some r
    | some x => if x.2 < r.2 then some r else some x) none
/-- Pages are reserved in the fewest runs, one if one can hold them (R350). -/
def reserve : Nat → List (Nat × Nat) → Nat → Option (List (Nat × Nat) × List (Nat × Nat))
  | 0, _, _ => none
  | k + 1, free, n =>
    if n = 0 then some ([], free)
    else
      let hits := free.filterMap fun r => startIn r n
      match hits.find? (·.2), hits.head? with
      | some (s, _), _ => some (cutRun 512 s n, cutFree free s n)
      | none, some (s, _) => some (cutRun 512 s n, cutFree free s n)
      | none, none => match longest free with
        | none => none
        | some r => match reserve k (cutFree free r.1 r.2) (n - r.2) with
          | none => none
          | some (es, fr) => some (cutRun 512 r.1 r.2 ++ es, fr)

/-- The parts of runs that lie below an LPN. -/
def clipRuns (limit : Nat) (rs : List (Nat × Nat)) : List (Nat × Nat) :=
  rs.filterMap fun r => if r.1 < limit then some (r.1, min r.2 (limit - r.1)) else none
/-- Pages below an LPN are reserved; the runs that stay free keep their parts above it (R346, R350, R369). -/
def Half.allocate (x : Half) (limit n : Nat) : Option (List (Nat × Nat) × List (Nat × Nat)) :=
  (reserve 2051 (clipRuns limit x.freeExt) n).map fun r => (r.1, r.1.foldl (fun f e => cutFree f e.1 e.2) x.freeExt)
/-- Runs of 64 pages are reserved, `k` of them, each an extent of its own where one run can hold it (R351). -/
def Half.allocRuns (x : Half) (limit : Nat) : Nat → Option (List (Nat × Nat) × List (Nat × Nat))
  | 0 => some ([], x.freeExt)
  | k + 1 =>
    match x.allocate limit 64 with
    | none => none
    | some (es, free) => (Half.allocRuns { x with freeExt := free } limit k).map fun r => (es ++ r.1, r.2)

/-- A run goes back among the free runs, which stay in rising order and are joined where they touch. -/
def giveRun (r : Nat × Nat) : List (Nat × Nat) → List (Nat × Nat)
  | [] => [r]
  | f :: fs =>
    if r.1 + r.2 < f.1 then r :: f :: fs
    else if r.1 + r.2 = f.1 then (r.1, r.2 + f.2) :: fs
    else if f.1 + f.2 = r.1 then giveRun (f.1, f.2 + r.2) fs
    else f :: giveRun r fs

/-- The lowest object record that is not valid and may be reused (R348). -/
def Half.freeRecord (x : Half) : Nat → Nat → Option Nat
  | 0, _ => none
  | n + 1, i => match NMap.get? x.objs i with
    | none => some i
    | some o => if !o.valid && o.gen < 0xFFFFFFFF then some i else Half.freeRecord x n (i + 1)

/-- An object is created with its pages reserved in full; none if the free user pages cannot cover them, or if they lie in more than 2,051
extents. Nothing of it has been written (R348, R350). -/
def Dev.createObj (d : Dev) (h kind sid part pages : Nat) : Option (Nat × Dev) :=
  let x := d.half h
  if d.freePages h < pages then none
  else match x.freeRecord 8388608 0, x.allocate (d.userPages h) pages with
    | some i, some (es, free) =>
      if 2051 < es.length then none else
      let gen := ((NMap.get? x.objs i).map (·.gen)).getD 1
      let o : HObj :=
        { sid := sid
          gen := gen
          kind := kind
          valid := true
          complete := true
          partition := part
          pages := pages
          extents := es }
      some (mkHandle h kind gen i, ((d.setHalf h ({ x with freeExt := free }.putObj i o)).fixHstate h).admitAll)
    | _, _ => none

/-- A history grows by extents of 64 pages until it holds `pages` (R351). -/
def Dev.growObj (d : Dev) (handle pages : Nat) : Option Dev :=
  match d.obj handle with
  | none => none
  | some o =>
    let h := handleHalf handle
    let more := ceilDiv (pages - o.pages) 64 * 64
    if more = 0 then some d
    else
      let x := d.half h
      if d.histRoom h < more then none
      else match x.allocRuns (d.histLimit h) (more / 64) with
        | none => none
        | some (es, free) =>
          if 2051 < o.extents.length + es.length then none else
          let o : HObj := { o with pages := o.pages + more, extents := o.extents ++ es }
          some ((d.setHalf h ({ x with freeExt := free }.putObj (handleIndex handle) o)).fixHstate h)

/-- A history is created with room for pages, in extents of 64 (R351). -/
def Dev.createHist (d : Dev) (h kind sid part pages : Nat) : Option (Nat × Dev) :=
  (d.createObj h kind sid part 0).bind fun e => (e.2.growObj e.1 pages).map fun d => (e.1, d)

/-- The priority of the write queue of an object's bytes: that of the session for an image, CKP_CFG.PRIO for a shard (R331, R359,
R553). -/
def Dev.writePrio (d : Dev) (handle : Nat) : Nat :=
  match d.obj handle with
  | none => 0
  | some o =>
    if o.kind = 5 then d.g F.CKP_CFG_PRIO
    else match d.slotOf o.sid with
      | some slot => (d.sess slot).d.prio
      | none => 0
/-- Bytes are written at an offset of an object, in the write queue of a priority: every page that they touch is written whole
(R351, R356, R359). -/
def Dev.writeObjAt (d : Dev) (prio handle off : Nat) (bs : Bytes) : Dev :=
  match d.obj handle with
  | none => d
  | some o =>
    if bs.isEmpty then d
    else
      let h := handleHalf handle
      let data := padTo off o.data ++ bs ++ o.data.drop (off + bs.length)
      -- a page written whole can be read again
      let holes := o.holes.filter fun k =>
        !(decide (off ≤ 16384 * k) && decide (min o.length (16384 * (k + 1)) ≤ off + bs.length))
      let d := d.updObj handle fun o => { o with
        data := data
        complete := false
        damaged := o.damaged && (o.holes.isEmpty || !holes.isEmpty)
        holes := holes
        length := max o.length (off + bs.length) }
      let first := off / 16384
      let n := (off + bs.length - 1) / 16384 + 1 - first
      let hist := o.kind == 2 || o.kind == 4
      let pages := (List.range n).filterMap fun i =>
        (lpnAt o.extents (first + i)).map fun l => ({ lpn := l, index := handleIndex handle, history := hist, prio := prio } : HBuf)
      (d.updHalf h fun x => { x with queued := x.queued ++ pages }).admitAll
/-- Bytes are written at an offset of an object, in the write queue of the object's own priority. -/
def Dev.writeObj (d : Dev) (handle off : Nat) (bs : Bytes) : Dev := d.writeObjAt (d.writePrio handle) handle off bs

/-- A release takes effect: the LPNs are unmapped, bytes still queued or buffered are dropped, GEN advances (R349). -/
def Dev.releaseObj (d : Dev) (h i : Nat) : Dev :=
  let x := d.half h
  match NMap.get? x.objs i with
  | none => d
  | some o =>
    let mine (l : Nat) : Bool := l == extLpn i || o.extents.any fun e => e.1 ≤ l && l < e.1 + e.2
    let gone := x.map.filter fun e => mine e.1
    let x := gone.foldl (fun x e => x.touch e.1) x
    let x := { x with
      map := x.map.filter fun e => !mine e.1
      twins := NMap.del x.twins (extLpn i)
      buffer := x.buffer.filter fun b => b.lpn != extLpn i && (b.system || b.index != i)
      queued := x.queued.filter fun b => b.lpn != extLpn i && (b.system || b.index != i)
      freeExt := o.extents.foldl (fun f e => giveRun e f) x.freeExt }
    ((d.setHalf h (x.putObj i { gen := o.gen + 1 })).fixHstate h).admitAll

/-- The release of an object takes effect at the first moment at which no read is under way (row OBJECT_RELEASE); a
CLOSED session that waits for it is told (R103, R349). -/
def execObjectRelease (half index : Nat) : State → Host.Outcome State Fault Refusal :=
  onUnit (half < 2) fun _ d =>
    match NMap.get? (d.half half).objs index with
    | none => d
    | some o =>
      if o.valid && o.releasing && o.reads == 0 then
        let handle := mkHandle half o.kind o.gen index
        let d := d.releaseObj half index
        (NMap.keys d.ses.tab).foldl (fun d slot => d.confirm slot handle) d
      else d

end Sys2Proof.Machine
end

