-- ==== Sys2Proof/Machine/Nand.lean ====
section
/-! DEFINITION. The NAND of the hamper: streams and word lines, programs, the durable map and its roots, garbage collection, refresh and
retention, bad blocks and retired dies, temperature (R353 to R370). -/
namespace Sys2Proof.Machine
open Sys2Proof

/-! ## Programs (R354 to R356, R360) -/

/-- A page is programmed at the next page of a block: its tag, under the next sequence number, what it says, and what the cells take
(R354). -/
def Half.programCell (x : Half) (b now : Nat) (t : HTag) (page : NPage) (cell : HTag → Bytes) : Nat × Half :=
  let k := x.block b
  let t := { t with seq := x.seq }
  let ppa := b * blockPages + k.nextPage
  let k := { k with
    nextPage := k.nextPage + 1
    state := if k.nextPage + 1 = blockPages then .full else .opened
    filledAt := if k.nextPage + 1 = blockPages then now else k.filledAt }
  (ppa, { x.setBlock b k with
    tags := NMap.put x.tags ppa t
    cells := NMap.put x.cells ppa (cell t)
    pages := NMap.put x.pages ppa page
    seq := x.seq + 1
    nandPages := x.nandPages + 1 })
/-- A page of new data is programmed, encrypted under the present media key of its partition (R354, R506). -/
def Half.program (x : Half) (b now : Nat) (k : Media) (t : HTag) (page : NPage) (data : Bytes) : Nat × Half :=
  x.programCell b now { t with keyGen := k.gen t.partition } page fun t => k.cell t data
/-- The tag of a page of the buffer (R354). -/
def Half.tagOf (x : Half) (b : HBuf) : HTag :=
  let o := x.obj b.index
  if b.system then { lpn := b.lpn, kind := 6 }
  else { lpn := b.lpn, partition := o.partition, kind := o.kind, index := b.index, gen := o.gen }
/-- The bytes of a page of the buffer. -/
def Half.pageData (x : Half) (b : HBuf) : Bytes :=
  let o := x.obj b.index
  if b.system then x.systemData b.lpn else slice o.data (16384 * pageIn o.extents b.lpn) 16384
/-- A record as a page of records holds it: without what HBM alone keeps of the object, and of its extents from the fourth on only how
many they are (R348). -/
def HObj.record (o : HObj) : HObj :=
  { o with
    data := []
    holes := []
    reads := 0
    releasing := false
    extents := o.extents.take 3 ++ (o.extents.drop 3).map fun _ => (0, 0) }
/-- What a page of the buffer says (R348). -/
def Half.pageOfBuf (x : Half) (b : HBuf) : NPage :=
  if !b.system then .data (x.pageData b)
  else if b.lpn < 0xF0008000 then
    .records ((x.objs.filter fun e => recordLpn e.1 == b.lpn).map fun e => (e.1, e.2.record))
  else .extents ((x.obj (b.lpn - 0xF0008000)).extents.drop 3)

/-! ## Streams over the luns in turn (R360, R363; log entry 65) -/

/-- A block can take `n` pages of a stream: OPEN for it, or ERASED (R360). -/
def Half.takesPages (x : Half) (b n stream : Nat) : Bool :=
  let k := x.block b
  b < 256 * lunBlocks && !x.retired.contains (lunOf b) && k.nextPage + n ≤ blockPages &&
    (k.state == .erased || (k.state == .opened && k.stream == stream))
/-- A block may be opened next on its lun: ERASED blocks are opened lowest erase count first (R363; log entry 65). -/
def Half.opensLow (x : Half) (b : Nat) : Bool :=
  let k := x.block b
  k.state != .erased || k.erases == 0 || (x.freshIn (lunOf b) == 0 &&
    x.blocks.all fun e => lunOf e.1 != lunOf b || e.2.state != .erased || k.erases ≤ e.2.erases)
/-- A block is opened for a stream. -/
def Half.openFor (x : Half) (b stream : Nat) : Half :=
  let k := x.block b
  if k.state == .erased then x.setBlock b { k with state := .opened, stream := stream } else x
/-- A stream has written to a lun; its next turn begins after it (R360). -/
def Half.turned (x : Half) (stream lun : Nat) : Half := { x with turn := NMap.put x.turn stream lun }
/-- The lowest ERASED block without an erase of its own from `b` upward, among `n`. -/
def Half.lowestFresh (x : Half) : Nat → Nat → Option Nat
  | 0, _ => none
  | n + 1, b => if (x.block b).state = .erased ∧ (x.block b).erases = 0 then some b else Half.lowestFresh x n (b + 1)
/-- The block of a lun that takes `n` pages of a stream: the lowest OPEN one with room, else the lowest ERASED one of lowest erase count
(R360, R363). -/
def Half.pickOn (x : Half) (lun stream n : Nat) : Option Nat :=
  let mine := x.blocks.filter fun e => lunOf e.1 == lun
  match mine.find? fun e => e.2.state == .opened && x.takesPages e.1 n stream with
  | some e => some e.1
  | none => match (x.lowestFresh (mine.length + 6) (lun * lunBlocks)).filter (lunOf · == lun) with
    | some b => some b
    | none => ((mine.filter (·.2.state == .erased)).foldl (fun (best : Option (Nat × HBlock)) e => match best with
        | none => some e
        | some c => if e.2.erases < c.2.erases then some e else some c) none).map (·.1)
/-- The block for the next `n` pages of a stream: on the first live lun after the one written last that can take them, of another channel
than `avoid` (R360). -/
def Half.pick (x : Half) (stream n : Nat) (avoid : Option Nat) : Option Nat :=
  (List.range 256).findSome? fun i =>
    let lun := (NMap.getD x.turn stream 255 + 1 + i) % 256
    if x.retired.contains lun || avoid == some (lun / 16) then none else x.pickOn lun stream n
/-- A block lies on the lun whose turn it is (R360). -/
def Half.onTurn (x : Half) (stream n b : Nat) (avoid : Option Nat) : Bool := (x.pick stream n avoid).map lunOf == some (lunOf b)
/-- A block takes the next `n` pages of a stream: it has room, its lun has the turn, and no ERASED block goes before it (R360, R363). -/
def Half.takesNext (x : Half) (b n stream : Nat) : Bool := x.takesPages b n stream && x.opensLow b && x.onTurn stream n b none
/-- Two blocks take the next `n` pages of the SYSTEM stream each, on luns of different channels (R355, R360). -/
def Half.takesPair (x : Half) (b1 b2 n : Nat) : Bool :=
  b1 != b2 && lunOf b1 / 16 != lunOf b2 / 16 && x.takesNext b1 n 0 && x.takesPages b2 n 0 && x.opensLow b2 &&
    (x.turned 0 (lunOf b1)).onTurn 0 n b2 (some (lunOf b1 / 16))
/-- Stream of an object kind: 1 HISTORY, 2 DATA (R360). -/
def streamOf (kind : Nat) : Nat := if kind = 2 ∨ kind = 4 then 1 else if kind = 6 then 0 else 2

/-! ## Word lines (R345, R356) -/

/-- The word line of a PPA is complete: its three pages have been programmed. -/
def Half.lineDone (x : Half) (ppa : Nat) : Bool :=
  decide (ppa % blockPages / 3 * 3 + 3 ≤ (x.block (ppa / blockPages)).nextPage)
/-- Buffer pages are released once the last programs of their word lines have completed (R356). -/
def Half.releaseDone (x : Half) : Half := { x with buffer := x.buffer.filter fun b => b.done.isEmpty || !b.done.all x.lineDone }
/-- The buffer, with pages programmed at certain PPAs to be programmed again (R356, R367). -/
def Half.redoBuffer (x : Half) (lost : Nat → Bool) : List HBuf :=
  x.buffer.map fun q => if q.done.any lost then { q with done := [] } else q
/-- `n` pages fit the rest of a block's present word line. -/
def Half.fitsLine (x : Half) (b n : Nat) : Bool := (x.block b).nextPage % 3 + n ≤ 3
/-- The rest of the present word line of each open block of a stream is left unused, so that what it holds is whole (R356; log entry
82). -/
def Half.padStream (x : Half) (stream now : Nat) : Half :=
  { x with blocks := NMap.mapV x.blocks fun _ k =>
    let n := ceilDiv k.nextPage 3 * 3
    if k.state = .opened ∧ k.stream = stream ∧ n ≠ k.nextPage then
      { k with
        nextPage := n
        state := if n = blockPages then .full else .opened
        filledAt := if n = blockPages then now else k.filledAt }
    else k }
/-- A page of the buffer is programmed, a system page a second time in `twin`; the map names it, and it stays in the buffer until its
word lines are complete (R356, R360). -/
def Half.programBuf (x : Half) (block twin now : Nat) (k : Media) (b : HBuf) : Half :=
  let (ppa, x) := x.program block now k (x.tagOf b) (x.pageOfBuf b) (x.pageData b)
  let (done, x) := if b.system then
      let (p2, x) := x.program twin now k (x.tagOf b) (x.pageOfBuf b) (x.pageData b)
      ([ppa, p2], { x with twins := NMap.put x.twins b.lpn p2 })
    else ([ppa], x)
  ({ x with
    map := NMap.put x.map b.lpn ppa
    buffer := x.buffer.map fun (q : HBuf) => if q.lpn = b.lpn then { q with done := done } else q }).touch b.lpn
/-- A NAND program of buffered data completes: its pages are mapped, and buffer pages whose word lines are complete are released
(R356, R360). The event names the block and the LPNs that the word line took, and the block of the second copy, which the pages of
the SYSTEM stream have. -/
def execNandProgramDone (half : Nat) (blocks : NandBlocks) (lpns : List Nat) : State → Host.Outcome State Fault Refusal :=
  onUnit (half < 2) fun _ d =>
    let x := d.half half
    let n := lpns.length
    let bufs := lpns.filterMap fun l => x.buffer.find? fun b => b.lpn == l && b.done.isEmpty
    let kinds := bufs.map fun b => streamOf (x.tagOf b).kind
    let stream := kinds.head?.getD 2
    let room := if stream = 0 then x.takesPair blocks.first blocks.twin n && x.fitsLine blocks.twin n
      else x.takesNext blocks.first n stream
    let ok := 1 ≤ n && bufs.length == n && decide lpns.Nodup && kinds.all (· == stream) && x.thermal != 2 && room &&
      x.fitsLine blocks.first n && d.hready half
    if !ok then d
    else
      let x := if stream = 0 then x.openFor blocks.twin 0 else x
      let x := bufs.foldl (fun x b => x.programBuf blocks.first blocks.twin d.now (d.media half) b) (x.openFor blocks.first stream)
      (d.setHalf half (x.releaseDone.turned stream (lunOf (if stream = 0 then blocks.twin else blocks.first)))).admitAll

/-! ## The durable map: segments, directory, root (R353, R355; log entry 20) -/

/-- The bytes of a map segment: 4,096 entries of 4 bytes (R353, R355). -/
def Half.segData (x : Half) (seg : Nat) : Bytes :=
  (List.range 4096).flatMap fun i => leBytes 4 (NMap.getD x.map (4096 * seg + i) 0xFFFFFFFF)
/-- One of the two copies of something that is written twice. -/
def copyOf (c : Nat) (p : Nat × Nat) : Nat := if c = 0 then p.1 else p.2
/-- No page: the PPA of what is not mapped (R353). -/
def noPpa : Nat × Nat := (0xFFFFFFFF, 0xFFFFFFFF)
/-- The bytes of a copy of a directory page: the PPAs of 4,096 segments, of the same copy (R355). -/
def Half.dirData (x : Half) (i c : Nat) : Bytes :=
  (List.range 4096).flatMap fun k => leBytes 4 (copyOf c (NMap.getD x.segAt (4096 * i + k) noPpa))
/-- What a map segment says: its mapped entries (R353, R355). -/
def Half.segPage (x : Half) (seg : Nat) : NPage := .segment (x.map.filter fun e => e.1 / 4096 == seg)
/-- What a copy of a directory page says: the segments that have been written (R355). -/
def Half.dirPage (x : Half) (i c : Nat) : NPage :=
  .directory ((x.segAt.filter fun e => e.1 / 4096 == i).map fun e => (e.1, copyOf c e.2))
/-- The open blocks of a half. -/
def Half.openBlocks (x : Half) : List Nat := (x.blocks.filter (·.2.state == .opened)).map (·.1)
/-- What a root record says (R355). -/
def Half.rootPage (x : Half) : NPage := .root x.dirAt x.openBlocks
/-- The bytes of a root record: the PPAs of both copies of the directory pages, SEQ, the open blocks, and a CRC-32C (R355; log entry
20). -/
def Half.rootData (x : Half) : Bytes :=
  let open' := x.openBlocks
  let body := (List.range 256).flatMap (fun i =>
      let p := NMap.getD x.dirAt i noPpa
      leBytes 4 p.1 ++ leBytes 4 p.2) ++ leBytes 8 x.seq ++ leBytes 4 open'.length ++ open'.flatMap (leBytes 4)
  body ++ leBytes 4 (crc32c body)
/-- The tag of a map segment, or of a directory page, whose number follows those of the segments (R354; log entry 20). -/
def mapTag (n : Nat) : HTag := { lpn := n, kind := 0 }
/-- Tag number of a directory page. -/
def dirLpn (i : Nat) : Nat := 2 ^ 20 + i
/-- A segment has been written: its directory page is dirty (R355). -/
def Half.touchDir (x : Half) (seg : Nat) : Half :=
  { x with dirtyDir := if x.dirtyDir.contains (seg / 4096) then x.dirtyDir else x.dirtyDir ++ [seg / 4096] }
/-- Both copies of a page of the map are programmed in two given blocks of the SYSTEM stream: their PPAs (R355). -/
def Half.programTwice (x : Half) (b1 b2 now : Nat) (k : Media) (t : HTag) (page : Nat → NPage) (data : Nat → Bytes) :
    (Nat × Nat) × Half :=
  let (p1, x) := (x.openFor b1 0).program b1 now k t (page 0) (data 0)
  let (p2, x) := (x.openFor b2 0).program b2 now k t (page 1) (data 1)
  ((p1, p2), x.turned 0 (lunOf b2))
/-- The two blocks for the next page of the SYSTEM stream (R355, R360). -/
def Half.pickPair (x : Half) : Option (Nat × Nat) :=
  (x.pick 0 1 none).bind fun b1 => ((x.turned 0 (lunOf b1)).pick 0 1 (some (lunOf b1 / 16))).map fun b2 => (b1, b2)
/-- A dirty directory page is written twice, on luns of different channels; it stays dirty where no blocks can take it (R355). -/
def Half.writeDir (x : Half) (now : Nat) (k : Media) (i : Nat) : Half :=
  match x.pickPair with
  | none => x
  | some (b1, b2) =>
    let (p, x) := x.programTwice b1 b2 now k (mapTag (dirLpn i)) (x.dirPage i) (x.dirData i)
    { x with
      dirAt := NMap.put x.dirAt i p
      dirtyDir := x.dirtyDir.erase i }
/-- A plane of a half has a FLUSH block (R360). -/
def Half.hasFlush (x : Half) (plane : Nat) : Bool :=
  (x.block (2484 * plane + 2483)).state == .flush || x.blocks.any fun e => e.1 / 2484 == plane && e.2.state == .flush
/-- A plane of a live lun that has no FLUSH block takes one of its ERASED blocks, of the lowest erase count, as soon as it has one (R360,
R363, R375 step 4; log entry 20). -/
def Half.keepFlush (x : Half) (plane : Nat) : Half :=
  if x.retired.contains (plane / 4) || x.hasFlush plane then x
  else
    let mine := x.blocks.filter fun e => e.1 / 2484 == plane
    let fresh := (x.lowestFresh (mine.length + 4) (2484 * plane)).filter (· / 2484 == plane)
    let worn := ((mine.filter (·.2.state == .erased)).foldl (fun (best : Option (Nat × HBlock)) e => match best with
      | none => some e
      | some c => if e.2.erases < c.2.erases then some e else some c) none).map (·.1)
    match fresh.or worn with
    | none => x
    | some b => x.setBlock b { x.block b with state := .flush }
/-- A block is erased (R361, R363, R365). Buffer pages that it held in part are programmed again. -/
def Half.erase (x : Half) (b : Nat) : Half :=
  let k := x.block b
  { (x.setBlock b { state := .erased, erases := k.erases + 1 }).keepFlush (b / 2484) with
    tags := x.tags.filter fun e => e.1 / blockPages != b
    cells := x.cells.filter fun e => e.1 / blockPages != b
    pages := x.pages.filter fun e => e.1 / blockPages != b
    unread := x.unread.filter fun p => p / blockPages != b
    buffer := x.redoBuffer (· / blockPages == b)
    refreshQ := x.refreshQ.filter (· != b)
    retainQ := x.retainQ.filter (· != b) }
/-- A root record is appended to a root block, which is erased first when it is full; none where the block is BAD or its lun retired
(R355; log entry 20). -/
def Half.appendRoot (x : Half) (now : Nat) (k : Media) (page : NPage) (data : Bytes) (b : Nat) : Half :=
  if (x.block b).state = .bad ∨ x.retired.contains (lunOf b) then x
  else
    let x := if (x.block b).nextPage < blockPages then x else x.erase b
    let x := (x.program b now k { kind := 7 } page data).2
    x.setBlock b { x.block b with
      state := .opened
      stream := 4 }
/-- A root record is written to both root blocks, with the dirty directory pages twice each before it (R355). -/
def Half.writeRoot (x : Half) (now : Nat) (k : Media) : Half :=
  let x := x.dirtyDir.foldl (fun x i => x.writeDir now k i) x
  let page := x.rootPage
  let data := x.rootData
  let x := [0, 128 * lunBlocks].foldl (fun x b => x.appendRoot now k page data b) x
  { x.releaseDone with
    rootAt := now
    roots := x.roots + 1
    segsSinceRoot := 0 }
/-- A new root record is written after 64 MiB of segments or one second (R355). -/
def execRootWrite (half : Nat) : State → Host.Outcome State Fault Refusal :=
  onUnit (half < 2) fun _ d =>
    let x := d.half half
    if !d.hready half || x.thermal == 2 then d
    else
      let d := if 4096 ≤ x.segsSinceRoot then d else d.reach (x.rootAt + 1000000000)
      d.setHalf half (x.writeRoot d.now (d.media half))
/-- The oldest dirty segment is written twice, on luns of different channels; its directory page becomes dirty (R355). -/
def execMapSegmentWrite (half b1 b2 : Nat) : State → Host.Outcome State Fault Refusal :=
  onUnit (half < 2) fun _ d =>
    let x := d.half half
    match x.dirty with
    | [] => d
    | seg :: rest =>
      if d.hready half && x.thermal != 2 && x.takesPair b1 b2 1 then
        let (p, x) := x.programTwice b1 b2 d.now (d.media half) (mapTag seg) (fun _ => x.segPage seg) fun _ => x.segData seg
        (d.setHalf half ({ x with
          dirty := rest
          segAt := NMap.put x.segAt seg p
          segsSinceRoot := x.segsSinceRoot + 1
          hostPages := x.hostPages + 1 }.releaseDone.touchDir seg)).admitAll
      else d

/-! ## Relocation (R356, R361, R362, R507) -/

/-- A page is still in the buffer, in a word line that is not complete (R356). -/
def Half.inBuffer (x : Half) (ppa : Nat) : Bool := x.buffer.any fun b => b.done.contains ppa
/-- The PPAs in a block among the two copies of what is written twice, each with a number. -/
def copiesIn (b base : Nat) (m : NMap (Nat × Nat)) : List (Nat × Nat) :=
  m.flatMap fun e => ((if e.2.1 / blockPages = b then [e.2.1] else []) ++ (if e.2.2 / blockPages = b then [e.2.2] else [])).map fun p =>
    (base + e.1, p)
/-- Programmed pages of a block that are still named, can be read and are not in the buffer: those of the map, second copies of system pages, and
copies of segments and directory pages, each with its LPN or number (R355, R361, R362). -/
def Half.validOf (x : Half) (b : Nat) : List (Nat × Nat) :=
  ((x.map.filter (fun e => e.2 / blockPages == b) ++ x.twins.filter fun e => e.2 / blockPages == b).filter (fun e => !x.inBuffer e.2) ++
    copiesIn b 0 x.segAt ++ copiesIn b (dirLpn 0) x.dirAt).filter fun e => !x.unread.contains e.2
/-- One PPA of a pair takes the place of another. -/
def replacePpa (old new : Nat) (p : Nat × Nat) : Nat × Nat := (if p.1 = old then new else p.1, if p.2 = old then new else p.2)
/-- The page at a PPA has a copy elsewhere, which takes its place wherever it is still named (R362). -/
def Half.install (x : Half) (lpn kind old new : Nat) : Half :=
  if kind = 0 then
    if dirLpn 0 ≤ lpn then { x with dirAt := NMap.upd x.dirAt (lpn - dirLpn 0) (replacePpa old new) }
    else if NMap.has x.segAt lpn then ({ x with segAt := NMap.upd x.segAt lpn (replacePpa old new) }).touchDir lpn
    else x
  else if NMap.get? x.map lpn = some old then ({ x with map := NMap.put x.map lpn new }).touch lpn
  else if NMap.get? x.twins lpn = some old then { x with twins := NMap.put x.twins lpn new }
  else x
/-- A segment or directory page is to be written again as a pair (R355, R364). -/
def Half.redoMap (x : Half) (n : Nat) : Half :=
  if dirLpn 0 ≤ n then { x with dirtyDir := x.dirtyDir.filter (· != n - dirLpn 0) ++ [n - dirLpn 0] }
  else { x with dirty := n :: x.dirty.filter (· != n) }
/-- The copies of a segment or directory page are given up, and it is written again. -/
def Half.dropMap (x : Half) (n : Nat) : Half :=
  if dirLpn 0 ≤ n then { x with dirAt := NMap.del x.dirAt (n - dirLpn 0) }.redoMap n
  else { x with segAt := NMap.del x.segAt n }.redoMap n
/-- A valid page moves to a block of the GC stream: the one given while it takes pages, else the stream's next one; it stays where none can
take it. A page that the present media key of its partition does not open is discarded as invalid (R361, R362, R507). -/
def Half.movePage (x : Half) (dst now : Nat) (k : Media) (e : Nat × Nat) : Half :=
  let t := NMap.getD x.tags e.2 {}
  if !x.legible k e.2 then
    (if t.kind = 0 then x.dropMap t.lpn else ({ x with map := NMap.del x.map e.1 }).touch e.1)
  else match if x.takesPages dst 1 3 then some dst else x.pick 3 1 none with
    | none => x
    | some b =>
      let (ppa, x) := (x.openFor b 3).programCell b now t (NMap.getD x.pages e.2 (.data [])) fun t =>
        -- the same key and tweak give the same ciphertext; only the tag is written anew
        let cipher := (NMap.getD x.cells e.2 []).take 16384
        cipher ++ t.bytes cipher
      (x.turned 3 (lunOf b)).install e.1 t.kind e.2 ppa
/-- The valid pages of a block, which takes no more writes, are read and move to the GC stream, but for one that cannot be read; the copies
are whole before the block is given up (R356, R361, R362, R365). -/
def Half.relocate (x : Half) (b dst now : Nat) (k : Media) (bad : Option Nat) : Half :=
  let k' := x.block b
  let x := x.setBlock b { k' with
    state := if k'.state = .bad then .bad else .full
    reads := k'.reads + (x.validOf b).length }
  (((x.validOf b).filter fun e => bad != some e.2).foldl (fun x e => x.movePage dst now k e) x).padStream 3 now
/-- A block is erased unless valid pages are left in it. -/
def Half.eraseEmpty (x : Half) (b : Nat) : Half := if (x.validOf b).isEmpty then x.erase b else x

/-! ## Garbage collection and wear (R361 to R363) -/

/-- Nanoseconds since a block was filled (R361, R366). -/
def HBlock.age (k : HBlock) (now : Nat) : Nat := ((now : Int) - k.filledAt).toNat
/-- Weight of a FULL block as a victim, (1 − v) a / (1 + v), as a fraction (R361). -/
def Half.gcScore (x : Half) (b now : Nat) : Nat × Nat :=
  let v := (x.validOf b).length
  ((blockPages - v) * ((x.block b).age now / 1000000000), blockPages + v)
/-- One score is larger than another. -/
def scoreLt (a b : Nat × Nat) : Bool := a.1 * b.2 < b.1 * a.2
/-- FULL blocks of a lun. -/
def Half.fullIn (x : Half) (lun : Nat) : List Nat :=
  (x.blocks.filter fun e => lunOf e.1 == lun && e.2.state == .full).map (·.1)
/-- The victim of a lun: the FULL block of largest weight, the lower PPA on a tie (R361). -/
def Half.victim (x : Half) (lun now : Nat) : Option Nat :=
  (x.fullIn lun).foldl (fun best b => match best with
    | none => some b
    | some c => if scoreLt (x.gcScore c now) (x.gcScore b now) then some b else some c) none
/-- Blocks of a half. -/
def halfBlocks : Nat := 256 * lunBlocks
/-- The sum, the largest and the smallest of the erase counts of a half's blocks, their own beside those by SANITIZE (R363). -/
def Half.erasesOf (x : Half) : Nat × Nat × Nat :=
  let own := x.blocks.map fun e => e.2.erases
  (own.foldl (· + ·) 0, own.foldl max 0, if x.blocks.length < halfBlocks then 0 else own.foldl min (own.headD 0))
/-- Average, largest and smallest erase count of a half (R363). -/
def Half.wear (x : Half) : Nat × Nat × Nat :=
  let e := x.erasesOf
  (x.eraseBase + e.1 / halfBlocks, x.eraseBase + e.2.1, x.eraseBase + e.2.2)
/-- WEAR_USED of a half: its average count divided by RATED_PE, in 0.01 % units (R363). -/
def Dev.wearUsed (d : Dev) (h : Nat) : Nat :=
  let x := d.half h
  10000 * (x.eraseBase * halfBlocks + x.erasesOf.1) / (halfBlocks * d.g F.HMP_WEAR_RATED_PE)
/-- The largest and the smallest erase count of a half differ by more than HMP_WEAR.DELTA (R363). -/
def Dev.wearApart (d : Dev) (x : Half) : Bool :=
  d.on F.HMP_CTL_WL_EN && decide (d.g F.HMP_WEAR_DELTA < x.wear.2.1 - x.wear.2.2)
/-- The FULL block of lowest erase count of a half, on a live lun (R363, R368). -/
def Half.coldest (x : Half) : Option Nat :=
  (x.blocks.filter fun e => e.2.state == .full && !x.retired.contains (lunOf e.1)).foldl (fun best e => match best with
    | none => some e.1
    | some c => if e.2.erases < (x.block c).erases then some e.1 else some c) none
/-- A block is the ERASED one of highest count on a live lun (R363, R368). -/
def Half.hottestErased (x : Half) (b : Nat) : Bool :=
  (x.block b).state == .erased && x.blocks.all fun e =>
    e.2.state != .erased || x.retired.contains (lunOf e.1) || e.2.erases ≤ (x.block b).erases
/-- A live lun has fewer ERASED blocks than a bound (R361, R368). -/
def Half.short (x : Half) (bound lun : Nat) : Bool := !x.retired.contains lun && decide (x.erasedIn lun < bound)
/-- Collection is due at a bound: the lun of the victim is short or, where wear levelling names the victim, any lun is (R361, R363). -/
def Half.gcDue (x : Half) (level : Bool) (bound lun : Nat) : Bool :=
  if level then (List.range 256).any (x.short bound) else x.short bound lun

/-- Urgent garbage collection runs on a lun of a half (R361). -/
def Dev.gcUrgent (d : Dev) : Bool :=
  d.halves.any fun e => (List.range 256).any (e.2.short (d.g F.HMP_GC_URGENT_BLK))
/-- HAMPER_GC begins or ends, announced to every partition (R479, R487). -/
def Dev.gcNotice (d : Dev) (begins : Bool) : Dev :=
  ({ d with iso := { d.iso with gcLoud := begins } }).postAll { typ := 0x34, args := [b2n begins] }
/-- Garbage collection relocates a victim's valid pages to the GC stream, from the block that the event names on, and erases it, at the pace
that the ERASED count of its lun sets (R361 to R363). -/
def execGarbageCollection (half victim dst : Nat) (more : Bool) : State → Host.Outcome State Fault Refusal :=
  onUnit (half < 2) fun _ d =>
    let x := d.half half
    let lun := lunOf victim
    let level := d.wearApart x
    let urgent := x.gcDue level (d.g F.HMP_GC_URGENT_BLK) lun
    let runs := urgent || (d.on F.HMP_CTL_GC_EN && x.gcDue level (d.g F.HMP_GC_START_BLK) lun)
    let right := if level then x.coldest == some victim && (x.hottestErased dst || (x.validOf victim).isEmpty)
      else x.victim lun d.now == some victim
    let room := (x.validOf victim).isEmpty || (victim != dst && (if level then x.takesPages dst 1 3 else x.takesNext dst 1 3))
    if d.hready half && runs && right && room && x.thermal != 2 then
      let d := if d.on F.ISO_MODE_MODE && urgent && more && !d.iso.gcLoud then d.gcNotice true else d
      let d := d.setHalf half ((x.relocate victim dst d.now (d.media half) none).eraseEmpty victim)
      if d.iso.gcLoud && !d.gcUrgent then d.gcNotice false else d
    else d

/-! ## Reads, refresh and retention (R365, R366) -/

/-- A block queued for refresh has its valid pages relocated and goes back into service. The event gives the page reads of the block that
the model does not see, and the most bits that one of them corrected in a codeword (R365, R366). A block of a retired lun, or a BAD one
whose pages had to wait, is evacuated and takes no more part (R367, R368, R370). -/
def execRefresh (half block dst reads bits : Nat) : State → Host.Outcome State Fault Refusal :=
  onUnit (half < 2) fun _ d =>
    let x := d.half half
    let n := (x.block block).reads + reads
    let worn := decide (d.readLimit ≤ n) || decide (d.g F.HMP_RD_ECC_THRESH < bits)
    let inUse := ((x.block block).state == .full || (x.block block).state == .opened) && !isRoot block &&
      !x.retired.contains (lunOf block)
    let evac := x.evacQ.contains block
    let due := x.refreshQ.contains block || x.retainQ.contains block || (worn && inUse) || evac
    let runs := d.on F.HMP_CTL_REFRESH_EN || decide (2 * d.readLimit ≤ n) || evac
    let room := (x.validOf block).isEmpty || (block != dst && x.takesNext dst 1 3)
    if d.hready half && due && runs && room && x.thermal != 2 then
      let byRead := !x.retainQ.contains block
      let x := x.relocate block dst d.now (d.media half) none
      d.setHalf half (
        if evac then { x with evacQ := x.evacQ.filter fun b => b != block || !(x.validOf b).isEmpty }
        else if byRead then { x.eraseEmpty block with rdRefresh := x.rdRefresh + 1 }
        else { x.eraseEmpty block with retRefresh := x.retRefresh + 1 })
    else d

/-- Time of the next retention scan (R366). -/
def Dev.scanPeriod (d : Dev) : Nat := d.g F.TIM_MAINT_RETAIN_H * 3600 * 1000000000

/-- The retention scan falls due: two sentinel pages of every FULL block are read. The event gives, for each FULL block, the most bits
corrected in a codeword of them, and the blocks whose sentinels failed hard decoding (R365, R366). A die that is retired takes no part
(R368). -/
def execRetentionScan (half : Nat) (bits : List (Nat × Nat)) (hard : List Nat) : State → Host.Outcome State Fault Refusal :=
  onUnit (half < 2) fun _ d =>
    match (d.half half).scanDue with
    | none => d
    | some t =>
      let d := d.reach t
      let x := d.half half
      let full := (x.blocks.filter fun e => e.2.state == .full && !x.retired.contains (lunOf e.1)).map (·.1)
      let old (b : Nat) : Bool := d.g F.HMP_RET_MAX_AGE_D * 86400 * 1000000000 < (x.block b).age d.now
      let worn (b : Nat) : Bool := hard.contains b || bits.any fun e => e.1 == b && d.g F.HMP_RET_RET_THRESH < e.2
      let add := full.filter fun b => (old b || worn b) && !x.retainQ.contains b && !x.refreshQ.contains b
      let ecc := full.filter fun b => bits.any (fun e => e.1 == b && d.g F.HMP_RD_ECC_THRESH < e.2) && !add.contains b &&
        !x.retainQ.contains b && !x.refreshQ.contains b
      let x := { x with
        retainQ := x.retainQ ++ add
        refreshQ := x.refreshQ ++ ecc
        scanDue := some (d.now + d.scanPeriod) }
      d.setHalf half (full.foldl (fun x b => x.readBlock d.readLimit b 2) x)

/-! ## Failures (R364, R367 to R369) -/

/-- The object that holds an LPN. -/
def Half.ownerOf (x : Half) (lpn : Nat) : Option (Nat × HObj) :=
  (x.objs.filter fun e => e.2.valid && e.2.extents.any fun r => r.1 ≤ lpn && lpn < r.1 + r.2).head?
/-- A page of an object stays uncorrectable: an IMAGE with a mirror, or a HISTORY, is asked of the buddy; any other object, or one without
a buddy, is marked DAMAGED (R364). -/
def Dev.losePage (d : Dev) (h : Nat) (t : HTag) : Dev :=
  let x := d.half h
  match x.ownerOf t.lpn with
  | none => d
  | some (i, o) =>
    let slot := d.slotOf o.sid
    let y := ((slot.map fun s => d.sess s).getD {}).d
    let o := { o with holes := o.holes ++ [pageIn o.extents t.lpn] }
    if slot.isSome && ((o.kind == 1 && y.mirrorValid) || o.kind == 2) && y.buddy != 0 && y.buddy != d.self then
      (d.setHalf h { x with
        objs := NMap.put x.objs i o
        repairs := x.repairs ++ [(t.lpn, NMap.getD x.map t.lpn 0)] }).toBuddy (slot.getD 0) 7 (o.kind + 2)
        (16384 * pageIn o.extents t.lpn) 16384 []
    else d.setHalf h (x.putObj i { o with damaged := true })
/-- A page stays uncorrectable after every attempt: it is counted, and what is named at it is repaired or lost; a system page is read from
its second copy and written again as a pair (R364, R368). -/
def Dev.unreadable (d : Dev) (h ppa : Nat) : Dev :=
  match NMap.get? (d.half h).tags ppa with
  | none => d
  | some t =>
    let x := d.half h
    let lun := lunOf (ppa / blockPages)
    let x := { x with
      uncorr := x.uncorr + 1
      unread := x.unread ++ [ppa]
      unc := NMap.put x.unc lun (NMap.getD x.unc lun [] ++ [d.now]) }
    let d := d.setHalf h x
    let named := NMap.get? x.map t.lpn == some ppa
    if t.kind = 0 then
      (if (copiesIn (ppa / blockPages) 0 x.segAt ++ copiesIn (ppa / blockPages) (dirLpn 0) x.dirAt).any (·.2 == ppa) then
        d.setHalf h (x.redoMap t.lpn)
      else d)
    else if t.kind = 6 then
      (if named || NMap.get? x.twins t.lpn == some ppa then (d.setHalf h (x.queueSystem t.lpn [])).admitAll else d)
    else if named && 1 ≤ t.kind && t.kind ≤ 5 && !x.inBuffer ppa then d.losePage h t
    else d

/-- A NAND die is retired: it takes no further writes, its FLUSH blocks leave the reserve, and its blocks with valid pages are queued for
evacuation; the pages of one that does not answer cannot be read (R364, R368). -/
def Dev.retireLun (d : Dev) (h lun : Nat) (dead : Bool) : Dev :=
  let x := d.half h
  if x.retired.contains lun then d
  else
    let held := ((x.blocks.filter fun e => lunOf e.1 == lun && (e.2.state == .full || e.2.state == .opened) && !isRoot e.1).map
      (·.1)).filter fun b => !(x.validOf b).isEmpty
    let stays (b : Nat) : Bool := lunOf b != lun
    let d := d.setHalf h { x with
      retired := x.retired ++ [lun]
      refreshQ := x.refreshQ.filter stays
      retainQ := x.retainQ.filter stays
      evacQ := if dead then x.evacQ else x.evacQ ++ held
      buffer := x.redoBuffer fun p => dead && lunOf (p / blockPages) == lun }
    let d := if dead then (held.flatMap fun b => x.validOf b).foldl (fun (d : Dev) e => d.unreadable h e.2) d else d
    (d.noteRetired 3 (h * 256 + lun)).checkSpare h
/-- A lun has reached its retirement limits (R368). -/
def Dev.lunWorn (d : Dev) (h lun : Nat) : Bool :=
  let x := d.half h
  let bad := NMap.cnt x.blocks fun b k => lunOf b == lun && k.state == .bad
  let unc := (NMap.getD x.unc lun []).filter fun t => d.now < t + 86400 * 1000000000
  d.g F.HMP_RETIRE_DIE_BAD ≤ bad || d.g F.HMP_RETIRE_DIE_UNC ≤ unc.length
/-- A block becomes BAD: its valid pages, but for one that cannot be read, move to the GC stream, from the block that the event names on,
or wait for it while programs are stopped; what is in the buffer is programmed elsewhere, and a FLUSH block has a successor. Its lun is
retired at its limits (R360, R367, R368, R370). -/
def Dev.markBad (d : Dev) (h b dst : Nat) (bad : Option Nat) : Dev :=
  let x := d.half h
  let x := if x.thermal ≠ 2 then x.relocate b dst d.now (d.media h) bad
    else if (x.validOf b).isEmpty then x
    else { x with evacQ := x.evacQ.filter (· != b) ++ [b] }
  let x := (x.setBlock b { x.block b with state := .bad }).keepFlush (b / 2484)
  let x := { x with
    buffer := x.redoBuffer (· / blockPages == b)
    refreshQ := x.refreshQ.filter (· != b)
    retainQ := x.retainQ.filter (· != b) }
  let d := (d.setHalf h x).checkSpare h
  if d.lunWorn h (lunOf b) then d.retireLun h (lunOf b) false else d
/-- A page stays uncorrectable, and its block becomes BAD (R364, R367). -/
def Dev.badPage (d : Dev) (h ppa dst : Nat) : Dev :=
  if NMap.has (d.half h).tags ppa then (d.unreadable h ppa).markBad h (ppa / blockPages) dst (some ppa) else d

/-- A page stays uncorrectable (R364). -/
def execUncorrectablePage (half ppa dst : Nat) : State → Host.Outcome State Fault Refusal :=
  onUnit (half < 2) fun _ d => d.badPage half ppa dst

/-- A NAND program fails: the block is BAD; the data is still in the buffer and is programmed elsewhere (R367). -/
def execProgramFailure (half block dst : Nat) : State → Host.Outcome State Fault Refusal :=
  onUnit (half < 2 && block < 256 * lunBlocks) fun _ d => d.markBad half block dst none

/-- A NAND erase fails: the block is BAD (R367). -/
def execEraseFailure (half block : Nat) : State → Host.Outcome State Fault Refusal :=
  onUnit (half < 2 && block < 256 * lunBlocks) fun _ d => d.markBad half block block none

/-! ## Temperature (R370) -/

/-- Thermal limit of a half by its hottest package: a limit lifts 5 °C below its threshold (R370). -/
def Dev.thermalOf (d : Dev) (now hot : Nat) : Nat :=
  let warn := d.g F.HMP_THERM_WARN_C
  let stop := d.g F.HMP_THERM_STOP_C
  if stop ≤ hot then 2
  else if now = 2 ∧ stop < hot + 5 then 2
  else if warn ≤ hot then 1
  else if 1 ≤ now ∧ warn < hot + 5 then 1
  else 0

/-- A package of a half is sampled: the limit of the half may change, which every partition is told (R370). -/
def execHamperThermal (half pkg temp : Nat) : State → Host.Outcome State Fault Refusal :=
  onUnit (half < 2 && pkg < 32) fun _ d =>
    let x := d.half half
    let temps := NMap.put x.temps pkg temp
    let hot := (NMap.vals temps).foldl max 0
    let lim := d.thermalOf x.thermal hot
    let d := d.setHalf half { x with
      temps := temps
      maxTemp := max x.maxTemp temp
      thermal := lim }
    if lim = x.thermal then d
    else d.postAll { typ := 0x33, args := [half, lim] }

end Sys2Proof.Machine
end

