-- ==== Sys2Proof/Machine/Iso.lean ====
section
/-! DEFINITION. Partitions, shaping nodes, isolation modes and arbitration frames (chapter 16). -/
namespace Sys2Proof.Machine
open Sys2Proof

/-! ## Limits and uses (R464 to R466, R490) -/

/-- The limits that PART_CREATE gives in the five words ISO_PART to ISO_PART_LIM2 (R490, R524). -/
def limitsOf (w0 w1 w2 w3 w4 : Nat) : Limits :=
  { prioMax := bits w0 2 3
    slots := bits w0 5 7
    lend := bitOf w0 12
    borrow := bitOf w0 13
    eq := bits w0 16 16
    idleExpire := bits w0 32 32
    engW := bits w1 0 6
    engE := bits w1 8 6
    unitsW := bits w2 0 32
    unitsE := bits w2 32 32
    sessions := bits w3 0 23
    contexts := bits w3 23 19
    batch := bits w3 42 16
    grammars := bits w4 0 11
    indexes := bits w4 11 16
    ptBlocks := bits w4 27 24 }
/-- Page units of a die (R466). -/
def Dev.dieUnits (d : Dev) (die : Nat) : Nat := d.pageBins die * 4096
/-- Every limit lies in its range (R466). -/
def Dev.limitsOk (d : Dev) (p : Nat) (l : Limits) : Bool :=
  l.prioMax ≤ 6 && l.sessions ≤ 4194304 && l.contexts ≤ 262144 && l.batch ≤ 28672 && l.unitsW ≤ d.dieUnits 0 &&
    l.unitsE ≤ d.dieUnits 1 && l.grammars ≤ 1024 && l.slots ≤ 64 && l.engW ≤ 32 && l.engE ≤ 32 &&
    l.eq < d.gf F.CMD_LIMITS_EQS_MAX p 0
/-- Limits take effect (R465). -/
def Dev.setLimits (d : Dev) (p : Nat) (l : Limits) : Dev :=
  let d := (((d.si F.ISO_PART_PRIO_MAX p l.prioMax).si F.ISO_PART_SLOTS p l.slots).si F.ISO_PART_LEND p (b2n l.lend)).si
    F.ISO_PART_BORROW p (b2n l.borrow)
  let d := ((d.si F.ISO_PART_EQ p l.eq).si F.ISO_PART_IDLE_EXPIRE_S p l.idleExpire).si F.ISO_PART_ENG_ENG_W p l.engW
  let d := ((d.si F.ISO_PART_ENG_ENG_E p l.engE).si F.ISO_PART_PAGES_UNITS_W p l.unitsW).si F.ISO_PART_PAGES_UNITS_E p l.unitsE
  let d := ((d.si F.ISO_PART_LIM_SESSIONS p l.sessions).si F.ISO_PART_LIM_CONTEXTS p l.contexts).si F.ISO_PART_LIM_BATCH p l.batch
  ((d.si F.ISO_PART_LIM2_GRAMMARS p l.grammars).si F.ISO_PART_LIM2_INDEXES p l.indexes).si F.ISO_PART_LIM2_PT_BLOCKS p l.ptBlocks

/-- Sessions of a partition in every tier except GONE (R466, R490). -/
def Dev.useSessions (d : Dev) (p : Nat) : Nat :=
  NMap.cnt d.ses.tab fun _ x => x.d.partition == p && x.d.tier != .gone
/-- Contexts of a partition's sessions. -/
def Dev.useContexts (d : Dev) (p : Nat) : Nat :=
  NMap.cnt d.ses.ctxs fun _ c => (d.sess c.slot).d.partition == p
/-- Batch slots that a partition holds. -/
def Dev.useBatch (d : Dev) (p : Nat) : Nat :=
  NMap.cnt d.ses.ctxs fun _ c => c.batchSlot.isSome && (d.sess c.slot).d.partition == p
/-- Units that a partition's sessions hold on a die, reserved frames included. -/
def Dev.useUnits (d : Dev) (p die : Nat) : Nat :=
  d.pgs.frames.foldl (fun a e =>
    if e.2.partition = p ∧ pageDie e.1 = die ∧ e.2.fstate ≠ 3 then a + classUnits e.2.cls else a) 0
/-- Pool blocks that a partition's sessions hold on a die. -/
def Dev.useBlocks (d : Dev) (p die : Nat) : Nat :=
  d.ses.tab.foldl (fun a e => if slotDie e.1 = die ∧ e.2.d.partition = p then a + d.blocksOf e.2 else a) 0
/-- Grammars that a partition owns. -/
def Dev.useGrammars (d : Dev) (p : Nat) : Nat := NMap.cnt d.tok.grams fun _ g => g.partition == p
/-- Search indexes that a partition owns. -/
def Dev.useIndexes (d : Dev) (p : Nat) : Nat := NMap.cnt d.sft.idx fun _ x => x.partition == p
/-- A tenant has reached a limit; partition 0 has the device's capacities (R466, R490). -/
def overLimit (p use more limit : Nat) : Bool := p != 0 && decide (limit < use + more)
/-- Pins that a partition's sessions hold on a die (R82, R481). -/
def Dev.pinsOf (d : Dev) (p die : Nat) : Nat :=
  NMap.cnt d.ses.ctxs fun _ c => c.batchSlot.isSome && slotDie c.slot == die && (d.sess c.slot).d.partition == p
/-- What is left to partition 0 of a capacity: in STRICT the tenants' amounts are reserved to them (R481, R490). -/
def Dev.leftOver (d : Dev) (cap : Nat) (f : Limits → Nat) : Nat :=
  if d.strict then cap - (d.tenants.map fun p => f (d.limits p)).foldl (· + ·) 0 else cap
/-- A use by partition 0 would reach into what STRICT reserves to tenants (R481). -/
def Dev.overReserve (d : Dev) (p use more cap : Nat) (f : Limits → Nat) : Bool :=
  d.strict && p == 0 && decide (d.leftOver cap f < use + more)

/-! ## Shaping nodes (R469, R470, R472, R475) -/

/-- Indices of a node kind: subscribers, services, ports (R32). -/
def nodeCount (kind : Nat) : Nat := if kind = 0 then 65536 else if kind = 1 then 4096 else 64
/-- Key of a node. -/
def nodeKey (kind i : Nat) : Nat := kind * 65536 + i
/-- A node; node 0 of each kind is valid and unshaped (R469). -/
def Dev.node (d : Dev) (kind i : Nat) : SNodeShape :=
  match NMap.get? d.iso.nodes (nodeKey kind i) with
  | some x => x
  | none => { valid := i = 0, partMask := if i = 0 then 1 else 0 }
/-- The nodes with one changed. -/
def Dev.setNode (d : Dev) (kind i : Nat) (x : SNodeShape) : Dev :=
  { d with iso := { d.iso with nodes := NMap.put d.iso.nodes (nodeKey kind i) x } }
/-- A node refilled to the present time, the remainder carried (R472). -/
def SNodeShape.refill (x : SNodeShape) (now : Nat) : SNodeShape :=
  let t := x.frac + x.rate * (now - x.refilledAt)
  let lvl := x.level + (t / 1000000000 : Nat)
  { x with
    level := min (x.burst : Int) lvl
    frac := t % 1000000000
    refilledAt := now }
/-- A node refilled, in the block. -/
def Dev.refillNode (d : Dev) (kind i : Nat) : Dev :=
  if (d.node kind i).shape then d.setNode kind i ((d.node kind i).refill d.now) else d
/-- The node index of a session for a kind (R469). -/
def nodeOf (x : Desc) (kind : Nat) : Nat := if kind = 0 then x.subscriber else if kind = 1 then x.service else x.port
/-- Live sessions that name a node. -/
def Dev.nodeUsers (d : Dev) (kind i : Nat) : List Session :=
  (d.ses.tab.filter fun e => nodeOf e.2.d kind == i && e.2.d.tier != .gone).map (·.2)

/-- The nodes that SESSION_OPEN names may be named by the partition (R469). -/
def Dev.nodesOk (d : Dev) (p sub srv port : Nat) : Bool :=
  let s := d.node 0 sub
  let v := d.node 1 srv
  let t := d.node 2 port
  s.valid && v.valid && t.valid && s.owner == p && bitOf v.partMask p && bitOf t.partMask p &&
    (p == 0 || (sub != 0 && srv != 0 && port != 0))

/-- A SHAPER_SET takes effect on its node (R470, R475). -/
def Dev.applyShaper (d : Dev) (x : ShaperSet) : Dev :=
  let n := d.node x.kind x.index
  let o := if n.shape then n.refill d.now else n
  let recfg := o.shape != x.shape || o.rate != x.rate || o.burst != x.burst || (x.kind == 0 && o.owner != x.owner) ||
    (x.kind != 0 && o.partMask != x.partMask)
  let level : Int :=
    if !recfg then o.level
    else if x.levelMode = 1 then min o.level (x.burst : Int)
    else if d.g F.SHP_RESET_POLICY_POLICY = 0 then (x.burst : Int) else 0
  let budget : Int := if x.budgetOp = 1 then x.budget else if x.budgetOp = 2 then
      max (-(2 : Int) ^ 63) (min ((2 : Int) ^ 63 - 1) (o.budget + x.budget)) else o.budget
  d.setNode x.kind x.index
    { valid := x.valid
      shape := x.shape
      rate := x.rate
      burst := x.burst
      level := level
      frac := o.frac
      refilledAt := d.now
      owner := if x.kind = 0 then x.owner else 0
      budgetOn := x.kind == 0 && x.budgetOn
      budget := if x.kind = 0 then budget else 0
      partMask := if x.kind = 0 then 0 else x.partMask
      promptW := if x.kind = 1 then x.promptW else 0
      rebuildW := if x.kind = 1 then x.rebuildW else 0
      overhead := if x.kind = 1 then x.overhead else 0 }

/-- Limits and node fields that wait take effect at step 0 of a boundary (R465, R475). -/
def Dev.applyIso (d : Dev) : Dev :=
  let d := d.iso.pendLimits.foldl (fun d e => if d.active e.1 then d.setLimits e.1 e.2 else d) d
  let d := d.iso.pendSets.foldl (fun d x => d.applyShaper x) d
  { d with iso := { d.iso with pendLimits := [], pendSets := [] } }

/-! ## STRICT isolation (R477 to R483) -/

/-- Units of a save set (R277). -/
def saveUnits : Nat := 33792
/-- Live attention engines of a die. -/
def Dev.liveEngines (d : Dev) (die : Nat) : List Nat :=
  ((List.range 32).map (· + 32 * die)).filter fun e => !bitOf (d.g F.ATT_RETIRED_MASK) e
/-- The limits that a partition will have once those that wait take effect (R465). -/
def Dev.limitsNext (d : Dev) (p : Nat) : Limits := NMap.getD d.iso.pendLimits p (d.limits p)
/-- The sum of a limit over tenants that have the limits `lim`, with one partition's limits replaced. -/
def Dev.sumLimits (d : Dev) (lim : Nat → Limits) (p : Nat) (l : Option Limits) (f : Limits → Nat) : Nat :=
  let others := d.tenants.filter (· != p)
  (others.map fun q => f (lim q)).foldl (· + ·) 0 +
    (match l with
     | some l => f l
     | none => if d.tenants.contains p then f (lim p) else 0)
/-- The limits `lim` allow STRICT (R477), with the limits of one partition replaced. -/
def Dev.strictSums (d : Dev) (lim : Nat → Limits) (p : Nat) (l : Option Limits) : Bool :=
  let sum := d.sumLimits lim p l
  sum (·.slots) ≤ 63 && sum (·.engW) ≤ (d.liveEngines 0).length && sum (·.engE) ≤ (d.liveEngines 1).length &&
    sum (·.unitsW) + 7 * saveUnits ≤ d.dieUnits 0 && sum (·.unitsE) + 7 * saveUnits ≤ d.dieUnits 1 &&
    sum (·.batch) ≤ 28672 && sum (·.ptBlocks) ≤ d.gi F.PGS_PTPOOL_BLOCKS 0 && sum (·.ptBlocks) ≤ d.gi F.PGS_PTPOOL_BLOCKS 1
/-- The limits allow STRICT (R477), with those of one partition replaced: once every change that waits has taken effect, and before it,
unless the replacement waits with them (R465). -/
def Dev.strictLimits (d : Dev) (p : Nat) (l : Option Limits) : Bool :=
  d.strictSums d.limitsNext p l && ((d.tenants.contains p && !d.noGroupRuns) || d.strictSums d.limits p l)
/-- Bits set in a mask. -/
def popcount (n w : Nat) : Nat := ((List.range w).filter fun i => bitOf n i).length
/-- No shaped service or port may be named by two partitions, now or by a change that waits (R475, R477). -/
def Dev.strictNodes (d : Dev) : Bool :=
  (d.iso.nodes.all fun e => e.1 < 65536 || !e.2.shape || popcount e.2.partMask 32 ≤ 1) &&
    d.iso.pendSets.all fun x => x.kind == 0 || !x.shape || popcount x.partMask 32 ≤ 1
/-- Partitions with sessions admitted, held out or pushing in a group: those that hold a batch slot, or are in its row (R482). -/
def Dev.groupParts (d : Dev) (g : Nat) : List Nat :=
  (((d.ses.ctxs.filter fun e => e.2.group == g && e.2.batchSlot.isSome).map fun e => (d.sess e.2.slot).d.partition) ++
    ((d.ses.tab.filter fun e => e.2.d.group == g && e.2.inRow).map fun e => e.2.d.partition)).dedup
/-- The engines that STRICT deals: of each die the live ones in ascending number, ENG_p(d) of them to each tenant in ascending order; what is
left over belongs to partition 0 (R480). -/
def Dev.dealAll (d : Dev) : NMap Nat :=
  [0, 1].foldl (fun (m : NMap Nat) die =>
    (d.tenants.foldl (fun (a : NMap Nat × List Nat) p =>
      let n := if die = 0 then (d.limits p).engW else (d.limits p).engE
      ((a.2.take n).foldl (fun m e => NMap.put m e p) a.1, a.2.drop n)) (m, d.liveEngines die)).1) []
/-- A tenant's engines in the dealing of before that have been retired are replaced by engines left over, the lowest first, as far as there
are any (R480; the order among several tenants, and which engine is taken, are the model's, DESIGN CHOICE, log entry 81). -/
def Dev.dealAgain (d : Dev) : NMap Nat :=
  [0, 1].foldl (fun (m : NMap Nat) die =>
    d.tenants.foldl (fun (m : NMap Nat) p =>
      let n := if die = 0 then (d.limits p).engW else (d.limits p).engE
      let has := ((d.liveEngines die).filter fun e => NMap.get? m e == some p).length
      (((d.liveEngines die).filter fun e => !NMap.has m e).take (n - has)).foldl (fun m e => NMap.put m e p) m) m) d.iso.dealt
/-- The dealing of engines as a row boundary makes it: anew once STRICT has begun or the tenants' numbers have changed, else with the retired
ones replaced (R477, R480). -/
def Dev.redeal (d : Dev) : Dev :=
  let want := d.tenants.map fun p => (p, (d.limits p).engW, (d.limits p).engE)
  if !d.strict then { d with iso := { d.iso with dealt := [], dealtFor := none } }
  else if d.iso.dealtFor = some want then { d with iso := { d.iso with dealt := d.dealAgain } }
  else { d with iso := { d.iso with dealt := d.dealAll, dealtFor := some want } }
/-- STRICT_ACTIVE is set once every running group has passed a boundary since the switch and no group holds sessions of
two partitions (R477). -/
def Dev.checkStrict (d : Dev) : Dev :=
  if d.strict && !d.on F.ISO_MODE_STRICT_ACTIVE &&
      d.groups.all (fun e => d.phase e.1 == 0 || d.iso.passed.contains e.1) &&
      d.groups.all (fun e => (d.groupParts e.1).length ≤ 1) then
    d.s F.ISO_MODE_STRICT_ACTIVE 1
  else d

/-- One slot by smooth weighted round robin over (partition, weight, current), ascending: the winner, and the weights
after it (R478). -/
def swrrStep (xs : List (Nat × Nat × Int)) : Nat × List (Nat × Nat × Int) :=
  let total : Int := (xs.map fun x => (x.2.1 : Int)).foldl (· + ·) 0
  let ys := xs.map fun x => (x.1, x.2.1, x.2.2 + (x.2.1 : Int))
  let best := ys.foldl (fun b y => match b with
    | none => some y
    | some (z : Nat × Nat × Int) => if z.2.2 < y.2.2 then some y else some z) none
  match best with
  | none => (0, ys)
  | some w => (w.1, ys.map fun y => if y.1 = w.1 then (y.1, y.2.1, y.2.2 - total) else y)
/-- `n` slots by smooth weighted round robin. -/
def swrr : Nat → List (Nat × Nat × Int) → List Nat
  | 0, _ => []
  | n + 1, xs => let (w, ys) := swrrStep xs; w :: swrr n ys
/-- Owners of the 64 slots of a frame: unowned slots belong to partition 0 (R478). -/
def Dev.dealSlots (d : Dev) : List Nat :=
  let ts := d.tenants.map fun p => (p, d.gi F.ISO_PART_SLOTS p)
  let used := (ts.map (·.2)).foldl (· + ·) 0
  swrr 64 (((0, 64 - used) :: ts).map fun t => (t.1, t.2, (0 : Int)))

/-- The borrower after `last` among `ps`, in ascending order and around (R483). -/
def nextBorrower (ps : List Nat) (last : Nat) : Option Nat :=
  match ps.filter (fun p => last < p) with
  | p :: _ => some p
  | [] => ps.head?
/-- Idle slots of lenders go in turn to the borrowers (R483): the server of each slot, and the borrower last served. -/
def lend (lends quiet borrowers : List Nat) : List Nat → Nat → List Nat × Nat
  | [], last => ([], last)
  | q :: qs, last =>
    if lends.contains q && quiet.contains q then
      match nextBorrower (borrowers.filter (· != q)) last with
      | some p => let (r, l) := lend lends quiet borrowers qs p; (p :: r, l)
      | none => let (r, l) := lend lends quiet borrowers qs last; (q :: r, l)
    else let (r, l) := lend lends quiet borrowers qs last; (q :: r, l)

/-- An arbitration frame of a resource instance ends (R477, R478, R483): `quiet` had no request pending on it throughout
the frame, `wants` have one pending now. A switch of the arbiters takes effect, and each partition owns its SLOTS_p slots of the frame that
begins, as they stand; in SHARED, idle slots are lent. -/
def execFrameBoundary (res : Nat) (quiet wants : List Nat) : State → Host.Outcome State Fault Refusal :=
  onDev fun _ d =>
    let d := match d.iso.pendArb with
      | some (st, e) => { d with iso := { d.iso with
          pendArb := none
          arbStrict := st
          arbExp := e } }
      | none => d
    let d := { d with iso := { d.iso with slotOwner := d.dealSlots } }
    if d.iso.arbStrict then { d with iso := { d.iso with slotLent := NMap.put d.iso.slotLent res d.iso.slotOwner } }
    else
      let lends := (List.range 32).filter fun p => d.gi F.ISO_PART_LEND p == 1
      let borrowers := (List.range 32).filter fun p => d.gi F.ISO_PART_BORROW p == 1 && wants.contains p
      let (served, last) := lend lends quiet borrowers d.iso.slotOwner (NMap.getD d.iso.lastBorrower res 0)
      { d with iso := { d.iso with
        slotLent := NMap.put d.iso.slotLent res served
        lastBorrower := NMap.put d.iso.lastBorrower res last } }

/-! ## Queue pairs and objects of a partition (R467) -/

/-- Media key generations wrap from the last to 1 (R507). -/
def nextKeyGen (g : Nat) : Nat := if g = 0xFFFFFFFF then 1 else g + 1

/-- Listed bytes of the HBM within given ranges are zeroed (R509, R510). -/
def Dev.zero (d : Dev) (m : Memory) (inside : Nat → Bool) : Dev :=
  m.foldl (fun (d : Dev) (c : Host.Cell) => if inside c.1 then d.poke c.1 [0] else d) d
/-- HBM that a partition holds: its frames and its regions (R509). -/
def Dev.hbmOf (d : Dev) (p : Nat) : List (Nat × Nat × Nat) :=
  ((d.pgs.frames.filter fun e => e.2.partition == p).map fun e =>
    (p, d.frameAddr e.1, classBytes (NMap.getD d.pgs.bins (pageBin e.1) 0))) ++
  (d.hall.regions.filter fun e => e.2.partition == p).map fun e => (p, e.2.base, e.2.length)

/-- A partition is destroyed: its sessions close, its objects are released, its queue pairs enter ERROR, its subscriber
nodes become invalid, and its memory is scrubbed (R467, R507, R509). -/
def Dev.destroyPart (d : Dev) (p : Nat) : Dev :=
  let d := d.si F.ISO_PART_STATE p 2
  let slots := (d.ses.tab.filter fun e => e.2.d.partition == p && e.2.d.state != .closed).map (·.1)
  let held := d.hbmOf p
  let d := slots.foldl (fun d s => d.closeSession s) d
  let d := { d with tok := { d.tok with grams := d.tok.grams.filter fun e => e.2.partition != p } }
  let handles := (d.sft.idx.filter fun e => e.2.partition == p).map fun e => e.2.gen * 2 ^ 16 + e.1
  let d := handles.foldl (fun d h => d.dropIndex h) d
  let regs := (d.hall.regions.filter fun e => e.2.partition == p).map (·.1)
  let d := { d with iso := { d.iso with scrubs := d.iso.scrubs ++ held } }
  let d := regs.foldl (fun d r => d.dropRegion r) d
  let d := d.si F.SEC_MKGEN_GEN p (nextKeyGen (d.gi F.SEC_MKGEN_GEN p))
  let d := { d with halves := NMap.mapV d.halves fun _ x => { x with objs := NMap.mapV x.objs fun _ o =>
    if o.valid && o.partition == p then { o with releasing := true } else o } }
  let d := { d with prk := { d.prk with mirrors := d.prk.mirrors.filter fun e => e.2.partition != p } }
  let qps := (d.hall.qps.filter fun e => e.2.partition == p).map (·.1)
  let d := qps.foldl (fun d q => d.qpError q) d
  let d := { d with iso := { d.iso with
    nodes := d.iso.nodes.filter fun e => !(e.1 < 65536 && e.2.owner == p && e.1 != 0)
    destroying := d.iso.destroying ++ [p]
    pendLimits := NMap.del d.iso.pendLimits p } }
  (d.s F.SEC_SCRUB_BUSY 1).s F.SEC_SCRUB_MODE 3

/-- Every step of a teardown is complete: no session and no hamper object of the partition is left (R467). -/
def Dev.partGone (d : Dev) (p : Nat) : Bool :=
  !d.ses.tab.any (fun e => e.2.d.partition == p) && !d.halves.any fun e => e.2.objs.any fun o => o.2.valid && o.2.partition == p

/-- The on-chip entries with a partition's tag are no longer valid: its cache lines, and what staging still holds for it (R509). -/
def Dev.dropTags (d : Dev) (p : Nat) : Dev :=
  { d with
    ses := { d.ses with cache := NMap.mapV d.ses.cache fun _ ls => ls.filter (·.tag != p) }
    att := { d.att with
      work := d.att.work.filter (·.tag != p)
      emitQ := d.att.emitQ.filter (·.2.2.2.2.tag != p)
      pushes := d.att.pushes.map fun u => { u with waiting := u.waiting.filter (·.tag != p) } } }
/-- The ISO_PART fields of a partition return to their reset values (R467). -/
def Dev.clearPart (d : Dev) (p : Nat) : Dev :=
  [F.ISO_PART_STATE, F.ISO_PART_PRIO_MAX, F.ISO_PART_SLOTS, F.ISO_PART_LEND, F.ISO_PART_BORROW, F.ISO_PART_EQ,
   F.ISO_PART_IDLE_EXPIRE_S, F.ISO_PART_ENG_ENG_W, F.ISO_PART_ENG_ENG_E, F.ISO_PART_PAGES_UNITS_W,
   F.ISO_PART_PAGES_UNITS_E, F.ISO_PART_LIM_SESSIONS, F.ISO_PART_LIM_CONTEXTS, F.ISO_PART_LIM_BATCH,
   F.ISO_PART_LIM2_GRAMMARS, F.ISO_PART_LIM2_INDEXES, F.ISO_PART_LIM2_PT_BLOCKS, F.ISO_PART_USE_SESSIONS,
   F.ISO_PART_USE_BATCH, F.ISO_PART_USE_UNITS_K, F.ISO_PART_CNT_QUOTA, F.ISO_PART_CNT_THERMAL,
   F.ISO_PART_CNT_ISO_GROUP].foldl (fun d f => d.clr f 0 p) d

/-! ## Commands (R465, R467, R468, R475, R477) -/

/-- PART_CREATE (R465, R477). UPDATE on a FREE partition is not provided for; it is answered BAD_PARAM (log entry 22). -/
def Dev.partCreate (d : Dev) (p : Nat) (upd : Bool) (l : Limits) : Res :=
  if d.strict && !d.strictLimits p (some l) then d.res .badParam
  else
    let st := d.gi F.ISO_PART_STATE p
    if st = 0 then
      (if upd then d.res .badParam
       else
         let d := { d with iso := { d.iso with lastCmd := NMap.put d.iso.lastCmd p d.now } }
         ((d.setLimits p l).si F.ISO_PART_STATE p 1).res .ok)
    else if st = 1 ∧ upd then
      (if d.noGroupRuns then (d.setLimits p l).res .ok
       else ({ d with iso := { d.iso with pendLimits := NMap.put d.iso.pendLimits p l } }).res .ok)
    else d.res .busy

/-- PART_CREATE. -/
def execPartCreate (h : Hdr) (p : Nat) (upd : Bool) (w0 w1 w2 w3 w4 : Nat) : State → Host.Outcome State Fault Refusal :=
  onDev fun _ d =>
    let l := limitsOf w0 w1 w2 w3 w4
    d.command h 0x0601 (fromZero h) (1 ≤ p && p ≤ 31 && d.limitsOk p l) false fun d => d.needs [] fun d => d.partCreate p upd l

/-- PART_DESTROY (R467). -/
def execPartDestroy (h : Hdr) (p : Nat) : State → Host.Outcome State Fault Refusal :=
  onDev fun _ d =>
    d.command h 0x0602 (fromZero h) (1 ≤ p && p ≤ 31) false fun d => d.needs [] fun d =>
      if d.gi F.ISO_PART_STATE p = 0 then d.res .dup
      else if d.gi F.ISO_PART_STATE p = 2 then d.res .busy
      else (d.destroyPart p).res .ok

/-- Teardown and scrub of a partition complete: it becomes FREE (R467); the SCRUB engines run while the security block does
(R511). -/
def execPartDestroyed (p : Nat) : State → Host.Outcome State Fault Refusal :=
  onUnit (1 ≤ p && p < 32) fun m d =>
    if d.iso.destroying.contains p && d.partGone p && d.running F.SEC_CTL_EN then
      let d := d.zero m fun a => d.iso.scrubs.any fun r => r.1 == p && decide (r.2.1 ≤ a ∧ a < r.2.1 + r.2.2)
      let d := { d with iso := { d.iso with scrubs := d.iso.scrubs.filter fun r => r.1 != p } }
      let d := { d with iso := { d.iso with destroying := d.iso.destroying.filter (· != p) } }
      let d := (d.dropTags p).clearPart p
      let d := if d.iso.destroying.isEmpty ∧ d.sec.scrub.isNone then (d.s F.SEC_SCRUB_BUSY 0).s F.SEC_SCRUB_MODE 0 else d
      d.post0 { typ := 0x10, subject := p }
    else d

/-- A partition idle for IDLE_EXPIRE_S expires (R468). -/
def execPartitionExpiry (p : Nat) : State → Host.Outcome State Fault Refusal :=
  onUnit (1 ≤ p && p < 32) fun _ d =>
    let s := d.gi F.ISO_PART_IDLE_EXPIRE_S p
    if d.active p && s != 0 then
      let d := d.reach (NMap.getD d.iso.lastCmd p 0 + s * 1000000000)
      (d.destroyPart p).post0 { typ := 0x11, subject := p }
    else d

/-- SHAPER_SET's parameters lie in their ranges (R470, R475); node 0 stays valid and unshaped (R469). -/
def shaperOk (x : ShaperSet) : Bool :=
  x.kind ≤ 2 && x.index < nodeCount x.kind && x.levelMode ≤ 1 && x.budgetOp ≤ 2 && x.owner ≤ 31 && x.promptW ≤ 1024 &&
    x.rebuildW ≤ 1024 && 1 ≤ x.burst && x.burst < 2 ^ 40 && (x.index != 0 || (x.valid && !x.shape))

/-- SHAPER_SET's own rules (R475, R477). -/
def Dev.shaperSet (d : Dev) (x : ShaperSet) : Res :=
  let o := d.node x.kind x.index
  let users := d.nodeUsers x.kind x.index
  if d.strict && x.kind != 0 && x.shape && 1 < popcount x.partMask 32 then d.res .badParam
  else if x.kind = 0 ∧ !users.isEmpty ∧ (!x.valid || o.owner != x.owner) then d.res .busy
  else if x.kind ≠ 0 ∧ (users.any fun s => bitOf o.partMask s.d.partition && !bitOf x.partMask s.d.partition) then d.res .busy
  else if d.noGroupRuns then (d.applyShaper x).res .ok
  else ({ d with iso := { d.iso with pendSets := d.iso.pendSets ++ [x] } }).res .ok

/-- SHAPER_SET. -/
def execShaperSet (h : Hdr) (kind levelMode budgetOp owner index promptW rebuildW overhead rate partMask : Nat)
    (valid shape budgetOn : Bool) (burst budget : Nat) : State → Host.Outcome State Fault Refusal :=
  onDev fun _ d =>
    let x : ShaperSet :=
      { kind := kind
        index := index
        valid := valid
        shape := shape
        rate := rate
        burst := burst
        owner := owner
        budgetOn := budgetOn
        budget := signed 64 budget
        partMask := partMask
        promptW := promptW
        rebuildW := rebuildW
        overhead := overhead
        levelMode := levelMode
        budgetOp := budgetOp }
    d.command h 0x0603 (fromZero h) (shaperOk x) false fun d => d.needs [] fun d => d.shaperSet x

/-- ISO_MODE_SET (R477). -/
def execIsoModeSet (h : Hdr) (mode frameExp : Nat) : State → Host.Outcome State Fault Refusal :=
  onDev fun _ d =>
    d.command h 0x0604 (fromZero h) (mode ≤ 1 && 16 ≤ frameExp && frameExp ≤ 24) false fun d => d.needs [] fun d =>
      if d.g F.ISO_MODE_MODE = mode ∧ d.g F.ISO_MODE_FRAME_EXP = frameExp then d.res .dup
      else if mode = 1 ∧ !d.strict ∧ !(d.strictLimits 0 none && d.strictNodes) then d.res .badParam
      else
        let d := if d.g F.ISO_MODE_MODE = mode then d
          else (d.s F.ISO_MODE_MODE mode).s F.ISO_MODE_STRICT_ACTIVE 0
        let d := d.s F.ISO_MODE_FRAME_EXP frameExp
        let d := { d with iso := { d.iso with pendArb := some (mode == 1, frameExp), passed := [] } }
        d.checkStrict.res .ok

end Sys2Proof.Machine
end

