-- ==== Sys2Proof/Machine/Tokens.lean ====
section
/-! DEFINITION. Tokenizers, tokenizing, detokenized text, stop strings and token lists (R282 to R298, R626). -/
namespace Sys2Proof.Machine
open Sys2Proof

/-- No number occurs twice. -/
def distinct : List Nat → Bool
  | [] => true
  | x :: xs => !xs.contains x && distinct xs

/-! ## Tokenizer packages (R282 to R287) -/

/-- A token's record, of one that is not in the table an empty one. -/
def Tokenizer.tok (t : Tokenizer) (i : Nat) : TokenRec := t.tokens.getD i { special := true }

/-- Token record `i` of a package (R284). -/
def readToken (pkg : Bytes) (tokOfs poolOfs i : Nat) : Nat × Nat × TokenRec :=
  let w := leAt pkg (tokOfs + 8 * i) 8
  (bits w 0 32, bits w 32 8,
    { str := slice pkg (poolOfs + bits w 0 32) (bits w 32 8)
      special := bitOf w 40
      render := bitOf w 41 })
/-- Merge record `i` of a package (R285). -/
def readMerge (pkg : Bytes) (ofs i : Nat) : MergeRec :=
  let w := leAt pkg (ofs + 16 * i) 8
  { left := bits w 0 20
    right := bits w 20 20
    result := bits w 40 20
    used := bitOf w 60
    rank := leAt pkg (ofs + 16 * i + 8) 4 }

/-- Bytes that a tokenizer's tables occupy (R287). -/
def tkzSize (vocab poolLen log2 : Nat) : Nat := 1280 + 8 * vocab + poolLen + 16 * 2 ^ log2

/-- A package's header is in range and its tables lie within it (R283, R286). -/
def tkzHeaderOk (pkg : Bytes) : Bool :=
  let len := pkg.length
  let vocab := fieldAt pkg 8 0 21
  let split := fieldAt pkg 8 21 2
  let merges := fieldAt pkg 8 32 32
  let tokOfs := leAt pkg 0x10 4
  let poolOfs := leAt pkg 0x14 4
  let mergeOfs := leAt pkg 0x18 4
  let log2 := fieldAt pkg 0x18 32 5
  let byteOfs := leAt pkg 0x20 4
  let classOfs := leAt pkg 0x24 4
  let poolLen := leAt pkg 0x28 4
  128 ≤ len && leAt pkg 0 4 == 0x51544B4E && leAt pkg 4 2 == 1 && 256 ≤ vocab && vocab ≤ 1048576 && split ≤ 1 &&
    merges ≤ vocab - 256 && tokOfs % 64 == 0 && mergeOfs % 64 == 0 && 8 ≤ log2 && log2 ≤ 22 && leAt pkg 0x30 8 == len &&
    tokOfs + 8 * vocab ≤ len && poolOfs + poolLen ≤ len && mergeOfs + 16 * 2 ^ log2 ≤ len && byteOfs + 1024 ≤ len &&
    classOfs + 288 ≤ len

/-- The tables of a package. -/
def tkzOf (pkg : Bytes) : Tokenizer :=
  let vocab := fieldAt pkg 8 0 21
  let log2 := fieldAt pkg 0x18 32 5
  let classOfs := leAt pkg 0x24 4
  let split := fieldAt pkg 8 21 2 == 1
  { vocab := vocab
    classSplit := split
    tokens := (List.range vocab).map fun i => (readToken pkg (leAt pkg 0x10 4) (leAt pkg 0x14 4) i).2.2
    byteMap := (List.range 256).map fun b => leAt pkg (leAt pkg 0x20 4 + 4 * b) 4
    classes := if split then (slice pkg classOfs 256).map (·.toNat) else []
    cuts := if split then leAt pkg (classOfs + 256) 32 else 0
    mergeLog2 := log2
    mergeTab := (List.range (2 ^ log2)).map fun i => readMerge pkg (leAt pkg 0x18 4) i
    digest := Config.sha384 pkg
    size := tkzSize vocab (leAt pkg 0x28 4) log2 }

/-- The tables of a package are well formed (R284, R286). -/
def tkzTablesOk (pkg : Bytes) : Bool :=
  let t := tkzOf pkg
  let poolLen := leAt pkg 0x28 4
  let raw := (List.range t.vocab).map fun i => readToken pkg (leAt pkg 0x10 4) (leAt pkg 0x14 4) i
  let used := t.mergeTab.filter (·.used)
  raw.all (fun r => r.1 + r.2.1 ≤ poolLen && (r.2.1 != 0 || r.2.2.special)) &&
    (List.range 256).all (fun b =>
      let i := t.byteMap.getD b 0
      i < t.vocab && !(t.tok i).special && (t.tok i).str == [BitVec.ofNat 8 b]) &&
    used.all (fun m => m.left < t.vocab && m.right < t.vocab && m.result < t.vocab && !(t.tok m.left).special &&
      !(t.tok m.right).special && !(t.tok m.result).special &&
      (t.tok m.result).str == (t.tok m.left).str ++ (t.tok m.right).str) &&
    distinct (used.map fun m => m.rank) && distinct (used.map fun m => m.left + m.right * 2 ^ 20) &&
    2 * used.length ≤ 2 ^ t.mergeLog2

/-- Bytes of the vocabulary store in use (R287). -/
def Dev.storeUsed (d : Dev) : Nat := d.tok.tkz.foldl (fun a e => if e.2.onChip then a + e.2.size else a) 0
/-- Bytes of each die's grammar region in use (R287, R299). -/
def Dev.grmUsed (d : Dev) : Nat :=
  d.tok.tkz.foldl (fun a e => if e.2.onChip then a else a + e.2.size) 0 +
    d.tok.grams.foldl (fun a e => a + e.2.imageLen) 0
/-- Bytes of each die's grammar region that are free (R287, R319). -/
def Dev.grmFree (d : Dev) : Nat := d.g F.GRM_REGION_GIB * 2 ^ 30 - d.grmUsed
/-- Bytes of the vocabulary store (R287). -/
def storeBytes : Nat := 48 * 2 ^ 20

/-- The placement of a tokenizer: on chip, in the grammar regions, or none (R287). -/
def Dev.placeTkz (d : Dev) (t : Tokenizer) : Option Bool :=
  if t.vocab ≤ 262144 ∧ t.size ≤ storeBytes - d.storeUsed then some true
  else if t.size ≤ d.grmFree then some false
  else none

/-- The registers of a tokenizer slot (R318). -/
def Dev.showTkz (d : Dev) (i : Nat) : Dev :=
  match NMap.get? d.tok.tkz i with
  | some t => (((d.si F.TOK_TKZ_STATUS_VALID i 1).si F.TOK_TKZ_STATUS_VOCAB i t.vocab).si F.TOK_TKZ_STATUS_ON_CHIP i
      (b2n t.onChip)).si F.TOK_TKZ_ID_DIGEST i (leNat (t.digest.take 8))
  | none => (((d.si F.TOK_TKZ_STATUS_VALID i 0).si F.TOK_TKZ_STATUS_VOCAB i 0).si F.TOK_TKZ_STATUS_ON_CHIP i 0).si
      F.TOK_TKZ_ID_DIGEST i 0

/-- LOAD_TOKENIZER (R282, R286, R287). -/
def Dev.loadTokenizer (d : Dev) (slot : Nat) (pkg : Bytes) : Res :=
  if !tkzHeaderOk pkg || !tkzTablesOk pkg then d.res .badParam
  else
    let t := tkzOf pkg
    if slot ≠ 0xFF ∧ NMap.has d.tok.tkz slot then d.res .busy
    else match (if slot = 0xFF then NMap.freeFrom d.tok.tkz 64 0 else some slot), d.placeTkz t with
      | some i, some chip =>
        let d := { d with tok := { d.tok with tkz := NMap.put d.tok.tkz i { t with onChip := chip } } }
        { dev := d.showTkz i, small := i, result := t.digest }
      | _, _ => d.res .noSpace

/-- LOAD_TOKENIZER: the package as read from host memory, and its slot. -/
def execLoadTokenizer (h : Hdr) (slot : Nat) (pkg : Bytes) : State → Host.Outcome State Fault Refusal :=
  onDev fun _ d =>
    d.command h 0x0301 (fromZero h) (slot < 64 || slot == 0xFF) true fun d => d.needs [] fun d => d.loadTokenizer slot pkg

/-! ## Tokenizing (R288, R289) -/

/-- Text cut into pieces: after 4,096 bytes, and between bytes whose classes are marked (R288). Of a class byte above 15, to which R288
gives no meaning, the low four bits count (DESIGN CHOICE, log entry 2). -/
def Tokenizer.pieces (t : Tokenizer) : Bytes → Bytes → Nat → List Bytes
  | [], cur, _ => if cur.isEmpty then [] else [cur.reverse]
  | b :: bs, cur, n =>
    let ends := match cur with
      | [] => false
      | a :: _ => n == 4096 ||
          (t.classSplit && bitOf t.cuts (t.classes.getD a.toNat 0 % 16 * 16 + t.classes.getD b.toNat 0 % 16))
    if ends then cur.reverse :: Tokenizer.pieces t bs [b] 1 else Tokenizer.pieces t bs (b :: cur) (n + 1)

/-- Linear probing of the merge table from a bucket (R285). -/
def Tokenizer.probe (t : Tokenizer) (l r : Nat) : Nat → Nat → Option MergeRec
  | 0, _ => none
  | n + 1, i =>
    let m := t.mergeTab.getD (i % 2 ^ t.mergeLog2) {}
    if !m.used then none
    else if m.left = l ∧ m.right = r then some m
    else Tokenizer.probe t l r n (i + 1)
/-- The merge of a pair (R285). -/
def Tokenizer.merge (t : Tokenizer) (l r : Nat) : Option MergeRec :=
  t.probe l r (2 ^ t.mergeLog2) (crc32c (leBytes 8 (l + r * 2 ^ 20)) % 2 ^ t.mergeLog2)

/-- The leftmost pair of lowest rank: its index and merge (R289). -/
def Tokenizer.bestPair (t : Tokenizer) : List Nat → Nat → Option (Nat × MergeRec) → Option (Nat × MergeRec)
  | a :: b :: rest, i, best =>
    let best := match t.merge a b, best with
      | some m, none => some (i, m)
      | some m, some (j, k) => if m.rank < k.rank then some (i, m) else some (j, k)
      | none, x => x
    Tokenizer.bestPair t (b :: rest) (i + 1) best
  | _, _, best => best
/-- Pairs are merged, lowest rank first, until none merges (R289). -/
def Tokenizer.mergeAll (t : Tokenizer) : Nat → List Nat → List Nat
  | 0, xs => xs
  | n + 1, xs => match t.bestPair xs 0 none with
    | none => xs
    | some (i, m) => Tokenizer.mergeAll t n (xs.take i ++ [m.result] ++ xs.drop (i + 2))
/-- The tokens of a text (R288, R289). -/
def Tokenizer.encode (t : Tokenizer) (text : Bytes) : List Nat :=
  (t.pieces text [] 0).flatMap fun p => t.mergeAll p.length (p.map fun b => t.byteMap.getD b.toNat 0)

/-! ## Stop strings (R295 to R297) -/

/-- A packed set of strings, each a length byte and its bytes; none if a length is outside 1 to 128 or the lengths do not
add up to the whole (R295). -/
def unpackStops : Nat → Bytes → Option (List Bytes)
  | 0, bs => if bs.isEmpty then some [] else none
  | _ + 1, [] => none
  | n + 1, l :: bs =>
    if l.toNat = 0 ∨ 128 < l.toNat ∨ bs.length < l.toNat then none
    else (unpackStops n (bs.drop l.toNat)).map fun rest => bs.take l.toNat :: rest

/-- A string ends at the end of a byte stream. -/
def endsWith (stream str : Bytes) : Bool := stream.drop (stream.length - str.length) == str && str.length ≤ stream.length
/-- The smallest offset in a token's bytes at which a stop string ends, and the matcher's bytes after the token
(R296). -/
def stopScan (strs : List Bytes) : Bytes → Bytes → Nat → Option Nat × Bytes
  | tail, [], _ => (none, tail)
  | tail, b :: bs, i =>
    let tail := (tail ++ [b]).drop (tail.length + 1 - 128)
    match strs.any (endsWith tail) with
    | true => (some i, tail)
    | false => stopScan strs tail bs (i + 1)

/-- The text of a token: its bytes, none for a SPECIAL token without RENDER (R293). -/
def Tokenizer.text (t : Tokenizer) (i : Nat) : Bytes :=
  let r := t.tok i
  if r.special && !r.render then [] else r.str

/-- The tokenizer of a session. -/
def Dev.tkzOf (d : Dev) (slot : Nat) : Tokenizer := NMap.getD d.tok.tkz (d.sess slot).d.tokenizer {}

/-- Two sets of stop strings are identical: the same strings, in whatever order (R295). -/
def sameStops (a b : List Bytes) : Bool := a.all b.contains && b.all a.contains

/-- SET_STOPS (R295). -/
def Dev.setStops (d : Dev) (slot count : Nat) (data : Bytes) : Res :=
  match unpackStops count data with
  | none => d.res .badParam
  | some strs =>
    let x := (d.sess slot).d
    if 4096 < (strs.map (·.length)).foldl (· + ·) 0 then d.res .badParam
    else if x.state == .closed then d.res .badParam
    else if x.ctxValid || x.turnQueued then d.res .busy
    else
      let same := (d.tok.stops.find? fun e => sameStops e.2.strs strs).map (·.1)
      let i? := if strs.isEmpty then some 0
        else match same with
          | some i => some i
          | none => NMap.freeFrom d.tok.stops 16383 1
      match i? with
      | none => d.res .noSpace
      | some i =>
        let d := if i = 0 then d
          else
            let o : StopSet := NMap.getD d.tok.stops i { strs := strs }
            { d with tok := { d.tok with stops := NMap.put d.tok.stops i { o with count := o.count + 1 } } }
        let d := d.dropStops x.stopSet
        { dev := d.updDesc slot fun x => { x with stopSet := i }, small := i }

/-- SET_STOPS: the packed strings as read from host memory. -/
def execSetStops (h : Hdr) (sid count : Nat) (data : Bytes) : State → Host.Outcome State Fault Refusal :=
  onDev fun _ d =>
    d.command h 0x0304 (d.mayUse h.fn sid false) (count ≤ 64) true fun d => d.needs [] fun d =>
      d.onSession h sid fun slot d => d.setStops slot count data

/-! ## Detokenized text (R293 to R298) -/

/-- Visible bytes of a turn go to the host text buffer where they fit, then the count word (R294);
TEXT_OVF counts a turn once, whatever a rollback rewinds. -/
def Dev.writeText (d : Dev) (slot i : Nat) (from' : Nat) (vis : Bytes) : Dev :=
  let c := d.ctx i
  if c.textLen = 0 then d
  else
    let room := c.textLen - 8
    let fit := vis.take (room - from')
    let d := if fit.isEmpty then d else d.emit (.host c.fn (c.textAddr + 8 + from') fit)
    let d := if decide (room < from' + vis.length) && !c.textOvf then
        (d.updCtx i fun c => { c with textOvf := true }).cntP F.TOK_CNT1_TEXT_OVF (d.sess slot).d.partition 1 false
      else d
    d.emit (.host c.fn c.textAddr (leBytes 4 (from' + vis.length) ++ leBytes 4 (d.sess slot).d.turnId))

/-- A tokenizer that is not held whole on chip is read through the vocabulary cache: its hits and misses are free values, as the spec gives
the cache no organisation; with no such tokenizer nothing counts (R287, R317; log entry 2). -/
def Dev.vocabCache (d : Dev) (onChip : Bool) : Dev :=
  if onChip then d
  else
    let (h, d) := d.draw
    let (n, d) := d.draw
    (d.wrap F.TOK_CACHE_HIT h).wrap F.TOK_CACHE_MISS n
/-- A token's text is appended to the turn stream and matched against the stop set (R293, R296, R297). -/
def Dev.detok (d : Dev) (slot tok : Nat) : Dev :=
  match d.turnCtx slot with
  | none => d
  | some i =>
    let text := (d.tkzOf slot).text tok
    let strs := (NMap.getD d.tok.stops (d.sess slot).d.stopSet {}).strs
    let (hit, tail) := stopScan strs (NMap.getD d.tok.tails slot []) text 0
    let d := (d.wrap F.TOK_CNT0_DETOK 1).vocabCache (d.tkzOf slot).onChip
    let d := { d with tok := { d.tok with tails := NMap.put d.tok.tails slot tail } }
    let start := (d.ctx i).textBytes
    match hit with
    | none =>
      let d := d.updCtx i fun c => { c with textBytes := start + text.length }
      d.writeText slot i start text
    | some e =>
      let dropped := text.length - (e + 1)
      let d := (d.cntP F.TOK_CNT1_STOPS (d.sess slot).d.partition 1 false).latch i 0
      let d := d.updCtx i fun c => { c with
        textBytes := start + e + 1
        dropped := dropped
        stopMatch := dropped != 0
        cutOffset := if dropped = 0 then 0 else start + e + 1 }
      d.writeText slot i start (text.take (e + 1))

/-! ## Token lists (R291, R626) -/

/-- The entries of a discarded list are counted (R484, R626). -/
def Dev.strayList (d : Dev) (es : List TokEntry) : Dev :=
  es.foldl (fun d e => d.cntP F.TOK_CNT1_STRAY (d.partOf e.sid) 1 false) d

/-- A member's token list for a row is taken, held or discarded by its ROW (R291, R626). A list of more entries than the
part holds, or of a member that the group does not have, is no list (log entry 24). -/
def execTokenList (g member row : Nat) (entries : List (Nat × Nat)) : State → Host.Outcome State Fault Refusal :=
  onUnit (g < 64) fun _ d =>
    let c := d.row g
    let list : List TokEntry := entries.map fun e => { sid := e.1, token := e.2 }
    if d.gi F.TIM_GRP_SHAPE_MEMBERS g ≤ member ∨ d.gi F.TOK_GRP_IN_ENTRIES g < entries.length then d
    else if d.phase g = 0 ∨ d.phase g = 4 then d.strayList list
    else if row = c + 1 then d.updGroup g fun x => { x with heldTokens := NMap.put x.heldTokens member list }
    else if row = c ∧ d.phase g = 1 then d.updGroup g fun x => { x with tokens := NMap.put x.tokens member list }
    else d.strayList list

end Sys2Proof.Machine
end

