-- ==== Sys2Proof/Machine/Grammar.lean ====
section
/-! DEFINITION. Grammars: images, binding, allowed sets, masks, advance and dead ends (R299 to R316). -/
namespace Sys2Proof.Machine
open Sys2Proof

/-! ## Edges and stacks (R301 to R303) -/

/-- A state of a grammar. -/
def Grammar.state (g : Grammar) (i : Nat) : GState := g.states.getD i {}
/-- The edges of a state (R301). -/
def Grammar.edgesOf (g : Grammar) (i : Nat) : List GEdge := (g.edges.drop (g.state i).edgeIdx).take (g.state i).edgeCount
/-- An op list: operations and symbols; none if it is malformed (R302). -/
def Grammar.opList (g : Grammar) (i : Nat) : Option (List (Nat × Nat)) :=
  let n := leAt g.opsSec (4 * i) 4
  if n = 0 ∨ 8 < n ∨ g.opsSec.length < 4 * i + 4 + 4 * n then none
  else
    let ops := (List.range n).map fun k =>
      let w := leAt g.opsSec (4 * i + 4 + 4 * k) 4
      (bits w 30 2, bits w 0 22)
    if ops.all fun o => o.1 != 0 then some ops else none
/-- One operation on a stack, top first: none where it does not apply (R302, R303). -/
def stackOp (maxDepth op sym : Nat) (st : List Nat) : Option (List Nat) :=
  match op with
  | 1 => if st.length < maxDepth then some (sym :: st) else none
  | 2 => match st with
    | t :: rest => if t = sym then some rest else none
    | [] => none
  | 3 => match st with
    | _ :: rest => some rest
    | [] => none
  | _ => none
/-- Operations in order. -/
def stackOps (maxDepth : Nat) : List (Nat × Nat) → List Nat → Option (List Nat)
  | [], st => some st
  | (op, sym) :: os, st => match stackOp maxDepth op sym st with
    | some st => stackOps maxDepth os st
    | none => none
/-- The stack after an edge, if it applies (R302, R303). -/
def Grammar.apply (g : Grammar) (e : GEdge) (st : List Nat) : Option (List Nat) :=
  match e.kind with
  | 0 => some st
  | 1 => stackOp g.stackMax 1 e.arg st
  | 2 => stackOp g.stackMax 2 e.arg st
  | _ => match g.opList e.arg with
    | some ops => stackOps g.stackMax ops st
    | none => none
/-- The stack operations of an edge, in order (R302). -/
def Grammar.opsOf (g : Grammar) (e : GEdge) : List (Nat × Nat) :=
  match e.kind with
  | 0 => []
  | 1 => [(1, e.arg)]
  | 2 => [(2, e.arg)]
  | _ => (g.opList e.arg).getD []
/-- Stack cells that operations push into, from a depth on. -/
def pushedAt : List (Nat × Nat) → Nat → List Nat
  | [], _ => []
  | (1, _) :: os, n => n :: pushedAt os (n + 1)
  | _ :: os, n => pushedAt os (n - 1)
/-- The cells of the stack after operations, from a depth on. -/
def cellsAfter : List (Nat × Nat) → Nat → List Nat → List Nat
  | [], _, a => a
  | (1, sym) :: os, n, a => cellsAfter os (n + 1) (a.take n ++ sym :: a.drop (n + 1))
  | _ :: os, n, a => cellsAfter os (n - 1) a
/-- Tokens of a state's applicable edges, ascending (R303). -/
def Grammar.edgeTokens (g : Grammar) (i : Nat) (st : List Nat) : List Nat :=
  (((g.edgesOf i).filter fun e => (g.apply e st).isSome).map (·.token)).dedup

/-- Smallest of the three forms of a set of `n` tokens below `vocab`: form and body bytes (R308). -/
def maskForm (n vocab : Nat) : Nat × Nat :=
  let b := ceilDiv vocab 8
  let a := 4 * n
  let x := 4 * (vocab - n)
  if b ≤ a ∧ b ≤ x then (0, b) else if a ≤ x then (1, a) else (2, x)
/-- A bit map of a set, as a number. -/
def setNat (xs : List Nat) : Nat := xs.foldl (fun n t => setBit n t true) 0
/-- The body of a mask of a form (R308). -/
def maskBody (form vocab : Nat) (allowed : List Nat) : Bytes :=
  if form = 0 then leBytes (ceilDiv vocab 8) (setNat allowed)
  else if form = 1 then allowed.flatMap (leBytes 4)
  else ((List.range vocab).filter fun t => !allowed.contains t).flatMap (leBytes 4)
/-- Numbers in ascending order, each once. -/
def sortNat (xs : List Nat) : List Nat :=
  let put (x : Nat) (ys : List Nat) : List Nat :=
    if ys.contains x then ys else ys.filter (· < x) ++ [x] ++ ys.filter (x < ·)
  xs.foldl (fun ys x => put x ys) []
/-- The tokens that a body of a form allows, ascending; those from VOCAB upward too that a stored bit map or list names, so that no set of
edges equals it (R304, R308). -/
def maskTokens (form vocab : Nat) (body : Bytes) : List Nat :=
  let ids := (List.range (body.length / 4)).map fun i => leAt body (4 * i) 4
  if form = 0 then (List.range (max vocab (8 * body.length))).filter fun t => bitOf (leNat (slice body (t / 8) 1)) (t % 8)
  else if form = 1 then sortNat ids
  else (List.range vocab).filter fun t => !ids.contains t
/-- The stored mask of a state: form and tokens (R302); the index counts 64-byte units of the mask section (log entry
25). -/
def Grammar.storedMask (g : Grammar) (vocab i : Nat) : Option (Nat × List Nat) :=
  let ofs := 64 * (g.state i).maskIdx
  let form := fieldAt g.maskSec ofs 0 2
  let len := fieldAt g.maskSec ofs 32 32
  if g.maskSec.length < ofs + 8 + len ∨ 2 < form then none
  else some (form, maskTokens form vocab (slice g.maskSec (ofs + 8) len))

/-! ## Images (R300, R304, R310) -/

/-- State record `i` of an image (R301). -/
def readState (img : Bytes) (ofs i : Nat) : GState :=
  let w := leAt img (ofs + 16 * i) 8
  { accept := bitOf w 0
    precomp := bitOf w 1
    deadReach := bitOf w 2
    edgeCount := bits w 8 21
    edgeIdx := bits w 32 32
    maskIdx := leAt img (ofs + 16 * i + 8) 4 }
/-- Edge `i` of an image (R302). -/
def readEdge (img : Bytes) (ofs i : Nat) : GEdge :=
  let w := leAt img (ofs + 8 * i) 8
  { token := bits w 0 20
    next := bits w 20 20
    kind := bits w 40 2
    arg := bits w 42 22 }
/-- A grammar as its image gives it. -/
def grammarOf (img : Bytes) (part : Nat) : Grammar :=
  let n := fieldAt img 8 0 21
  let states := (List.range n).map fun i => readState img (leAt img 0x10 4) i
  let edges := states.foldl (fun a s => max a (s.edgeIdx + s.edgeCount)) 0
  { partition := part
    nstates := n
    start := fieldAt img 8 21 20
    stackMax := fieldAt img 8 41 13
    states := states
    edges := (List.range edges).map fun i => readEdge img (leAt img 0x14 4) i
    maskSec := (img.drop (64 * leAt img 0x18 4)).take (leAt img 0x28 8)
    opsSec := img.drop (leAt img 0x1C 4)
    deadReach := leAt img 0x20 4
    imageLen := leAt img 0x28 8
    tokDigest := slice img 0x30 48
    digest := Config.sha384 img }
/-- The header and sections of an image (R300, R304). -/
def grammarHeaderOk (img : Bytes) : Bool :=
  let g := grammarOf img 0
  128 ≤ img.length && leAt img 0 4 == 0x5147524D && leAt img 4 2 == 1 && 1 ≤ g.nstates && g.nstates ≤ 1048576 &&
    g.start < g.nstates && 1 ≤ g.stackMax && g.stackMax ≤ 4096 && g.imageLen == img.length &&
    leAt img 0x10 4 + 16 * g.nstates ≤ img.length && leAt img 0x14 4 + 8 * g.edges.length ≤ img.length &&
    64 * leAt img 0x18 4 ≤ img.length && leAt img 0x1C 4 ≤ img.length &&
    g.states.all fun s => s.edgeCount ≤ 1048576
/-- Edges of a state are sorted, and a token has several only if all of them are POP_IF or LIST (R302). -/
def edgesSorted : List GEdge → Bool
  | a :: b :: rest => (a.token < b.token || (a.token == b.token && 2 ≤ a.kind && 2 ≤ b.kind)) && edgesSorted (b :: rest)
  | _ => true
/-- Worst mask cost of a state in cc (R304, R310). -/
def Grammar.cost (g : Grammar) (vocab i : Nat) : Nat :=
  let es := g.edgesOf i
  let ops := es.foldl (fun a e => if e.kind = 3 then a + ((g.opList e.arg).map List.length).getD 0 else a) 0
  16 + ceilDiv es.length 16 + ceilDiv ops 4 + ceilDiv (ceilDiv vocab 8) 64
/-- The states, edges and stored masks of a grammar are well formed (R301, R302, R304). -/
def Grammar.bodyOk (g : Grammar) (vocab limit : Nat) : Bool :=
  (List.range g.nstates).all fun i =>
    let es := g.edgesOf i
    es.length == (g.state i).edgeCount && edgesSorted es &&
    es.all (fun e => e.token < vocab && e.next < g.nstates && (e.kind != 3 || (g.opList e.arg).isSome)) &&
    (!(g.state i).precomp || (es.all (fun e => e.kind ≤ 1) &&
      (g.storedMask vocab i).any fun m => m.2 == (es.map (·.token)).dedup)) &&
    g.cost vocab i ≤ limit

/-- The registers of a grammar slot (R320). -/
def Dev.showGrammar (d : Dev) (i : Nat) : Dev :=
  let g? := NMap.get? d.tok.grams i
  let g := g?.getD {}
  let bound := NMap.cnt d.ses.tab fun _ x => x.d.grammarBound && x.d.grammarId == i
  ((((d.si F.GRM_G_STATUS_VALID i (b2n g?.isSome)).si F.GRM_G_STATUS_PARTITION i g.partition).si F.GRM_G_STATUS_STATES i
    g.nstates).si F.GRM_G_STATUS_DEAD_REACH i (min g.deadReach 65535)).si F.GRM_G_STATUS_BOUND i (min bound 65535)
    |>.si F.GRM_G_ID_DIGEST i (leNat (g.digest.take 8))

/-! ## Binding (R299, R305, R466) -/

/-- Mask slots of a group that sessions hold. -/
def Dev.maskSlots (d : Dev) (g : Nat) : List Nat :=
  (d.tok.areas.filter fun e => (d.sess e.1).d.group == g).map fun e => e.2.maskSlot
/-- The lowest free mask slot of a group (R305, R320). -/
def Dev.freeMask (d : Dev) (g : Nat) : Option Nat :=
  (List.range (d.gi F.GRM_GRP_MASK_SLOTS g)).find? fun i => !(d.maskSlots g).contains i
/-- A session takes a mask slot and six contiguous pool blocks for its grammar area, which GRM_STATE names (R305, R466). -/
def Dev.takeArea (d : Dev) (slot : Nat) : Option Dev :=
  let x := d.sess slot
  if x.area then some d
  else match d.freeMask x.d.group with
    | none => none
    | some m =>
      let p := x.d.partition
      if overLimit p (d.useBlocks p (slotDie slot)) 6 (d.limits p).ptBlocks then none
      else match placeRuns (d.gi F.PGS_PTPOOL_BLOCKS (slotDie slot)) (d.poolRuns (slotDie slot)) [6] with
      | none => none
      | some bs =>
        let a := d.blockAddr (slotDie slot) (bs.headD 0)
        let g := NMap.getD d.tok.grams x.d.grammarId {}
        let d := d.updSess slot fun x => { x with
          area := true
          d := { x.d with grmState := a } }
        some { d with tok := { d.tok with areas := NMap.put d.tok.areas slot { state := g.start, maskSlot := m } } }

/-- The tests of a bind (R299, R305). -/
def Dev.bindCheck (d : Dev) (slot : Nat) (g : Grammar) : Status :=
  let x := (d.sess slot).d
  let vocab := (d.tkzOf slot).vocab
  let endTok := (NMap.getD d.att.profiles x.profile {}).endToken
  if x.state == .closed then .badParam
  else if (x.state != .open && x.state != .waiting) || x.turnQueued || x.ctxValid then .busy
  else if g.partition != 0 && g.partition != x.partition then .denied
  else if (d.tkzOf slot).digest != g.tokDigest then .badParam
  else if g.edges.any fun e => e.token == endTok then .badParam
  else if d.gi F.GRM_GRP_MASK_SLOT_KIB x.group * 1024 < ceilDiv (ceilDiv vocab 8) 64 * 64 then .badParam
  else .ok

/-- A grammar is bound to a session (R299, R305). -/
def Dev.bind (d : Dev) (slot i pol n : Nat) : Res :=
  match d.bindCheck slot (NMap.getD d.tok.grams i {}) with
  | .ok =>
    let old := d.sess slot
    match d.takeArea slot with
    | none => d.res .noSpace
    | some d =>
      let d := d.updDesc slot fun x => { x with
        grammarBound := true
        grammarId := i
        deadPolicy := pol
        rollbackN := n }
      let owner := (NMap.getD d.tok.grams old.d.grammarId {}).partition
      let d := if old.d.grammarBound && old.d.grammarId != i && owner != 0 &&
          !d.ses.tab.any (fun e => e.2.d.grammarBound && e.2.d.grammarId == old.d.grammarId) then
          { d with tok := { d.tok with grams := NMap.del d.tok.grams old.d.grammarId } }
        else d
      ((d.showGrammar old.d.grammarId).showGrammar i).res .ok
  | st => d.res st

/-- BIND_GRAMMAR (R299, R305). -/
def execBindGrammar (h : Hdr) (sid : Nat) (unbind : Bool) (grammar pol n : Nat) : State → Host.Outcome State Fault Refusal :=
  onDev fun _ d =>
    let ok := unbind || (pol ≤ 2 && 1 ≤ n && n ≤ 64 && grammar < 1024)
    d.command h 0x0303 (d.mayUse h.fn sid false) ok false fun d => d.needs [] fun d =>
      d.onSession h sid fun slot d =>
        let x := (d.sess slot).d
        if unbind then
          (if x.state == .closed then d.res .badParam
           else if (x.state != .open && x.state != .waiting) || x.turnQueued || x.ctxValid then d.res .busy
           else if !x.grammarBound then d.res .dup
           else ((d.unbindGrammar slot).showGrammar x.grammarId).res .ok)
        else if !NMap.has d.tok.grams grammar then d.res .badParam
        else d.bind slot grammar pol n

/-- The tests of an image before space is sought (R304): the vocabulary if all pass. -/
def Dev.grammarOk (d : Dev) (img : Bytes) : Bool :=
  grammarHeaderOk img &&
    (let g := grammarOf img 0
     match d.tok.tkz.find? fun e => e.2.digest == g.tokDigest with
     | none => false
     | some (_, t) =>
       g.bodyOk t.vocab (d.g F.GRM_CTL_MASK_LIMIT) &&
         ((g.state g.start).accept || !(g.edgeTokens g.start []).isEmpty) &&
         !(0 < g.deadReach && d.on F.GRM_CTL_REFUSE_DEAD))

/-- LOAD_GRAMMAR (R299, R304): an image resident for the same owner is taken again; a named session is bound, and one that is CLOSED is
BAD_PARAM before space is sought (R89). -/
def Dev.loadGrammar (d : Dev) (fn : Nat) (slot : Option Nat) (img : Bytes) (pol n : Nat) : Res :=
  if !d.grammarOk img || (match slot with
    | some s => (d.sess s).d.state == .closed
    | none => false) then d.res .badParam
  else
    let g := grammarOf img fn
    let same := (d.tok.grams.find? fun e => e.2.partition == fn && e.2.digest == g.digest).map (·.1)
    let at? := match same with
      | some i => some i
      | none =>
        if d.grmFree < g.imageLen ∨ overLimit fn (d.useGrammars fn) 1 (d.limits fn).grammars then none
        else NMap.freeFrom d.tok.grams 1024 0
    match at? with
    | none => d.res .noSpace
    | some i =>
      let d' := if same.isSome then d else { d with tok := { d.tok with grams := NMap.put d.tok.grams i g } }
      let out (d : Dev) : Res := { dev := d.showGrammar i, small := i, result := g.digest ++ leBytes 4 g.deadReach }
      match slot with
      | none => out d'
      | some s =>
        let r := d'.bind s i pol n
        if r.st = .ok then out r.dev else d.res r.st

/-- LOAD_GRAMMAR: the image as read from host memory; session 0 loads it unbound. -/
def execLoadGrammar (h : Hdr) (sid : Nat) (img : Bytes) (pol n : Nat) : State → Host.Outcome State Fault Refusal :=
  onDev fun _ d =>
    let may := if sid = 0 then fromZero h else d.mayUse h.fn sid false
    d.command h 0x0302 may (sid == 0 || (pol ≤ 2 && 1 ≤ n && n ≤ 64)) true fun d => d.needs loadBlocks fun d =>
      if sid = 0 then d.loadGrammar h.fn none img pol n
      else d.onSession h sid fun slot d => d.loadGrammar h.fn (some slot) img pol n

/-! ## Allowed sets, masks (R303, R307, R308) -/

/-- The grammar of a session. -/
def Dev.gramOf (d : Dev) (slot : Nat) : Grammar := NMap.getD d.tok.grams (d.sess slot).d.grammarId {}
/-- The grammar area of a session. -/
def Dev.garea (d : Dev) (slot : Nat) : GArea := NMap.getD d.tok.areas slot {}
/-- The areas with one changed. -/
def Dev.setArea (d : Dev) (slot : Nat) (a : GArea) : Dev := { d with tok := { d.tok with areas := NMap.put d.tok.areas slot a } }
/-- The end token of a session's profile. -/
def Dev.endTok (d : Dev) (slot : Nat) : Nat := (d.prof (d.sess slot)).endToken
/-- Tokens excluded for the next sample of a session (R315). -/
def Dev.excluded (d : Dev) (slot : Nat) : List Nat :=
  ((d.garea slot).excl.filter fun e => e.1 == (d.sess slot).hist.length).map (·.2)
/-- The allowed set of a session's present state, ascending (R303). -/
def Dev.allowedSet (d : Dev) (slot : Nat) : List Nat :=
  let g := d.gramOf slot
  let a := d.garea slot
  let base := g.edgeTokens a.state a.stack
  let all := if (g.state a.state).accept && a.stack.isEmpty && !base.contains (d.endTok slot) then
      base.filter (· < d.endTok slot) ++ [d.endTok slot] ++ base.filter (d.endTok slot < ·)
    else base
  all.filter fun t => !(d.excluded slot).contains t

/-- The grammar tables are read through their cache: how many of its lines miss is a free value, as the spec describes no cache but its
cost (R310, R319; log entry 2). -/
def Dev.grmCache (d : Dev) : Dev :=
  let (n, d) := d.draw
  d.sat F.GRM_CNT1_CACHE_MISS n
/-- A mask is formed for a session's next row (R307, R308). -/
def Dev.formMask (d : Dev) (slot : Nat) : Dev :=
  let d := d.grmCache
  let g := d.gramOf slot
  let a := d.garea slot
  let st := g.state a.state
  let fresh := !st.precomp || (a.stack.length == g.stackMax && (g.edgesOf a.state).any fun e => e.kind == 1)
  let d := if fresh then d.sat F.GRM_CNT1_FRESH 1 else d
  d.setArea slot { a with mask := some (d.allowedSet slot) }
/-- Form, identifier count and body of a session's mask (R308, R309): the stored mask as it stands, or the smallest
form. -/
def Dev.maskOut (d : Dev) (slot : Nat) : Nat × Nat × Bytes :=
  let g := d.gramOf slot
  let a := d.garea slot
  let vocab := (d.tkzOf slot).vocab
  let allowed := a.mask.getD []
  let stored := if (g.state a.state).precomp then g.storedMask vocab a.state else none
  let form := match stored with
    | some (f, toks) => if toks = allowed then f else (maskForm allowed.length vocab).1
    | none => (maskForm allowed.length vocab).1
  (form, if form = 0 then 0 else if form = 1 then allowed.length else vocab - allowed.length, maskBody form vocab allowed)

/-! ## Advance and dead ends (R303, R306, R312 to R316) -/

/-- The undo entry of a token about to be taken goes where UNDO_HEAD names, which moves on (R306). -/
def Dev.noteUndo (d : Dev) (slot : Nat) : Dev :=
  if !(d.sess slot).area then d
  else match d.turnCtx slot with
    | none => d
    | some i =>
      let a := d.garea slot
      let u : Undo :=
        { state := a.state
          stack := a.stack
          tail := NMap.getD d.tok.tails slot []
          text := (d.ctx i).textBytes
          above := a.above }
      d.setArea slot { a with
        undo := (u :: a.undo).take 64
        undoHead := (a.undoHead + 1) % 64 }
/-- The area after an edge: state, stack, the cells above it, and in the newest undo entry each cell that the edge
overwrote, with its old symbol (R303, R306; log entry 51). -/
def GArea.take (a : GArea) (g : Grammar) (e : GEdge) : GArea :=
  let ops := g.opsOf e
  let n := a.stack.length
  let cells := a.stack.reverse ++ a.above
  let old := ((pushedAt ops n).dedup.filter (· < cells.length)).map fun i => (i, cells.getD i 0)
  let st := (g.apply e a.stack).getD a.stack
  { a with
    state := e.next
    stack := st
    above := (cellsAfter ops n cells).drop st.length
    undo := match a.undo with
      | u :: us => { u with cells := old } :: us
      | [] => [] }
/-- The grammar advances with an accepted token by its first applicable edge; END_TOKEN leaves the state (R303). -/
def Dev.advance (d : Dev) (slot tok : Nat) : Dev :=
  let g := d.gramOf slot
  let a := d.garea slot
  let d := d.grmCache
  if tok = d.endTok slot then d
  else match (g.edgesOf a.state).find? fun e => e.token == tok && (g.apply e a.stack).isSome with
    | none => d
    | some e => d.setArea slot (a.take g e)

/-- The last tokens of a turn are rolled back (R314). -/
def Dev.rollback (d : Dev) (slot i : Nat) : Dev :=
  let a := d.garea slot
  let x := d.sess slot
  let k := min x.d.rollbackN a.undo.length
  match a.undo[k - 1]? with
  | none => d
  | some u =>
    let n := x.hist.length - k
    let first := x.hist.getD n 0
    let d := d.setArea slot { a with
      state := u.state
      stack := u.stack
      above := u.above
      undo := a.undo.drop k
      undoHead := (a.undoHead + 64 - k % 64) % 64
      excl := (a.excl.filter fun e => e.1 ≤ n) ++ [(n, first)] }
    let d := { d with tok := { d.tok with tails := NMap.put d.tok.tails slot u.tail } }
    let committed := x.d.committed - k
    let d := d.updSess slot fun x => { x with
      hist := x.hist.take n
      d := { x.d with histLen := n, committed := committed, histDurable := min x.d.histDurable n } }
    let d := d.dropPages slot ((d.sess slot).pagesFrom (firstWholePage committed))
    let d := d.clearAbove slot
    let d := d.updCtx i fun c => { c with
      textBytes := u.text
      rollbacks := c.rollbacks + 1 }
    let d := (d.writeText slot i u.text []).sat F.GRM_CNT0_ROLLBACK 1
    d

/-- The allowed set is tested, and the dead-end policy applied; a rollback is tested again (R312 to R316). -/
def Dev.deadEnds (d : Dev) (slot i : Nat) : Nat → Dev
  | 0 => d
  | n + 1 =>
    if !(d.allowedSet slot).isEmpty then d
    else
      let d := d.sat F.GRM_CNT0_DEAD_END 1
      let x := (d.sess slot).d
      if x.deadPolicy = 1 then
        let d := (d.noteUndo slot).updSess slot fun x => { x with
          hist := x.hist ++ [d.endTok slot]
          d := { x.d with histLen := x.hist.length + 1 } }
        ((d.updCtx i fun c => { c with nonconform := true }).sat F.GRM_CNT0_FORCED 1).latch i 3
      else if x.deadPolicy = 2 ∧ (d.ctx i).rollbacks < 3 ∧ (d.garea slot).undo ≠ [] then
        Dev.deadEnds (d.rollback slot i) slot i n
      else d.latch i 4

/-- The grammar of a turn begins at START with an empty stack, no undo entries and no exclusions (R305, R306). -/
def Dev.startGrammar (d : Dev) (slot : Nat) : Dev :=
  if (d.sess slot).area then d.setArea slot { state := (d.gramOf slot).start, maskSlot := (d.garea slot).maskSlot } else d

end Sys2Proof.Machine
end

