-- ==== Sys2Proof/Machine/Numbers.lean ====
section
/-! DEFINITION. Number formats: element encodings, rounding, group scales, page slots, weights, inner products (chapter
6). Values are exact rationals; a stored word is its encoding. -/
namespace Sys2Proof.Machine
open Sys2Proof

/-! ## Elements (R176, R187, R188, R190) -/

/-- A floating-point element: exponent bits, mantissa bits, bias; whether the top exponent holds infinity and NaN as in
IEEE 754, or only the code of all ones is NaN. -/
structure Elem where
  e : Nat
  m : Nat
  bias : Nat
  ieee : Bool := false
  nan : Bool := false
  deriving DecidableEq, Repr

/-- FP32. -/
def Elem.fp32 : Elem := { e := 8, m := 23, bias := 127, ieee := true }
/-- BF16. -/
def Elem.bf16 : Elem := { e := 8, m := 7, bias := 127, ieee := true }
/-- FP16. -/
def Elem.fp16 : Elem := { e := 5, m := 10, bias := 15, ieee := true }
/-- E4M3. -/
def Elem.e4m3 : Elem := { e := 4, m := 3, bias := 7, nan := true }
/-- E5M2. -/
def Elem.e5m2 : Elem := { e := 5, m := 2, bias := 15, ieee := true }
/-- E2M3. -/
def Elem.e2m3 : Elem := { e := 2, m := 3, bias := 1 }
/-- E2M1. -/
def Elem.e2m1 : Elem := { e := 2, m := 1, bias := 1 }

/-- 2 to an integer power. -/
def pow2 (k : Int) : Rat := if 0 ≤ k then (2 ^ k.toNat : Nat) else 1 / ((2 ^ (-k).toNat : Nat) : Rat)

/-- Bits of an element. -/
def Elem.width (x : Elem) : Nat := 1 + x.e + x.m
/-- The largest finite magnitude code. -/
def Elem.maxCode (x : Elem) : Nat :=
  if x.ieee then (2 ^ x.e - 1) * 2 ^ x.m - 1 else if x.nan then 2 ^ (x.e + x.m) - 2 else 2 ^ (x.e + x.m) - 1
/-- A code is finite. -/
def Elem.finite (x : Elem) (c : Nat) : Bool := c % 2 ^ (x.e + x.m) ≤ x.maxCode
/-- The value of a magnitude code. -/
def Elem.mag (x : Elem) (c : Nat) : Rat :=
  let ex := c / 2 ^ x.m
  let mant := c % 2 ^ x.m
  if ex = 0 then (mant : Rat) * pow2 (1 - x.bias - x.m) else ((2 ^ x.m + mant : Nat) : Rat) * pow2 ((ex : Int) - x.bias - x.m)
/-- The value of a finite code (R176). -/
def Elem.val (x : Elem) (c : Nat) : Rat :=
  let a := x.mag (c % 2 ^ (x.e + x.m))
  if bitOf c (x.e + x.m) then -a else a

/-- Floor of the base-2 logarithm of a positive rational. -/
def floorLog2 (q : Rat) : Int :=
  let k : Int := (Nat.log2 q.num.toNat : Int) - (Nat.log2 q.den : Int)
  if q < pow2 k then k - 1 else k
/-- Ceiling of the base-2 logarithm of a positive rational. -/
def ceilLog2 (q : Rat) : Int := if q = pow2 (floorLog2 q) then floorLog2 q else floorLog2 q + 1
/-- Round a rational that is not negative to the nearest natural number, ties to even. -/
def roundEven (q : Rat) : Nat :=
  let f := q.floor.toNat
  let r := q - f
  if r < 1 / 2 then f else if 1 / 2 < r then f + 1 else if f % 2 = 0 then f else f + 1
/-- Round a rational to the nearest integer, ties to even. -/
def rneInt (q : Rat) : Int := if q < 0 then -(roundEven (-q) : Int) else (roundEven q : Int)

/-- Round to nearest, ties to even; beyond the largest finite value to that value; zero is +0 (R187, R188, R190). -/
def Elem.round (x : Elem) (q : Rat) : Nat :=
  if q = 0 then 0
  else
    let a := if q < 0 then -q else q
    let ee := max (floorLog2 a) (1 - x.bias)
    let r := roundEven (a * pow2 (x.m - ee))
    let code := min ((ee + x.bias - 1).toNat * 2 ^ x.m + r) x.maxCode
    if code = 0 then 0 else if q < 0 then code + 2 ^ (x.e + x.m) else code

/-- rne32 as a value (R187). -/
def rne32 (q : Rat) : Rat := Elem.fp32.val (Elem.fp32.round q)
/-- The FP32 word of a value. -/
def toF32 (q : Rat) : Nat := Elem.fp32.round q
/-- The value of an FP32 word. -/
def ofF32 (c : Nat) : Rat := Elem.fp32.val c

/-! ## Group scales (R177 to R180) -/

/-- Largest magnitude of a list. -/
def amax (xs : List Rat) : Rat := (xs.map fun x => if x < 0 then -x else x).foldl max 0
/-- Exponent of the power-of-two scale that lets no element clip; none where every element is 0 (R178). -/
def scaleExp (x : Elem) (xs : List Rat) : Option Int :=
  if amax xs = 0 then none else some (max (-127) (min 127 (ceilLog2 (amax xs / x.mag x.maxCode))))
/-- A group encoded with a power-of-two scale: scale code and element codes (R178). -/
def encGroup (x : Elem) (xs : List Rat) : Nat × List Nat :=
  match scaleExp x xs with
  | none => (0, xs.map fun _ => 0)
  | some ex => ((ex + 127).toNat, xs.map fun v => x.round (v * pow2 (-ex)))
/-- A group decoded: element times scale (R177). -/
def decGroup (x : Elem) (code : Nat) (cs : List Nat) : List Rat := cs.map fun c => x.val c * pow2 ((code : Int) - 127)
/-- Lists cut into groups of `n`. -/
def groupsOf {α : Type} (n : Nat) : Nat → List α → List (List α)
  | 0, _ => []
  | k + 1, xs => if xs.isEmpty then [] else xs.take n :: groupsOf n k (xs.drop n)
/-- Lists cut into groups of `n`, the last short. -/
def chunks {α : Type} (n : Nat) (xs : List α) : List (List α) := groupsOf n xs.length xs

/-- An INT8 row: scale word and integers (R179). A row whose amax is above 0 and whose scale underflows to 0 has no `RNE(x/s)`: it is written
as a zero row, scale and integers 0 (DESIGN CHOICE, log entry 75). -/
def encInt8 (xs : List Rat) : Nat × List Int :=
  let s := rne32 (amax xs / 127)
  if amax xs = 0 ∨ s = 0 then (0, xs.map fun _ => 0)
  else (toF32 (amax xs / 127), xs.map fun v => max (-127) (min 127 (rneInt (v / s))))
/-- An INT8 row decoded (R179). -/
def decInt8 (s : Nat) (qs : List Int) : List Rat := qs.map fun q => rne32 ((q : Rat) * ofF32 s)

/-- Rounding toward plus infinity to E4M3, from 2^−9 to 448 (R180). -/
def ceilE4m3 (q : Rat) : Nat :=
  let c := Elem.e4m3.round q % 128
  let c := if Elem.e4m3.mag c < q then c + 1 else c
  max 1 (min 126 c)
/-- An LQ4 group against an offset: scale code and integers (R180). -/
def encLq4 (o : Rat) (xs : List Rat) : Nat × List Int :=
  let s := ceilE4m3 (amax (xs.map (· - o)) / 7)
  (s, xs.map fun v => max (-8) (min 7 (rneInt ((v - o) / Elem.e4m3.mag s))))
/-- An LQ4 group decoded (R180). -/
def decLq4 (o : Rat) (s : Nat) (qs : List Int) : List Rat := qs.map fun q => rne32 (Elem.e4m3.val s * (q : Rat) + o)

/-! ## Format codes and places (R175, R181) -/

/-- The element of a format code; INT8 and LQ4 have none. -/
def fmtElem (f : Nat) : Option Elem :=
  match f with
  | 0 => some .fp32 | 1 => some .bf16 | 2 => some .fp16 | 3 => some .e4m3 | 4 => some .e5m2 | 5 => some .e4m3
  | 6 => some .e2m3 | 7 => some .e2m1 | _ => none
/-- A format carries an E8M0 scale per 32 elements (R175). -/
def isMx (f : Nat) : Bool := f == 5 || f == 6 || f == 7
/-- Formats of tile payloads (R181). -/
def tileFmt (f : Nat) : Bool := f ≤ 4
/-- Formats of gradient tiles (R181). -/
def gradFmt (f : Nat) : Bool := f ≤ 1
/-- Formats of page storage (R181). -/
def storeFmtOk (f : Nat) : Bool := 1 ≤ f && f ≤ 9
/-- Formats of attention-side weights (R181). -/
def weightFmtOk (f : Nat) : Bool := f == 1 || f == 2 || f == 3 || f == 5 || f == 6 || f == 7 || f == 8
/-- Compute formats (R181). -/
def computeFmtOk (f : Nat) : Bool := f == 1 || f == 2 || f == 3
/-- Bits of an element of a format. -/
def fmtBits (f : Nat) : Nat := match fmtElem f with | some x => x.width | none => if f = 8 then 8 else 4

/-- Bytes of one position in one layer (R183). -/
def slotBytesOf (f dc dr : Nat) : Nat :=
  let n := dc + dr
  let nb := dc / 32 + ceilDiv dr 32
  match f with
  | 1 => 2 * n | 2 => 2 * n | 3 => n | 4 => n | 5 => n + nb | 6 => 3 * n / 4 + nb | 7 => n / 2 + nb | 8 => n + 8
  | _ => n / 2 + n / 16
/-- Bytes of one weight row of `n` elements: the elements, then the row's scales (R179, R182, R244). -/
def rowBytes (f n : Nat) : Nat := ceilDiv (n * fmtBits f) 8 + (if isMx f then ceilDiv n 32 else if f = 8 then 4 else 0)

/-! ## Compute format (R182) and inner products (R191) -/

/-- Operands held in the compute format: groups of 32 with a power-of-two scale, as their exact values (R182). -/
def toCompute (f : Nat) (xs : List Rat) : List Rat :=
  match fmtElem f with
  | none => xs
  | some x => (chunks 32 xs).flatMap fun g => let (s, cs) := encGroup x g; decGroup x s cs

/-- The exact sum of products of two lists. -/
def exactDot : List Rat → List Rat → Rat
  | a :: as, b :: bs => a * b + exactDot as bs
  | _, _ => 0
/-- The inner product over groups of 32 (R191). -/
def dotFrom : List (List Rat) → List (List Rat) → Rat → Rat
  | a :: as, b :: bs, t => dotFrom as bs (rne32 (t + rne32 (exactDot a b)))
  | _, _, t => t
/-- The inner product (R191). -/
def dot (a b : List Rat) : Rat := dotFrom (chunks 32 a) (chunks 32 b) 0

/-! ## Element streams and slots (R184) -/

/-- Element `i` of a little-endian stream of `b`-bit elements. -/
def elemAt (n b i : Nat) : Nat := bits n (b * i) b
/-- The codes of a stream. -/
def readElems (bs : Bytes) (b n : Nat) : List Nat :=
  let w := leNat (bs.take (ceilDiv (n * b) 8))
  (List.range n).map fun i => elemAt w b i
/-- A stream of codes. -/
def writeElems (b : Nat) (cs : List Nat) : Bytes :=
  leBytes (ceilDiv (cs.length * b) 8) (cs.foldr (fun c n => c % 2 ^ b + n * 2 ^ b) 0)

/-- Values of plain elements decoded; none if one is not finite. -/
def readPlain (x : Elem) (bs : Bytes) (n : Nat) : Option (List Rat) :=
  let cs := readElems bs x.width n
  if cs.all x.finite then some (cs.map x.val) else none

/-- A part (latent or rotary) encoded in a storage or weight format against an LQ4 offset: element codes of `fmtBits`
bits and scale bytes (R184). -/
def encPart (f : Nat) (o : Rat) (xs : List Rat) : List Nat × Bytes :=
  match f with
  | 8 => let (s, qs) := encInt8 xs; (qs.map (unsigned 8), leBytes 4 s)
  | 9 =>
    let gs := (chunks 16 xs).map (encLq4 o)
    (gs.flatMap fun g => g.2.map (unsigned 4), gs.map fun g => BitVec.ofNat 8 g.1)
  | _ =>
    match fmtElem f with
    | none => ([], [])
    | some x =>
      if isMx f then
        let gs := (chunks 32 xs).map (encGroup x)
        (gs.flatMap (·.2), gs.map fun g => BitVec.ofNat 8 g.1)
      else (xs.map x.round, [])
/-- A part decoded from its element codes and scale bytes (R184). -/
def decPart (f : Nat) (o : Rat) (cs : List Nat) (sc : Bytes) : List Rat :=
  match f with
  | 8 => decInt8 (leNat (sc.take 4)) (cs.map (signed 8))
  | 9 => (((chunks 16 cs).zip sc).flatMap fun g => decLq4 o g.2.toNat (g.1.map (signed 4)))
  | _ =>
    match fmtElem f with
    | none => []
    | some x => if isMx f then (((chunks 32 cs).zip sc).flatMap fun g => decGroup x g.2.toNat g.1) else cs.map x.val

/-- Scale bytes of a part of `n` elements. -/
def scaleBytes (f n : Nat) : Nat := if f = 8 then 4 else if f = 9 then n / 16 else if isMx f then ceilDiv n 32 else 0

/-- A slot's bytes: latent then rotary elements, then the scales (R184). -/
def encSlot (f : Nat) (oLat oRot : Rat) (lat rot : List Rat) : Bytes :=
  let (a, sa) := encPart f oLat lat
  let (b, sb) := encPart f oRot rot
  writeElems (fmtBits f) (a ++ b) ++ sa ++ sb
/-- A slot's latent and rotary values (R184). -/
def decSlot (f dc dr : Nat) (oLat oRot : Rat) (bs : Bytes) : List Rat × List Rat :=
  let cs := readElems bs (fmtBits f) (dc + dr)
  let sc := bs.drop (ceilDiv ((dc + dr) * fmtBits f) 8)
  (decPart f oLat (cs.take dc) sc, decPart f oRot (cs.drop dc) (sc.drop (scaleBytes f dc)))
/-- The LQ4 offset of a part (R186). -/
def lq4Offset (xs : List Rat) : Nat :=
  toF32 ((xs.foldl max (xs.headD 0) + xs.foldl min (xs.headD 0)) / 2)

/-- A weight row decoded (R184, R244). -/
def decRow (f n : Nat) (bs : Bytes) : List Rat :=
  decPart f 0 (readElems bs (fmtBits f) n) (bs.drop (ceilDiv (n * fmtBits f) 8))
/-- A weight row is finite: no infinity, no NaN, no MX scale code 0xFF, no infinite INT8 scale (R189). -/
def rowFinite (f n : Nat) (bs : Bytes) : Bool :=
  let cs := readElems bs (fmtBits f) n
  let sc := bs.drop (ceilDiv (n * fmtBits f) 8)
  (match fmtElem f with
   | some x => cs.all x.finite
   | none => true) &&
    (if isMx f then sc.all fun s => s.toNat != 255 else if f = 8 then Elem.fp32.finite (leNat (sc.take 4)) else true)

end Sys2Proof.Machine
end

