-- ==== Sys2Proof/Machine/Profiles.lean ====
section
/-! DEFINITION. Model profiles and weaves: their images, loading, binding and unloading (R106, R144, R177, R181, R189,
R201, R202, R221 to R245, R252, R266). -/
namespace Sys2Proof.Machine
open Sys2Proof

/-! ## Profiles (R244, R245) -/

/-- Bytes of attention-side weights of a layer (R244, R245). -/
def weightBytes (h dh dc f : Nat) : Nat := h * (dh * rowBytes f dc + dc * rowBytes f dh)
/-- Elements of a row of SEL_PROJ (R201). -/
def Profile.kp (p : Profile) : Nat := if p.splitKv then p.dh else p.dc + p.dr
/-- Signature bits per group (R201). -/
def Profile.selBits (p : Profile) : Nat := 512 / p.selGroups
/-- Bytes of selection parameters of a layer (R201, R245). -/
def Profile.selBytes (p : Profile) : Nat := if p.selGroups = 0 then 0 else 512 * rowBytes p.selFmt p.kp
/-- Parameters of a layer in bytes. -/
def Profile.layerBytes (p : Profile) : Nat :=
  (if p.hasParams then weightBytes p.heads p.dh p.dc p.weightFmt else 0) + p.selBytes

/-- The profile that a package spells (R244). -/
def profileOf (pkg : Bytes) : Profile :=
  let layers := fieldAt pkg 8 0 9
  let splitKv := fieldAt pkg 8 9 1 == 1
  let dc := fieldAt pkg 8 29 11
  let dr := fieldAt pkg 8 40 8
  let storeFmt := fieldAt pkg 0x10 32 8
  let slot := slotBytesOf storeFmt dc dr
  let h := fieldAt pkg 8 11 9
  let ofs := leAt pkg 0x28 4
  { layers := layers
    splitKv := splitKv
    hasParams := fieldAt pkg 8 10 1 == 1
    heads := if h = 0 then 256 else h
    dh := fieldAt pkg 8 20 9
    dc := dc
    dr := dr
    hkv := fieldAt pkg 8 48 5
    scale := leAt pkg 0x10 4
    storeFmt := storeFmt
    weightFmt := fieldAt pkg 0x10 40 8
    computeFmt := fieldAt pkg 0x10 48 8
    selGroups := fieldAt pkg 0x10 56 4
    endToken := leAt pkg 0x18 4
    selSink := fieldAt pkg 0x18 32 5
    selLocal := fieldAt pkg 0x18 37 7
    selK := fieldAt pkg 0x18 44 12
    selCoarseK := fieldAt pkg 0x20 0 11
    selFmt := fieldAt pkg 0x20 11 8
    layerTab := (List.range layers).map fun i => (leAt pkg (ofs + 16 * i) 4, fieldAt pkg (ofs + 16 * i) 32 21)
    slotBytes := slot
    cls := (classFor (pagePayload slot)).getD 15
    paramLen := leAt pkg 0x30 8
    params := slice pkg (leAt pkg 0x2C 4) (leAt pkg 0x30 8)
    digest := Config.sha384 pkg }

/-- An FP32 word above zero and finite. -/
def positive (w : Nat) : Bool := Elem.fp32.finite w && w != 0 && w < 2 ^ 31

/-- The selection parameters are in range (R201, R202). -/
def Profile.selOk (p : Profile) : Bool :=
  p.selFmt ≤ 9 && (p.selGroups == 0 ||
    [1, 2, 4, 8].contains p.selGroups && (if p.splitKv then p.selGroups == p.hkv else p.heads % p.selGroups == 0) &&
      p.selSink ≤ 16 && 1 ≤ p.selLocal && p.selLocal ≤ 64 && 1 ≤ p.selK && p.selK ≤ 2048 && 1 ≤ p.selCoarseK &&
      p.selCoarseK ≤ 1024 && (p.selFmt == 1 || p.selFmt == 3) &&
      p.selSink + p.selLocal + p.selGroups * p.selK ≤ 16384 && p.selK ≤ 64 * p.selCoarseK)
/-- The attention parameters are in range (R144, R181, R189). -/
def Profile.attOk (p : Profile) : Bool :=
  1 ≤ p.layers && p.layers ≤ 256 && p.heads ≤ 256 && 32 ≤ p.dh && p.dh ≤ 256 && p.dh % 32 == 0 && 64 ≤ p.dc &&
    p.dc ≤ 1024 && p.dc % 64 == 0 && p.dr ≤ 128 && p.dr % 16 == 0 &&
    (if p.splitKv then 1 ≤ p.hkv && p.hkv ≤ 16 && p.heads % p.hkv == 0 && p.dr == 0 && p.dc == 2 * p.hkv * p.dh
     else p.hkv == 0) &&
    positive p.scale && storeFmtOk p.storeFmt && weightFmtOk p.weightFmt && computeFmtOk p.computeFmt &&
    p.layerTab.all fun e => (e.1 == 0 || positive e.1) && (e.2 == 0 || (64 ≤ e.2 && e.2 ≤ 1048576))

/-- Every weight row from an offset, `rows` of `n` elements, is finite. -/
def rowsFinite (f n : Nat) (bs : Bytes) : Nat → Nat → Bool
  | 0, _ => true
  | k + 1, ofs => rowFinite f n (slice bs ofs (rowBytes f n)) && rowsFinite f n bs k (ofs + rowBytes f n)
/-- The parameters hold no non-finite element (R189). -/
def Profile.finite (p : Profile) : Bool :=
  (List.range p.layers).all fun l =>
    let o := l * p.layerBytes
    let uk := p.heads * p.dh * rowBytes p.weightFmt p.dc
    let w := if p.hasParams then weightBytes p.heads p.dh p.dc p.weightFmt else 0
    (!p.hasParams || (rowsFinite p.weightFmt p.dc p.params (p.heads * p.dh) o &&
      rowsFinite p.weightFmt p.dh p.params (p.heads * p.dc) (o + uk))) &&
      (p.selGroups == 0 || rowsFinite p.selFmt p.kp p.params 512 (o + w))

/-- The checks of LOAD_PROFILE that give BAD_PARAM (R106, R144, R177, R181, R189, R201, R245). -/
def profileOk (pkg : Bytes) : Bool :=
  let p := profileOf pkg
  128 ≤ pkg.length && leAt pkg 0 4 == 0x51505246 && leAt pkg 4 2 == 1 && p.attOk && p.selOk &&
    (classFor (pagePayload p.slotBytes)).isSome && p.paramLen == p.layers * p.layerBytes &&
    leAt pkg 0x38 8 == pkg.length && leAt pkg 0x28 4 + 16 * p.layers ≤ pkg.length && leAt pkg 0x2C 4 % 64 == 0 &&
    leAt pkg 0x2C 4 + p.paramLen ≤ pkg.length && p.finite && p.paramLen ≤ 8 * 2 ^ 30

/-- The registers of a profile slot (R247). -/
def Dev.showProfile (d : Dev) (i : Nat) : Dev :=
  let v := NMap.get? d.att.profiles i
  let p := v.getD {}
  ((((d.si F.ATT_PRF_STATUS_VALID i (b2n v.isSome)).si F.ATT_PRF_STATUS_LAYERS i p.layers).si F.ATT_PRF_STATUS_KV_KIND i
    (b2n p.splitKv)).si F.ATT_PRF_STATUS_STORE_FMT i p.storeFmt).si F.ATT_PRF_STATUS_PARAM_MIB i (ceilDiv p.paramLen (2 ^ 20))
    |>.si F.ATT_PRF_ID_DIGEST i (leNat (p.digest.take 8))

/-- The profile region of each die in use (R245). -/
def Dev.prfUsed (d : Dev) : Nat := d.att.profiles.foldl (fun a e => a + e.2.paramLen) 0

/-- LOAD_PROFILE of a package (R245). -/
def Dev.loadProfile (d : Dev) (slot : Nat) (pkg : Bytes) (keyGen : Option Nat) : Res :=
  let p := profileOf pkg
  if !profileOk pkg then d.res .badParam
  else if NMap.has d.att.profiles slot then d.res .busy
  else if d.g F.ATT_PRF_REGION_GIB * 2 ^ 30 < d.prfUsed + p.paramLen then d.res .noSpace
  else
    let wrapped := match keyGen with
      | some k => NMap.put d.sec.wrapped slot k
      | none => NMap.del d.sec.wrapped slot
    let d := { d with
      att := { d.att with profiles := NMap.put d.att.profiles slot p }
      sec := { d.sec with wrapped := wrapped } }
    { dev := d.showProfile slot, result := p.digest }

/-- LOAD_PROFILE: the package as read from host memory, or the handle of a staged one, which is consumed and released
(R503). A handle that is not staged is answered BAD_PARAM (log entry 26). -/
def execLoadProfile (h : Hdr) (staged : Bool) (handle len slot : Nat) (pkg : Bytes) : State → Host.Outcome State Fault Refusal :=
  onDev fun _ d =>
    d.command h 0x0201 (fromZero h) (slot < 64) (!staged) fun d => d.needs [] fun d =>
      if staged then
        match d.sec.staged.find? (·.handle == handle) with
        | none => d.res .badParam
        | some x =>
          let left := d.sec.staged.filter (·.handle != handle)
          let d := ({ d with sec := { d.sec with staged := left } }).s F.SEC_STAGE_STAGED left.length
          d.loadProfile slot x.body (some x.keyGen)
      else if d.on F.SEC_CTL_REQUIRE_WRAPPED then d.res .denied
      else if pkg.length ≠ len then d.res .badParam
      else d.loadProfile slot pkg none

/-! ## Weave images (R222 to R229, R236) -/

/-- Section `i` of an image (R224). -/
def weaveSec (img : Bytes) (i : Nat) : Nat × Nat := (leAt img (0x60 + 8 * i) 4, leAt img (0x64 + 8 * i) 4)
/-- The bytes of a section. -/
def secBytes (img : Bytes) (i : Nat) : Bytes := slice img (weaveSec img i).1 (weaveSec img i).2
/-- A number that 0 encodes as `n`. -/
def zeroIs (n v : Nat) : Nat := if v = 0 then n else v

/-- A stream entry (R226). -/
def readStream (s : Bytes) (i : Nat) : WStream :=
  let o := 16 * i
  { kind := fieldAt s o 0 4
    expanded := fieldAt s o 4 1 == 1
    latentIn := fieldAt s o 5 1 == 1
    latentOut := fieldAt s o 6 1 == 1
    member := fieldAt s o 8 8
    head0 := fieldAt s o 16 9
    nheads := zeroIs 256 (fieldAt s o 25 9)
    inBuf := fieldAt s o 34 10
    outBuf := fieldAt s o 44 10
    qfmt := fieldAt s (o + 8) 0 8
    kvfmt := fieldAt s (o + 8) 8 8
    ofmt := fieldAt s (o + 8) 16 8
    gfmt := fieldAt s (o + 8) 24 8 }
/-- A step (R228). -/
def readStep (s : Bytes) (i : Nat) : WStep :=
  let o := 16 * i
  { op := fieldAt s o 0 8
    stream := fieldAt s o 8 8
    sub := fieldAt s o 16 2
    iter := fieldAt s o 18 2
    cheap := fieldAt s o 20 1 == 1
    inBuf := fieldAt s o 21 10
    outBuf := fieldAt s o 31 10
    counter := fieldAt s o 41 13
    dieScope := fieldAt s o 54 1 == 1
    arg := fieldAt s (o + 8) 0 32
    arg2 := fieldAt s (o + 8) 32 32 }
/-- The weave that an image spells (R224 to R229, R236). -/
def weaveOf (img : Bytes) (profile : Nat) : Weave :=
  let stakes := zeroIs 256 (fieldAt img 8 32 9)
  let s0 := secBytes img 0
  let s2 := secBytes img 2
  let s3 := secBytes img 3
  let s4 := secBytes img 4
  let s5 := secBytes img 5
  { imageLen := leAt img 8 4
    stakes := stakes
    mergeHome := fieldAt img 8 41 1 == 1
    slotCounters := fieldAt img 0x10 0 11
    dieCounters := fieldAt img 0x10 11 13
    scratchUse := fieldAt img 0x18 0 23
    profileDigest := slice img 0x20 48
    imageDigest := slice img 0xD0 48
    profile := profile
    stakeTab := (List.range stakes).map fun i =>
      { layer := fieldAt s0 (16 * i) 0 8
        stepFirst := fieldAt s0 (16 * i) 16 32
        stepCount := fieldAt s0 (16 * i) 48 16
        cheapFirst := fieldAt s0 (16 * i + 8) 0 32
        cheapCount := fieldAt s0 (16 * i + 8) 32 16 }
    streams := (List.range (zeroIs 256 (fieldAt img 8 42 9))).map (readStream (secBytes img 1))
    bufs := (List.range (fieldAt img 8 51 10)).map fun i =>
      { base := fieldAt s2 (8 * i) 0 22
        place64 := fieldAt s2 (8 * i) 22 16
        credits := fieldAt s2 (8 * i) 38 10
        loc := fieldAt s2 (8 * i) 48 2 }
    steps := (List.range (s3.length / 16)).map (readStep s3)
    cheaps := (List.range (fieldAt img 0x10 24 16)).map fun i =>
      { step := fieldAt s4 (8 * i) 0 32
        liveFirst := fieldAt s4 (8 * i) 32 16
        liveCount := fieldAt s4 (8 * i) 48 7 }
    lives := (List.range (s5.length / 8)).map fun i => (fieldAt s5 (8 * i) 0 22, fieldAt s5 (8 * i) 22 23)
    ports := (secBytes img 6).map (·.toNat) }

/-- Two byte ranges do not overlap. -/
def apart (a b : Nat × Nat) : Bool := a.2 == 0 || b.2 == 0 || a.1 + a.2 ≤ b.1 || b.1 + b.2 ≤ a.1
/-- Ranges are pairwise apart. -/
def allApart : List (Nat × Nat) → Bool
  | [] => true
  | x :: xs => xs.all (apart x) && allApart xs

/-- Every section lies within the image, apart from the others, with the length its count gives (R241). -/
def sectionsOk (img : Bytes) : Bool :=
  let secs := (List.range 8).map (weaveSec img)
  let len (i : Nat) : Nat := (weaveSec img i).2
  secs.all (fun s => s.2 == 0 || (s.1 % 64 == 0 && 256 ≤ s.1 && s.1 + s.2 ≤ img.length)) && allApart secs &&
    len 0 == 16 * zeroIs 256 (fieldAt img 8 32 9) && len 1 == 16 * zeroIs 256 (fieldAt img 8 42 9) &&
    len 2 == 8 * fieldAt img 8 51 10 && len 3 % 16 == 0 && len 4 == 8 * fieldAt img 0x10 24 16 && len 5 % 8 == 0 &&
    len 6 == 256 && len 7 == 0

/-- The working form and formats of a stream are allowed for the profile (R146, R181, R226). -/
def streamOk (p : Profile) (s : WStream) : Bool :=
  s.kind ≤ 3 && !(s.kind == 0 && s.expanded) &&
    (if p.splitKv then !s.latentIn && !s.latentOut && !s.expanded
     else p.hasParams || (s.latentIn && s.latentOut && !s.expanded)) &&
    (s.kind == 3 || s.head0 + s.nheads ≤ p.heads) && tileFmt s.qfmt && tileFmt s.kvfmt && tileFmt s.ofmt && gradFmt s.gfmt
/-- The streams of each kind cover every head once, and name members of the group (R241). -/
def Weave.coverOk (w : Weave) (heads members : Nat) : Bool :=
  [0, 1, 2].all fun k =>
    let ss := w.streams.filter (·.kind == k)
    ss.isEmpty || ((List.range heads).all fun h => (ss.filter fun s => s.head0 ≤ h && h < s.head0 + s.nheads).length == 1) &&
      ss.all fun s => s.member < members
/-- Buffers lie in the scratchpad, and places of scratchpad buffers do not overlap (R227, R241). -/
def Weave.bufsOk (w : Weave) : Bool :=
  w.bufs.all (fun b => 1 ≤ b.place64 && 1 ≤ b.credits && b.loc ≤ 2 &&
    (b.loc != 1 || (b.base % 64 == 0 && b.base + 64 * b.place64 * b.credits ≤ w.scratchUse))) &&
    allApart ((w.bufs.filter (·.loc == 1)).map fun b => (b.base, 64 * b.place64 * b.credits))

/-- Operations that take a stream: those that work on tiles or sessions (log entry 27). -/
def takesStream (op : Nat) : Bool := op != 0x01 && op != 0x0D && op != 0x0F && op != 0x10 && op != 0x11
/-- The steps of a stake. -/
def Weave.stepsOf (w : Weave) (s : Nat) : List WStep :=
  let t := w.stakeTab.getD s {}
  (w.steps.drop t.stepFirst).take t.stepCount
/-- A step names what the weave has (R241). -/
def Weave.stepOk (w : Weave) (all : List WStep) (x : WStep) : Bool :=
  1 ≤ x.op && x.op ≤ 0x12 && (!takesStream x.op || x.stream < w.streams.length) &&
    (x.inBuf == 0x3FF || x.inBuf < w.bufs.length) && (x.outBuf == 0x3FF || x.outBuf < w.bufs.length) &&
    (!(x.op == 0x0F || x.op == 0x10) || x.counter < (if x.dieScope then w.dieCounters else w.slotCounters)) &&
    (x.op != 0x0F || all.any fun y => y.op == 0x10 && y.counter == x.counter && y.dieScope == x.dieScope)
/-- Consecutive steps of one level (R223). -/
def bodies : List WStep → List (List WStep)
  | [] => []
  | x :: xs => match bodies xs with
    | (y :: ys) :: bs => if x.iter = y.iter then (x :: y :: ys) :: bs else [x] :: (y :: ys) :: bs
    | bs => [x] :: bs
/-- Every body but those of level STAKE lies in a preceding body of a higher level: the stake's first step is of level
STAKE (R223; log entry 27). -/
def nested (xs : List WStep) : Bool := match xs with | [] => true | x :: _ => x.iter == 0
/-- In a body, the credits of a buffer taken by producer steps equal those returned by consumer steps (R241). INGEST staging is filled
from the fabric and the EMIT queue drained to it: a body whose steps only drain the one, or only fill the other, breaks nothing (log
entry 27). -/
def Weave.balanced (w : Weave) (body : List WStep) : Bool :=
  (List.range w.bufs.length).all fun b =>
    let loc := (w.bufs.getD b {}).loc
    let fills := (body.filter (·.outBuf == b)).length
    let drains := (body.filter (·.inBuf == b)).length
    (loc == 0 && fills == 0) || (loc == 2 && drains == 0) || fills == drains
/-- The steps of every stake lie in the step section and pass their checks (R225, R241). -/
def Weave.stepsOk (w : Weave) : Bool :=
  (List.range w.stakes).all fun s =>
    let t := w.stakeTab.getD s {}
    let xs := w.stepsOf s
    1 ≤ t.stepCount && t.stepFirst + t.stepCount ≤ w.steps.length && t.cheapFirst + t.cheapCount ≤ w.cheaps.length &&
      xs.all (w.stepOk xs) && nested xs
/-- The credits of every loop body balance. -/
def Weave.creditsOk (w : Weave) : Bool :=
  (List.range w.stakes).all fun s => (bodies (w.stepsOf s)).all w.balanced
/-- Ranges rise without overlap. -/
def rising : List (Nat × Nat) → Bool
  | a :: b :: rest => a.1 + a.2 ≤ b.1 && rising (b :: rest)
  | _ => true
/-- Cheap points and live ranges are well formed (R236). -/
def Weave.cheapsOk (w : Weave) : Bool :=
  w.lives.all (fun l => l.1 % 64 == 0 && l.2 % 64 == 0 && 64 ≤ l.2 && l.2 ≤ 4194304) &&
    w.cheaps.all fun c =>
      let ls := (w.lives.drop c.liveFirst).take c.liveCount
      (w.steps.getD c.step {}).cheap && c.step < w.steps.length && c.liveCount ≤ 64 &&
        c.liveFirst + c.liveCount ≤ w.lives.length && rising ls && ls.all (fun l => l.1 + l.2 ≤ w.scratchUse) &&
        (ls.map (·.2)).foldl (· + ·) 0 ≤ 2 ^ 20

/-- The image with IMAGE_DIGEST taken as zero (R224). -/
def digestBody (img : Bytes) : Bytes := img.take 0xD0 ++ List.replicate 48 0 ++ img.drop 0x100

/-! ## Sync counters of bindings (R234) -/

/-- Counters that a binding of a weave holds on each die (R234). -/
def Weave.counterNeed (w : Weave) : Nat := 32 * w.slotCounters + w.dieCounters
/-- Bindings that hold counters: in effect or waiting. -/
def Dev.bindings (d : Dev) : List Binding :=
  d.groups.flatMap fun e => e.2.bound.toList ++ (match e.2.nextBinding with
    | some (some b) => [b]
    | _ => [])
/-- Counters of a die that bindings and regions hold, as runs. -/
def Dev.counterRuns (d : Dev) (die : Nat) : List (Nat × Nat) :=
  (d.bindings.flatMap fun b => if die = 0 then b.runsW else b.runsE) ++
    (d.hall.regions.filterMap fun e =>
      if e.2.counters ≠ 0 ∧ e.2.counter / 65536 = die then some (e.2.counter % 65536, e.2.counters) else none)
/-- Free runs of a die's counters. -/
def Dev.counterFree (d : Dev) (die : Nat) : List (Nat × Nat) :=
  (d.counterRuns die).foldl (fun f r => cutFree f r.1 r.2) [(0, 65536)]
/-- The lowest `n` free counters, as runs; none if there are fewer. -/
def takeRuns : List (Nat × Nat) → Nat → Option (List (Nat × Nat))
  | [], n => if n = 0 then some [] else none
  | r :: rs, n =>
    if n ≤ r.2 then some (if n = 0 then [] else [(r.1, n)])
    else (takeRuns rs (n - r.2)).map fun t => r :: t
/-- The registers of the counter pools (R246). -/
def Dev.showSync (d : Dev) : Dev :=
  let held (f : Binding → List (Nat × Nat)) : Nat := d.bindings.foldl (fun a b => a + ((f b).map (·.2)).foldl (· + ·) 0) 0
  let w := held (·.runsW)
  let e := held (·.runsE)
  let o (die : Nat) : Nat := ((d.counterRuns die).map (·.2)).foldl (· + ·) 0 - (if die = 0 then w else e)
  (((((d.s F.ATT_SYNC_W_WEAVE w).s F.ATT_SYNC_W_OTHER (o 0)).s F.ATT_SYNC_W_FREE (65536 - w - o 0)).s F.ATT_SYNC_E_WEAVE
    e).s F.ATT_SYNC_E_OTHER (o 1)).s F.ATT_SYNC_E_FREE (65536 - e - o 1)

/-! ## Binding (R242, R252, R266) -/

/-- The registers of a weave slot (R247). -/
def Dev.showWeave (d : Dev) (i : Nat) (valid : Bool) : Dev :=
  let w := NMap.getD d.att.weaves i {}
  let w := if valid then w else {}
  let d := ((((d.si F.ATT_WV_STATUS_VALID i (b2n valid)).si F.ATT_WV_STATUS_PROFILE i w.profile).si F.ATT_WV_STATUS_STAKES i
    w.stakes).si F.ATT_WV_STATUS_LEN_KIB i (ceilDiv w.imageLen 1024)).si F.ATT_WV_ID_DIGEST i (leNat (w.imageDigest.take 8))
  if valid then d else (d.si F.ATT_WV_GROUPS_MASK i 0).si F.ATT_WV_STATUS_PORT_FB i 0
/-- A weave has been unloaded and stays only until its binding ends (R243). -/
def Dev.weaveGone (d : Dev) (i : Nat) : Bool := d.gi F.ATT_WV_STATUS_VALID i == 0
/-- Weaves that were unloaded and that no group holds any more are dropped. -/
def Dev.dropWeaves (d : Dev) : Dev :=
  let kept := NMap.keep d.att.weaves fun i _ => !d.weaveGone i || d.bindings.any fun b => b.slot == i
  { d with att := { d.att with weaves := kept } }

/-- A group takes a binding: its stake count, its merge place and its schedule (R242, R252, R266, R281). -/
def Dev.takeBinding (d : Dev) (g : Nat) (b : Binding) : Dev :=
  let w := NMap.getD d.att.weaves b.slot {}
  let d := d.updGroup g fun x => { x with
    bound := some b
    nextBinding := none }
  let d := (((d.si F.TIM_GRP_SHAPE_STAKES g w.stakes).si F.ATT_GRP_SLOTS_MERGE_AT g (b2n w.mergeHome)).si
    F.ATT_GRP_SCHED_WEIGHTING g (b2n b.throughput)).si F.ATT_GRP_SCHED_ADMIT_MODE g (b2n b.hostBatch)
  let d := d.si F.ATT_GRP_SCHED_CHUNK_OK g (b2n (w.streams.any (·.kind == 1)))
  (d.dropWeaves.showSync).checkReady g
/-- A group runs no rows: it is not live, or stalled (R61, R242, R243). -/
def Dev.noRows (d : Dev) (g : Nat) : Bool := d.phase g == 0 || d.phase g == 4
/-- ATT_WV_GROUPS.MASK of every resident weave: bit g is set in that of the weave, if any, that group g is bound to from its next
boundary (R247). -/
def Dev.showBound (d : Dev) (g : Nat) : Dev :=
  let x := d.group g
  let at? : Option Nat := match x.nextBinding with
    | some nb => nb.map (·.slot)
    | none => x.bound.map (·.slot)
  (NMap.keys d.att.weaves).foldl (fun (d : Dev) j =>
    d.si F.ATT_WV_GROUPS_MASK j (setBit (d.gi F.ATT_WV_GROUPS_MASK j) g (at? == some j && !d.weaveGone j))) d
/-- A group's binding ends; its stake count and merge place stay (R243). -/
def Dev.endBinding (d : Dev) (g : Nat) : Dev :=
  let d := (d.updGroup g fun x => { x with
    bound := none
    nextBinding := none }).showBound g
  d.dropWeaves.showSync
/-- A binding that waits takes effect at step 0 of a boundary (R242, R243). -/
def Dev.applyBinding (d : Dev) (g : Nat) : Dev :=
  match (d.group g).nextBinding with
  | some (some b) => d.takeBinding g b
  | some none => d.endBinding g
  | none => d

/-- Group g has admitted, queued, held-out or pushing sessions (R241, R243). -/
def Dev.groupBusy (d : Dev) (g : Nat) : Bool :=
  d.ses.tab.any fun e => e.2.d.group == g && (e.2.inRow || e.2.heldOut || e.2.d.ctxValid || e.2.d.turnQueued)

/-- The checks of an image in the order of R241, up to the group's own. Header values outside the ranges of R224 for which R241 lists no check
are accepted (DESIGN CHOICE, log entry 27). -/
def Dev.weaveCheck (d : Dev) (img : Bytes) (len g : Nat) : Option Status :=
  if len < 4096 ∨ 16 * 2 ^ 20 < len ∨ len % 64 ≠ 0 ∨ leAt img 8 4 ≠ len ∨ img.length ≠ len then some .badParam
  else if leAt img 0 4 ≠ 0x51575645 ∨ leAt img 4 2 ≠ 1 then some .badParam
  else if Config.sha384 (digestBody img) ≠ slice img 0xD0 48 then some .digestFail
  else match d.att.profiles.find? fun e => e.2.digest == slice img 0x20 48 with
    | none => some .badParam
    | some (pi, p) =>
      let w := weaveOf img pi
      if w.stakes ≠ p.layers ∨ !(List.range p.layers).all (fun l => (w.stakeTab.filter (·.layer == l)).length == 1) ∨
          !sectionsOk img ∨ !w.streams.all (streamOk p) ∨ !w.coverOk p.heads (d.gi F.TIM_GRP_SHAPE_MEMBERS g) ∨
          !w.bufsOk ∨ !w.stepsOk ∨ !w.creditsOk ∨ !w.cheapsOk ∨ !w.ports.all (fun b => b ≤ 15 || b == 0xFF) then
        some .badParam
      else
        let old := (d.group g).bound.map fun b => (NMap.getD d.att.weaves b.slot {}).profile
        if (old.any (· != pi)) && d.groupBusy g then some .busy else none

/-- LOAD_WEAVE (R240 to R242). -/
def Dev.loadWeave (d : Dev) (g len : Nat) (thr hb : Bool) (img : Bytes) : Res :=
  match d.weaveCheck img len g with
  | some st => d.res st
  | none =>
    let pi := ((d.att.profiles.find? fun e => e.2.digest == slice img 0x20 48).map (·.1)).getD 0
    let w := weaveOf img pi
    let same := (d.att.weaves.find? fun e => e.2.imageDigest == w.imageDigest).map (·.1)
    let at? := match same with
      | some i => some i
      | none => NMap.freeFrom d.att.weaves 128 0
    -- the binding that a later one replaces before it took effect gives its counters back first
    let d' := d.updGroup g fun x => { x with nextBinding := none }
    match at?, takeRuns (d'.counterFree 0) w.counterNeed, takeRuns (d'.counterFree 1) w.counterNeed with
    | some i, some rw, some re =>
      let d := { d' with att := { d'.att with weaves := if same.isSome then d'.att.weaves else NMap.put d'.att.weaves i w } }
      let d := d.showWeave i true
      let b : Binding :=
        { slot := i
          throughput := thr
          hostBatch := hb
          runsW := rw
          runsE := re }
      let d := (d.updGroup g fun x => { x with nextBinding := some (some b) }).showBound g
      let d := if d.noRows g then d.takeBinding g b else d.showSync
      { dev := d, small := i, result := w.imageDigest }
    | _, _, _ => d.res .noSpace

/-- LOAD_WEAVE: the image as read from host memory. -/
def execLoadWeave (h : Hdr) (len : Nat) (thr hb : Bool) (g : Nat) (img : Bytes) : State → Host.Outcome State Fault Refusal :=
  onDev fun _ d =>
    d.command h 0x0202 (fromZero h) (g < 64) true fun d => d.needs [] fun d => d.loadWeave g len thr hb img

/-! ## UNLOAD (R243, R282, R299) -/

/-- UNLOAD of a profile: BUSY while a resident weave names it. -/
def Dev.unloadProfile (d : Dev) (i : Nat) : Res :=
  if !NMap.has d.att.profiles i then d.res .dup
  else if d.att.weaves.any (fun e => e.2.profile == i) then d.res .busy
  else
    let d := { d with
      att := { d.att with profiles := NMap.del d.att.profiles i }
      sec := { d.sec with wrapped := NMap.del d.sec.wrapped i } }
    (d.showProfile i).res .ok
/-- A weave that is unloaded leaves a group: a binding to it that waits is replaced by the end of the group's binding, and one in effect
ends, unless a binding to another weave waits already, whose turn it is at that same boundary (R242, R243). What waits takes effect at
the group's next boundary, at step 0, or at once if the group runs no rows. -/
def Dev.unbind (d : Dev) (g i : Nat) : Dev :=
  let x := d.group g
  let waits : Option (Option Binding) := match x.nextBinding with
    | some (some b) => if b.slot = i then some none else x.nextBinding
    | some none => some none
    | none => if x.bound.any (·.slot == i) then some none else none
  let d := d.setGroup g { x with nextBinding := waits }
  match waits with
  | some none => if d.noRows g then d.endBinding g else d.showBound g
  | _ => d
/-- UNLOAD of a weave (R243). -/
def Dev.unloadWeave (d : Dev) (i : Nat) : Res :=
  let names (x : Group) : Bool := x.bound.any (·.slot == i) || (match x.nextBinding with
    | some (some b) => b.slot == i
    | _ => false)
  let gs := (d.groups.filter fun e => names e.2).map (·.1)
  if !NMap.has d.att.weaves i || d.weaveGone i then d.res .dup
  else if gs.any d.groupBusy then d.res .busy
  else
    let d := d.showWeave i false
    let d := gs.foldl (fun (d : Dev) g => d.unbind g i) d
    (d.dropWeaves.showSync).res .ok
/-- UNLOAD of a tokenizer: BUSY while a descriptor or a resident grammar names it (R282). -/
def Dev.unloadTokenizer (d : Dev) (i : Nat) : Res :=
  match NMap.get? d.tok.tkz i with
  | none => d.res .dup
  | some t =>
    if d.ses.tab.any (fun e => e.2.d.tokenizer == i) || d.tok.grams.any (fun e => e.2.tokDigest == t.digest) then d.res .busy
    else (({ d with tok := { d.tok with tkz := NMap.del d.tok.tkz i } }).showTkz i).res .ok
/-- UNLOAD of a grammar: BUSY while bound (R299, R524). -/
def Dev.unloadGrammar (d : Dev) (i : Nat) : Res :=
  if !NMap.has d.tok.grams i then d.res .dup
  else if d.ses.tab.any (fun e => e.2.d.grammarBound && e.2.d.grammarId == i) then d.res .busy
  else (({ d with tok := { d.tok with grams := NMap.del d.tok.grams i } }).showGrammar i).res .ok

/-- UNLOAD. -/
def execUnload (h : Hdr) (kind slot : Nat) : State → Host.Outcome State Fault Refusal :=
  onDev fun _ d =>
    let own := kind == 4 && (NMap.get? d.tok.grams slot).any fun g => g.partition == h.fn
    let lim := match kind with | 1 => 64 | 2 => 128 | 3 => 64 | 4 => 1024 | _ => 0
    d.command h 0x0203 (fromZero h || own) (slot < lim) false fun d => d.needs [] fun d =>
      match kind with
      | 1 => d.unloadProfile slot
      | 2 => d.unloadWeave slot
      | 3 => d.unloadTokenizer slot
      | _ => d.unloadGrammar slot

end Sys2Proof.Machine
end

