-- ==== Sys2Proof/Machine/Park.lean ====
section
/-! DEFINITION. The park estimator, hints, parking, history, WARM placement, reviving and rebuilding (chapter 11; R347 to
R352 for what parks write). -/
namespace Sys2Proof.Machine
open Sys2Proof

/-! ## Messages to the home and to the buddy (R334, R335, R428, R432) -/

/-- Messages of up to 1 MiB that carry the bytes of an object to the buddy (R335). -/
def Dev.mirrorData (d : Dev) (slot obj off : Nat) (bs : Bytes) : Dev :=
  (List.range (ceilDiv bs.length 1048512)).foldl (fun d i =>
    let piece := slice bs (1048512 * i) 1048512
    d.toBuddy slot 2 obj (off + 1048512 * i) piece.length piece) d
/-- The history from token `lo` up to `n` goes to the buddy; it goes whole after the OPEN of its object, which comes before its first bytes
(R334, R335). -/
def Dev.mirrorHist (d : Dev) (slot lo n : Nat) : Dev :=
  let x := d.sess slot
  if x.d.buddy = 0 then d
  else
    let lo := if x.histOpen then lo else 0
    let d := if x.histOpen then d else d.toBuddy slot 1 4 0 (4 * n) []
    d.mirrorData slot 4 (4 * lo) (((x.hist.take n).drop lo).flatMap (leBytes 4))
/-- The mirrored descriptor is refreshed, and the home told, at a tier change or a history flush (R334, R428). -/
def Dev.refresh (d : Dev) (slot : Nat) : Dev :=
  let x := (d.sess slot).d
  let d := if x.buddy = 0 then d else d.toBuddy slot 4 0 0 256 x.bytes
  d.stateSync slot []

/-- Under MERGE_AT = HOME, a row that is void for a split session at its home, whose own partials are then null, is void on every range
(R59, R164). -/
def Dev.voidRanges (d : Dev) (slot : Nat) : Dev :=
  if d.gi F.ATT_GRP_SLOTS_MERGE_AT (d.sess slot).d.group = 1 then d.tellRanges slot 5 else d

/-! ## History (R331 step 2, R351, R356, R358, R428) -/

/-- Pages by which a session's history object must grow to hold its history (R351, R358). -/
def Dev.histMore (d : Dev) (slot : Nat) : Nat :=
  let x := (d.sess slot).d
  if x.histLen ≤ x.histDurable then 0
  else
    let pages := ((d.obj x.histHandle).map (·.pages)).getD 0
    ceilDiv (ceilDiv (4 * x.histLen) 16384 - pages) 64 * 64
/-- HIST_DURABLE follows once every token of the history is durable; away from home, once the home has said so (R331,
R356, R428). -/
def Dev.noteDurable (d : Dev) (slot : Nat) : Dev :=
  let x := (d.sess slot).d
  match d.obj x.histHandle with
  | some o =>
    if 4 * x.histLen ≤ o.length ∧ d.objDurable x.histHandle ∧ !d.away slot then
      d.updDesc slot fun x => { x with histDurable := x.histLen }
    else d
  | none => d
/-- History tokens from HIST_DURABLE on are written to the hamper and mirrored; none if the space cannot be reserved. -/
def Dev.flushHist (d : Dev) (slot : Nat) : Option Dev :=
  let x := (d.sess slot).d
  if x.histLen ≤ x.histDurable then some d
  else
    let made := if (d.obj x.histHandle).isSome then some (x.histHandle, d)
      else d.createObj (slotDie slot) 2 x.sid x.partition 0
    match made with
    | none => none
    | some (hd, d) =>
      let new := hd != x.histHandle
      match d.growObj hd (ceilDiv (4 * x.histLen) 16384) with
      | none => none
      | some d =>
        let lo := if new then 0 else x.histDurable
        let body := ((d.sess slot).hist.drop lo).flatMap (leBytes 4)
        let d := d.updDesc slot fun x => { x with histHandle := hd }
        let d := d.writeObj hd (4 * lo) body
        let d := if new then d.updSess slot fun y => { y with histOpen := false } else d
        let d := d.mirrorHist slot lo x.histLen
        let d := d.stateSync slot (((d.sess slot).hist.drop x.histDurable).flatMap (leBytes 4))
        some ((d.noteDurable slot).refresh slot)

/-! ## Images (R197, R198, R352) -/

/-- A park of the session is written at MX4 (R198, R329). -/
def Dev.parkMx4 (d : Dev) (slot : Nat) : Bool :=
  let x := d.sess slot
  let f := (d.prof x).storeFmt
  x.d.mx4 && d.gi F.PRK_POLICY_MX4_OK x.d.partition == 1 && f != 7 && f != 9
/-- Bytes per position and layer of an image (R352). -/
def imgBytes (p : Profile) (mx4 : Bool) : Nat := if mx4 then slotBytesOf 7 p.dc p.dr else p.slotBytes
/-- Leaf runs of a layer for `n` positions. -/
def runsFor (n : Nat) : Nat := ceilDiv n 32768
/-- Pages of an image of `n` positions (R352). -/
def imagePages (p : Profile) (n : Nat) (mx4 : Bool) : Nat :=
  1 + p.layers * ceilDiv (n * imgBytes p mx4 + 64 * ceilDiv n 64) 16384 +
    (if p.selGroups = 0 then 0 else ceilDiv (p.layers * runsFor n * 36864) 16384)

/-- A page trailer (R185). -/
def Frame.trailer (f : Frame) : Bytes :=
  pack 64 [⟨0, 0, 8, f.fmt⟩, ⟨0, 8, 8, 1⟩, ⟨0, 16, 1, b2n f.parkFid⟩, ⟨8, 0, 64, f.written⟩, ⟨0x10, 0, 32, f.ofsLat⟩,
    ⟨0x10, 32, 32, f.ofsRot⟩]
/-- The trailer of a frame that is read back (R185). -/
def Frame.withTrailer (f : Frame) (t : Bytes) : Frame :=
  { f with
    parkFid := fieldAt t 0 16 1 == 1
    written := leAt t 8 8
    ofsLat := leAt t 0x10 4
    ofsRot := leAt t 0x14 4 }
/-- The payload of a page: its slots and its trailer (R106). -/
def Dev.pageBytes (d : Dev) (m : Memory) (p : Profile) (id : Nat) : Bytes :=
  m.readN (d.frameAddr id) (64 * p.slotBytes) ++ (d.frame id).trailer
/-- The entry of a position of a layer. -/
def Session.entry (x : Session) (layer pos : Nat) : Option Pte := NMap.get? x.pt (layer * 65536 + pos / 64)
/-- The payload of a page of a session's layer; zeros where it has none. -/
def Dev.pageOf (d : Dev) (m : Memory) (x : Session) (layer k : Nat) : Bytes :=
  match x.entry layer (64 * k) with
  | some e => d.pageBytes m (d.prof x) e.pageId
  | none => List.replicate (pagePayload (d.prof x).slotBytes) 0
/-- A slot of a page at the fidelity of an image (R197). -/
def Profile.imageSlot (p : Profile) (mx4 : Bool) (page : Bytes) (i : Nat) : Bytes :=
  let raw := slice page (i * p.slotBytes) p.slotBytes
  if mx4 then
    let t := 64 * p.slotBytes
    let (lat, rot) := decSlot p.storeFmt p.dc p.dr (ofF32 (leAt page (t + 0x10) 4)) (ofF32 (leAt page (t + 0x14) 4)) raw
    encSlot 7 0 0 lat rot
  else raw
/-- Zero padding to a multiple of `k`. -/
def padUp (k : Nat) (bs : Bytes) : Bytes := bs ++ List.replicate (ceilDiv bs.length k * k - bs.length) 0
/-- A layer section of an image of `n` positions, from the payloads of the layer's pages (R352). -/
def Profile.layerSection (p : Profile) (mx4 : Bool) (n : Nat) (page : Nat → Bytes) : Bytes :=
  padUp 16384 ((List.range (ceilDiv n 64)).flatMap (fun k =>
      (List.range (min 64 (n - 64 * k))).flatMap (p.imageSlot mx4 (page k))) ++
    (List.range (ceilDiv n 64)).flatMap fun k => slice (page k) (64 * p.slotBytes) 64)
/-- Blocks 1 to 9 of a leaf run (R207). -/
def Session.runBytes (x : Session) (layer j : Nat) : Bytes :=
  let sig (i : Nat) : Option Nat := NMap.get? x.sigs (layer * 65536 + 512 * j + i)
  let crs (b : Nat) : Option Nat := NMap.get? x.coarse (layer * 1024 + 8 * j + b)
  let bit (b : Bool) (i : Nat) : Nat := if b then 2 ^ i else 0
  (List.range 8).flatMap (fun b => leBytes 64 ((crs b).getD 0)) ++
    leBytes 64 (((List.range 512).map fun i => bit (sig i).isSome i).foldl (· + ·) 0) ++
    leBytes 1 (((List.range 8).map fun b => bit (crs b).isSome b).foldl (· + ·) 0) ++ List.replicate 3519 0 ++
    (List.range 512).flatMap fun i => leBytes 64 ((sig i).getD 0)
/-- The bytes of an image after its header page, from the payloads of the session's pages. -/
def Dev.imageBody (d : Dev) (x : Session) (mx4 : Bool) (page : Nat → Nat → Bytes) : Bytes :=
  let p := d.prof x
  let n := x.d.committed
  let sigs := if p.selGroups = 0 then []
    else padUp 16384 ((List.range p.layers).flatMap fun l => (List.range (runsFor n)).flatMap fun j => x.runBytes l j)
  ((List.range p.layers).flatMap fun l => p.layerSection mx4 n (page l)) ++ sigs
/-- An image whole: header page, layer sections, signatures (R352). -/
def Dev.imageOf (d : Dev) (slot : Nat) (mx4 : Bool) (page : Nat → Nat → Bytes) : Bytes :=
  let x := d.sess slot
  let p := d.prof x
  let body := d.imageBody x mx4 page
  let head := pack 32 [⟨0, 0, 32, 0x51494D47⟩, ⟨0, 32, 16, 1⟩, ⟨8, 0, 64, x.d.sid⟩, ⟨0x10, 0, 23, x.d.committed⟩,
    ⟨0x10, 23, 9, p.layers % 256⟩, ⟨0x10, 32, 8, p.storeFmt⟩, ⟨0x10, 40, 8, if mx4 then 7 else p.storeFmt⟩,
    ⟨0x18, 0, 32, imgBytes p mx4⟩]
  padTo 16384 (padTo 0x40 head ++ padTo 0xC0 (padTo 48 (Config.sha384 body)) ++ x.d.bytes) ++ body
/-- An image's digest verifies (R352). -/
def imageOk (img : Bytes) : Bool := padTo 48 (Config.sha384 (img.drop 16384)) == slice img 0x40 48

/-! ## The estimator (R322 to R324) -/

/-- Frames that a session holds alone. -/
def Dev.ownFrames (d : Dev) (slot : Nat) : List Frame :=
  ((d.sess slot).pt.map fun e => d.frame e.2.pageId).filter (·.refcount == 1)
/-- A frame is hot (R128). -/
def Dev.isHot (d : Dev) (f : Frame) : Bool := d.g F.PGS_TRACK_HOT_THRESH ≤ f.heat
/-- Bytes in the write queues of a half, dirty pages of its map among them, and in its buffer (R322, R359). -/
def Dev.qWrite (d : Dev) (h : Nat) : Nat :=
  let x := d.half h
  16384 * (x.queued.length + x.buffer.length + x.dirty.length + x.dirtyDir.length)
/-- Bytes in the read queues of a half: images that revives read, pages of history buffers that have not been fetched, and the valid pages
of blocks queued for refresh, retention or evacuation (R322, R359, R413). -/
def Dev.qRead (d : Dev) (h : Nat) : Nat :=
  let x := d.half h
  let moves := (x.refreshQ ++ x.retainQ ++ x.evacQ).foldl (fun a b => a + 16384 * (x.validOf b).length) 0
  (d.prk.revives.filter fun e => slotDie e.1 == h).foldl (fun a e =>
    a + ((d.obj e.2.reading).map (·.length)).getD 0 +
      ((e.2.region.bind fun i => NMap.get? d.hall.regions i).map fun r => 65536 * r.absent.length).getD 0) moves

/-- Percent of a die's hall-role port capacity in use over the last millisecond, as PRK_FAB shows it (R322, R343): traffic and
timing fix it, so it is a free value, but for the value at reset (log entry 40). -/
def Dev.fabLoad (d : Dev) (die : Nat) : Nat :=
  let f := if die = 0 then F.PRK_FAB_RHO_W else F.PRK_FAB_RHO_E
  if d.now = 0 then d.g f else Config.shown f.addr f.lo d.now % 101

/-- The costs that the estimator weighs (R323). -/
structure Costs where
  keep : Rat := 0
  park : Rat := 0
  hist : Rat := 0
  rev : Rat := 0
  deriving DecidableEq, Repr

/-- The estimator (R323): every operation rounded to FP32 in the order written. -/
def Dev.estimate (d : Dev) (slot : Nat) : Costs :=
  let x := d.sess slot
  let p := d.prof x
  let die := slotDie slot
  let r (q : Rat) : Rat := rne32 q
  let nat (k : Nat) : Rat := rne32 (k : Rat)
  let n := nat x.d.committed
  let l := nat p.layers
  let own := d.ownFrames slot
  let u := nat (own.foldl (fun a f => a + classUnits f.cls) 0)
  let w := if own.isEmpty then 0 else r (((own.filter d.isHot).length : Rat) / own.length)
  let avail := nat (d.avail die p.cls)
  let pages := nat (d.g F.PGS_BRIM_PAGES)
  let rho := min (r ((d.fabLoad die : Rat) / 100)) (r (95 / 100))
  let rate (f : Fld) : Rat := r (nat (d.g f) * 1000)
  let fab := r (1 - rho)
  let b := r (r (n * l) * nat (imgBytes p (d.parkMx4 slot)))
  let pi := if pages = 0 then 0 else min 64 (r (pages / max (r (avail - pages)) 1))
  let rev := r (r (nat (d.qRead die) + b) / rate F.PRK_RATES_READ_GBS)
  let wr := max (r (r (nat (d.qWrite die) + b) / rate F.PRK_RATES_WRITE_GBS)) (r (b / r (rate F.PRK_RATES_FAB_GBS * fab)))
  let kHold := ofF32 (d.g F.PRK_COEF0_K_HOLD)
  let kWr := ofF32 (d.g F.PRK_COEF0_K_WR)
  let kFix := ofF32 (d.g F.PRK_COEF1_K_FIX)
  let kTok := ofF32 (d.g F.PRK_COEF1_K_TOK)
  let kTok2 := ofF32 (d.g F.PRK_COEF2_K_TOK2)
  let quad := r (r (r (kTok2 * n) * n) / 1000000)
  let push := r (r (r (n * l) * nat p.slotBytes) / r (rate F.PRK_RATES_PUSH_GBS * fab))
  { keep := r (r (r (kHold * u) * pi) * r (1 - r (w / 2)))
    park := r (rev + r (kWr * wr))
    hist := r (r (r (kFix + r (kTok * n)) + quad) + push)
    rev := rev }

/-- The hamper is full for a park of the session (R358). -/
def Dev.fullForPark (d : Dev) (slot : Nat) : Bool :=
  let x := d.sess slot
  d.freePages (slotDie slot) < imagePages (d.prof x) x.d.committed (d.parkMx4 slot) + d.histMore slot
/-- PARK, or WARM placement, is blocked: 2 by the dirty ceiling, 3 by a full hamper (R324, R327). -/
def Dev.parkBlocked (d : Dev) (slot : Nat) : Option Nat :=
  if d.ceiling then some 2 else if d.fullForPark slot then some 3 else none
/-- HISTORY is blocked at idle expiry: pending tokens and no room for them (R324, R358, R369). -/
def Dev.histBlocked (d : Dev) (slot : Nat) : Bool := decide (d.histRoom (slotDie slot) < d.histMore slot)

/-! ## Hints (R325 to R328) -/

/-- What the controller does with a session at a decision (R324, R535). -/
inductive Action where
  | keep | park | history
  deriving DecidableEq, Repr
/-- The code of an action (R535). -/
def Action.code : Action → Nat | .keep => 0 | .park => 1 | .history => 2

/-- An override is reported (R328). -/
def Dev.override (d : Dev) (slot reason : Nat) (a : Action) : Dev :=
  let x := (d.sess slot).d
  let e : Event := { typ := 0x06, subject := x.sid, status := Status.policyOverridden.code, cause := reason, args := [x.hint, a.code] }
  let d := d.sat F.PRK_CNT1_OVERRIDDEN 1
  match d.turnCtx slot with
  | some i => (d.updCtx i fun c => { c with overridden := true }).post (d.ctx i).fn (d.ctx i).eq { e with hseq := (d.ctx i).hseq }
  | none => (d.updSess slot fun x => { x with overridden := true }).postSess slot e

/-- The cheapest of the candidates that are not blocked; ties go to KEEP, then PARK, then HISTORY (R324). -/
def cheapest (c : Costs) (keep park hist : Bool) : Option Action :=
  let all := (if keep then [(Action.keep, c.keep)] else []) ++ (if park then [(Action.park, c.park)] else []) ++
    (if hist then [(Action.history, c.hist)] else [])
  (all.foldl (fun b x => match b with
    | none => some x
    | some (y : Action × Rat) => if x.2 < y.2 then some x else some y) none).map (·.1)

/-- The decision at idle expiry, and the reason of an override (R324 to R326, R343). -/
def Dev.idleChoice (d : Dev) (slot : Nat) : Action × Option Nat :=
  let pb := d.parkBlocked slot
  let hb := d.histBlocked slot
  match (d.sess slot).d.hint with
  | 1 => (.keep, none)
  | 2 => match pb with
    | none => (.park, none)
    | some why => (if hb then .keep else .history, some why)
  | 3 => if hb then (.keep, some 3) else (.history, none)
  | _ =>
    if d.on F.PRK_CTL_EST_EN then ((cheapest (d.estimate slot) true pb.isNone (!hb)).getD .keep, none) else (.keep, none)

/-! ## Parks (R330 to R337) -/

/-- A park under way. -/
def Dev.park (d : Dev) (slot : Nat) : Option Park := NMap.get? d.prk.parks slot
/-- The parks with one changed. -/
def Dev.setPark (d : Dev) (slot : Nat) (p : Park) : Dev := { d with prk := { d.prk with parks := NMap.put d.prk.parks slot p } }
/-- A park is over. -/
def Dev.endPark (d : Dev) (slot : Nat) : Dev := { d with prk := { d.prk with parks := NMap.del d.prk.parks slot } }
/-- An event of a park goes to the queue of its command, or of its partition's policy (R533). -/
def Dev.parkEvent (d : Dev) (slot : Nat) (p : Park) (e : Event) : Dev :=
  d.post p.fn p.eq { e with subject := (d.sess slot).d.sid, hseq := p.hseq }
/-- The session's tier has changed: its completion is posted, mirror and home are told (R330, R334, R428). -/
def Dev.tierDone (d : Dev) (slot row fn eq hseq : Nat) (st : Status) : Dev :=
  let x := (d.sess slot).d
  (d.post fn eq { typ := 0x05, subject := x.sid, status := st.code, hseq := hseq, args := [x.tier.code, x.state.code, row] }).refresh slot

/-- Release of a session's image and of its mirrored image (R336, R339). -/
def Dev.releaseImage (d : Dev) (slot : Nat) : Dev :=
  let x := (d.sess slot).d
  let d := if x.imageHandle = 0 then d else d.askRelease x.imageHandle
  let d := if x.mirrorValid && x.buddy != 0 then d.toBuddy slot 5 3 0 0 [] else d
  d.updDesc slot fun x => { x with
    imageValid := false
    imageMx4 := false
    mirrorValid := false
    imageHandle := 0 }
/-- The pages of a session lie in another controller's HBM: it is WARM, or was when the park under way began (R28, R337). -/
def Dev.isWarm (d : Dev) (slot : Nat) : Bool :=
  (d.sess slot).d.tier == .warm || ((d.park slot).map (·.fromWarm)).getD false
/-- The holder of a WARM session's pages is told to release them (R337). -/
def Dev.dropWarm (d : Dev) (slot : Nat) : Dev :=
  let x := d.sess slot
  if d.isWarm slot then d.emit (.warm x.warmHolder.ctrl x.d.sid true 0) else d

/-- A session becomes PARKED: its references, pool blocks, grammar area, mask slot and history buffer are released (R331
step 6). -/
def Dev.toParked (d : Dev) (slot row : Nat) (p : Park) : Dev :=
  let d := d.dropWarm slot
  let d := ((d.dropTable slot).releaseArea slot).updDesc slot fun x => { x with histAddr := 0 }
  let d := (d.setState slot .parked .parked).sat F.PRK_CNT0_PARKS 1
  (d.endPark slot).tierDone slot row p.fn p.eq p.hseq .ok
/-- A session becomes HISTORY, but for COMMITTED (R336). -/
def Dev.becomeHistory (d : Dev) (slot row fn eq hseq : Nat) : Dev :=
  let d := d.dropWarm slot
  let d := ((d.dropTable slot).releaseArea slot).releaseImage slot
  let d := d.updSess slot fun x => { x with
    pendHistory := false
    d := { x.d with histAddr := 0 } }
  let d := (d.setState slot .history .history).sat F.PRK_CNT0_HISTORY 1
  (d.endPark slot).tierDone slot row fn eq hseq .ok
/-- A session becomes HISTORY where COMMITTED may become 0 with it: at a row boundary, or from PARKED (R78, R336). -/
def Dev.toHistory (d : Dev) (slot row fn eq hseq : Nat) : Dev :=
  (d.updDesc slot fun x => { x with committed := 0 }).becomeHistory slot row fn eq hseq
/-- A session becomes WARM: the local frames are released, the state stays (R337). Its signatures, which belong to the page
table and not to the frames, are kept (R209). -/
def Dev.toWarm (d : Dev) (slot row : Nat) (p : Park) : Dev :=
  let old := d.sess slot
  let d := ((d.dropTable slot).releaseArea slot).updSess slot fun x => { x with
    warmHolder := p.holder
    sigs := old.sigs
    coarse := old.coarse
    d := { x.d with tier := .warm, histAddr := 0 } }
  ((d.idleStart slot).endPark slot).tierDone slot row p.fn p.eq p.hseq .ok

/-- A park takes effect (R331 step 6, R336, R337). -/
def Dev.finishPark (d : Dev) (slot row : Nat) (p : Park) : Dev :=
  if p.target = 0 then d.toParked slot row p
  else if p.target = 1 then d.toHistory slot row p.fn p.eq p.hseq
  else d.toWarm slot row p

/-- Every range of a split session on another controller has reported its image durable: PARKING with tier PARKED, or PARKED (R28,
R333). -/
def Session.rangesParked (x : Session) : Bool :=
  !x.d.split || x.ranges.all fun r => r.tier == .parked && (r.state == .parking || r.state == .parked)
/-- A park has all that it waits for: the image durable and its mirror acknowledged, on every range of a split session, the history
durable, or the copy acknowledged (R331, R333, R336, R337). -/
def Dev.parkReady (d : Dev) (slot : Nat) (p : Park) : Bool :=
  let x := (d.sess slot).d
  let hist := x.histLen == x.histDurable
  if p.target = 0 then
    hist && d.objDurable p.handle && (!p.needMirror || p.mirrored) && (d.sess slot).rangesParked
  else if p.target = 1 then hist
  else hist && p.mirrored
/-- A park that has all it waits for becomes durable, and the tier of a park to IMAGE is then PARKED (R28, R331 step 5); with no
group running, and from PARKED, it takes effect at once (R336). The change of tier refreshes the mirrored descriptor and is reported to the home
(R333, R334, R428). -/
def Dev.checkPark (d : Dev) (slot : Nat) : Dev :=
  let d := d.noteDurable slot
  match d.park slot with
  | none => d
  | some p =>
    if p.durable || !d.parkReady slot p then d
    else
      let p := { p with durable := true }
      let d := d.setPark slot p
      let d := if p.target = 0 then d.updDesc slot fun x => { x with
          imageValid := true
          imageMx4 := p.mx4
          mirrorValid := p.needMirror
          imageHandle := p.handle
          tier := .parked }
        else d
      let d := if p.target = 0 then d.refresh slot else d
      if d.noGroupRuns then (d.finishPark slot (d.sess slot).d.lastRow p).reclaimFrames.reclaimBlocks
      else if (d.sess slot).d.state = .parked then d.finishPark slot (d.sess slot).d.lastRow p
      else d

/-- The image of a park is written and mirrored (R331 steps 3 and 4); none if the hamper cannot reserve its pages. -/
def Dev.stageImage (d : Dev) (slot : Nat) (p : Park) (page : Nat → Nat → Bytes) : Option Dev :=
  let x := d.sess slot
  let mx4 := d.parkMx4 slot
  let img := d.imageOf slot mx4 page
  match d.createObj (slotDie slot) 1 x.d.sid x.d.partition (imagePages (d.prof x) x.d.committed mx4) with
  | none => none
  | some (hd, d) =>
    let d := d.writeObj hd 0 img
    let mirror := x.d.buddy != 0
    let d := if mirror then
        ((d.toBuddy slot 1 3 0 img.length []).mirrorData slot 3 0 img).toBuddy slot 3 3 0 img.length
          (padTo 48 (Config.sha384 img))
      else d
    some ((d.setPark slot { p with
      mx4 := mx4
      handle := hd
      needMirror := mirror
      mirrorDeadline := if mirror then some (d.now + p.mirrorMs * 1000000) else none }).checkPark slot)
/-- A park begins (R331, R336, R337): none if the hamper cannot reserve what it needs. The image of a WARM session waits
for its pages, which its holder is asked for; while it is PARKING its tier is shown HOT, the only one that R28 lists before the image
is durable (log entry 40). -/
def Dev.beginPark (d : Dev) (m : Memory) (slot target : Nat) (holder : WarmHolder) (fn eq hseq : Nat) : Option Dev :=
  match d.flushHist slot with
  | none => none
  | some d =>
    let x := d.sess slot
    let p : Park :=
      { target := target
        holder := holder
        mirrorMs := d.g F.PRK_TIMING_MIRROR_MS
        fn := fn
        eq := eq
        hseq := hseq }
    if target = 0 then
      if x.d.tier = .warm then
        let bytes := (d.prof x).layers * ceilDiv x.d.committed 64 * pagePayload (d.prof x).slotBytes
        let d := ((d.setPark slot { p with fromWarm := true }).setState slot .parking .hot).refresh slot
        some ((d.tellRanges slot 0).fetch x.warmHolder x.d.sid x.d.partition bytes)
      else (((d.setState slot .parking x.d.tier).heatSession slot).stageImage slot p (d.pageOf m x)).map fun d => d.tellRanges slot 0
    else if target = 1 then
      some ((((d.updSess slot fun x => { x with pendHistory := true }).setPark slot p).tellRanges slot 1).checkPark slot)
    else
      let bytes := x.pt.length * pagePayload (d.prof x).slotBytes
      let pages := x.pt.flatMap fun e => d.pageBytes m (d.prof x) e.2.pageId
      let d := d.heatSession slot
      some ((((d.emit (.warm holder.ctrl x.d.sid false bytes)).write holder.ctrl holder.region holder.gen holder.addr x.d.partition
        pages).setPark slot p).tellRanges slot 2 holder.ctrl)

/-- A park is abandoned (R332), or a move to HISTORY that has not taken effect (R336). For a split session the home has every range
abandon it, and a range reports it to the home, as any change of tier is (R333, R428). A park of a WARM session whose image is durable takes effect instead: the session
is PARKED by then, and no PARKED session becomes WARM or has pages here (R28, R29; DESIGN CHOICE, log entry 40). -/
def Dev.abandonPark (d : Dev) (slot cause : Nat) : Dev :=
  match d.park slot with
  | none => d
  | some p =>
    let x := (d.sess slot).d
    if p.target = 0 ∧ p.fromWarm ∧ p.durable then d.finishPark slot x.lastRow p
    else
    let d := d.parkEvent slot p { typ := 0x07, cause := cause }
    if p.target = 0 then
      let d := if p.handle = 0 then d else d.askRelease p.handle
      let d := if p.needMirror then d.toBuddy slot 5 3 0 0 [] else d
      let d := d.updDesc slot fun x => { x with
        imageValid := false
        imageMx4 := false
        mirrorValid := false
        imageHandle := 0 }
      let d := (d.endPark slot).sat F.PRK_CNT1_ABANDONED 1
      let d := if cause = 5 then d.sat F.PRK_CNT1_MIRROR_FAIL 1 else d
      ((d.setState slot (restState x) (if p.fromWarm then .warm else .hot)).refresh slot).tellRanges slot 4
    else
      let d := if p.target = 2 then d.emit (.warm p.holder.ctrl x.sid true 0) else d
      let d := d.tellRanges slot 4
      (d.endPark slot).updSess slot fun x => { x with pendHistory := false }

/-- Parks that are durable take effect at step 4 of a boundary: those of the group's sessions, and of sessions whose group
runs no rows (R331 step 6, R336, R337). -/
def Dev.parksAt (d : Dev) (g row : Nat) : Dev :=
  (NMap.keys d.prk.parks).foldl (fun (d : Dev) slot =>
    let d := d.checkPark slot
    match d.park slot with
    | none => d
    | some p =>
      let x := (d.sess slot).d
      let r := if x.group = g then row else x.lastRow
      if p.durable && (x.group == g || d.phase x.group == 0) then d.finishPark slot r p else d) d

/-- PARK's answer by state (R89). -/
def parkState (x : Session) (target : Nat) : Option Status :=
  match x.d.state with
  | .open | .waiting => if x.d.turnQueued || x.d.ctxValid then some .busy else none
  | .parking => some .dup
  | .parked => if target = 0 then some .dup else if target = 1 then none else some .badParam
  | .history => if target = 1 then some .dup else some .badParam
  | .closed => some .badParam
  | _ => some .busy

/-- A move that a PARK asked for and that has not taken effect gives way to a later PARK: its holder is told to release what it took
(R89, R91; log entry 40). -/
def Dev.supersede (d : Dev) (slot : Nat) : Dev :=
  match d.park slot with
  | none => d
  | some p =>
    let d := if p.target = 2 then d.emit (.warm p.holder.ctrl (d.sess slot).d.sid true 0) else d
    (d.endPark slot).updSess slot fun x => { x with pendHistory := false }
/-- RETRY_US of a PARK at the dirty ceiling: the time in which what has reached it falls to 7/8 of its field, in whole milliseconds and at
least one; the rate at which the half drains is a free value (R357; log entry 2). -/
def Dev.ceilingRetry (d : Dev) : Nat × Dev :=
  let (v, d) := d.draw
  let excess (q mib : Nat) : Nat := q - mib * 2 ^ 20 * 7 / 8
  let left := max (excess d.mapDelta (d.g F.HMP_DIRTY_CEIL_DELTA_MIB)) (excess d.bufBytes (d.g F.HMP_DIRTY_CEIL_BUF_MIB))
  (1000 * min 4294967 (max 1 (ceilDiv left (v % 2 ^ 32 + 1))), d)
/-- PARK (R89, R330). A holder that refuses is known before the command is answered (R330). A PARKED session becomes HISTORY at once where its history is durable, and else once it is (R30, R336). -/
def Dev.parkCmd (d : Dev) (m : Memory) (h : Hdr) (slot : Nat) (asked : WarmHolder) (target : Nat) : Res :=
  let x := d.sess slot
  let holder := asked.ctrl
  match parkState x target with
  | some st => d.res st
  | none =>
    if x.d.tier = .warm ∧ target = 2 then d.res .dup
    else if x.d.state = .parked ∧ x.d.histLen ≤ x.d.histDurable then
      (((d.supersede slot).tellRanges slot 1).toHistory slot x.d.lastRow h.fn h.eq h.hseq).res .ok
    else if target = 2 ∧ (holder = d.self ∨ !(d.own.domains.any fun e => e.1 == holder &&
        d.own.domains.any fun f => f.1 == d.self && f.2 == e.2)) then d.res .badParam
    else if !d.hready (slotDie slot) then d.retry (d.startRetryUs)
    else
      let blocked := if target = 1 then (if d.histBlocked slot then some 3 else none) else d.parkBlocked slot
      match blocked with
      | some 2 =>
        let (us, d) := d.ceilingRetry
        d.retry us
      | some _ => d.res .noSpace
      | none => if target = 2 ∧ !asked.room then d.res .noSpace else match (d.supersede slot).beginPark m slot target asked h.fn h.eq h.hseq with
        | some d => d.res .ok
        | none => d.res .noSpace

/-- PARK. -/
def execPark (h : Hdr) (sid : Nat) (holder : WarmHolder) (target : Nat) : State → Host.Outcome State Fault Refusal :=
  onDev fun m d =>
    d.command h 0x0401 (d.mayUse h.fn sid true) (target ≤ 2) false fun d => d.needs parkBlocks fun d =>
      d.onSession h sid fun slot d => d.parkCmd m h slot holder target

/-- The image of a park is durable and its mirror acknowledged, or the history of a move to HISTORY is durable (R331,
R336). -/
def execParkDurable (sid : Nat) : State → Host.Outcome State Fault Refusal :=
  onDev fun _ d => match d.slotOf sid with
    | some slot => d.checkPark slot
    | none => d

/-- No acknowledgement of the buddy within MIRROR_MS (R332). -/
def execMirrorTimeout (sid : Nat) : State → Host.Outcome State Fault Refusal :=
  onDev fun _ d => match d.slotOf sid with
    | none => d
    | some slot => match d.park slot with
      | none => d
      | some p => match p.mirrorDeadline with
        | some t => if p.mirrored || !p.needMirror then d else (d.reach t).abandonPark slot 5
        | none => d

/-- The payloads of a session's pages in a string of whole pages, layer by layer. -/
def pageIn' (payload perLayer : Nat) (data : Bytes) (layer k : Nat) : Bytes :=
  padTo payload (slice data ((layer * perLayer + k) * payload) payload)
/-- The idle timer of a session expires (R90, R321, R324 to R328). -/
def execIdleToPark (sid : Nat) : State → Host.Outcome State Fault Refusal :=
  onDev fun m d => match d.slotOf sid with
    | none => d
    | some slot =>
      let x := d.sess slot
      if !idleCond x.d || x.d.idleSince = 0 || !d.on F.PRK_CTL_EN || (d.park slot).isSome || !d.owns slot ||
          !d.hready (slotDie slot) then d
      else
        let d := d.reach (x.d.idleSince + x.idleMs * 1000000)
        let (a, why) := d.idleChoice slot
        let d := match why with
          | some r => d.override slot r a
          | none => d
        let eq := d.gi F.PRK_POLICY_EQ x.d.partition
        match a with
        | .keep => d.idleStart slot
        | .park => (d.beginPark m slot 0 {} x.d.partition eq 0).getD (d.idleStart slot)
        | .history => (d.beginPark m slot 1 {} x.d.partition eq 0).getD (d.idleStart slot)

/-! ## SET_PARK_POLICY (R325, R329) -/

/-- The hint that a session will have. -/
def Session.hintNext (x : Session) : Nat := x.pendHint.getD x.d.hint
/-- Sessions of a partition with PIN_HOT (R344). -/
def Dev.pinned (d : Dev) (p : Nat) : Nat :=
  NMap.cnt d.ses.tab fun _ x => x.d.partition == p && x.hintNext == 1 && x.d.state != .closed
/-- Hint and fidelity that wait take effect (R41, R329). -/
def Dev.applyPolicy (d : Dev) (slot : Nat) : Dev :=
  d.updSess slot fun x => { x with
    pendHint := none
    pendMx4 := none
    d := { x.d with hint := x.pendHint.getD x.d.hint, mx4 := x.pendMx4.getD x.d.mx4 } }
/-- SET_PARK_POLICY (R329). -/
def Dev.parkPolicy (d : Dev) (slot hint : Nat) (mx4 : Bool) : Res :=
  let x := d.sess slot
  let p := x.d.partition
  if x.d.state = .closed then d.res .badParam
  else if hint ≠ 0 ∧ !bitOf (d.gi F.PRK_POLICY_HINTS_OK p) (hint - 1) then d.res .denied
  else if mx4 ∧ d.gi F.PRK_POLICY_MX4_OK p = 0 then d.res .denied
  else if hint = 1 ∧ x.hintNext ≠ 1 ∧ d.gi F.PRK_POLICY_PIN_MAX p < d.pinned p + 1 then d.res .noSpace
  else if x.d.state = .migrating then d.res .busy
  else
    let d := d.updSess slot fun x => { x with
      pendHint := some hint
      pendMx4 := some mx4 }
    (if d.noGroupRuns then d.applyPolicy slot else d).res .ok

/-- SET_PARK_POLICY. -/
def execSetParkPolicy (h : Hdr) (sid hint fidelity : Nat) : State → Host.Outcome State Fault Refusal :=
  onDev fun _ d =>
    d.command h 0x0404 (d.mayUse h.fn sid true) (hint ≤ 3 && fidelity ≤ 1) false fun d => d.needs [] fun d =>
      d.onSession h sid fun slot d => d.parkPolicy slot hint (fidelity == 1)

end Sys2Proof.Machine
end

