-- ==== Sys2Proof/Machine/Admit.lean ====
section
/-! DEFINITION. The plan of a row and its admission: planned engine time, spans, fit tests, placement, reservations,
victims, deferrals and hold-outs (R122, R125, R133 to R139, R159, R168, R216, R220, R239, R251 to R254, R259, R266, R267,
R277, R278, R466, R473, R476, R480 to R482, R488). -/
namespace Sys2Proof.Machine
open Sys2Proof

/-! ## Orders -/

/-- Keys in lexicographic order. -/
def keyLe : List Int → List Int → Bool
  | [], _ => true
  | _ :: _, [] => false
  | a :: as, b :: bs => if a < b then true else if b < a then false else keyLe as bs
/-- An element put before the first that it sorts below, after its equals. -/
def insertBy {α : Type} (key : α → List Int) (x : α) : List α → List α
  | [] => [x]
  | y :: ys => if keyLe (key y) (key x) then y :: insertBy key x ys else x :: y :: ys
/-- A list in ascending order of a key; equals stay in their order. -/
def sortBy {α : Type} (key : α → List Int) (xs : List α) : List α := xs.foldl (fun ys x => insertBy key x ys) []

/-! ## Planned engine time (R168, R182, R216, R220, R253, R479, R480) -/

/-- Work that a row holds for a session on its home die: its slot, first position and positions fed. -/
structure RowWork where
  slot : Nat := 0
  first : Nat := 0
  npos : Nat := 1
  chunk : Bool := false
  /-- The session is pushed to: its engine reads and signs the pages that the push fills (R205, R220). -/
  push : Bool := false
  /-- BACKWARD work, at 2.5 times the forward array time (R171); no role of a batch list plans any (log entry 73). -/
  back : Bool := false
  deriving DecidableEq, Repr

/-- Engines of a die that serve a partition: all live ones, or under STRICT those dealt to it (R480). -/
def Dev.enginesOf (d : Dev) (die p : Nat) : List Nat :=
  let live := d.liveEngines die
  if !d.strict then live else live.filter fun e => NMap.getD d.iso.dealt e 0 == p
/-- An engine's share of HBM bandwidth in bytes per cycle (R168, R479). -/
def Dev.shareOf (d : Dev) (die p : Nat) : Rat :=
  if d.strict then (80000 / 9 : Rat) * d.partSlots p / 64 / max 1 (d.enginesOf die p).length else 2500 / 9

/-- The array's rate of a product as a factor of the 8-bit time (R182). -/
def arrayRate (compute other : Nat) : Rat :=
  if compute = 1 ∨ compute = 2 ∨ other = 1 ∨ other = 2 then 2 else if other = 7 ∨ other = 9 then 1 / 2 else 1
/-- Array time of a page for the rows of a session (R168). In SPLIT_KV kind each of the Hkv groups takes the rows of its own heads, H_rows /
Hkv rounded up (DESIGN CHOICE; log entry 73). -/
def Profile.cPage (p : Profile) (rows : Nat) : Rat :=
  let c := if p.splitKv then ceilDiv (ceilDiv rows p.hkv) 128 * 64 * (2 * p.dh) * p.hkv
    else ceilDiv rows 128 * 64 * (2 * p.dc + p.dr)
  (c : Rat) / 256 * arrayRate p.computeFmt p.storeFmt
/-- Time of a page, backward or forward (R168, R171). -/
def Profile.tPage (p : Profile) (share : Rat) (rows : Nat) (back : Bool := false) : Rat :=
  max (if back then 5 / 2 * p.cPage rows else p.cPage rows) ((pagePayload p.slotBytes : Rat) / share)
/-- Time of an absorption or closing block (R168). -/
def Profile.tBlock (p : Profile) (share : Rat) : Rat :=
  let x : Rat := (p.heads * p.dh * p.dc : Nat)
  max (x / 256 * arrayRate p.computeFmt p.weightFmt) (x * fmtBits p.weightFmt / 8 / share)
/-- Blocks that a stream of a kind forms per block of rows: one for each HEAD form (R146, R147). -/
def Weave.headForms (w : Weave) (kind : Nat) : Nat :=
  match w.streams.find? fun s => s.kind == kind with
  | some s => b2n (!s.latentIn) + b2n (!s.latentOut)
  | none => 0

/-- Pages of its range that a session attends at a layer in a row, counted per span (R27, R145, R159, R210, R216): the index of each
span, and its pages. Under SELECT the pages present are those that hold a position before the row's, and the pages that a chunk writes
come on top of the bound. A range without such a page still has one span, which gathers and answers. -/
def Dev.spanPages (d : Dev) (x : Session) (w : RowWork) (window : Nat) : List (Nat × Nat) :=
  let p := d.prof x
  let span := d.g F.ATT_CTL_SPAN_PAGES
  let last := (w.first + w.npos - 1) / 64
  let (a, b) := x.d.pageSpan last
  let bound := p.selSink + p.selLocal + p.selGroups * p.selK
  let out : List (Nat × Nat) :=
    if x.d.select ∧ window = 0 then
      let n := if w.chunk then min (min bound (min b (ceilDiv w.first 64) - a) + (b - max a (w.first / 64))) (b - a)
        else min bound (b - a)
      (List.range (ceilDiv n span)).map fun j => (j, min span (n - span * j))
    else
      let lo := max a (if window = 0 then 0 else (w.first + 1 - window) / 64)
      ((List.range (last / span + 1)).filter fun j => lo < min b (span * (j + 1)) && span * j < b).map fun j =>
        (j, min b (span * (j + 1)) - max lo (span * j))
  if out.isEmpty then [(0, 0)] else out
/-- Full pages of a layer that a session's push has still to fill (R205, R220, R261): which of them the planned row will fill is not known at
admission, and all are counted (DESIGN CHOICE, log entry 73). -/
def Dev.pushPages (d : Dev) (slot layer : Nat) : Nat :=
  match d.att.pushes.find? fun u => u.slot == slot with
  | some u => (((List.range ((u.first + u.count) / 64)).drop (u.first / 64)).filter fun k =>
      !u.placed.contains (layer * 65536 + k)).length
  | none => 0

/-- The engine with the least assigned work, the lowest on a tie. -/
def leastLoaded (ls : List (Nat × Rat)) : Option (Nat × Rat) :=
  ls.foldl (fun b l => match b with
    | none => some l
    | some x => if l.2 < x.2 then some l else some x) none
/-- Spans assigned, longest first, each to the engine with the least assigned work (R159). The length of a span is its planned time,
pages times t_page, which is also what the assigned work adds up (DESIGN CHOICE; log entry 73). -/
def assignSpans : List (Rat × Span) → List (Nat × Rat) → List Span × List (Nat × Rat)
  | [], ls => ([], ls)
  | (c, s) :: ss, ls =>
    match leastLoaded ls with
    | none => ([], ls)
    | some (e, _) =>
      let (out, ls) := assignSpans ss (ls.map fun l => if l.1 = e then (l.1, l.2 + c) else l)
      ({ s with engine := e } :: out, ls)
/-- A span put before the first that costs less. -/
def insertSpan (x : Rat × Span) : List (Rat × Span) → List (Rat × Span)
  | [] => [x]
  | y :: ys => if x.1 ≤ y.1 then y :: insertSpan x ys else x :: y :: ys

/-- The plan of a stake on a die: the spans with their engines, and the largest planned engine time (R159, R168, R220), in which a selection
has a part only where one runs, at layers without a window (R210);
none if the die has no engine for the partition (R239). An engine that leads a session whose range has no page to attend has its blocks and
its fixed time all the same. -/
def Dev.planStake (d : Dev) (w : Weave) (die p stake : Nat) (works : List RowWork) : Option (List Span × Rat) :=
  let engines := d.enginesOf die p
  if engines.isEmpty then none
  else
    let share := d.shareOf die p
    let block := max 1 (d.g F.ATT_CTL_ABSORB_BLOCK)
    let layer := ((w.stakeTab[stake]?).map (·.layer)).getD 0
    let spans := works.flatMap fun k =>
      let x := d.sess k.slot
      let q := d.prof x
      if k.push then
        let n := if q.selGroups = 0 then 0 else d.pushPages k.slot layer
        if n = 0 then []
        else [((n : Rat) * ((pagePayload q.slotBytes : Rat) / share),
          ({ slot := k.slot, stake := stake, pages := n, push := true } : Span))]
      else (d.spanPages x k ((q.layerTab.getD layer (0, 0)).2)).map fun s =>
        ((s.2 : Rat) * q.tPage share (q.heads * k.npos) k.back,
          ({ slot := k.slot, stake := stake, idx := s.1, pages := s.2 } : Span))
    let (plan, loads) := assignSpans (spans.foldl (fun ys s => insertSpan s ys) []) (engines.map fun e => (e, (0 : Rat)))
    let lead (k : RowWork) (e : Nat) : Bool :=
      match plan.filter fun s => s.slot == k.slot with
      | [] => false
      | s :: ss => (ss.foldl (fun b t => if t.idx < b.idx then t else b) s).engine == e
    let time (l : Nat × Rat) : Rat :=
      let lead := works.filter fun k => lead k l.1
      let mine := lead.filter fun k => !k.push
      let part (c : Bool) : Rat :=
        let ks := mine.filter fun k => k.chunk == c
        match ks with
        | [] => 0
        | k :: _ =>
          let q := d.prof (d.sess k.slot)
          let rows := ks.foldl (fun a k => a + k.npos) 0
          if q.splitKv || !q.hasParams then 0
          else (ceilDiv rows block * w.headForms (b2n c) : Nat) * q.tBlock share
      let kp (ks : List RowWork) : Rat := match ks with
        | k :: _ => ((d.prof (d.sess k.slot)).kp * 2 : Nat)
        | [] => 0
      let sel := mine.filter fun k =>
        (d.sess k.slot).d.select && ((d.prof (d.sess k.slot)).layerTab.getD layer (0, 0)).2 == 0
      let signed := lead.filter fun k => 0 < (d.prof (d.sess k.slot)).selGroups
      let done := signed.foldl (fun a k =>
        a + if k.push then d.pushPages k.slot layer
          else (((List.range ((k.first + k.npos) / 64)).drop (k.first / 64)).filter (d.sess k.slot).d.holdsPage).length) 0
      l.2 + part false + part true + (ceilDiv sel.length block * ceilDiv (min sel.length block) 128 : Nat) * kp sel +
        (ceilDiv done 128 : Nat) * kp signed + 73
    some (plan, (loads.map fun l => if plan.any (fun s => s.engine == l.1) then time l else 0).foldl max 0)

/-- The weave that a group has bound. -/
def Dev.weaveOf (d : Dev) (g : Nat) : Option Weave :=
  match (d.group g).bound with
  | some b => NMap.get? d.att.weaves b.slot
  | none => none
/-- The plan of a row on a die, over every stake. -/
def Dev.planDie (d : Dev) (w : Weave) (die p : Nat) (works : List RowWork) : List Span :=
  (List.range w.stakes).flatMap fun s => ((d.planStake w die p s works).map (·.1)).getD []
/-- The longest planned engine time of a row on a die, in core-clock cycles (R168, R172). -/
def Dev.planTime (d : Dev) (w : Weave) (die p : Nat) (works : List RowWork) : Rat :=
  ((List.range w.stakes).map fun s => ((d.planStake w die p s works).map (·.2)).getD 0).foldl max 0
/-- Planned engine time of a die stays within the target (R253). -/
def Dev.inTime (d : Dev) (w : Weave) (die p target : Nat) (works : List RowWork) : Bool :=
  (List.range w.stakes).all fun s => match d.planStake w die p s works with
    | some (_, t) => t ≤ (target * 1800 : Nat)
    | none => false

/-! ## Needs and placement (R109, R122, R125, R133 to R135, R481) -/

/-- Pages that a row's positions need frames for: layer, page, and the shared page id of a copy (R122, R133). -/
def Dev.needPages (d : Dev) (slot lo hi : Nat) : List (Nat × Nat × Option Nat) :=
  let x := d.sess slot
  if hi ≤ lo then []
  else (List.range (d.prof x).layers).flatMap fun l =>
    ((List.range ((hi - 1) / 64 + 1 - lo / 64)).map (· + lo / 64)).filterMap fun k =>
      if !x.d.holdsPage k || x.resv.any fun r => r.layer == l && r.page == k then none
      else match x.entry l (64 * k) with
        | none => some (l, k, none)
        | some e => if e.cow then some (l, k, some e.pageId) else none
/-- Pool blocks that the pages need (R116, R133). -/
def Dev.needBlocks (d : Dev) (slot : Nat) (items : List (Nat × Nat × Option Nat)) : Nat :=
  d.blocksNeeded (d.sess slot) (items.map fun i => i.1 * 65536 + i.2.1)

/-- The pool of the home die lacks what the pages, and a grammar area, need (R116, R133, R305). -/
def Dev.poolLacks (d : Dev) (slot : Nat) (items : List (Nat × Nat × Option Nat)) (area : Bool) : Bool :=
  !d.poolHolds (slotDie slot) (d.newRuns (d.sess slot) (items.map fun i => i.1 * 65536 + i.2.1) ++ if area then [6] else [])

/-- Units of a die that a partition may use, of the die's page units (R466, R481, R490). -/
def Dev.unitLimit (d : Dev) (p die : Nat) : Nat :=
  let of (q : Nat) : Nat := if die = 0 then (d.limits q).unitsW else (d.limits q).unitsE
  if p = 0 then d.dieUnits die - (d.tenants.map of).foldl (· + ·) 0 else of p
/-- Available units of a class for a partition (R109, R481). -/
def Dev.availP (d : Dev) (p die c : Nat) : Nat :=
  if d.strict then min (d.avail die c) (d.unitLimit p die - d.useUnits p die) else d.avail die c
/-- The brim reserve that counts for a partition (R481). -/
def Dev.brimP (d : Dev) (p : Nat) : Nat :=
  if d.strict then d.g F.PGS_BRIM_PAGES * d.partSlots p / 64 else d.g F.PGS_BRIM_PAGES
/-- Units lent against frames whose release is under way (R135, R481). -/
def Dev.borrow (d : Dev) (p die : Nat) : Nat :=
  if !d.on F.PGS_ADMIT_BORROW then 0
  else
    let out := if d.strict then
        d.ses.tab.foldl (fun a e =>
          if e.2.d.state == .parking && e.2.d.partition == p then a + d.unitsOn e.2 die else a) 0
      else d.outbound die
    min out (d.brimP p)

/-- Frames of the class on the home and on the other die, under the placement hint of a session (R125); none if they do not fit. Where
R125 sets no test of its own (OTHER, and what NONE and STAY leave), a continuing session draws down to 0 (R134) and a join to the
brim reserve less what is lent (R135). -/
def Dev.placeOf (d : Dev) (slot n : Nat) (join : Bool) : Option (Nat × Nat) :=
  let x := d.sess slot
  let p := x.d.partition
  let c := (d.prof x).cls
  let u := classUnits c
  let die := slotDie slot
  let home := d.availP p die c
  let other := d.availP p (1 - die) c
  let brim := d.brimP p
  let floorOf (k : Nat) : Nat := if join then brim - d.borrow p k else 0
  let floor := floorOf die
  let cap (a t : Nat) : Nat := (a - t) / u
  let (h, o) :=
    if x.defaultPlace = 1 then (min n (cap home 0), 0)
    else if x.defaultPlace = 3 then
      let o := min n (cap other (floorOf (1 - die)))
      (min (n - o) (cap home floor), o)
    else
      let h := min n (cap home brim)
      let o := min (n - h) (cap other brim)
      (h + min (n - h - o) (cap home floor - h), o)
  if h + o = n then some (h, o) else none
/-- The cause of a shortage of units: HOME_HINT where a HOME hint forbids the other die, else PAGES (R138). -/
def Dev.shortCause (d : Dev) (slot : Nat) : Nat := if (d.sess slot).defaultPlace = 1 then 5 else 1
/-- A cause for which victims are taken: a shortage of units (R136, R138). -/
def unitsShort (cause : Nat) : Bool := cause == 1 || cause == 5

/-- Frames are taken for a list of pages: the first `home` of them on the home die (R122, R133, R139). A copy whose shared
frame no other entry names is not made: its entry is written in place, and OWNER goes on naming the session that allocated the
frame (R112; log entry 70). -/
def Dev.takePages (d : Dev) (slot : Nat) : List (Nat × Nat × Option Nat) → Nat → Option Dev
  | [], _ => some d
  | (l, k, old) :: is, home =>
    let x := d.sess slot
    let alone : Bool := match old with
      | some id => decide ((d.frame id).refcount ≤ 1)
      | none => false
    if alone then
      let key := l * 65536 + k
      let d := d.updSess slot fun x => { x with pt := NMap.upd x.pt key fun e => { e with cow := false } }
      Dev.takePages d slot is home
    else
      let p := d.prof x
      let die := if 0 < home then slotDie slot else 1 - slotDie slot
      let f : Frame :=
        { layer := l
          pageIdx := k
          partition := x.d.partition
          place := x.defaultPlace
          owner := slot
          ownerValid := true
          fmt := p.storeFmt }
      match d.takeFrame die p.cls f with
      | none => none
      | some (id, d) =>
        let r : Resv :=
          { layer := l
            page := k
            pageId := id
            copyOf := old }
        let d := d.updSess slot fun x => { x with resv := x.resv ++ [r] }
        let d := match old with
          | some o => { d with pgs := { d.pgs with copies := d.pgs.copies ++ [(slot, l, k, o, id)] } }
          | none => d
        Dev.takePages d slot is (home - 1)

/-- Save sets of a die: key of a level. -/
def saveKey (die p : Nat) : Nat := die * 8 + p
/-- Frames of a save set. -/
def saveFrames : Nat := 1056
/-- A save set of a level is taken, or none if its units are not there (R277, R278). -/
def Dev.takeSave (d : Dev) (die p : Nat) : Option Dev :=
  if d.avail die 15 < saveUnits then none
  else
    let step (s : Option (List Nat × Dev)) (_ : Nat) : Option (List Nat × Dev) := match s with
      | none => none
      | some (ids, d) => (d.takeFrame die 15 { place := 1 }).map fun r => (ids ++ [r.1], r.2)
    match (List.range saveFrames).foldl step (some ([], d)) with
    | none => none
    | some (ids, d) => some { d with att := { d.att with saveSets := NMap.put d.att.saveSets (saveKey die p) ids } }

/-- The save set that a join brings is taken with it; its shortage is one of pages, whatever the session's hint (R138, R277, R278). -/
def Dev.saveFor (d : Dev) (die : Nat) (save : Option Nat) : Except Nat Dev :=
  match save with
  | none => .ok d
  | some p => match d.takeSave die p with
    | none => .error 1
    | some d => .ok d
/-- A reservation: pages, pool blocks, and a save set if the join brings one (R133, R135, R278); the cause of the shortage where units
lack. -/
def Dev.reservePages (d : Dev) (slot : Nat) (items : List (Nat × Nat × Option Nat)) (join : Bool) (save : Option Nat) :
    Except Nat Dev :=
  match d.placeOf slot items.length join with
  | none => .error (d.shortCause slot)
  | some (home, _) =>
    let d := d.takeBlocks slot (items.map fun i => i.1 * 65536 + i.2.1)
    match d.takePages slot items home with
    | none => .error (d.shortCause slot)
    | some d => d.saveFor (slotDie slot) save

/-- Frames placed on the two dies take a tenant beyond its UNITS of one of them (R466). -/
def Dev.overUnits (d : Dev) (slot home other : Nat) : Bool :=
  let p := (d.sess slot).d.partition
  let u := classUnits (d.prof (d.sess slot)).cls
  let beyond (die n : Nat) : Bool := 0 < n && overLimit p (d.useUnits p die) (n * u) (d.unitLimit p die)
  beyond (slotDie slot) home || beyond (1 - slotDie slot) other
/-- The cause of a join's shortage: in STRICT one of units that the partition's own UNITS leave no room for is QUOTA (R138, R466, R481). -/
def Dev.quotaCause (d : Dev) (slot n why : Nat) : Nat :=
  let p := (d.sess slot).d.partition
  let room (die : Nat) : Nat := d.unitLimit p die - d.useUnits p die
  let all := room (slotDie slot) + if (d.sess slot).defaultPlace = 1 then 0 else room (1 - slotDie slot)
  if d.strict && p != 0 && unitsShort why && decide (all < n * classUnits (d.prof (d.sess slot)).cls) then 8 else why
/-- A reservation, or the cause for which it fails: a mask slot for the grammar area of a session that has none, the partition's
limits, the pool, units (R116, R133, R135, R138, R305, R466). UNITS count on the dies on which the frames are placed; in STRICT they bound
what is available there, so that the partition's victims are tried first (R481). -/
def Dev.tryReserve (d : Dev) (slot : Nat) (items : List (Nat × Nat × Option Nat)) (join : Bool) (save : Option Nat)
    (area quota : Bool) : Except Nat Dev :=
  let x := d.sess slot
  let p := x.d.partition
  let die := slotDie slot
  let blocks := d.needBlocks slot items + (if area then 6 else 0)
  let beyond : Bool := match d.placeOf slot items.length join with
    | some (h, o) => d.overUnits slot h o
    | none => false
  if area && (d.freeMask x.d.group).isNone then .error 3
  else if quota && (beyond || overLimit p (d.useBlocks p die) blocks (d.limits p).ptBlocks) then .error 8
  else if d.poolLacks slot items area ||
      quota && d.overReserve p (d.useBlocks p die) blocks (d.gi F.PGS_PTPOOL_BLOCKS die) (·.ptBlocks) then .error 4
  else match d.reservePages slot items join save with
    | .error why => .error why
    | .ok d => .ok (if area then (d.takeArea slot).getD d else d)
/-- What a reservation answers, as success or not. -/
def reserved (r : Except Nat Dev) : Bool := match r with
  | .ok _ => true
  | .error _ => false

/-! ## Victims (R136, R326) -/

/-- What the controller does with a victim, and the reason of an override (R136, R324 to R326); none if it is skipped. -/
def Dev.victimChoice (d : Dev) (slot : Nat) : Option (Action × Option Nat) :=
  let x := (d.sess slot).d
  let hist := x.histLen ≤ x.histDurable
  if !d.on F.PRK_CTL_EN then
    (if hist then some (.history, if x.hint = 1 then some 1 else none) else none)
  else
    let pb := if d.hready (slotDie slot) then d.parkBlocked slot else some 3
    if x.hint = 2 then
      match pb with
      | none => some (.park, none)
      | some why => if hist then some (.history, some why) else none
    else if x.hint = 3 then
      (if hist then some (.history, none) else if pb.isNone then some (.park, some 1) else none)
    else (cheapest (d.estimate slot) false pb.isNone hist).map fun a => (a, if x.hint = 1 then some 1 else none)
/-- Frames that a HISTORY decision of step 5 releases are freed within the step, and a bin that they leave without a frame is empty within it
(R132, R136; the bin is the model's choice: R108 names no step, DESIGN CHOICE, log entry 80). -/
def Dev.freeDropped (d : Dev) (ids : List Nat) : Dev :=
  (ids.foldl (fun (d : Dev) id => if (d.frame id).fstate = 3 ∧ !d.captureHolds id ∧ !NMap.has d.pgs.dropped id then d.freeFrame id else d) d).emptyOut
/-- A victim is parked or moved to HISTORY; none if it is skipped (R136). -/
def Dev.takeVictim (d : Dev) (m : Memory) (slot row : Nat) : Option Dev :=
  match d.victimChoice slot with
  | none => none
  | some (a, why) =>
    let told (d : Dev) : Dev := match why with
      | some r => d.override slot r a
      | none => d
    let x := d.sess slot
    let eq := d.gi F.PRK_POLICY_EQ x.d.partition
    if a = .park then (told d).beginPark m slot 0 {} x.d.partition eq 0
    else
      let ids := x.pt.map fun e => e.2.pageId
      some ((((told d).tellRanges slot 1).toHistory slot row x.d.partition eq 0).freeDropped ids)
/-- A HOT session of a die that rests: it has no turn, no context and no tier work (R136). -/
def Dev.restsHot (d : Dev) (die slot : Nat) : Bool :=
  let x := d.sess slot
  slotDie slot == die && x.d.tier == .hot && (x.d.state == .open || x.d.state == .waiting) && !x.d.turnQueued &&
    !x.d.ctxValid && x.tierCtx.isNone && !x.d.kill && (d.park slot).isNone && d.owns slot
/-- A session may be taken as a victim for one of a priority (R136, R481). -/
def Dev.mayEvict (d : Dev) (die prio p slot : Nat) : Bool :=
  let x := d.sess slot
  d.restsHot die slot && x.d.prio ≤ d.g F.PGS_ADMIT_EVICT_PRIO && x.d.prio < prio && (!d.strict || x.d.partition == p)
/-- Sessions in the order in which victims are taken (R136). -/
def Dev.victimOrder (d : Dev) (slots : List Nat) : List Nat :=
  sortBy (fun s => let x := (d.sess s).d
    [(if x.hint = 1 then 1 else 0 : Nat), (x.prio : Nat), (x.idleSince : Nat), (s : Nat)]) slots
/-- Victims in the order in which they are taken (R136). -/
def Dev.victims (d : Dev) (die prio p : Nat) : List Nat :=
  d.victimOrder ((NMap.keys d.ses.tab).filter fun s => d.mayEvict die prio p s)
/-- Victims are taken until a test holds or none is left: the block and how many were taken. -/
def Dev.evict (d : Dev) (m : Memory) (row : Nat) (fits : Dev → Bool) : List Nat → Nat → Dev × Nat
  | [], k => (d, k)
  | s :: ss, k =>
    if fits d || d.g F.PGS_ADMIT_EVICT_MAX ≤ k then (d, k)
    else match d.takeVictim m s row with
      | some d => Dev.evict d m row fits ss (k + 1)
      | none => Dev.evict d m row fits ss k

/-! ## Deferrals and hold-outs (R137, R138, R466, R476, R488) -/

/-- Status of a cause (R138, R476, R535). -/
def admitStatus (cause : Nat) : Status := if cause = 6 ∨ cause = 7 ∨ cause = 9 ∨ cause = 10 then .busy else .noSpace
/-- The counters of a cause (R489, R490). -/
def Dev.countCause (d : Dev) (p cause : Nat) : Dev :=
  if cause = 6 then d.sat F.SHP_CNT_SHAPED 1
  else if cause = 7 then d.sati F.ISO_PART_CNT_THERMAL p 1
  else if cause = 8 then d.sati F.ISO_PART_CNT_QUOTA p 1
  else if cause = 9 then d.sati F.ISO_PART_CNT_ISO_GROUP p 1
  else d
/-- A join is deferred (R137, R138). -/
def Dev.defer (d : Dev) (i cause row : Nat) : Dev :=
  let c := d.ctx i
  let d := (d.sat F.PGS_CNT_DEFER 1).countCause (d.sess c.slot).d.partition cause
  let d := d.updCtx i fun c => { c with
    deferrals := min (c.deferrals + 1) 255
    deferEventSent := true }
  if c.deferEventSent then d
  else d.post c.fn c.eq { typ := 0x03, subject := c.sid, status := (admitStatus cause).code, cause := cause, hseq := c.hseq,
                          args := [row] }
/-- A continuing session is held out of the next row (R137, R138). -/
def Dev.holdOut (d : Dev) (slot i cause row : Nat) : Dev :=
  let c := d.ctx i
  let d := (d.sat F.PGS_CNT_HELD 1).countCause (d.sess slot).d.partition cause
  (d.updSess slot fun x => { x with heldOut := true }).post c.fn c.eq
    { typ := 0x04, subject := c.sid, status := (admitStatus cause).code, cause := cause, hseq := c.hseq, args := [row] }

/-! ## One die's admission -/

/-- What the admission of a die has done so far. -/
structure Adm where
  dev : Dev
  /-- Positions of ROW_PREFILL left (R252). -/
  left : Nat := 0
  /-- Victims taken at this boundary, on the west die and on the east die (R136). -/
  evW : Nat := 0
  evE : Nat := 0
  /-- Dies on which a join of level 2 or above has been deferred for PAGES (R251). -/
  short : List Nat := []
  /-- Work of the next row on the die: what is planned, and the continuing decode sessions from the start (R253). -/
  works : List RowWork := []
  deriving DecidableEq, Repr
/-- Victims taken on a die. -/
def Adm.evicted (a : Adm) (die : Nat) : Nat := if die = 0 then a.evW else a.evE
/-- The same with the count of a die set. -/
def Adm.setEvicted (a : Adm) (die k : Nat) : Adm := if die = 0 then { a with evW := k } else { a with evE := k }

/-- What a group's rows run under: its parameters of R252, weave and row. -/
structure AdmEnv where
  g : Nat := 0
  row : Nat := 0
  die : Nat := 0
  target : Nat := 0
  chunkPos : Nat := 64
  hostBatch : Bool := false
  w : Weave := {}
  deriving DecidableEq, Repr

/-- A level is shed (R488). -/
def Dev.shed (d : Dev) (prio : Nat) : Bool := 
  prio < 7 && decide (bits (d.g F.ISO_SHED_RANKS) (3 * prio) 3 < d.g F.ISO_SHED_ST_STAGE)
/-- The gate of R473 passes a join of the session. -/
def Dev.gate (d : Dev) (slot : Nat) : Bool × Dev :=
  if !d.on F.SHP_CTL_EN then (true, d)
  else
    let x := (d.sess slot).d
    let d := [0, 1, 2].foldl (fun d k => d.refillNode k (nodeOf x k)) d
    let ok := [0, 1, 2].all fun k =>
      let n := d.node k (nodeOf x k)
      !n.shape || decide (0 < n.level)
    let b := d.node 0 x.subscriber
    (ok && (!b.budgetOn || decide (0 < b.budget)), d)
/-- A turn feeds no further token than the last pending one (R258). -/
def Session.pendingTokens (x : Session) : Nat := x.d.histLen - x.d.committed
/-- First position that a session feeds or pushes next: COMMITTED, or 0 for a rebuild of which no push has committed, since the
session then holds no page here (R258, R340; log entry 30). -/
def Dev.feedFrom (d : Dev) (slot : Nat) : Nat :=
  match NMap.get? d.prk.revives slot with
  | some r => if r.mode = 2 ∧ !r.pushed then 0 else (d.sess slot).d.committed
  | none => (d.sess slot).d.committed
/-- The open push of a session. -/
def Dev.pushOf (d : Dev) (slot : Nat) : Option Push := d.att.pushes.find? fun p => p.slot == slot
/-- Longest push (R258). -/
def pushMax : Nat := 1048576

/-- Ends that a chunk from `lo` may have, longest first: HIST_LEN or multiples of 64 (R254). -/
def chunkEnds (lo hist cap least : Nat) : List Nat :=
  let top := min hist (lo + cap)
  let top := if top = hist then top else top / 64 * 64
  ((List.range (top / 64 + 1 - lo / 64)).map fun j => if j = 0 then top else ceilDiv top 64 * 64 - 64 * j).filter fun e =>
    decide (lo < e) && decide (least ≤ e - lo) && decide (e ≤ top)
/-- A chunk fits in pages, by a test of them, and in time (R253, R254). -/
def Adm.chunkFits (a : Adm) (e : AdmEnv) (slot lo hi : Nat) (pagesFit : List (Nat × Nat × Option Nat) → Bool) : Bool :=
  pagesFit (a.dev.needPages slot lo hi) &&
    a.dev.inTime e.w e.die (a.dev.sess slot).d.partition e.target
      (a.works ++ [{ slot := slot, first := lo, npos := hi - lo, chunk := true }])
/-- The longest chunk that fits. -/
def Adm.chunk (a : Adm) (e : AdmEnv) (slot least : Nat) (pagesFit : List (Nat × Nat × Option Nat) → Bool) : Option Nat :=
  let x := (a.dev.sess slot).d
  (chunkEnds x.committed x.histLen (min e.chunkPos a.left) least).find? fun hi => a.chunkFits e slot x.committed hi pagesFit
/-- The pages of a continuing chunk leave the brim reserve, less what is lent, and the pool holds its blocks (R254). R254 names units and time
alone as what lowers a chunk's end; a pool that is short lowers it as well (DESIGN CHOICE, log entry 16). -/
def Dev.chunkPages (d : Dev) (slot : Nat) (items : List (Nat × Nat × Option Nat)) : Bool :=
  !d.poolLacks slot items false && (d.placeOf slot items.length true).isSome

/-- An entry joins the batch list of the next row (R256). -/
def Dev.listFor (d : Dev) (g slot pos npos : Nat) (r : Role) : Dev :=
  let x := (d.sess slot).d
  let be : BatchEntry :=
    { sid := x.sid
      slot := slot
      pos := pos
      npos := npos
      role := r
      prio := x.prio }
  d.updGroup g fun y => { y with
    nextBatch := insertBy (fun (b : BatchEntry) => [(b.sid : Nat)]) be y.nextBatch }
/-- The session feeds positions in the next row (R254, R256). -/
def Adm.feed (a : Adm) (e : AdmEnv) (slot i lo hi : Nat) (chunk : Bool) : Adm :=
  let r : Role := if !chunk then .decode else if hi = (a.dev.sess slot).d.histLen then .chunkLast else .chunk
  let d := a.dev.listFor e.g slot lo (hi - lo) r
  let d := (d.updSess slot fun x => { x with heldOut := false }).updCtx i fun c => { c with
    phase := if c.kind = .turn then (if chunk then .prefill else .decode) else .tierMove
    resvPages := (d.sess slot).resv.length }
  { a with
    dev := d
    left := if chunk then a.left - (hi - lo) else a.left
    works := (a.works.filter fun k => k.slot != slot) ++ [{ slot := slot, first := lo, npos := hi - lo, chunk := chunk }] }
/-- A session is listed without feeding: a push or a hold-out. -/
def Adm.listOnly (a : Adm) (e : AdmEnv) (slot i pos : Nat) (r : Role) : Adm :=
  let d := a.dev.listFor e.g slot pos 0 r
  { a with
    works := if r = .push then (a.works.filter fun k => k.slot != slot) ++ [{ slot := slot, first := pos, npos := 0, push := true }]
      else a.works
    dev := (d.updSess slot fun x => { x with heldOut := r == .held }).updCtx i fun c => { c with
      phase := if r = .held then c.phase else if c.kind = .turn then .prefill else .tierMove
      resvPages := (d.sess slot).resv.length } }
/-- A continuing or held-out session is held out (R137). -/
def Adm.hold (a : Adm) (e : AdmEnv) (slot i cause : Nat) : Adm :=
  let a := { a with
    dev := a.dev.holdOut slot i cause e.row
    works := a.works.filter fun k => k.slot != slot }
  a.listOnly e slot i (a.dev.sess slot).d.committed .held
/-- Victims are taken on a die for a reservation of a partition, until it fits or none is left (R136). -/
def Adm.victimsOn (a : Adm) (m : Memory) (e : AdmEnv) (die prio p : Nat) (fits : Dev → Bool) : Adm :=
  let (d, k) := a.dev.evict m e.row fits (a.dev.victims die prio p) (a.evicted die)
  { a with dev := d }.setEvicted die k
/-- A reservation with the victims of R136 where units are short: what it answers, and the admission after the victims. -/
def Adm.reserve (a : Adm) (m : Memory) (e : AdmEnv) (slot prio : Nat) (try' : Dev → Except Nat Dev) : Except Nat Dev × Adm :=
  match try' a.dev with
  | .ok d => (.ok d, a)
  | .error why =>
    if !unitsShort why then (.error why, a)
    else
      let a := a.victimsOn m e e.die prio (a.dev.sess slot).d.partition fun d => reserved (try' d)
      (try' a.dev, a)
/-- A turn in mode CHUNK whose prefill is under way: what it feeds next is a chunk, whatever its length (R254, R258). -/
def Ctx.chunking (c : Ctx) : Bool := c.kind == .turn && c.phase == .prefill && !c.push

/-- The weave that a group has bound is of a session's profile (R243). -/
def AdmEnv.serves (e : AdmEnv) (d : Dev) (slot : Nat) : Bool := e.w.profile == (d.sess slot).d.profile
/-- A continuing session is reserved, or held out (R134 item 1, R137, R254); one whose profile the bound weave does not serve is held out
too, and one on a die without a live engine, which feeds no row (R239, R243; the spec names no cause for either, log entry 74). -/
def Adm.continue (m : Memory) (e : AdmEnv) (a : Adm) (slot i : Nat) : Adm :=
  let x := a.dev.sess slot
  if a.dev.fenced slot || !e.serves a.dev slot then
    { a with works := a.works.filter fun k => k.slot != slot }.listOnly e slot i x.d.committed .held
  else if a.dev.shed x.d.prio then a.hold e slot i 7
  else if (a.dev.enginesOf e.die x.d.partition).isEmpty then a.hold e slot i 10
  else match a.dev.pushOf slot with
  | some p => a.listOnly e slot i p.first .push
  | none =>
    let lo := x.d.committed
    let c := a.dev.ctx i
    let chunk := c.chunking || decide (1 < x.pendingTokens)
    let least := min x.d.histLen (if lo % 64 = 0 then lo + 1 else (lo / 64 + 1) * 64)
    let hi := if !chunk then lo + 1 else match c.redo with
      | some hi => hi
      | none => (a.chunk e slot 1 (a.dev.chunkPages slot)).getD least
    let items := a.dev.needPages slot lo hi
    match a.reserve m e slot x.d.prio fun d => d.tryReserve slot items false none false false with
    | (.error why, a) => a.hold e slot i why
    | (.ok d, a) => { a with dev := d }.feed e slot i lo hi chunk

/-- A session leaves its queue for the rows: batch slot and pin (R82, R85, R134). -/
def Dev.enterRows (d : Dev) (slot i : Nat) : Dev :=
  let b := (NMap.freeFrom d.att.batchSlots 32768 0).getD 0
  let d := if (d.ctx i).batchSlot.isSome then d
    else { d with att := { d.att with batchSlots := NMap.put d.att.batchSlots b i } }.updCtx i fun c => { c with batchSlot := some b }
  d.cacheIn slot true
/-- A queued turn begins: OPEN or WAITING to RUNNING (R41, R87, R248, R293, R296, R305, R328). A turn that a restore has
queued again keeps its text and grammar (R562). -/
def Dev.startTurn (d : Dev) (slot i row : Nat) : Dev :=
  let c := d.ctx i
  let x := d.sess slot
  let prio := c.newPrio.getD x.d.prio
  let d := d.updSess slot fun x => { x with
    overridden := false
    d := { x.d with
      turnQueued := false
      prio := prio
      stopMatch := false } }
  let d := d.updCtx i fun c => { c with
    prio := prio
    newPrio := none
    overridden := c.overridden || x.overridden
    admitRow := row }
  let first := c.admitRow == 0
  let d := if first then { d with tok := { d.tok with tails := NMap.del d.tok.tails slot } } else d
  (if first then d.startGrammar slot else d).setState slot .running .hot
/-- The priority at which a join is taken (R134, R248). -/
def Dev.joinPrio (d : Dev) (slot i : Nat) : Nat :=
  if (d.sess slot).d.turnQueued then (d.ctx i).newPrio.getD (d.sess slot).d.prio else (d.sess slot).d.prio

/-- A push is opened for a session; it receives its lane and id with the first free lane (R259, R260). -/
def Dev.openPush (d : Dev) (g slot i first count : Nat) (rebuild : Bool) : Dev :=
  { d with att := { d.att with pushes := d.att.pushes ++ [{ slot := slot, ctx := i, group := g, first := first,
                                                            count := count, rebuild := rebuild }] } }

/-- Tests of a join that no victim helps with, in order, and their causes (R82, R85, R135, R138, R239, R251, R466, R473,
R476, R481, R482, R488). `more` is the number of batch slots that it and the members of its batch before it need of its partition, and
`pinned` the pins of its die. -/
def Adm.barred (a : Adm) (e : AdmEnv) (slot i prio : Nat) (rows turn : Bool) (more : Nat := 1) (pinned : Nat := 1) : Option Nat × Adm :=
  let x := a.dev.sess slot
  let p := x.d.partition
  let c := a.dev.ctx i
  if a.dev.shed prio then (some 7, a)
  else if a.short.contains e.die && prio ≤ 1 then (some 1, a)
  else
    let (pass, d) := if turn then a.dev.gate slot else (true, a.dev)
    let a := { a with dev := d }
    if !pass then (some 6, a)
    else if rows && d.strict && (d.groupParts e.g).any (· != p) then (some 9, a)
    else if !rows || c.batchSlot.isSome then (none, a)
    else if (NMap.freeFrom d.att.batchSlots 32768 0).isNone || d.overReserve p (d.useBatch p) more 32768 (·.batch) then (some 3, a)
    else if decide (28672 < d.pins e.die + pinned) || d.overReserve p (d.pinsOf p e.die) pinned 28672 (·.batch) then (some 2, a)
    else if overLimit p (d.useBatch p) more (d.limits p).batch then (some 8, a)
    else (none, a)

/-- A join is deferred to the next boundary, that of a session held out at an earlier one among them: this one stays held out, and in the
batch list (R134, R137, R256, R473). -/
def Adm.refuse (a : Adm) (e : AdmEnv) (slot i prio cause : Nat) : Adm :=
  let a := { a with
    short := if cause == 1 && 2 ≤ prio then e.die :: a.short else a.short
    dev := a.dev.defer i cause e.row }
  if (a.dev.ctx i).batchSlot.isSome then a.listOnly e slot i (a.dev.sess slot).d.committed .held else a

/-- A join of a turn or of a rebuild push; one whose profile the bound weave does not serve stays queued (R243; R134 item 2, R135 to R138,
R253, R254 item 3, R258 to R260, R277, R278). Pages come first, with the victims of R136; a join that has them and is over the time target
is BUSY (R253). -/
def Adm.join (m : Memory) (e : AdmEnv) (a : Adm) (slot i : Nat) : Adm :=
  let x := a.dev.sess slot
  let c := a.dev.ctx i
  let prio := a.dev.joinPrio slot i
  let turn := c.kind == .turn
  if !e.serves a.dev slot then
    (if c.batchSlot.isSome then a.listOnly e slot i x.d.committed .held else a)
  else match a.barred e slot i prio true turn with
  | (some why, a) => a.refuse e slot i prio why
  | (none, a) =>
    let lo := a.dev.feedFrom slot
    let k := x.d.histLen - lo
    let push := (c.kind == .rebuild || c.push) && 1 < k
    let chunk := !push && (c.chunking || decide (1 < k))
    let p := x.d.partition
    let save := if prio < 7 && !NMap.has a.dev.att.saveSets (saveKey e.die prio) then some prio else none
    let area := x.d.grammarBound && !x.area
    let time (hi : Nat) : Bool := e.hostBatch || a.dev.inTime e.w e.die p e.target
      (a.works ++ [{ slot := slot, first := lo, npos := hi - lo, chunk := chunk }])
    let least := min 64 k
    let ends := chunkEnds lo x.d.histLen (min e.chunkPos a.left) least
    let want := if push then some (lo + min (k - 1) pushMax) else if !chunk then some (lo + 1)
      else match c.redo with
        | some hi => some hi
        | none => ends.getLast?
    match want with
    | none => a.refuse e slot i prio 10
    | some hi =>
      let items := a.dev.needPages slot lo hi
      let try' (d : Dev) : Except Nat Dev := d.tryReserve slot items true save area true
      if (a.dev.enginesOf e.die p).isEmpty then
        a.refuse e slot i prio (match try' a.dev with
          | .error why => if unitsShort why then why else 10
          | .ok _ => 10)
      else match a.reserve m e slot prio try' with
        | (.error why, a) => a.refuse e slot i prio (a.dev.quotaCause slot items.length why)
        | (.ok _, a) =>
          if !push && !time hi then a.refuse e slot i prio 10 else
          let fits (items : List (Nat × Nat × Option Nat)) : Bool := reserved (a.dev.tryReserve slot items true save area true)
          let hi := if chunk && c.redo.isNone then (a.chunk e slot least fits).getD hi else hi
          match a.dev.tryReserve slot (a.dev.needPages slot lo hi) true save area true with
          | .error why => a.refuse e slot i prio why
          | .ok d =>
            let d := d.enterRows slot i
            let d := if turn && x.d.turnQueued then d.startTurn slot i e.row
              else if c.admitRow = 0 then d.updCtx i fun c => { c with admitRow := e.row } else d
            let a := { a with dev := d }
            if push then
              { a with dev := a.dev.openPush e.g slot i lo (hi - lo) (!turn) }.listOnly e slot i lo .push
            else a.feed e slot i lo hi chunk

/-- An image revive or a hall copy back is reserved as a join (R339 step 1). -/
def Adm.joinRevive (m : Memory) (e : AdmEnv) (a : Adm) (slot i : Nat) : Adm :=
  let x := a.dev.sess slot
  let prio := x.d.prio
  match a.barred e slot i prio false false with
  | (some why, a) => a.refuse e slot i prio why
  | (none, a) =>
    let items := a.dev.needPages slot 0 x.d.committed
    let area := x.d.grammarBound && !x.area
    match a.reserve m e slot prio fun d => d.tryReserve slot items true none area true with
    | (.error why, a) => a.refuse e slot i prio (a.dev.quotaCause slot items.length why)
    | (.ok d, a) =>
      let d := d.updCtx i fun c => { c with phase := .tierMove, admitRow := e.row }
      let back := ((NMap.get? d.prk.revives slot).map (·.mode)).getD 1 == 3
      let bytes := (d.prof x).layers * ceilDiv x.d.committed 64 * pagePayload (d.prof x).slotBytes
      let d := if back then d.fetch x.warmHolder x.d.sid x.d.partition bytes else d
      { a with dev := { d with prk := { d.prk with
          revives := NMap.upd d.prk.revives slot fun r => { r with
            reserved := true
            reading := if r.mode = 1 then x.d.imageHandle else 0 } } }.updReads (if back then 0 else x.d.imageHandle) (· + 1) }

/-- A handoff's target reserves what the copy needs, as a join at the session's priority (R434 step 2). -/
def Adm.joinMigrate (m : Memory) (e : AdmEnv) (a : Adm) (slot i : Nat) : Adm :=
  let x := a.dev.sess slot
  match NMap.get? a.dev.own.ins x.d.sid with
  | none => a
  | some hd =>
    let prio := fieldAt hd.desc 8 13 3
    match a.barred e slot i prio false false with
    | (some why, a) => a.refuse e slot i prio why
    | (none, a) =>
      let items := a.dev.needPages slot 0 (fieldAt hd.desc 0x20 0 23)
      let area := fieldAt hd.desc 8 31 1 == 1 && !x.area
      match a.reserve m e slot prio fun d => d.tryReserve slot items true none area true with
      | (.error why, a) => a.refuse e slot i prio (a.dev.quotaCause slot items.length why)
      | (.ok d, a) =>
        let hd := { hd with reserved := true }
        { a with dev := { d with own := { d.own with ins := NMap.put d.own.ins x.d.sid hd } } }

/-! ## HOST_BATCH (R266 to R270) -/

/-- The batch that a HOST_BATCH group admits next, if all its turns are queued and no member of an earlier batch remains in
the rows (R266, R267). -/
def Dev.batchReady (d : Dev) (g : Nat) : Option (Nat × Nat × List Nat) :=
  if (NMap.vals d.ses.ctxs).any fun c => c.group == g && c.kind == .turn && c.batchSlot.isSome then none
  else
    let ready (b : Nat × Nat × List Nat) : Bool := b.2.2.all fun i =>
      (d.sess (d.ctx i).slot).d.turnQueued && (d.sess (d.ctx i).slot).coldest == .hot
    match (d.group g).batches.find? fun b => b.2.2.length == b.2.1 with
    | some b => if ready b then some b else none
    | none => none
/-- Needs of a batch's member: the end of its first row, and whether it pushes (R269). -/
def Dev.batchEnd (d : Dev) (i : Nat) : Nat × Bool :=
  let x := d.sess (d.ctx i).slot
  let k := x.pendingTokens
  if k ≤ 1 then (x.d.committed + 1, false)
  else if (d.ctx i).push then (x.d.committed + min (k - 1) pushMax, true)
  else (x.d.histLen, false)
/-- The members' own frames, pool blocks and areas are reserved one after another: the cause and the die of the first that fails (R267). -/
def Dev.reserveOwn (d : Dev) : List Nat → Except (Nat × Nat) Dev
  | [] => .ok d
  | i :: is =>
    let slot := (d.ctx i).slot
    let x := d.sess slot
    let items := d.needPages slot x.d.committed (d.batchEnd i).1
    match d.tryReserve slot items true none (x.d.grammarBound && !x.area) true with
    | .error why => .error (why, slotDie slot)
    | .ok d => Dev.reserveOwn d is
/-- The save sets that the members bring are taken, each level of a die once (R277, R278). -/
def Dev.reserveSaves (d : Dev) : List Nat → Except (Nat × Nat) Dev
  | [] => .ok d
  | i :: is =>
    let slot := (d.ctx i).slot
    let die := slotDie slot
    let prio := d.joinPrio slot i
    match d.saveFor die (if prio < 7 && !NMap.has d.att.saveSets (saveKey die prio) then some prio else none) with
    | .error why => .error (why, die)
    | .ok d => Dev.reserveSaves d is
/-- The members of a batch are reserved together, or not at all: the tests of R135 see the sum of their own needs, and the save sets, which
no test of R135 counts, are taken behind them (R267, R278). -/
def Dev.reserveBatch (d : Dev) (is : List Nat) : Except (Nat × Nat) Dev :=
  match d.reserveOwn is with
  | .error why => .error why
  | .ok d => d.reserveSaves is
/-- The members fit. -/
def Dev.batchFits (d : Dev) (is : List Nat) : Bool := match d.reserveBatch is with
  | .ok _ => true
  | .error _ => false
/-- The cause for which a batch is deferred, if a test that no victim helps with fails for a member (R135, R138, R466,
R473, R482, R488): each on its own die, the members `before` it counted with it. -/
def Adm.batchBarred (a : Adm) (e : AdmEnv) : List Nat → List Nat → Option Nat × Adm
  | [], _ => (none, a)
  | i :: is, before =>
    let slotOf (j : Nat) : Nat := (a.dev.ctx j).slot
    let slot := slotOf i
    let part (s : Nat) : Nat := (a.dev.sess s).d.partition
    let more := (before.filter fun j => part (slotOf j) == part slot).length + 1
    let pinned := (before.filter fun j => slotDie (slotOf j) == slotDie slot).length + 1
    match a.barred { e with die := slotDie slot } slot i (a.dev.joinPrio slot i) true true more pinned with
    | (some why, a) => (some why, a)
    | (none, a) => Adm.batchBarred a e is (i :: before)
/-- A member of an admitted batch enters the rows (R267, R269). -/
def Adm.batchMember (e : AdmEnv) (a : Adm) (i : Nat) : Adm :=
  let slot := (a.dev.ctx i).slot
  let lo := (a.dev.sess slot).d.committed
  let (hi, push) := a.dev.batchEnd i
  let many := 1 < (a.dev.sess slot).pendingTokens
  let a := { a with dev := (a.dev.enterRows slot i).startTurn slot i e.row }
  if push then { a with dev := a.dev.openPush e.g slot i lo (hi - lo) false }.listOnly e slot i lo .push
  else a.feed e slot i lo hi many
/-- A batch is deferred as a whole (R267); for PAGES it leaves the lower levels nothing on any die on which a member of level 2 or above is
deferred with it (R251). -/
def Adm.deferBatch (a : Adm) (e : AdmEnv) (is : List Nat) (why : Nat) : Adm :=
  let high (k : Nat) : Bool := is.any fun i =>
    decide (2 ≤ a.dev.joinPrio (a.dev.ctx i).slot i) && slotDie (a.dev.ctx i).slot == k
  { a with
    dev := is.foldl (fun d i => d.defer i why e.row) a.dev
    short := if why == 1 then ([0, 1].filter high) ++ a.short else a.short }
/-- Victims of a batch are taken on a die that is short, and no more (R136, R267). The priority that R136 compares with is that of the session
reserved; for a batch it is the highest of its members (DESIGN CHOICE, log entry 16: the rules name none). -/
def Adm.batchVictims (a : Adm) (m : Memory) (e : AdmEnv) (is : List Nat) (die : Nat) : Adm :=
  match a.dev.reserveBatch is with
  | .ok _ => a
  | .error (why, k) =>
    if !unitsShort why || k != die then a
    else
      let top := (is.map fun i => a.dev.joinPrio (a.dev.ctx i).slot i).foldl max 0
      let p := (is.head?.map fun i => (a.dev.sess (a.dev.ctx i).slot).d.partition).getD 0
      a.victimsOn m e die top p fun d => match d.reserveBatch is with
        | .ok _ => true
        | .error (why, k) => !unitsShort why || k != die
/-- The next batch is admitted as a whole, or deferred as a whole (R267); it waits while the bound weave does not serve its members (R243). A batch with a member on a die without an engine waits as
for time (R239). -/
def Adm.batch (m : Memory) (e : AdmEnv) (a : Adm) : Adm :=
  match a.dev.batchReady e.g with
  | none => a
  | some b =>
    let is := b.2.2
    let a := { a with dev := is.foldl (fun (d : Dev) i => d.touch (d.ctx i).slot) a.dev }
    if is.any fun i => !e.serves a.dev (a.dev.ctx i).slot then a
    else match a.batchBarred e is [] with
    | (some why, a) => a.deferBatch e is why
    | (none, a) =>
      let free := 32768 - a.dev.att.batchSlots.length
      let part (i : Nat) : Nat := (a.dev.sess (a.dev.ctx i).slot).d.partition
      if free < is.length then a.deferBatch e is 3
      else if is.any fun i => (a.dev.enginesOf (slotDie (a.dev.ctx i).slot) (part i)).isEmpty then a.deferBatch e is 10
      else
        let a := (List.range (is.length + 1)).foldl (fun (a : Adm) _ => (a.batchVictims m e is 0).batchVictims m e is 1) a
        match a.dev.reserveBatch is with
        | .error (why, _) => a.deferBatch e is why
        | .ok d =>
          let d := d.updGroup e.g fun y => { y with batches := y.batches.erase b }
          is.foldl (fun a i => a.batchMember e i) { a with dev := d }

/-! ## Step 5 (R131, R134, R239) -/

/-- Sessions of a group and their turn contexts on a die that continue in the rows, with those whose push or whose fence keeps them
listed though they are held out (R134 item 1, R256, R259). -/
def Dev.continuing (d : Dev) (g die : Nat) : List (Nat × Nat) :=
  sortBy (fun e => let c := d.ctx e.2
    [-((d.sess e.1).d.prio : Int), (c.admitRow : Nat), (c.sid : Nat)])
    ((d.ses.ctxs.filter fun e => e.2.group == g && slotDie e.2.slot == die && e.2.batchSlot.isSome && e.2.cause.isNone &&
      !e.2.kill && (!(d.sess e.2.slot).heldOut || (d.pushOf e.2.slot).isSome || d.fenced e.2.slot) && !(d.sess e.2.slot).d.kill &&
      ((d.pushOf e.2.slot).isSome || !(e.2.push && 1 < (d.sess e.2.slot).pendingTokens) && e.2.kind != .rebuild)).map
      fun e => (e.2.slot, e.1))
/-- A context joins at this boundary: a turn queued on a HOT session, a session held out at an earlier boundary, a further push, a
rebuild that has been handed off, or a revive, also of a session whose group runs no rows (R103, R134, R258, R339, R340). While
members of a HOST_BATCH batch are in the rows no other session joins (R270). A turn that was queued before its group became HOST_BATCH carries
no BATCH tag: it is in no batch, and waits until the group is PLANNED again (DESIGN CHOICE, log entry 74: R266 does not say what becomes of
it). -/
def Dev.joins (d : Dev) (g die : Nat) (hostBatch : Bool) : List (Nat × Nat) :=
  let batchRuns := (NMap.vals d.ses.ctxs).any fun c => c.group == g && c.kind == .turn && c.batchSlot.isSome
  let ready (i : Nat) (c : Ctx) : Bool :=
    let x := d.sess c.slot
    let mine := c.group == g
    let cont := c.batchSlot.isSome && !x.heldOut
    let listed := (d.group g).nextBatch.any fun b => b.slot == c.slot
    !listed && !c.kill && c.cause.isNone && !x.d.kill && (d.pushOf c.slot).isNone && slotDie c.slot == die && !d.fenced c.slot &&
    (match c.kind with
     | .turn => mine && (c.batchSlot.isSome && (x.heldOut || c.push && 1 < x.pendingTokens) ||
        !hostBatch && x.d.turnQueued && x.coldest == .hot && (x.d.state == .open || x.d.state == .waiting) &&
          (d.turnCtx c.slot) == some i)
     | .rebuild => mine && !cont && !(hostBatch && batchRuns) && x.d.state == .reviving && d.feedFrom c.slot + 1 < x.d.histLen &&
        ((NMap.get? d.prk.revives c.slot).map (·.staged)).getD false
     | .revive => (mine || d.phase c.group == 0) && x.d.state == .reviving &&
        !((NMap.get? d.prk.revives c.slot).map (·.reserved)).getD true
     | .migrateIn => (mine || d.phase c.group == 0) &&
        ((NMap.get? d.own.ins c.sid).map fun y => !y.reserved).getD false
     | _ => false)
  sortBy (fun e => let c := d.ctx e.2
    [-(d.joinPrio e.1 e.2 : Int), (if (d.sess e.1).heldOut then 0 else 1 : Nat), -(c.deferrals : Int), (c.accepted : Nat)])
    ((d.ses.ctxs.filter fun e => ready e.1 e.2).map fun e => (e.2.slot, e.1))

/-- Engine slots are bound to the live engines of each die, or to those of the group's partition (R239, R480). -/
def Dev.bindEngines (d : Dev) (g : Nat) : Dev :=
  let p := (d.groupParts g).headD 0
  let slots := [0, 1].flatMap fun die =>
    ((d.enginesOf die p).take 32).zipIdx.map fun e => (g * 64 + die * 32 + e.2, e.1)
  let kept := d.att.slotOf.filter fun e => e.1 / 64 != g
  let d := { d with att := { d.att with slotOf := slots.foldl (fun m e => NMap.put m e.1 e.2) kept } }
  slots.foldl (fun (d : Dev) e => d.si F.ATT_ENG_STATUS_WEAVE_SLOT e.2 (e.1 % 32)) d

/-- Work of the continuing decode and push sessions of a die, which every plan of the next row holds (R220, R253). -/
def Dev.decodeWorks (d : Dev) (g die : Nat) : List RowWork :=
  ((d.continuing g die).filter fun e =>
    let x := d.sess e.1
    !d.fenced e.1 && !d.shed x.d.prio && ((d.pushOf e.1).isSome || (!(d.ctx e.2).chunking && decide (x.pendingTokens ≤ 1)))).map
    fun e => { slot := e.1, first := (d.sess e.1).d.committed, push := (d.pushOf e.1).isSome }
/-- Admission on one die, with what a batch has done on it before (R134 to R137, R267): the members that a batch has entered already feed
their first row and do not continue in it (R256, R269). The check of a join is a reference to its descriptor, whatever it answers (R81,
R83). A batch is admitted in the west die's pass, behind that die's continuing sessions and ahead of every revive and rebuild of the boundary,
whatever their priority: no rule says where it stands among the joins (DESIGN CHOICE, log entry 16). -/
def Adm.die (m : Memory) (w : Weave) (b : Binding) (g row die : Nat) (a : Adm) : Adm :=
  let par (lat tpt : Fld) : Nat := if b.throughput then a.dev.gi tpt g else a.dev.gi lat g
  let e : AdmEnv :=
    { g := g
      row := row
      die := die
      target := par F.ATT_GRP_LAT_TARGET_US F.ATT_GRP_TPT_TARGET_US
      chunkPos := par F.ATT_GRP_LAT_CHUNK_POS F.ATT_GRP_TPT_CHUNK_POS
      hostBatch := b.hostBatch
      w := w }
  let a := { a with
    left := par F.ATT_GRP_LAT_ROW_PREFILL F.ATT_GRP_TPT_ROW_PREFILL
    works := a.dev.decodeWorks g die }
  let going := (a.dev.continuing g die).filter fun s => !(a.dev.group g).nextBatch.any fun b => b.slot == s.1
  let a := going.foldl (fun a s => Adm.continue m e a s.1 s.2) a
  let a := if b.hostBatch ∧ die = 0 then a.batch m e else a
  (a.dev.joins g die b.hostBatch).foldl (fun (a : Adm) s =>
    let a := { a with dev := a.dev.touch s.1 }
    if (a.dev.ctx s.2).kind == .revive then Adm.joinRevive m e a s.1 s.2
    else if (a.dev.ctx s.2).kind == .migrateIn then Adm.joinMigrate m e a s.1 s.2
    else Adm.join m e a s.1 s.2) a

/-- Admission of a group with no weave bound: revives alone are reserved. -/
def Dev.admitRevives (d : Dev) (m : Memory) (g row : Nat) : Dev :=
  [0, 1].foldl (fun d die =>
    let a : Adm := { dev := d }
    ((d.joins g die true).foldl (fun (a : Adm) s =>
      let e : AdmEnv := { g := g, row := row, die := die }
      let a := { a with dev := a.dev.touch s.1 }
      if (a.dev.ctx s.2).kind == .revive then Adm.joinRevive m e a s.1 s.2
      else if (a.dev.ctx s.2).kind == .migrateIn then Adm.joinMigrate m e a s.1 s.2
      else a) a).dev) d

/-- Step 5 of a boundary: admission per die, the plan of the next row, and the first masks of joins (R131, R134, R159,
R307). The west die comes first, with joins whose overflow may take east frames before the east die's continuing sessions, and what
priority and ADMIT_ROW leave equal goes by session id: the spec states neither order (DESIGN CHOICE, log entry 80). -/
def Dev.admission (d : Dev) (m : Memory) (g row : Nat) : Dev :=
  let d := d.redeal.updGroup g fun y => { y with nextBatch := [], nextPlan := [], nextCc := 0 }
  let d : Dev := match (d.group g).bound, d.weaveOf g with
  | some b, some w =>
    let d := (Adm.die m w b g row 1 (Adm.die m w b g row 0 { dev := d })).dev
    let p := (d.groupParts g).headD 0
    let works (die : Nat) : List RowWork :=
      ((d.group g).nextBatch.filter fun (b : BatchEntry) => slotDie b.slot == die && (b.npos != 0 || b.role == .push)).map fun b =>
        { slot := b.slot, first := b.pos, npos := b.npos, chunk := b.role != .decode, push := b.role == .push }
    let plan := d.planDie w 0 p (works 0) ++ d.planDie w 1 p (works 1)
    let cc := max (d.planTime w 0 p (works 0)) (d.planTime w 1 p (works 1))
    d.updGroup g fun y => { y with nextPlan := plan, nextCc := cc.floor.toNat }
  | _, _ => d.admitRevives m g row
  d.bindEngines g

end Sys2Proof.Machine
end

