-- ==== Sys2Proof/Machine/Revive.lean ====
section
/-! DEFINITION. Reviving, rebuilding, the spill scan, mirrors held for other controllers, and WARM holdings (R334, R335,
R337 to R342, R364). -/
namespace Sys2Proof.Machine
open Sys2Proof

/-! ## Frames that are filled whole (R199, R209, R339) -/

/-- A reserved frame becomes the entry of its page, with COW = 0; it is reserved no more (R86). -/
def Dev.installResv (d : Dev) (slot : Nat) (r : Resv) (f : Frame → Frame) : Dev :=
  let fr := f (d.frame r.pageId)
  let d := { d with ses := { d.ses with ctxs := NMap.mapV d.ses.ctxs fun _ c =>
    if c.slot = slot then { c with resvPages := c.resvPages - 1 } else c } }
  (d.setFrame r.pageId { fr with fstate := 2 }).updSess slot fun x => { x with
    resv := x.resv.filter (· != r)
    pt := NMap.put x.pt (r.layer * 65536 + r.page) { pageId := r.pageId, cls := fr.cls } }
/-- The slots of a page as an image holds them, in the storage format (R199). -/
def Profile.reviveSlots (p : Profile) (fmt size : Nat) (bs : Bytes) (n : Nat) : Bytes :=
  if fmt = 7 ∧ p.storeFmt ≠ 7 then
    (List.range n).flatMap fun i =>
      let (lat, rot) := decSlot 7 p.dc p.dr 0 0 (slice bs (i * size) size)
      encSlot p.storeFmt 0 0 lat rot
  else bs.take (n * size)
/-- A frame is filled from an image's page (R185, R199, R339 step 2). -/
def Dev.fillFrame (d : Dev) (slot : Nat) (r : Resv) (mx4 : Bool) (slots trailer : Bytes) (n : Nat) : Dev :=
  (d.poke (d.frameAddr r.pageId) slots).installResv slot r fun f =>
    let g := f.withTrailer trailer
    { g with
      fill := n
      parkFid := g.parkFid || mx4
      written := 2 ^ n - 1
      ofsLat := if mx4 then 0 else g.ofsLat
      ofsRot := if mx4 then 0 else g.ofsRot }
/-- Signatures and coarse records are taken from signature runs (R207, R352). -/
def Dev.putRuns (d : Dev) (slot n : Nat) (run : Nat → Nat → Bytes) : Dev :=
  let p := d.prof (d.sess slot)
  let keys := (List.range p.layers).flatMap fun l => (List.range (runsFor n)).map fun j => (l, j)
  let sigs := keys.flatMap fun e =>
    let b := run e.1 e.2
    (List.range 512).filterMap fun i =>
      if bitOf (leAt b 512 64) i then some (e.1 * 65536 + 512 * e.2 + i, leAt b (4096 + 64 * i) 64) else none
  let crs := keys.flatMap fun e =>
    let b := run e.1 e.2
    (List.range 8).filterMap fun i =>
      if bitOf (leAt b 576 1) i then some (e.1 * 1024 + 8 * e.2 + i, leAt b (64 * i) 64) else none
  d.updSess slot fun x => { x with
    sigs := sigs.foldl (fun m e => NMap.put m e.1 e.2) x.sigs
    coarse := crs.foldl (fun m e => NMap.put m e.1 e.2) x.coarse }
/-- The frames of a revive are written from an image (R339 step 2, R352). -/
def Dev.fillFromImage (d : Dev) (slot : Nat) (img : Bytes) : Dev :=
  let x := d.sess slot
  let p := d.prof x
  let n := x.d.committed
  let fmt := fieldAt img 0x10 40 8
  let size := leAt img 0x18 4
  let sec := ceilDiv (n * size + 64 * ceilDiv n 64) 16384 * 16384
  let d := x.resv.foldl (fun d r =>
    let base := 16384 + r.layer * sec
    let k := min 64 (n - 64 * r.page)
    let bs := slice img (base + 64 * r.page * size) (k * size)
    d.fillFrame slot r (fmt = 7 && p.storeFmt != 7) (p.reviveSlots fmt size bs k)
      (slice img (base + n * size + 64 * r.page) 64) k) d
  if p.selGroups = 0 then d
  else d.putRuns slot n fun l j => slice img (16384 + p.layers * sec + (l * runsFor n + j) * 36864) 36864
/-- The frames of a session are written from pages in order of layer and page (R339 step 2, R434 step 3). -/
def Dev.fillFromPages (d : Dev) (slot n : Nat) (data : Bytes) : Dev :=
  let x := d.sess slot
  let p := d.prof x
  x.resv.foldl (fun d r =>
    let k := min 64 (n - 64 * r.page)
    let pg := pageIn' (pagePayload p.slotBytes) (ceilDiv n 64) data r.layer r.page
    d.fillFrame slot r false (pg.take (k * p.slotBytes)) (slice pg (64 * p.slotBytes) 64) k) d
/-- The frames of a hall copy back are written from the holder's pages (R339 step 2). -/
def Dev.fillFromHolder (d : Dev) (slot : Nat) (data : Bytes) : Dev := d.fillFromPages slot (d.sess slot).d.committed data

/-! ## The end of a revive (R339 step 4, R340 step 4, R341) -/

/-- A revive under way. -/
def Dev.revive (d : Dev) (slot : Nat) : Option Revive := NMap.get? d.prk.revives slot
/-- The revives with one changed. -/
def Dev.setRevive (d : Dev) (slot : Nat) (r : Revive) : Dev :=
  { d with prk := { d.prk with revives := NMap.put d.prk.revives slot r } }
/-- A push of a rebuild has committed: the limit of R341 is met, and the next push begins at COMMITTED (R258, R341). -/
def Dev.notePushed (d : Dev) (slot : Nat) : Dev :=
  match d.revive slot with
  | some r => d.setRevive slot { r with pushed := true, deadline := none }
  | none => d
/-- The history buffer of a rebuild is released (R340). -/
def Dev.dropHistBuffer (d : Dev) (slot : Nat) : Dev :=
  match (d.revive slot).bind (·.region) with
  | some i => (d.dropRegion i).updDesc slot fun x => { x with histAddr := 0 }
  | none => d
/-- An image revive reads its object no more (R349). -/
def Dev.endReading (d : Dev) (slot : Nat) : Dev :=
  match d.revive slot with
  | none => d
  | some r => if r.reading = 0 then d
    else ((d.updReads r.reading fun n => n - 1).setRevive slot { r with reading := 0 })
/-- A revive is over: its read has ended, and its batch slot, its context and its buffer are freed. -/
def Dev.endRevive (d : Dev) (slot i : Nat) : Dev :=
  let d := (d.endReading slot).dropHistBuffer slot
  let d := (d.quitRows slot i).freeCtx i
  { d with prk := { d.prk with revives := NMap.del d.prk.revives slot } }.updSess slot fun x => { x with tierCtx := none }
/-- Every range of a split session on another controller is HOT, as far as this controller is its home (R27). -/
def Dev.rangesHot (d : Dev) (slot : Nat) : Bool :=
  let x := d.sess slot
  !x.d.split || d.homeOf x.d.sid != d.self || x.ranges.all fun r => r.tier == .hot
/-- A revive or a rebuild has every position in local HBM: the session is HOT, its image and any WARM pages are released
(R339 step 4, R340 step 4). A split session is HOT only with its last range (R27). -/
def Dev.revived (d : Dev) (slot row : Nat) : Dev :=
  match d.revive slot with
  | none => d
  | some r =>
    if !d.rangesHot slot then d.setRevive slot { r with whole := true, deadline := none } else
    let c := d.ctx r.ctx
    let d := (d.dropWarm slot).releaseImage slot
    let d := d.endRevive slot r.ctx
    let d := d.setState slot (restState (d.sess slot).d) .hot
    let d := if r.mode = 1 then d.sat F.PRK_CNT0_REVIVES 1 else if r.mode = 2 then d.sat F.PRK_CNT0_REBUILDS 1 else d
    d.tierDone slot row c.fn c.eq c.hseq .ok
/-- COMMITTED changes where no case of R78 lets it change at once: at the start of the next boundary, or now if no group runs rows (R78). -/
def Dev.commitLater (d : Dev) (slot n : Nat) : Dev :=
  if d.noGroupRuns then (d.updDesc slot fun x => { x with committed := n }).clearAbove slot
  else d.updSess slot fun x => { x with pendCommitted := some n }
/-- A revive fails (R341): any push is abandoned, reservations are released, the session returns to the state that it came
from, and a queued turn ends with REVIVE_FAILED. -/
def Dev.reviveFailed (d : Dev) (slot cause : Nat) : Dev :=
  match d.revive slot with
  | none => d
  | some r =>
    let c := d.ctx r.ctx
    let old := d.sess slot
    let d := (((d.dropPushes slot).dropTable slot).releaseArea slot).updSess slot fun x => { x with
      sigs := if old.prevTier = .warm then old.sigs else []
      coarse := if old.prevTier = .warm then old.coarse else [] }
    let d := if r.pushed then d.commitLater slot r.c0 else d
    let d := (d.endRevive slot r.ctx).setState slot old.prevState old.prevTier
    let d := (d.post c.fn c.eq { typ := 0x08, subject := old.d.sid, status := Status.fault.code, cause := cause, hseq := c.hseq }).sat
      F.PRK_CNT1_REVIVE_FAIL 1
    let d := match d.turnCtx slot with
      | some i => if (d.sess slot).d.turnQueued then (d.latch i 0x21).finishTurn slot i old.d.lastRow else d
      | none => d
    if d.noGroupRuns then d.reclaimFrames.reclaimBlocks else d

/-! ## Rebuilds (R340, R413) -/

/-- The history buffer's 64 KiB pages. -/
def histPages (n : Nat) : Nat := ceilDiv (max 64 (4 * n)) 65536
/-- A session's history can be read: nothing of it is in the hamper, or its object is whole; tokens that are pending are held here (R92, R340,
R341). -/
def Dev.histReadable (d : Dev) (slot : Nat) : Bool :=
  let x := (d.sess slot).d
  x.histDurable == 0 || (match d.obj x.histHandle with
    | some o => !o.lacks 0 o.length
    | none => false)
/-- REBUILD_READY for a split session is followed by one REBUILD_RANGE for each range, in the same queue: its index, its controller and its
positions, so far as the controllers of the ranges have reported them (R340, R535; log entry 37). -/
def Dev.rebuildRanges (d : Dev) (slot i : Nat) : Dev :=
  let x := d.sess slot
  let c := d.ctx i
  let own : RangeInfo :=
    { ctrl := d.self
      index := x.d.rangeIdx
      lo := x.d.rangeLo
      hi := x.d.rangeHi }
  if !x.d.split then d
  else (List.range (x.d.rangeCnt + 1)).foldl (fun (d : Dev) k =>
    match (own :: x.ranges).find? (·.index == k) with
    | none => d
    | some r => d.post c.fn c.eq { typ := 0x0C, subject := x.d.sid, hseq := c.hseq, args := [k, r.ctrl, r.lo, r.hi] }) d
/-- A rebuild that has nothing to push is complete (R340 step 3). -/
def Dev.emptyRebuild (d : Dev) (slot row : Nat) : Dev :=
  let x := d.sess slot
  let d := if x.d.grammarBound && !x.area then (d.takeArea slot).getD d else d
  (d.updDesc slot fun x => { x with committed := d.feedFrom slot }).revived slot row
/-- A rebuild begins: the history buffer is a region whose pages are fetched on demand, REBUILD_READY is posted, and the
limit of R341 runs. A session that holds no page here pushes its whole history, and COMMITTED stays as it is until a push commits
(R78; log entry 30). With at most one token in the history there is nothing to push: the rebuild completes at once, or, where COMMITTED must
still fall to 0, at the next boundary (R78). -/
def Dev.beginRebuild (d : Dev) (slot : Nat) : Dev :=
  match d.revive slot with
  | none => d
  | some r =>
    let x := d.sess slot
    let c := d.ctx r.ctx
    let d := d.updCtx r.ctx fun c => { c with kind := .rebuild }
    let d := d.setRevive slot { r with mode := 2, c0 := x.committedNext }
    if !d.histReadable slot then d.reviveFailed slot 1
    else
      let (a, d) := d.draw
      let n := ceilDiv (max 64 (4 * x.d.histLen)) 64 * 64
      let place := (d.hbmPlace [slotDie slot] n 64 a).map (slotDie slot * 2 ^ 47 + ·)
      let base := place.getD 0
      let reg : Region :=
        { base := base
          length := n
          source := .hamper x.d.histHandle 0
          partition := x.d.partition
          read := true
          paged := true
          qht := true
          roce := true
          absent := List.range (histPages x.d.histLen) }
      match place.bind fun _ => d.newRegion reg with
      | none => d.reviveFailed slot 1
      | some (i, d) =>
        let d := d.updDesc slot fun x => { x with histAddr := base }
        let d := d.setRevive slot { r with
          mode := 2
          c0 := x.committedNext
          region := some i
          staged := true
          deadline := some (d.now + d.g F.PRK_TIMING_REBUILD_S * 1000000000) }
        let d := d.post c.fn c.eq { typ := 0x0B, subject := x.d.sid, hseq := c.hseq,
                                    args := [x.d.histLen, d.self * 2 ^ 48 + base, d.regionKey i,
                                             if x.d.split then x.d.rangeCnt + 1 else 0] }
        let d := d.rebuildRanges slot r.ctx
        if x.d.histLen ≤ 1 then
          if x.d.committed = 0 ∨ d.noGroupRuns then d.emptyRebuild slot x.d.lastRow else d
        else d

/-- The image cannot be read from the home or the buddy: the session becomes HISTORY, and the revive goes on as a rebuild
in the same context (R341). -/
def Dev.imageLost (d : Dev) (slot : Nat) : Dev :=
  let d := (((d.endReading slot).dropTable slot).releaseArea slot).releaseImage slot
  let d := d.updSess slot fun x => { x with
    prevState := .history
    prevTier := .history
    sigs := []
    coarse := []
    d := { x.d with tier := .history, committed := 0 } }
  (d.refresh slot).beginRebuild slot

/-! ## REVIVE (R87, R89, R338) -/

/-- REVIVE AUTO of a PARKED session takes the image (R324, R325). -/
def Dev.autoImage (d : Dev) (slot : Nat) : Bool :=
  let x := d.sess slot
  if x.d.hint = 2 then true
  else if x.d.hint = 3 then false
  else
    let c := d.estimate slot
    c.rev ≤ c.hist
/-- The path of a revive by tier and mode: 1 image, 2 rebuild, 3 hall copy back (R338). -/
def Dev.revivePath (d : Dev) (slot mode : Nat) : Nat :=
  let x := (d.sess slot).d
  if x.tier = .warm then (if mode = 2 then 2 else 3)
  else if x.state = .parked ∧ x.imageValid ∧ (mode = 1 ∨ (mode = 0 ∧ d.autoImage slot)) then 1 else 2
/-- A revive begins with a context of its own; none if no context is free (R84, R338, R466). An offer of the session that stands ends
first, since a session holds one context of tier work at a time (R84). With no group running, what it needs is reserved at once (R87). -/
def Dev.beginRevive (d : Dev) (m : Memory) (slot mode fn eq hseq : Nat) : Option Dev :=
  let x := d.sess slot
  let d := d.endOut x.d.sid
  let p := x.d.partition
  let path := d.revivePath slot mode
  let c : Ctx :=
    { sid := x.d.sid
      slot := slot
      fn := fn
      hseq := hseq
      kind := if path = 2 then .rebuild else .revive
      prio := x.d.prio
      mapEpoch := d.own.current
      ownerEpoch := x.d.ownerEpoch
      group := x.d.group
      eq := eq
      baseCommitted := x.committedNext
      baseHist := x.d.histLen }
  if overLimit p (d.useContexts p) 1 (d.limits p).contexts then none
  else match d.newCtx (slotDie slot) c with
    | none => none
    | some (i, d) =>
      let d := (d.updSess slot fun x => { x with
        prevState := x.d.state
        prevTier := x.d.tier
        tierCtx := some i }).setRevive slot { ctx := i, mode := path, c0 := x.committedNext }
      let d := (d.setState slot .reviving x.d.tier).tellRanges slot 3 (if path = 2 then 2 else 1)
      some (if path = 2 then d.beginRebuild slot
        else if d.noGroupRuns then
          (Adm.joinRevive m { g := x.d.group, row := x.d.lastRow, die := slotDie slot } { dev := d } slot i).dev
        else d)

/-- The mode that the home of a split session, HOT on its own range, gives the ranges that are not: that of the command, and for AUTO the
choice between image and rebuild that R325 and R338 make (R333). -/
def Dev.rangeMode (d : Dev) (slot mode : Nat) : Nat := if mode = 0 then (if d.autoImage slot then 1 else 2) else mode
/-- REVIVE's answer by state (R89). A refusal for want of a context changes nothing: a park goes on (R84). A session that the abandoned
park leaves WARM or PARKED is revived (R29, R332; log entry 40). -/
def Dev.reviveCmd (d : Dev) (m : Memory) (h : Hdr) (slot mode : Nat) : Res :=
  let x := d.sess slot
  match x.d.state with
  | .free => d.res .staleGen
  | .closed => d.res .badParam
  | .migrating => d.res .busy
  | .running | .reviving => d.res .dup
  | .parking =>
    let e := d.abandonPark slot 2
    if e.isWarm slot || (e.sess slot).d.tier == .parked then
      match e.beginRevive m slot mode h.fn h.eq h.hseq with
      | some e => e.res .ok
      | none => d.res .noSpace
    else e.res .ok
  | _ =>
    if (x.d.state = .open ∨ x.d.state = .waiting) ∧ x.d.tier ≠ .warm then
      (if x.coldest = .hot then d.res .dup else (d.tellRanges slot 3 (d.rangeMode slot mode)).res .ok)
    else if x.d.state = .history ∧ mode = 1 then d.res .badParam
    else if !d.hready (slotDie slot) then d.retry d.startRetryUs
    else
      let e := if (d.park slot).isSome then d.abandonPark slot 2 else d
      match e.beginRevive m slot mode h.fn h.eq h.hseq with
      | some e => e.res .ok
      | none => d.res .noSpace

/-- REVIVE. -/
def execRevive (h : Hdr) (sid mode : Nat) : State → Host.Outcome State Fault Refusal :=
  onDev fun m d =>
    d.command h 0x0402 (d.mayUse h.fn sid true) (mode ≤ 2) false fun d => d.needs parkBlocks fun d =>
      d.onSession h sid fun slot d => d.reviveCmd m h slot mode

/-- Bytes of a chunk of an image: the most whole pages that one message can bring (R335, R359). -/
def chunkBytes : Nat := 1032192
/-- Length of a chunk of an image. -/
def HObj.chunkLen (o : HObj) (i : Nat) : Nat := min chunkBytes (o.length - chunkBytes * i)
/-- The chunks of an image that the home cannot read; all, if it can read every one and what it reads does not verify (R339 step 3,
R352; log entry 84). -/
def HObj.badChunks (o : HObj) : List Nat :=
  let all := List.range (ceilDiv o.length chunkBytes)
  match all.filter fun i => o.lacks (chunkBytes * i) (o.chunkLen i) with
  | [] => all
  | bad => bad
/-- The buddy is asked for some chunks of an image (R335, R339 step 3). -/
def Dev.askChunks (d : Dev) (slot : Nat) (o : HObj) (cs : List Nat) : Dev :=
  cs.foldl (fun (d : Dev) i => d.toBuddy slot 7 3 (chunkBytes * i) (o.chunkLen i) []) d

/-- The read of an image revive, or of a hall copy back, has ended: every frame is written and the session is HOT at once
(R339 steps 2 and 4). Chunks that the home cannot read are asked of the buddy; an image with one that neither can read is lost (R341). -/
def execReviveComplete (sid : Nat) (data : Bytes) : State → Host.Outcome State Fault Refusal :=
  onDev fun _ d => match d.slotOf sid with
    | none => d
    | some slot => match d.revive slot with
      | none => d
      | some r =>
        let x := d.sess slot
        if !r.reserved || 0 < r.wants then d
        else if r.mode = 3 then (d.fillFromHolder slot data).revived slot x.d.lastRow
        else if r.mode = 1 then
          match d.readObj x.d.imageHandle with
          | none => d.imageLost slot
          | some o =>
            let d := d.countReads x.d.imageHandle 0 o.length
            if !o.lacks 0 o.length && imageOk o.data then (d.fillFromImage slot o.data).revived slot x.d.lastRow
            else if x.d.mirrorValid && x.d.buddy != 0 && !r.staged then
              let bad := o.badChunks
              (d.setRevive slot { r with wants := (bad.map o.chunkLen).sum }).askChunks slot o bad
            else d.imageLost slot
        else d

/-- No rebuild push has committed within REBUILD_S of REBUILD_READY (R341). -/
def execRebuildTimeout (sid : Nat) : State → Host.Outcome State Fault Refusal :=
  onDev fun _ d => match d.slotOf sid with
    | none => d
    | some slot => match d.revive slot with
      | none => d
      | some r => match r.deadline with
        | some t => if r.mode = 2 then (d.reach t).reviveFailed slot 2 else d
        | none => d

/-! ## Spill scan (R342) -/

/-- Free user space of the hamper in percent of its user capacity is below a bound. -/
def Dev.hamperBelow (d : Dev) (pct : Nat) : Bool :=
  let free := d.freePages 0 + d.freePages 1
  let cap := d.userPages 0 + d.userPages 1
  free * 100 < pct * cap
/-- Order of the spill scan: class of the hint, priority, then what the move saves (R342). -/
def Dev.spillKey (d : Dev) (slot : Nat) : Nat × Nat × Rat :=
  let x := (d.sess slot).d
  let k := if x.hint = 3 then 0 else if x.hint = 2 then 2 else 1
  let c := d.estimate slot
  (k, if k = 1 then x.prio else 0, if k = 1 then c.hist - c.rev else 0)
/-- One key is before another. -/
def spillLt (a b : Nat × Nat × Rat) : Bool :=
  a.1 < b.1 || (a.1 == b.1 && (a.2.1 < b.2.1 || (a.2.1 == b.2.1 && a.2.2 < b.2.2)))
/-- The PARKED session that the spill scan moves next, if its history can be read; one whose pending tokens have no room is passed over
(R342, R358). -/
def Dev.spillNext (d : Dev) : Option Nat :=
  let may := (NMap.keys d.ses.tab).filter fun s =>
    let x := (d.sess s).d
    x.state == .parked && x.tier == .parked && d.owns s && (d.park s).isNone && d.histReadable s &&
      (decide (x.histLen ≤ x.histDurable) || (d.flushHist s).isSome)
  may.foldl (fun b s => match b with
    | none => some s
    | some t => if spillLt (d.spillKey s) (d.spillKey t) then some s else some t) none
/-- One step of the spill scan (R342): the next PARKED session moves to HISTORY while free space is low, at once where its history is
durable and else once it is (R336). A scan that has
begun goes on until free space reaches HIGH_PCT. -/
def execSpillScan : State → Host.Outcome State Fault Refusal :=
  onDev fun m d =>
    let low := if d.prk.spillSeen = 1 then d.hamperBelow (d.g F.PRK_SPILL_HIGH_PCT) else d.hamperBelow (d.g F.PRK_SPILL_LOW_PCT)
    if !d.on F.PRK_CTL_EN || !d.on F.PRK_CTL_SPILL_EN || !d.hamperReady then d
    else if !low then { d with prk := { d.prk with spillSeen := 0 } }
    else match d.spillNext with
      | none => d
      | some slot =>
        let d := { d with prk := { d.prk with spillSeen := 1 } }
        let x := (d.sess slot).d
        let d := if x.hint = 2 then d.override slot 3 .history else d
        let eq := d.gi F.PRK_POLICY_EQ x.partition
        if x.histLen ≤ x.histDurable then (d.tellRanges slot 1).toHistory slot x.lastRow x.partition eq 0
        else (d.beginPark m slot 1 {} x.partition eq 0).getD d

/-! ## Mirrors held for other controllers (R334, R335) -/

/-- What is held for a session. -/
def Dev.mirror (d : Dev) (sid : Nat) : Mirror := NMap.getD d.prk.mirrors sid {}
/-- The mirrors with one changed. -/
def Dev.setMirror (d : Dev) (sid : Nat) (x : Mirror) : Dev :=
  { d with prk := { d.prk with mirrors := NMap.put d.prk.mirrors sid x } }
/-- The handle of a mirror object. -/
def Mirror.handle (x : Mirror) (obj : Nat) : Nat := (if obj = 3 then x.image else if obj = 4 then x.hist else none).getD 0
/-- An ACK of the buddy (R335). -/
def Dev.mirrorAck (d : Dev) (src sid obj len : Nat) (st : Status) : Dev :=
  let x := d.mirror sid
  d.sendBulk src 5 (mirrorMsg 6 st.code x.partition obj 0 sid 0 len x.ownerEpoch [])
/-- Half that holds a session's mirror: that of its slot's die. -/
def mirrorHalf (sid : Nat) : Nat := slotDie (sidSlot sid)

/-- MIRROR OPEN (R335): an image is reserved in full, a history's first 64 pages; answered by ACK. -/
def execMirrorOpen (src sid partition obj length epoch : Nat) : State → Host.Outcome State Fault Refusal :=
  onDev fun _ d =>
    if obj ≠ 3 ∧ obj ≠ 4 then d.resolve src 5 .badParam
    else
      let d := d.resolve src 5 .ok
      let x := d.mirror sid
      let old := x.handle obj
      let d := if old = 0 then d else d.askRelease old
      let x := { x with
        partition := partition
        ownerEpoch := epoch }
      match d.createObj (mirrorHalf sid) obj sid partition (if obj = 3 then ceilDiv length 16384 else 64) with
      | none =>
        (d.setMirror sid (if obj = 3 then { x with image := none } else { x with hist := none })).mirrorAck src sid obj 0 .noSpace
      | some (hd, d) =>
        (d.setMirror sid (if obj = 3 then { x with image := some hd, whole := false } else { x with hist := some hd })).mirrorAck src sid obj 0 .ok

/-- MIRROR DATA (R335, R351): bytes of a mirror object; a history grows as they need. A refusal is an ACK. -/
def execMirrorData (src : Sender) (sid obj offset : Nat) (data : Bytes) : State → Host.Outcome State Fault Refusal :=
  onDev fun _ d =>
    let d := d.resolve src.node 5 .ok
    let hd := (d.mirror sid).handle obj
    match d.obj hd with
    | none => d.mirrorAck src.node sid obj 0 .staleGen
    | some o =>
      let pages := ceilDiv (offset + data.length) 16384
      let d? := if obj = 4 then d.growObj hd pages else if pages ≤ o.pages then some d else none
      match d? with
      | none => d.mirrorAck src.node sid obj 0 .noSpace
      | some d => d.writeObjAt src.prio hd offset data

/-- MIRROR SEAL (R335): acknowledged once every byte is durable and the digest verifies. -/
def execMirrorSeal (src sid obj : Nat) (digest : Bytes) : State → Host.Outcome State Fault Refusal :=
  onDev fun _ d =>
    let d := d.resolve src 5 .ok
    match d.obj ((d.mirror sid).handle obj) with
    | none => d.mirrorAck src sid obj 0 .staleGen
    | some _ => (d.setMirror sid { d.mirror sid with sealing := some (src, obj, padTo 48 digest) }).ackSeals

/-- MIRROR DESC (R334, R335): the mirrored descriptor is replaced. -/
def execMirrorDesc (src sid partition epoch : Nat) (desc : Bytes) : State → Host.Outcome State Fault Refusal :=
  onDev fun _ d =>
    let d := d.resolve src 5 .ok
    (d.setMirror sid { d.mirror sid with
      partition := partition
      ownerEpoch := epoch
      desc := desc }).mirrorAck src sid 0 0 .ok

/-- MIRROR RELEASE (R335): one mirror object, or everything held for the session. -/
def execMirrorRelease (src sid obj : Nat) : State → Host.Outcome State Fault Refusal :=
  onDev fun _ d =>
    let d := d.resolve src 5 .ok
    let x := d.mirror sid
    let d := (if obj = 0 then [3, 4] else [obj]).foldl (fun d o => if x.handle o = 0 then d else d.askRelease (x.handle o)) d
    let d := d.mirrorAck src sid obj 0 .ok
    if obj = 0 then { d with prk := { d.prk with mirrors := NMap.del d.prk.mirrors sid } }
    else if obj = 3 then d.setMirror sid { x with image := none }
    else d.setMirror sid { x with hist := none }

/-- MIRROR ACK at the sender (R331 step 4, R332, R335): the image of a park is mirrored once its SEAL is acknowledged; a
refusal abandons the park. The ACK to a release of everything lets a CLOSED slot go (R103). -/
def execMirrorAck (src sid obj status length : Nat) : State → Host.Outcome State Fault Refusal :=
  onDev fun _ d => d.onHall src 5 sid fun d =>
    match d.slotOf sid with
    | none => d
    | some slot =>
      let x := (d.sess slot).d
      if x.buddy ≠ src then d
      else if x.state = .closed then (if obj = 0 ∧ status = 0 then d.confirm slot 1 else d)
      else match d.park slot with
        | none =>
          if x.state = .parked ∧ x.imageValid ∧ obj = 3 ∧ status = 0 ∧ ((d.obj x.imageHandle).map (·.length)).getD 0 ≤ length then
            d.updDesc slot fun x => { x with mirrorValid := true }
          else d
        | some p =>
          if p.target ≠ 0 then d
          else if status ≠ 0 ∧ (obj = 3 ∨ obj = 4) then d.abandonPark slot 5
          else if obj = 3 ∧ p.handle ≠ 0 ∧ ((d.obj p.handle).map (·.length)).getD 0 ≤ length then
            (d.setPark slot { p with mirrored := true }).checkPark slot
          else d

/-- MIRROR READ (R335): bytes of a mirror object, answered by READ_DATA. -/
def execMirrorRead (src sid obj offset length : Nat) : State → Host.Outcome State Fault Refusal :=
  onDev fun _ d =>
    let d := d.resolve src 5 .ok
    let x := d.mirror sid
    let say (st : Status) (n : Nat) (body : Bytes) : Dev :=
      d.sendBulk src 5 (mirrorMsg 8 st.code x.partition obj 0 sid offset n x.ownerEpoch body)
    match d.readObj (x.handle obj) with
    | none => say .staleGen 0 []
    | some o =>
      if o.lacks offset length then say .fault 0 []
      else
        let bs := padTo length (slice o.data offset length)
        let d := d.countReads (x.handle obj) offset length
        d.sendBulk src 5 (mirrorMsg 8 0 x.partition obj 0 sid offset length x.ownerEpoch bs)

/-- MIRROR READ_DATA at the requester: a repair read returns its page, which is rewritten at a new place and counted, or
the object is DAMAGED (R364); bytes of an image that a revive waits for are taken, or the image is lost (R339, R341). -/
def execMirrorReadData (src sid obj offset status : Nat) (data : Bytes) : State → Host.Outcome State Fault Refusal :=
  onDev fun _ d => d.onHall src 5 sid fun d =>
    match d.slotOf sid with
    | none => d
    | some slot =>
      let x := (d.sess slot).d
      let hd := if obj = 3 then x.imageHandle else x.histHandle
      let half := handleHalf hd
      match d.obj hd with
      | none => d
      | some o =>
        let waits := ((d.revive slot).map (·.wants)).getD 0
        if obj = 3 ∧ 0 < waits then
          if status ≠ 0 then d.imageLost slot
          else
            let keep := o.data.drop (offset + data.length)
            let d := d.updObj hd fun o => { o with
              data := padTo offset o.data ++ data ++ keep
              holes := o.holes.filter fun k => !(decide (offset ≤ 16384 * k) && decide (16384 * k < offset + data.length)) }
            let left := waits - min waits (max 1 data.length)
            let d := if left = 0 then d.updObj hd fun o => { o with damaged := false } else d
            match d.revive slot with
            | some r => d.setRevive slot { r with
                wants := left
                staged := true }
            | none => d
        else match lpnAt o.extents (offset / 16384) with
          | none => d
          | some l =>
            match (d.half half).repairs.find? fun e => e.1 == l with
            | none => d
            | some e =>
              let y := d.half half
              let still := NMap.get? y.map l == some e.2 && (y.queued ++ y.buffer).all fun b => b.lpn != l
              let d := d.setHalf half { y with repairs := y.repairs.erase e }
              if !still then d
              else if status = 0 then
                (d.updHalf half fun y => { y with buddyRepairs := y.buddyRepairs + 1 }).writeObj hd offset
                  (data.take (o.length - offset))
              else d.updObj hd fun o => { o with damaged := true }

/-- MIRROR GET_DESC (R335, R587): the newest mirrored descriptor of a controller's slot. -/
def execGetDesc (src sid : Nat) : State → Host.Outcome State Fault Refusal :=
  onDev fun _ d =>
    let d := d.resolve src 5 .ok
    let best := d.prk.mirrors.foldl (fun (b : Option (Nat × Mirror)) e =>
      if sidHome e.1 = sidHome sid ∧ sidSlot e.1 = sidSlot sid ∧ !e.2.desc.isEmpty then
        match b with
        | none => some e
        | some y => if sidGen y.1 ≤ sidGen e.1 then some e else b
      else b) none
    match best with
    | some (s, x) => d.sendBulk src 5 (mirrorMsg 10 0 x.partition 0 0 s 0 256 x.ownerEpoch x.desc)
    | none => d.sendBulk src 5 (mirrorMsg 10 Status.noSpace.code 0 0 0 sid 0 0 0 [])

/-! ## WARM holdings (R337, R380) -/

/-- Contiguous empty page bins of a die, `n` of them, from the lowest run that holds them. -/
def Dev.binRun (d : Dev) (die n : Nat) : Option Nat :=
  let free (b : Nat) : Bool := !NMap.has d.pgs.bins (die * 2 ^ 19 + b) && !d.binRetired (die * 2 ^ 19 + b)
  (List.range (d.pageBins die + 1 - n)).find? fun b => (List.range n).all fun i => free (b + i)
/-- The region that the pages of a WARM holding are copied to: the bins from `b` of a die (R337, R379). -/
def holdingRegion (d : Dev) (die b length partition : Nat) : Region :=
  { base := die * 2 ^ 47 + (d.gi F.PGS_REGION_BASE die + b) * 2 ^ 24
    length := max 64 (ceilDiv length 64 * 64)
    partition := partition
    read := true
    write := true
    qht := true }
/-- The region of a holding is reported to the controller that asked for it: generation, hall address, key (R380). -/
def Dev.reportHolding (d : Dev) (src sid i : Nat) : Dev :=
  let r := NMap.getD d.hall.regions i {}
  d.emit (.holding src sid i r.gen (d.self * 2 ^ 48 + r.base) (d.regionKey i))
/-- A holder is asked for room for a session's pages, or told to release them (R337). The room is a run of whole empty bins
and a region over it; how a holder chooses it is its own (log entry 31). -/
def execWarmHolding (src sid : Nat) (release : Bool) (length partition : Nat) : State → Host.Outcome State Fault Refusal :=
  onDev fun _ d =>
    let held := d.prk.holdings.find? fun h => h.sid == sid && h.holder == src
    if release then
      match held with
      | none => d.resolve src svcOwner .staleGen
      | some h =>
        let d := h.frames.foldl (fun d id => d.setFrame id { d.frame id with refcount := 0, fstate := 3 }) (d.dropRegion h.region)
        let d := { d with prk := { d.prk with holdings := d.prk.holdings.filter (· != h) } }
        (if d.noGroupRuns then d.reclaimFrames else d).resolve src svcOwner .ok
    else if held.isSome then d.resolve src svcOwner .dup
    else
      let die := slotDie (sidSlot sid)
      let n := max 1 (ceilDiv length (2 ^ 24))
      match d.binRun die n with
      | none => d.resolve src svcOwner .noSpace
      | some b =>
        let bins := (List.range n).map fun i => die * 2 ^ 19 + b + i
        let ids := bins.flatMap fun k => (List.range (classFrames 15)).map fun i => k * 2 ^ 12 + i
        let f : Frame :=
          { refcount := 1
            cls := 15
            fstate := 2
            partition := partition
            place := 1 }
        match d.newRegion (holdingRegion d die b length partition) with
        | none => d.resolve src svcOwner .noSpace
        | some (i, d) =>
          let hold : Holding :=
            { sid := sid
              region := i
              frames := ids
              holder := src }
          let d := { d with
            pgs := { d.pgs with
              bins := bins.foldl (fun m k => NMap.put m k 15) d.pgs.bins
              frames := ids.foldl (fun m id => NMap.put m id f) d.pgs.frames }
            prk := { d.prk with holdings := d.prk.holdings ++ [hold] } }
          (d.resolve src svcOwner .ok).reportHolding src sid i

end Sys2Proof.Machine
end

