-- ==== Sys2Proof/Machine/Turns.lean ====
section
/-! DEFINITION. Opening, forking and closing sessions, turns and their cancellation, placement hints (R33, R35, R40,
R84 to R103, R120 to R127, R201, R209, R248, R249, R258, R266, R269, R282, R466, R469, R474). -/
namespace Sys2Proof.Machine
open Sys2Proof

/-- The level that a command names: COMPAT takes it from CLASS (R249). -/
def levelOf (compat cls : Bool) (prio : Nat) : Nat := if compat then (if cls then 6 else 1) else prio
/-- A partition may name a level (R248, R466). -/
def Dev.levelOk (d : Dev) (p prio : Nat) : Bool := p == 0 || (prio < 7 && prio ≤ (d.limits p).prioMax)
/-- This controller's buddy, 0 for none (R25, R525). -/
def Dev.myBuddy (d : Dev) : Nat := ((d.own.buddies.find? fun e => e.1 == d.self).map (·.2)).getD 0
/-- The history buffer of a HOT session: a local offset of its home die, a free value (R25, R76; log entry 2). -/
def Dev.giveHist (d : Dev) (slot : Nat) : Dev :=
  let x := (d.sess slot).d
  if x.tier = .hot ∧ 0 < x.histLen ∧ x.histAddr = 0 then
    let (v, d) := d.draw
    d.updDesc slot fun x => { x with histAddr := slotDie slot * 2 ^ 47 + (v % (2 ^ 40 - 1) + 1) * 64 }
  else d

/-! ## SESSION_OPEN (R33, R35, R120 to R124, R209) -/

/-- The prefix source of an open, or why it is refused (R120). -/
def Dev.prefixOf (d : Dev) (fn src q prof : Nat) : Except Status Nat :=
  match d.slotOf src with
  | none => .error (if sidHome src = d.self then .staleGen else .badParam)
  | some s =>
    let x := (d.sess s).d
    let most := match d.turnCtx s with
      | some i => (d.ctx i).baseCommitted
      | none => x.committed
    if x.partition ≠ fn then .error .denied
    else if d.owns s ∧ x.tier = .hot ∧ (x.state = .open ∨ x.state = .waiting ∨ x.state = .running) ∧ x.profile = prof ∧ 1 ≤ q ∧
        (q ≤ x.committed ∧ q ≤ most) then .ok s
    else .error .badParam

/-- The die of a new session: more pages above the brim reserve, west on a tie (R35). -/
def Dev.openDie (d : Dev) (c : Nat) : Nat :=
  let above (die : Nat) : Nat := d.avail die c - d.g F.PGS_BRIM_PAGES
  if above 0 < above 1 then 1 else 0
/-- A free slot of a die, or of the other if it has none (R33, R35). -/
def Dev.openSlot (d : Dev) (die : Nat) : Option Nat :=
  match d.lowestSlot 2097152 (die * 2097152) with
  | some s => some s
  | none => d.lowestSlot 2097152 ((1 - die) * 2097152)

/-- Entries of a source's table that a fork of `q` positions names (R121). Of a split source these are the pages of the range that this
controller holds, since no rule speaks of forking a split session (DESIGN CHOICE; log entry 80). -/
def Session.forkKeys (x : Session) (q : Nat) : List (Nat × Pte) := x.pt.filter fun e => e.1 % 65536 < ceilDiv q 64
/-- A fork's table, records and history (R121, R123, R209). -/
def Dev.fork (d : Dev) (slot src q : Nat) : Dev :=
  let x := d.sess src
  let es := x.forkKeys q
  let full := q / 64
  let d := d.takeBlocks slot (es.map (·.1))
  let d := es.foldl (fun d e => d.addRef e.2.pageId) d
  (d.updSess slot fun y => { y with
    hist := x.hist.take q
    pt := es.map fun e => (e.1, { e.2 with cow := true })
    sigs := x.sigs.filter fun e => e.1 % 65536 < full
    coarse := x.coarse.filter fun e => (e.1 % 1024 + 1) * 64 ≤ full
    chunks := (x.chunks.map fun c => (c.1, min c.2 q)).filter fun c => c.1 < c.2
    d := { y.d with committed := q, histLen := q } }).giveHist slot
/-- What stops a fork: the reference limit, or the pool (R121, R124). -/
def Dev.forkStops (d : Dev) (die src q : Nat) (fresh : Session) : Bool :=
  let es := (d.sess src).forkKeys q
  es.any (fun e => 65535 ≤ (d.frame e.2.pageId).refcount) || !d.poolHolds die (d.newRuns fresh (es.map (·.1)))

/-- SESSION_OPEN (R33, R35, R87, R120, R248, R282, R425, R466, R469). A fork of more than 1,048,576 positions opens an EXACT session too,
since R120 lists no refusal for it: R40 is kept at its TURN_BEGIN, which must ask for SELECT (DESIGN CHOICE, log entry 75). -/
def Dev.openSession (d : Dev) (fn src q sub srv prof prio tkz port g : Nat) (select : Bool) : Res :=
  match NMap.get? d.att.profiles prof, NMap.get? d.tok.tkz tkz with
  | some p, some t =>
    if t.vocab ≤ p.endToken then d.res .badParam
    else if select && p.selGroups == 0 then d.res .badParam
    else if !d.levelOk fn prio then d.res .denied
    else if !d.nodesOk fn sub srv port then d.res .denied
    else match (if src = 0 then .ok 0 else d.prefixOf fn src q prof) with
      | .error st => d.res st
      | .ok s =>
        if overLimit fn (d.useSessions fn) 1 (d.limits fn).sessions then d.res .noSpace
        else match d.openSlot (d.openDie p.cls) with
          | none => d.res .noSpace
          | some slot =>
            let sid := mkSid d.self (d.nextGen slot) slot
            let x : Desc :=
              { sid := sid
                state := .open
                partition := fn
                prio := prio
                profile := prof
                group := g
                select := select
                buddy := d.myBuddy
                ownerEpoch := 1
                ownerCtrl := d.self
                subscriber := sub
                service := srv
                port := port
                tokenizer := tkz
                opened := d.wall }
            if src ≠ 0 ∧ d.forkStops (slotDie slot) s q { d := x } then d.res .noSpace
            else
              let d := d.setSess slot { d := x }
              let d := if src = 0 then d else d.fork slot s q
              let d := (((d.setState slot .open .hot).cacheIn slot false).writeBack slot).refresh slot
              { dev := d, result := leBytes 8 sid }
  | _, _ => d.res .badParam

/-- SESSION_OPEN. -/
def execSessionOpen (h : Hdr) (src len sub srv prof prio tkz port g : Nat) (compat cls select : Bool) :
    State → Host.Outcome State Fault Refusal :=
  onDev fun _ d =>
    let level := levelOf compat cls prio
    d.command h 0x0101 true (g < 64 && level < 8) false fun d =>
      d.needs (if src = 0 then [] else [F.PGS_CTL_EN]) fun d => d.openSession h.fn src len sub srv prof level tkz port g select

/-! ## SESSION_CLOSE (R89, R102) -/

/-- A park, or a move to HISTORY, that a SESSION_CLOSE ends is reported with cause 3 (R332, R336). -/
def Dev.closePark (d : Dev) (slot : Nat) : Dev :=
  match d.park slot with
  | none => d
  | some p =>
    let d := (d.parkEvent slot p { typ := 0x07, cause := 3 }).tellRanges slot 4
    if p.target = 0 then d.sat F.PRK_CNT1_ABANDONED 1 else d

/-- SESSION_CLOSE. -/
def execSessionClose (h : Hdr) (sid : Nat) : State → Host.Outcome State Fault Refusal :=
  onDev fun _ d =>
    d.command h 0x0102 (d.mayUse h.fn sid true) true false fun d => d.needs [] fun d =>
      d.onSession h sid fun slot d =>
        match (d.sess slot).d.state with
        | .closed => d.res .dup
        | .migrating => d.res .busy
        | _ => ((d.closePark slot).closeSession slot).res .ok

/-! ## TURN_BEGIN (R40, R84, R89, R92, R93, R243, R248, R258, R266, R269, R332, R338, R474) -/

/-- What a TURN_BEGIN carries beside its header. -/
structure TurnBegin where
  prompt : List Nat := []
  textAddr : Nat := 0
  textLen : Nat := 0
  maxNew : Nat := 0
  push : Bool := false
  fallback : Bool := false
  prio : Option Nat := none
  select : Option Bool := none
  batch : Nat := 0
  batchSize : Nat := 0
  deriving DecidableEq, Repr

/-- A subscriber's budget is exhausted (R474). -/
def Dev.budgetOut (d : Dev) (slot : Nat) : Bool :=
  let b := d.node 0 (d.sess slot).d.subscriber
  b.budgetOn && decide (b.budget ≤ 0)
/-- A group has a weave of the profile bound, and not unloaded (R243). -/
def Dev.weaveFits (d : Dev) (g prof : Nat) : Bool :=
  match (d.group g).bound with
  | some b => !d.weaveGone b.slot && (NMap.get? d.att.weaves b.slot).any fun w => w.profile == prof
  | none => false
/-- A turn's batch agrees with those that wait under its tag, complete ones too, at the size they have come down to (R266, R268). -/
def Dev.batchOk (d : Dev) (g : Nat) (t : TurnBegin) : Bool :=
  t.batch != 0 && 1 ≤ t.batchSize && t.batchSize ≤ 32768 &&
    (d.group g).batches.all fun b => b.1 != t.batch || b.2.1 == t.batchSize
/-- The tests of TURN_BEGIN on its parameters and the session. -/
def Dev.turnOk (d : Dev) (slot : Nat) (t : TurnBegin) : Bool :=
  let x := d.sess slot
  let hist := x.d.histLen + t.prompt.length
  let k := hist - x.d.committed
  let g := x.d.group
  let host := d.gi F.ATT_GRP_SCHED_ADMIT_MODE g == 1
  d.weaveFits g x.d.profile &&
  (t.select != some true || (d.prof x).selGroups != 0) &&
  t.maxNew < 2 ^ 23 && (t.textLen == 0 || 8 ≤ t.textLen) &&
  t.prompt.all (fun i => i < (d.tkzOf slot).vocab) &&
  hist ≤ 4194304 && (t.select.getD (x.pendSelect.getD x.d.select) || hist ≤ 1048576) &&
  1 ≤ k && (t.push || k == 1 || d.gi F.ATT_GRP_SCHED_CHUNK_OK g == 1) &&
  (!host || (d.batchOk g t && (t.push || k ≤ 65536)))

/-- A turn joins its batch, which moves behind those whose last turn was accepted earlier (R266). A batch that is complete takes no more: a
turn with its tag and size opens another (DESIGN CHOICE, log entry 74). -/
def Dev.joinBatch (d : Dev) (g i : Nat) (t : TurnBegin) : Dev :=
  if d.gi F.ATT_GRP_SCHED_ADMIT_MODE g ≠ 1 then d
  else d.updGroup g fun y =>
    let old := y.batches.find? fun b => b.1 == t.batch && b.2.2.length != b.2.1
    let is := (old.map (·.2.2)).getD []
    { y with batches := (match old with
        | some b => y.batches.erase b
        | none => y.batches) ++ [(t.batch, t.batchSize, is ++ [i])] }

/-- The prompt is appended and the turn queued (R92); what it replaces is abandoned (R332, R336). -/
def Dev.queueTurn (d : Dev) (h : Hdr) (slot i : Nat) (t : TurnBegin) : Dev :=
  let x := d.sess slot
  let d := d.updCtx i fun c => { c with
    baseCommitted := x.committedNext
    baseHist := x.d.histLen
    promptLen := t.prompt.length
    maxNew := t.maxNew
    push := t.push
    fallback := t.fallback
    newPrio := t.prio
    textAddr := t.textAddr
    textLen := t.textLen
    eq := h.eq }
  let d := d.updSess slot fun x => { x with
    hist := x.hist ++ t.prompt
    pendSelect := match t.select with
      | some v => some v
      | none => x.pendSelect
    d := { x.d with
      histLen := x.d.histLen + t.prompt.length
      turnId := (x.d.turnId + 1) % 2 ^ 32
      ctx := i
      ctxValid := true
      turnQueued := true } }
  let d := if d.noGroupRuns then d.updSess slot fun x => { x with
      pendSelect := none
      d := { x.d with select := x.pendSelect.getD x.d.select } } else d
  let d := if (d.park slot).isSome then d.abandonPark slot 1 else d
  ((d.giveHist slot).joinBatch x.d.group i t).idleStart slot

/-- TURN_BEGIN on a session that may take a turn. One whose pages are not in local HBM, a WARM session that is being parked among them,
is revived for it (R26, R338). -/
def Dev.turnBegin (d : Dev) (m : Memory) (h : Hdr) (slot : Nat) (t : TurnBegin) : Res :=
  let x := d.sess slot
  let p := x.d.partition
  let cold := x.d.state == .parked || x.d.state == .history || d.isWarm slot && x.d.state != .reviving
  if x.d.state = .closed then d.res .badParam
  else if x.d.state = .running ∨ x.d.state = .migrating ∨ x.d.turnQueued ∨ x.d.ctxValid then d.res .busy
  else if d.own.moves.any fun e => e.1 == x.d.sid then d.res .busy
  else if d.budgetOut slot then d.res .denied
  else if (match t.prio with
    | some v => !d.levelOk h.fn v
    | none => false) then d.res .denied
  else if !d.turnOk slot t then d.res .badParam
  else if cold && !d.parkOn then d.res .busy
  else if cold && !d.hready (slotDie slot) then d.retry d.startRetryUs
  else if overLimit p (d.useContexts p) (if cold then 2 else 1) (d.limits p).contexts then d.res .noSpace
  else
    let c : Ctx :=
      { sid := x.d.sid
        slot := slot
        fn := h.fn
        hseq := h.hseq
        prio := x.d.prio
        mapEpoch := d.own.current
        ownerEpoch := x.d.ownerEpoch
        group := x.d.group }
    match d.newCtx (slotDie slot) c with
    | none => d.res .noSpace
    | some (i, e) =>
      let out (d : Dev) : Res :=
        { dev := d
          result := leBytes 4 ((x.d.turnId + 1) % 2 ^ 32) ++ leBytes 4 (x.d.histLen + t.prompt.length) ++
            leBytes 4 t.prompt.length }
      let e := e.queueTurn h slot i t
      if cold then
        match e.beginRevive m slot 0 h.fn h.eq h.hseq with
        | some e => out e
        | none => d.res .noSpace
      else out (if x.coldest = .hot then e else e.tellRanges slot 3 (e.rangeMode slot 0))

/-- TURN_BEGIN: the prompt as read from host memory, as ids or as text. -/
def execTurnBegin (h : Hdr) (sid : Nat) (isText : Bool) (ids : List Nat) (text : Bytes) (textAddr textLen maxNew : Nat)
    (push fallback compat cls setPrio setRet select : Bool) (batch batchSize prio : Nat) :
    State → Host.Outcome State Fault Refusal :=
  onDev fun m d =>
    let data := if isText then !text.isEmpty else !ids.isEmpty
    d.command h 0x0103 (d.mayUse h.fn sid false) (!setPrio || compat || prio < 8) data fun d =>
      d.needs (if isText then [F.TOK_CTL_EN] else []) fun d => d.onSession h sid fun slot d =>
        let x := d.turnBegin m h slot
          { prompt := if isText then (d.tkzOf slot).encode text else ids
            textAddr := textAddr
            textLen := textLen
            maxNew := maxNew
            push := push
            fallback := fallback
            prio := if compat || setPrio then some (levelOf compat cls prio) else none
            select := if setRet then some select else none
            batch := batch
            batchSize := batchSize }
        if isText && x.st == .ok then
          let t : Tok := { x.dev.tok with promptBytes := x.dev.tok.promptBytes + text.length }
          { x with dev := { x.dev with tok := t }.vocabCache (x.dev.tkzOf slot).onChip }
        else x

/-! ## TURN_CANCEL (R89, R99, R101) -/

/-- The row that a cancellation voids at the home of a split session is void on every range (R98, R164). -/
def Dev.cancelRanges (d : Dev) (slot : Nat) : Dev := if (d.sess slot).voided.isSome then d.voidRanges slot else d
/-- TURN_CANCEL. -/
def execTurnCancel (h : Hdr) (sid turn : Nat) (keep : Bool) : State → Host.Outcome State Fault Refusal :=
  onDev fun _ d =>
    d.command h 0x0104 (d.mayUse h.fn sid false) true false fun d => d.needs [] fun d =>
      d.onSession h sid fun slot d =>
        let x := (d.sess slot).d
        if x.state = .migrating then d.res .busy
        else if x.state = .closed then d.res .badParam
        else if d.justEnded slot turn then d.res .dup
        else match d.turnCtx slot with
          | none => d.res .badParam
          | some i =>
            if turn ≠ x.turnId then d.res .badParam
            else if (d.ctx i).kill then d.res .dup
            else
              let d := (d.cancelTurn slot i keep 5).cancelRanges slot
              (if d.noGroupRuns then d.reclaimFrames.reclaimBlocks else d).res .ok

/-! ## HINT_PLACE (R126, R127) -/

/-- A hint applies to the frames that its ranges cover, but for one on which a hint set later, by whichever sharer, stands already
(R127). -/
def Dev.applyHint (d : Dev) (slot : Nat) (p : PlaceHint) : Dev :=
  let x := d.sess slot
  let hit (k : Nat) : Bool := p.layerLo ≤ k / 65536 && k / 65536 ≤ p.layerHi && k % 65536 * 64 < p.posHi &&
    p.posLo < (k % 65536 + 1) * 64
  let ids := ((x.pt.filter fun e => hit e.1).map fun e => e.2.pageId) ++
    ((x.resv.filter fun r => hit (r.layer * 65536 + r.page)).map (·.pageId))
  let d := ids.foldl (fun (d : Dev) id =>
    if p.seq < (d.frame id).hintSeq then d else d.setFrame id { d.frame id with place := p.code, hintSeq := p.seq }) d
  if p.dflt then d.updSess slot fun x => { x with defaultPlace := p.code } else d
/-- The hints of a session that wait are applied, in order (R127). -/
def Dev.applyHints (d : Dev) (slot : Nat) : Dev :=
  ((d.sess slot).hints.foldl (fun d p => d.applyHint slot p) d).updSess slot fun x => { x with hints := [] }

/-- HINT_PLACE. -/
def execHintPlace (h : Hdr) (sid posLo posHi : Nat) (dflt : Bool) (layerLo layerHi code : Nat) :
    State → Host.Outcome State Fault Refusal :=
  onDev fun _ d =>
    d.command h 0x0403 (d.mayUse h.fn sid false) (code ≤ 3 && posLo < posHi && layerLo ≤ layerHi) false fun d =>
      d.needs [] fun d => d.onSession h sid fun slot d =>
        if (d.sess slot).d.state = .closed then d.res .badParam
        else
          let p : PlaceHint :=
            { layerLo := layerLo
              layerHi := layerHi
              posLo := posLo
              posHi := posHi
              code := code
              dflt := dflt
              seq := d.ses.accepts + 1 }
          let d := { d with ses := { d.ses with accepts := d.ses.accepts + 1 } }
          let d := d.updSess slot fun x => { x with hints := x.hints ++ [p] }
          (if d.noGroupRuns then d.applyHints slot else d).res .ok

end Sys2Proof.Machine
end

