-- ==== Sys2Proof/Machine/Attend.lean ====
section
/-! DEFINITION. What the attention engines compute: gathered queries, absorption, scores, the fold, merges, the closing
pass, the backward pass, signatures and selection (R144 to R147, R152, R155, R160 to R163, R169 to R171, R182, R186,
R191 to R193, R203 to R205, R210 to R216). -/
namespace Sys2Proof.Machine
open Sys2Proof

/-! ## Tile payloads (R152, R155, R170, R189) -/

/-- Bytes of an element of a tile format. -/
def fmtBytes (f : Nat) : Nat := fmtBits f / 8
/-- Width of the non-rotary part of a query, or of an output, in HEAD or LATENT form (R146, R152, R155). -/
def Profile.formWidth (p : Profile) (latent : Bool) : Nat := if p.splitKv || !latent then p.dh else p.dc
/-- Bytes of a (position, head) query (R152). -/
def Profile.queryBytes (p : Profile) (t : QTile) : Nat := (p.formWidth t.latentIn + p.dr) * fmtBytes t.qfmt
/-- Offset of the latent rows in a payload (R152). -/
def Profile.kvOffset (p : Profile) (t : QTile) : Nat := t.npos * t.nheads * p.queryBytes t
/-- Bytes of a (position, head)'s gradient items (R170). -/
def Profile.gradBytes (p : Profile) (t : QTile) : Nat := p.formWidth t.latentOut * fmtBytes t.qfmt + 8
/-- Bytes of a query tile's payload before its padding (R152, R170). -/
def Profile.tileBytes (p : Profile) (t : QTile) : Nat :=
  p.kvOffset t + (if t.kvPresent then t.npos * (p.dc + p.dr) * fmtBytes t.kvfmt else 0)
    + (if t.kind = 2 then t.npos * t.nheads * p.gradBytes t else 0)
/-- Values of `n` plain elements. -/
def plainVals (f n : Nat) (bs : Bytes) : List Rat := match fmtElem f with
  | some x => (readElems bs x.width n).map x.val
  | none => []
/-- `n` plain elements are finite (R189). -/
def plainFinite (f n : Nat) (bs : Bytes) : Bool := match fmtElem f with
  | some x => (readElems bs x.width n).all x.finite
  | none => false
/-- The query of position `i` and head `h` of a tile, as FP32 words. -/
def QTile.query (t : QTile) (p : Profile) (i h : Nat) : List Nat :=
  let n := p.formWidth t.latentIn + p.dr
  (plainVals t.qfmt n (slice t.payload ((i * t.nheads + h) * p.queryBytes t) (p.queryBytes t))).map toF32
/-- The latent and rotary row of position `i` of a tile that carries it. -/
def QTile.latentRow (t : QTile) (p : Profile) (i : Nat) : List Rat :=
  let n := p.dc + p.dr
  plainVals t.kvfmt n (slice t.payload (p.kvOffset t + i * n * fmtBytes t.kvfmt) (n * fmtBytes t.kvfmt))
/-- The gradient items of position `i` and head `h` of a BACKWARD tile: output gradient, log-sum-exp, D (R170). -/
def QTile.gradItems (t : QTile) (p : Profile) (i h : Nat) : List Nat × Nat × Nat :=
  let n := p.formWidth t.latentOut
  let bs := slice t.payload (p.kvOffset t + (i * t.nheads + h) * p.gradBytes t) (p.gradBytes t)
  ((plainVals t.qfmt n bs).map toF32, leAt bs (n * fmtBytes t.qfmt) 4, leAt bs (n * fmtBytes t.qfmt + 4) 4)
/-- The FP32 word of minus infinity. -/
def negInf : Nat := 0xFF800000
/-- Every element of a payload is finite, but for a log-sum-exp of minus infinity (R189). -/
def QTile.finite (t : QTile) (p : Profile) : Bool :=
  plainFinite t.qfmt (t.npos * t.nheads * (p.formWidth t.latentIn + p.dr)) t.payload &&
    (!t.kvPresent || plainFinite t.kvfmt (t.npos * (p.dc + p.dr)) (t.payload.drop (p.kvOffset t))) &&
    (t.kind != 2 || ((List.range t.npos).all fun i => (List.range t.nheads).all fun h =>
      let o := p.kvOffset t + (i * t.nheads + h) * p.gradBytes t
      let n := p.formWidth t.latentOut
      let (_, lam, dd) := t.gradItems p i h
      plainFinite t.qfmt n (t.payload.drop o) && (lam == negInf || Elem.fp32.finite lam) && Elem.fp32.finite dd))

/-! ## Weights (R144, R244) -/

/-- Row `e` of W_uk of a head: dc elements. -/
def Profile.wuk (p : Profile) (layer h e : Nat) : List Rat :=
  let n := rowBytes p.weightFmt p.dc
  decRow p.weightFmt p.dc (slice p.params (layer * p.layerBytes + (h * p.dh + e) * n) n)
/-- Row `c` of W_uv of a head: dh elements. -/
def Profile.wuv (p : Profile) (layer h c : Nat) : List Rat :=
  let n := rowBytes p.weightFmt p.dh
  decRow p.weightFmt p.dh
    (slice p.params (layer * p.layerBytes + p.heads * p.dh * rowBytes p.weightFmt p.dc + (h * p.dc + c) * n) n)
/-- Row `i` of the selection projection of a group. -/
def Profile.proj (p : Profile) (layer g i : Nat) : List Rat :=
  let n := rowBytes p.selFmt p.kp
  let base := if p.hasParams then weightBytes p.heads p.dh p.dc p.weightFmt else 0
  decRow p.selFmt p.kp (slice p.params (layer * p.layerBytes + base + (g * p.selBits + i) * n) n)
/-- Column `c` of a matrix given by its rows. -/
def column (rows : List (List Rat)) (c : Nat) : List Rat := rows.map fun r => r.getD c 0
/-- A matrix's transpose times a vector, element by element as `dot` (R193). -/
def mulT (rows : List (List Rat)) (n : Nat) (v : List Rat) : List Rat := (List.range n).map fun c => dot (column rows c) v
/-- A matrix times a vector. -/
def mulM (rows : List (List Rat)) (v : List Rat) : List Rat := rows.map fun r => dot r v
/-- W_uk of a head. -/
def Profile.wukAll (p : Profile) (layer h : Nat) : List (List Rat) := (List.range p.dh).map (p.wuk layer h)
/-- W_uv of a head. -/
def Profile.wuvAll (p : Profile) (layer h : Nat) : List (List Rat) := (List.range p.dc).map (p.wuv layer h)

/-- A head's query absorbed: q_c as FP32, then the rotary part (R193). -/
def Profile.absorb (p : Profile) (layer h : Nat) (q : List Rat) : List Rat :=
  mulT (p.wukAll layer h) p.dc (toCompute p.computeFmt (q.take p.dh)) ++ q.drop p.dh

/-! ## Pages (R27, R145, R160, R185, R186) -/

/-- The latent and rotary values of a slot of a frame. -/
def Dev.slotVals (d : Dev) (m : Memory) (p : Profile) (id i : Nat) : List Rat × List Rat :=
  let f := d.frame id
  decSlot p.storeFmt p.dc p.dr (ofF32 f.ofsLat) (ofF32 f.ofsRot) (m.readN (d.frameAddr id + i * p.slotBytes) p.slotBytes)
/-- The 64 slots of a page of a session's layer. -/
def Dev.pageVals (d : Dev) (m : Memory) (slot layer k : Nat) : List (List Rat × List Rat) :=
  let x := d.sess slot
  match x.entry layer (64 * k) with
  | some e => (List.range 64).map (d.slotVals m (d.prof x) e.pageId)
  | none => List.replicate 64 ([], [])
/-- A latent row is written into a slot of a frame: LQ4 offsets with slot 0, the WRITTEN bit, FILL (R112, R160, R185,
R186). -/
def Dev.writeSlot (d : Dev) (p : Profile) (id i : Nat) (row : List Rat) : Dev :=
  let lat := row.take p.dc
  let rot := row.drop p.dc
  let f := d.frame id
  let f := if i = 0 ∧ p.storeFmt = 9 then
      { f with
        ofsLat := lq4Offset lat
        ofsRot := if p.dr = 0 then 0 else lq4Offset rot }
    else f
  let f := { f with
    written := setBit f.written i true
    fill := max f.fill (i + 1)
    fmt := p.storeFmt
    fstate := if f.fstate = 1 then 2 else f.fstate }
  (d.setFrame id f).poke (d.frameAddr id + i * p.slotBytes)
    (encSlot p.storeFmt (ofF32 f.ofsLat) (ofF32 f.ofsRot) lat rot)
/-! ## Scores (R145, R192) -/

/-- The stream of a kind that carries a head (R226). -/
def Weave.headStream (w : Weave) (kind h : Nat) : WStream :=
  (w.streams.find? fun s => s.kind == kind && s.head0 ≤ h && h < s.head0 + s.nheads).getD {}
/-- Key/value group of a head in SPLIT_KV kind (R144). -/
def Profile.kvGroup (p : Profile) (h : Nat) : Nat := h * p.hkv / p.heads
/-- SCORE works at head width for a head: EXPANDED working in HEAD query form (R146). -/
def WStream.headKeys (s : WStream) : Bool := s.expanded && !s.latentIn
/-- MIX works at head width for a head: EXPANDED working in HEAD output form (R146). -/
def WStream.headVals (s : WStream) : Bool := s.expanded && !s.latentOut
/-- The query operand of SCORE in the compute format, from the delivered query and the absorbed one (R182, R193). -/
def Profile.queryOperand (p : Profile) (s : WStream) (q absorbed : List Rat) : List Rat :=
  toCompute p.computeFmt (if p.splitKv || s.latentIn || s.headKeys then q else absorbed)
/-- The key operand of a slot for a head (R144, R146, R182). -/
def Profile.keyOperand (p : Profile) (s : WStream) (layer h : Nat) (v : List Rat × List Rat) : List Rat :=
  if p.splitKv then (v.1.drop (p.kvGroup h * p.dh)).take p.dh
  else if s.headKeys then toCompute p.computeFmt (mulM (p.wukAll layer h) v.1) ++ v.2
  else v.1 ++ v.2
/-- The uncapped score (R192). -/
def Profile.rawScore (p : Profile) (q key : List Rat) : Rat := rne32 (ofF32 p.scale * dot q key)
/-- 1 in a fixed-point form of 96 fraction bits. -/
def fix96 : Nat := 2 ^ 96
/-- e to the power 1024 y in fixed point, for y of at most 1/8, rounded down (`up` 0) or up (`up` 1): twelve terms of the series, then ten
squarings; the terms left out are below the innermost 1 + y. -/
def fixExp (up y : Nat) : Nat :=
  let start := if up = 0 then fix96 else fix96 + y
  let h := (List.range 12).foldr (fun i h => fix96 + y * h / ((i + 1) * fix96) + up) start
  (List.range 10).foldl (fun h _ => h * h / fix96 + up) h
/-- Bounds of e to the power of a number: at least 0 and at most 2^-184 below -128, at least 2^184 above 128. -/
def expBounds (q : Rat) : Rat × Rat :=
  let a := if q < 0 then -q else q
  if 128 < a then (if q < 0 then (0, 1 / 2 ^ 184) else (2 ^ 184, 2 ^ 184))
  else
    let y := a.num.toNat * 2 ^ 86 / a.den
    let lo : Rat := fixExp 0 y
    let hi : Rat := fixExp 1 (y + 1)
    if q < 0 then (fix96 / hi, fix96 / lo) else (lo / fix96, hi / fix96)
/-- Bounds of the hyperbolic tangent of a number: by its series below 2^-12, by the exponential above. -/
def tanhBounds (q : Rat) : Rat × Rat :=
  let a := if q < 0 then -q else q
  let b : Rat × Rat :=
    if a ≤ 1 / 4096 then (a - a * a * a / 3, a)
    else if 64 < a then (1 - 1 / 2 ^ 90, 1)
    else
      let e := expBounds (2 * a)
      ((e.1 - 1) / (e.1 + 1), (e.2 - 1) / (e.2 + 1))
  if q < 0 then (-b.2, -b.1) else b
/-- A value lies within a relative error of 2^-22 of every number between two bounds of one sign, or, where these lie below the least
normal FP32 number, within `tiny` of them (R162, R187). -/
def nearEnough (tiny w : Rat) (b : Rat × Rat) : Bool :=
  let e : Rat := 1 / 2 ^ 22
  let slack (x : Rat) : Rat := max (if x < 0 then -x * e else x * e) (if x < 1 / 2 ^ 126 ∧ -(1 / 2 ^ 126) < x then tiny else 0)
  b.2 - slack b.2 ≤ w && w ≤ b.1 + slack b.1
/-- The hardware's value of a function, if it keeps the error bound that the spec states for it; else the nearest FP32 value (R162,
R187; log entry 2). -/
def bounded (tiny : Rat) (word : Nat) (b : Rat × Rat) : Rat :=
  if Elem.fp32.finite word && nearEnough tiny (ofF32 word) b then ofF32 word else rne32 ((b.1 + b.2) / 2)
/-- FP32 tanh: one fixed function, within a relative error of 2^-22 over the whole range, so that tanh 0 is 0 (R187). -/
def ftanh (q : Rat) : Rat := bounded 0 (Config.tanhWord (toF32 q)) (tanhBounds q)
/-- FP32 exp: one fixed function, within a relative error of 2^-22; a result below 2^-128, which no FP32 value need meet that closely, is
the nearest FP32 value, so that one below half the least subnormal is +0 (R162, R187, R190; log entry 2). -/
def fexp (q : Rat) : Rat := bounded (1 / 2 ^ 150) (Config.expWord (toF32 q)) (expBounds q)
/-- The soft cap (R145, R192). -/
def softCap (cap s : Rat) : Rat := if 0 < cap then rne32 (cap * ftanh (rne32 (s / cap))) else s
/-- Cap and window of a layer (R144). -/
def Profile.layer (p : Profile) (l : Nat) : Nat × Nat := p.layerTab.getD l (0, 0)
/-- Slot `j` is attended by a query at position `q` of a row that writes up to `top`, under a window and a head's
selected pages (R145, R212). -/
def attended (q top window : Nat) (sel : Option (List Nat)) (j : Nat) : Bool :=
  j ≤ q && j < top && (window == 0 || q < j + window) && (match sel with
    | some ks => ks.contains (j / 64)
    | none => true)

/-- The pages of Sel_g for a position and a head, if the work selects: those of the tile range that holds the position (R201, R212). -/
def Work.selOf (w : Work) (p : Profile) (pos h : Nat) : Option (List Nat) :=
  w.sel.map fun rs => match rs.find? fun r => r.1 ≤ pos && pos < r.1 + r.2.1 with
    | some r => r.2.2.getD (h * p.selGroups / max 1 p.heads) []
    | none => []
/-- One above the highest position that holds a latent row in the row under way (R145, R169). -/
def Work.top (w : Work) (x : Session) : Nat := max x.d.committed (if w.kind = 2 then w.chunkTop else w.pos + w.npos)
/-- The rows of a work: position and head. -/
def Work.rows (w : Work) (p : Profile) : List (Nat × Nat) :=
  (List.range w.npos).flatMap fun i => (List.range p.heads).map fun h => (w.pos + i, h)
/-- Scores of a page for every row (R145, R192). -/
def Dev.scorePage (d : Dev) (m : Memory) (v : Weave) (w : Work) (layer top k : Nat) : List (List (Option Nat)) :=
  let x := d.sess w.slot
  let p := d.prof x
  let vals := d.pageVals m w.slot layer k
  let (cap, window) := p.layer layer
  ((w.rows p).zipIdx).map fun r =>
    let s := v.headStream w.kind r.1.2
    let q := p.queryOperand s ((w.queries.getD r.2 []).map ofF32) ((w.absorbed.getD r.2 []).map ofF32)
    vals.zipIdx.map fun e =>
      if x.d.holdsPos (64 * k + e.2) && attended r.1.1 top window (w.selOf p r.1.1 r.1.2) (64 * k + e.2) then
        some (toF32 (softCap (ofF32 cap) (p.rawScore q (p.keyOperand s layer r.1.2 e.1))))
      else none

/-! ## Fold and accumulation (R162, R192) -/

/-- The highest of FP32 words, with what stood before. -/
def maxWord (a : Option Nat) (b : Option Nat) : Option Nat :=
  match a, b with
  | none, y => y
  | some x, none => some x
  | some x, some y => if ofF32 x < ofF32 y then some y else some x
/-- FOLD of a page for one row: maximum and sum, and the rescale factor and weights for MIX; none where the page holds no
attended slot. -/
def FoldRow.fold (f : FoldRow) (s : List (Option Nat)) : FoldRow × Option (Nat × List Nat) :=
  match s.foldl maxWord none with
  | none => (f, none)
  | some mx =>
    let mNew := (maxWord f.m (some mx)).getD mx
    let alpha := match f.m with
      | some m0 => fexp (rne32 (ofF32 m0 - ofF32 mNew))
      | none => 0
    let ps := s.map fun v => match v with
      | some w => fexp (rne32 (ofF32 w - ofF32 mNew))
      | none => 0
    let psum := rne32 (ps.foldl (· + ·) 0)
    ({ f with
        m := some mNew
        l := toF32 (rne32 (ofF32 f.l * alpha) + psum) },
      some (toF32 alpha, ps.map toF32))

/-- The value operands of a page for a head: per element, the 64 slots (R144, R146). Slots that are not attended by any
row of the work count as 0 in the compute format of expanded values (log entry 32). -/
def Profile.valueColumns (p : Profile) (s : WStream) (layer h k top : Nat) (vals : List (List Rat × List Rat)) :
    List (List Rat) :=
  let live := vals.zipIdx.map fun e => if 64 * k + e.2 < top then e.1.1 else []
  if p.splitKv then
    (List.range p.dh).map fun i => live.map fun v => v.getD ((p.hkv + p.kvGroup h) * p.dh + i) 0
  else if s.headVals then
    let rows := live.map fun v => if v.isEmpty then [] else mulT (p.wuvAll layer h) p.dh v
    (List.range p.dh).map fun i => toCompute p.computeFmt (column rows i)
  else (List.range p.dc).map fun i => column live i
/-- MIX of a page for one row (R192). -/
def FoldRow.mix (f : FoldRow) (fmt : Nat) (cols : List (List Rat)) (w : Option (Nat × List Nat)) : FoldRow :=
  match w with
  | none => if f.acc.isEmpty then { f with acc := cols.map fun _ => 0 } else f
  | some (alpha, ps) =>
    let pm := toCompute fmt (ps.map ofF32)
    let g (lo : Nat) (c : List Rat) : Rat := rne32 (exactDot ((pm.drop lo).take 32) ((c.drop lo).take 32))
    { f with acc := cols.zipIdx.map fun c =>
        toF32 (rne32 (rne32 (ofF32 (f.acc.getD c.2 0) * ofF32 alpha) + g 0 c.1) + g 32 c.1) }
/-- Span partials merged in ascending order, each operation rounded to FP32 in the order written (R163, R192). -/
def mergeParts (parts : List FoldRow) : FoldRow :=
  match parts with
  | [f] => f
  | _ =>
    let m := parts.foldl (fun a f => maxWord a f.m) none
    let n := (parts.map fun f => f.acc.length).foldl max 0
    parts.foldl (fun (a : FoldRow) f => match f.m, m with
      | some fm, some mm =>
        if ofF32 f.l ≤ 0 then a
        else
          let e := fexp (rne32 (ofF32 fm - ofF32 mm))
          { a with
            l := toF32 (ofF32 a.l + rne32 (ofF32 f.l * e))
            acc := (List.range n).map fun i => toF32 (ofF32 (a.acc.getD i 0) + rne32 (e * ofF32 (f.acc.getD i 0))) }
      | _, _ => a) { m := m, l := 0, acc := List.replicate n 0 }

/-! ## Closing pass and output (R155, R193) -/

/-- The values and statistics of a row: normalised, and carried to head space in HEAD output form (R155, R193). -/
def Profile.closeRow (p : Profile) (s : WStream) (layer h : Nat) (f : FoldRow) : List Nat × Option Nat × Nat :=
  let width := p.formWidth s.latentOut
  if f.m.isNone || ofF32 f.l ≤ 0 then (List.replicate width 0, none, 0)
  else
    let o := f.acc.map fun a => rne32 (ofF32 a / ofF32 f.l)
    let v := if p.splitKv || s.latentOut || s.headVals then o
      else mulT (p.wuvAll layer h) p.dh (toCompute p.computeFmt o)
    (v.map toF32, f.m, f.l)
/-- Values in a plain tile format. -/
def plainBytes (f : Nat) (ws : List Nat) : Bytes := match fmtElem f with
  | some x => writeElems x.width (ws.map fun w => x.round (ofF32 w))
  | none => []
/-- The output tile of a DECODE or PREFILL_CHUNK tile (R154, R155). -/
def Work.outTile (w : Work) (p : Profile) (t : QTile) (epoch : Nat) : OTile :=
  let rs := (List.range t.npos).flatMap fun i => (List.range t.nheads).map fun h =>
    w.outs.getD ((t.pos + i - w.pos) * p.heads + t.head0 + h) ([], none, 0)
  { t.answer with
    ownerEpoch := epoch
    empty := rs.any fun r => r.2.2 == 0
    payload := rs.flatMap (fun r => plainBytes t.ofmt r.1) ++
      rs.flatMap fun r => leBytes 4 (r.2.1.getD negInf) ++ leBytes 4 r.2.2 }

/-! ## Backward (R169 to R171, R193) -/

/-- A row of the backward pass: head, query and absorbed query, output gradient, log-sum-exp, D, position. -/
structure BRow where
  h : Nat := 0
  pos : Nat := 0
  q : List Rat := []
  dob : List Rat := []
  lam : Option Rat := none
  dd : Rat := 0
  deriving DecidableEq, Repr

/-- The rows of a backward work, queries absorbed and output gradients carried to latent space (R170). -/
def Dev.backRows (d : Dev) (v : Weave) (w : Work) (layer : Nat) : List BRow :=
  let p := d.prof (d.sess w.slot)
  ((w.rows p).zipIdx).map fun r =>
    let s := v.headStream 2 r.1.2
    let q := (w.queries.getD r.2 []).map ofF32
    let (g, lam, dd) := w.grads.getD r.2 ([], 0, 0)
    let g := g.map ofF32
    let dob := if p.splitKv then toCompute p.computeFmt g
      else if s.latentOut then toCompute p.computeFmt g
      else toCompute p.computeFmt (mulM (p.wuvAll layer r.1.2) (toCompute p.computeFmt g))
    { h := r.1.2
      pos := r.1.1
      q := if p.splitKv || s.latentIn then q else p.absorb layer r.1.2 q
      dob := dob
      lam := if lam = negInf then none else some (ofF32 lam)
      dd := ofF32 dd }
/-- p and ds of a slot for a row; the derivative of the cap from the uncapped score (R170). -/
def BRow.slot (r : BRow) (p : Profile) (cap : Rat) (key val : List Rat) : Rat × Rat :=
  let raw := p.rawScore (toCompute p.computeFmt r.q) key
  let s := softCap cap raw
  let pr := match r.lam with
    | some l => fexp (rne32 (s - l))
    | none => 0
  let dp := dot r.dob val
  let t := ftanh (rne32 (raw / cap))
  let capd := if 0 < cap then rne32 (1 - rne32 (t * t)) else 1
  (pr, rne32 (rne32 (rne32 (pr * rne32 (dp - r.dd)) * capd) * ofF32 p.scale))
/-- A vector plus a scalar times a vector, rounded to FP32 in the order written. -/
def axpy (acc : List Rat) (a : Rat) (x : List Rat) : List Rat :=
  x.zipIdx.map fun e => rne32 (acc.getD e.2 0 + rne32 (a * e.1))
/-- A slot's key and value vectors in a head's terms (R144). -/
def Profile.keyVal (p : Profile) (h : Nat) (v : List Rat × List Rat) : List Rat × List Rat :=
  if p.splitKv then ((v.1.drop (p.kvGroup h * p.dh)).take p.dh, (v.1.drop ((p.hkv + p.kvGroup h) * p.dh)).take p.dh)
  else (v.1 ++ v.2, v.1)
/-- A page list cut into the spans of the backward pass, given as lists: at most 8 pages each, whatever SPAN_PAGES says (R159, R169). -/
def Dev.backSpans (d : Dev) (selects : Bool) (pages : List Nat) : List (List Nat) :=
  let n := max 1 (min 8 (d.g F.ATT_CTL_SPAN_PAGES))
  let key (e : Nat × Nat) : Nat := (if selects then e.2 else e.1) / n
  let keys := (pages.zipIdx.map key).dedup
  keys.map fun j => (pages.zipIdx.filter fun e => key e == j).map (·.1)
/-- The gradients of a backward work over the spans of its page list: query gradients of the rows, whose span partials are added in
ascending order (log entry 73), and latent gradients by position (R169 to R171). -/
def Dev.backward (d : Dev) (m : Memory) (v : Weave) (w : Work) (layer top : Nat) (spans : List (List Nat)) :
    List (List Nat) × List (Nat × List Nat) :=
  let x := d.sess w.slot
  let p := d.prof x
  let (capW, window) := p.layer layer
  let cap := ofF32 capW
  let rows := d.backRows v w layer
  let slotsOf (pages : List Nat) : List (Nat × List Rat × List Rat) :=
    pages.flatMap fun k => ((d.pageVals m w.slot layer k).zipIdx).map fun e => (64 * k + e.2, e.1)
  let parts := spans.map slotsOf
  let slots := parts.flatten
  let hit (r : BRow) (j : Nat) : Bool := x.d.holdsPos j && attended r.pos top window (w.selOf p r.pos r.h) j
  let dq (r : BRow) : List Nat :=
    let part (slots : List (Nat × List Rat × List Rat)) : List Rat := slots.foldl (fun (a : List Rat) e =>
      if hit r e.1 then
        let (k, u) := p.keyVal r.h e.2
        axpy a (r.slot p cap k u).2 k
      else a) (r.q.map fun _ => 0)
    let acc := match parts.map part with
      | [] => r.q.map fun _ => 0
      | a :: as => as.foldl (fun (a b : List Rat) => a.zipIdx.map fun e => rne32 (e.1 + b.getD e.2 0)) a
    let out := if p.splitKv || (v.headStream 2 r.h).latentIn then acc
      else mulM (p.wukAll layer r.h) (toCompute p.computeFmt (acc.take p.dc)) ++ acc.drop p.dc
    out.map toF32
  let zeros : List Rat := List.replicate (p.dc + p.dr) 0
  let inOrder := (List.range p.heads).flatMap fun h => rows.filter fun r => r.h == h
  let dl (j : Nat) (u : List Rat × List Rat) : List Rat :=
    inOrder.foldl (fun (a : List Rat) r =>
      if hit r j then
        let (k, vv) := p.keyVal r.h u
        let (pr, ds) := r.slot p cap k vv
        if p.splitKv then
          let lo := p.kvGroup r.h * p.dh
          let hi := (p.hkv + p.kvGroup r.h) * p.dh
          let put (b : List Rat) (at' : Nat) (c : Rat) (x : List Rat) : List Rat :=
            b.take at' ++ axpy ((b.drop at').take p.dh) c x ++ b.drop (at' + p.dh)
          put (put a lo ds r.q) hi pr r.dob
        else
          let a1 := axpy (a.take p.dc) ds (r.q.take p.dc)
          axpy a1 pr r.dob ++ axpy (a.drop p.dc) ds (r.q.drop p.dc)
      else a) zeros
  (rows.map dq, slots.filterMap fun e => if x.d.holdsPos e.1 && decide (e.1 < top) then some (e.1, (dl e.1 e.2).map toF32) else none)

/-! ## Signatures (R203, R205) -/

/-- The key part that a group sums (R203). -/
def Profile.keyPart (p : Profile) (g : Nat) (v : List Rat × List Rat) : List Rat :=
  if p.splitKv then (v.1.drop (g * p.dh)).take p.dh else v.1 ++ v.2
/-- Vectors added in order, rounded to FP32 after each addition. -/
def sumVecs (n : Nat) (vs : List (List Rat)) : List Rat :=
  vs.foldl (fun a v => (List.range n).map fun i => rne32 (a.getD i 0 + v.getD i 0)) (List.replicate n 0)
/-- The signs of a group's projections of a vector, as bits (R203, R204). -/
def Profile.signs (p : Profile) (layer g : Nat) (v : List Rat) : Nat :=
  let c := toCompute p.computeFmt v
  (List.range p.selBits).foldl (fun n i => setBit n i (decide (0 < dot (p.proj layer g i) c))) 0
/-- The signature of a full page of a layer (R203). -/
def Dev.signature (d : Dev) (m : Memory) (slot layer k : Nat) : Nat :=
  let p := d.prof (d.sess slot)
  let vals := d.pageVals m slot layer k
  (List.range p.selGroups).foldl (fun n g =>
    setBits n (p.selBits * g) p.selBits (p.signs layer g (sumVecs p.kp (vals.map (p.keyPart g))))) 0
/-- A coarse record: bits set in at least 32 of 64 signatures (R208). -/
def coarseOf (sigs : List Nat) : Nat :=
  (List.range 512).foldl (fun n i => setBit n i (decide (32 ≤ (sigs.filter fun s => bitOf s i).length))) 0

/-! ## Selection (R204, R210 to R213, R216) -/

/-- The query code of a group for a tile's positions (R204). -/
def Profile.queryCode (p : Profile) (v : Weave) (w : Work) (layer g lo n : Nat) : Nat :=
  let vec (r : (Nat × Nat) × Nat) : List Rat :=
    let s := v.headStream w.kind r.1.2
    let q := (w.queries.getD r.2 []).map ofF32
    if p.splitKv || s.latentIn then q else p.absorb layer r.1.2 q
  let mine := ((w.rows p).zipIdx).filter fun r =>
    lo ≤ r.1.1 && r.1.1 < lo + n && r.1.2 * p.selGroups / max 1 p.heads == g
  p.signs layer g (sumVecs p.kp (mine.map vec))
/-- The first `n` of numbers in ascending distance, ties to the higher number (R211). -/
def nearest (dist : Nat → Nat) (n : Nat) (xs : List Nat) : List Nat :=
  (sortBy (fun x => [(dist x : Int), -(x : Int)]) xs).take n
/-- Sel_g for every group and the positions of one tile: sink, local and own pages, and the pages nearest the query code; what a
controller selects among is the pages of its own range, and a range that does not hold the tile's last position has no local page
(R211, R213). Candidates, and the blocks of the coarse stage, end before the first page of the chunk that fed the tile's positions, or
of the tile itself where no chunk did: in the forward pass nothing above it is signed, and a BACKWARD tile then selects as that pass did
(R214; DEDUCED, log entry 73). -/
def Dev.selectRange (d : Dev) (v : Weave) (w : Work) (layer lo n : Nat) : List (List Nat) :=
  let x := d.sess w.slot
  let p := d.prof x
  let last := (lo + n - 1) / 64
  let first := (if w.kind = 2 then (x.chunks.find? fun c => c.1 ≤ lo && lo < c.2).elim lo (·.1) else min lo w.pos) / 64
  let here (k : Nat) : Bool := x.d.holdsPage k
  let sink := ((List.range p.selSink).filter fun k => k ≤ last).filter here
  let loc := if x.d.holdsPos (lo + n - 1) then ((List.range (last + 1)).drop (last + 1 - p.selLocal)).filter here else []
  let own := ((List.range (last + 1)).drop (lo / 64)).filter here
  let signed := (x.sigs.filter fun e => e.1 / 65536 == layer && e.1 % 65536 < first && here (e.1 % 65536)).map fun e =>
    (e.1 % 65536, e.2)
  let blocks := (x.coarse.filter fun e => e.1 / 1024 == layer && (e.1 % 1024 + 1) * 64 ≤ first).map fun e => (e.1 % 1024, e.2)
  (List.range p.selGroups).map fun g =>
    let code := p.queryCode v w layer g lo n
    let dist (rec' : Nat) : Nat := popcount (bits rec' (p.selBits * g) p.selBits ^^^ code) p.selBits
    let kept := if blocks.length ≤ p.selCoarseK then blocks.map (·.1)
      else nearest (fun b => dist (NMap.getD blocks b 0)) p.selCoarseK (blocks.map (·.1))
    let cand := (signed.filter fun s => (kept.contains (s.1 / 64) || !NMap.has blocks (s.1 / 64)) &&
      !sink.contains s.1 && !loc.contains s.1).map (·.1)
    let near := nearest (fun k => dist (NMap.getD signed k 0)) p.selK cand
    (List.range (last + 1)).filter fun k => sink.contains k || loc.contains k || own.contains k || near.contains k
/-- The selection of a work: one for each position range of its tiles (R211, R212). -/
def Dev.selection (d : Dev) (v : Weave) (w : Work) (layer : Nat) : List (Nat × Nat × List (List Nat)) :=
  w.ranges.map fun r => (r.1, r.2, d.selectRange v w layer r.1 r.2)

/-- The work selects pages: a SELECT session in a layer without a window (R210, R211). -/
def Dev.selects (d : Dev) (w : Work) (layer : Nat) : Bool :=
  (d.sess w.slot).d.select && ((d.prof (d.sess w.slot)).layer layer).2 == 0
/-- The page list of a work: the selected list, the window, or every page, of those that this controller holds (R27, R159, R210, R213,
R216). -/
def Dev.pageList (d : Dev) (w : Work) (layer : Nat) : List Nat :=
  let p := d.prof (d.sess w.slot)
  let last := (w.pos + w.npos - 1) / 64
  let window := (p.layer layer).2
  if d.selects w layer then
    match w.sel with
    | some rs => (List.range (last + 1)).filter fun k => rs.any fun r => r.2.2.any fun g => g.contains k
    | none => []
  else ((List.range (last + 1)).drop (if window = 0 then 0 else (w.pos + 1 - window) / 64)).filter (d.sess w.slot).d.holdsPage
/-- The last planned span of a work (R159). -/
def Dev.lastSpan (d : Dev) (w : Work) : Nat :=
  ((d.group w.group).plan.filter fun s => s.stake == w.stake && s.slot == w.slot && !s.push).foldl (fun a s => max a s.idx) 0
/-- The pages of span `j` of a work: pages counted from page 0, or entries of the selected list, of which the last planned span takes
what the lists of several tiles have beyond the plan (R159, R216; log entry 73). -/
def Dev.spanOf (d : Dev) (w : Work) (layer j : Nat) : List Nat :=
  let n := d.g F.ATT_CTL_SPAN_PAGES
  if d.selects w layer then
    (if j = d.lastSpan w then (d.pageList w layer).drop (n * j) else ((d.pageList w layer).drop (n * j)).take n)
  else (d.pageList w layer).filter fun k => k / n == j

end Sys2Proof.Machine
end

