-- ==== Sys2Proof/Machine/Engines.lean ====
section
/-! DEFINITION. Query tiles, push tiles and range partials as they arrive; the firing of weave steps; engine tasks and
preemption (R122, R148 to R165, R211, R221 to R239, R260 to R263, R271 to R276). -/
namespace Sys2Proof.Machine
open Sys2Proof

/-! ## Works and voids (R49, R58, R153) -/

/-- The works with one replaced or added. -/
def Dev.putWork (d : Dev) (w : Work) : Dev :=
  let ws := d.att.work
  { d with att := { d.att with work := if ws.any w.same then ws.map fun v => if w.same v then w else v else ws ++ [w] } }
/-- Every output tile of the works that is complete lets its member's stake end (R156). -/
def Dev.flushAll (d : Dev) (g : Nat) : Dev :=
  (d.att.emitQ.filter fun e => e.1 == g).foldl (fun d e => d.flushStake g e.2.1 e.2.2.2.2.stake) d
/-! ## Engines and tasks (R271 to R276) -/

/-- Die of an engine (R142). -/
def engDie (e : Nat) : Nat := e / 32
/-- An engine's tasks. -/
def Dev.engine (d : Dev) (e : Nat) : Engine := NMap.getD d.att.engines e {}
/-- The engines with one changed; ATT_ENG_STATUS.STATE follows, but for a retired engine, and for a stalled one until it takes
its next task (R173, R232). -/
def Dev.setEngine (d : Dev) (e : Nat) (x : Engine) : Dev :=
  let d := { d with att := { d.att with engines := NMap.put d.att.engines e x } }
  let busy := x.running.isSome || x.saving.isSome || x.restoring.isSome
  let st := d.gi F.ATT_ENG_STATUS_STATE e
  if st = 3 ∨ (st = 2 ∧ !busy) then d
  else d.si F.ATT_ENG_STATUS_STATE e (b2n busy)
/-- Nanoseconds of core-clock cycles at the present clock (R593, R613). -/
def Dev.ccNs (d : Dev) (cc : Nat) : Nat := ceilDiv (cc * 1000) (max 1 (d.g F.CLK_STATUS_CORE_MHZ))

/-- A task goes before another when an engine takes its next one: an empty one first, then the higher level, then a saved
before a ready one, then the earlier (R271, R272). -/
def Task.before (a b : Task) (aSaved bSaved : Bool) : Bool :=
  match a.level, b.level with
  | none, none => a.readyAt < b.readyAt
  | none, _ => true
  | _, none => false
  | some x, some y => y < x || (x == y && ((aSaved && !bSaved) || (aSaved == bSaved && a.readyAt < b.readyAt)))
/-- The task that an engine takes next, and whether it is a saved one. -/
def Engine.next (x : Engine) : Option (Task × Bool) :=
  let cands := (x.ready.map fun t => (t, false)) ++ (x.saved.filter fun t => t.awaits.isNone).map fun t => (t, true)
  cands.foldl (fun b t => match b with
    | none => some t
    | some u => if t.1.before u.1 t.2 u.2 then some t else some u) none
/-- An idle engine takes its next task: a ready one runs, a saved one is restored first (R272, R274). -/
def Dev.dispatch (d : Dev) (e : Nat) : Dev :=
  let x := d.engine e
  if x.running.isSome || x.saving.isSome || x.restoring.isSome then d
  else match x.next with
    | none => d
    | some (t, false) => d.setEngine e { x with
        running := some { t with yieldCc := d.g F.ATT_PREEMPT_YIELD_CC, waitFrom := d.now }
        ready := x.ready.erase t
        request := none }
    | some (t, true) => d.setEngine e { x with restoring := some t, saved := x.saved.erase t, request := none }

/-- Counter index `i` of a binding's holding on a die (R234). -/
def nthOf : List (Nat × Nat) → Nat → Option Nat
  | [], _ => none
  | r :: rs, i => if i < r.2 then some (r.1 + i) else nthOf rs (i - r.2)
/-- Slot of a group to which an engine is bound (R239). -/
def Dev.engSlot (d : Dev) (g e : Nat) : Option Nat :=
  (d.att.slotOf.find? fun x => x.1 / 64 == g && x.2 == e).map fun x => x.1 % 32
/-- The sync counter that a WAIT or SIGNAL names (R233, R234). -/
def Dev.counterOf (d : Dev) (g e : Nat) (w : Weave) (s : WStep) : Option Nat :=
  match (d.group g).bound, d.engSlot g e with
  | some b, some i =>
    let k := if s.dieScope then 32 * w.slotCounters + s.counter else i * w.slotCounters + s.counter
    (nthOf (if engDie e = 0 then b.runsW else b.runsE) k).map fun n => engDie e * 65536 + n
  | _, _ => none

/-! ## The expanded program (R223, R230) -/

/-- An instance of a step: its index in the stake, its session, its block's sessions and those that the block completes, or its page. -/
structure Inst where
  step : Nat := 0
  slot : Option Nat := none
  item : Nat := 0
  block : List Nat := []
  ends : List Nat := []
  deriving DecidableEq, Repr

/-- Sub-stations or units of a step: 0 EXPAND, 1 SCORE, 2 FOLD, 3 MIX, 4 LOOKUP and MOVE, 5 EMIT; a SIGNATURE runs on SCORE and FOLD
together (R222, R228). -/
def stationsOf (s : WStep) : List Nat :=
  if 2 ≤ s.op ∧ s.op ≤ 6 then [0]
  else if s.op = 0x0D then [1, 2]
  else if s.op = 7 then [1]
  else if s.op = 8 ∨ s.op = 0x0A then [2]
  else if s.op = 9 ∨ s.op = 0x0B then [3]
  else if s.op = 0x0C ∨ s.op = 0x12 then [5]
  else if s.op = 0x0F ∨ s.op = 0x10 then [s.sub]
  else [4]
/-- The gathered rows of sessions, in their order, cut into blocks of `n`, the last of them short: for each block its sessions, and those
whose last row it holds (R147). A session of which the engine gathers no row stands in the block of the row before it, and adds nothing
to it (R159; DEDUCED, log entry 73). -/
def cutRows (n : Nat) (rows : Nat → Nat) (ss : List Nat) : List (List Nat × List Nat) :=
  let flat := (ss.foldl (fun (a : List (Nat × Bool × Nat) × Nat) s =>
    let r := rows s
    if r = 0 then (a.1 ++ [(s, true, (a.2 - 1) / n)], a.2)
    else (a.1 ++ (List.range r).map (fun i => (s, i + 1 == r, (a.2 + i) / n)), a.2 + r)) ([], 0)).1
  (List.range (flat.foldl (fun k e => max k (e.2.2 + 1)) 0)).map fun k =>
    let b := flat.filter fun e => e.2.2 == k
    ((b.map (·.1)).dedup, (b.filter (·.2.1)).map (·.1))
/-- Sessions, in their order, cut into selection blocks that hold at most `n` which select (R220); `cur` holds the block under way. -/
def cutSessions (n : Nat) (cost : Nat → Nat) : List Nat → List Nat → List (List Nat)
  | [], cur => if cur.isEmpty then [] else [cur]
  | s :: ss, cur =>
    if !cur.isEmpty && n < (cur.map cost).foldl (· + ·) 0 + cost s then cur :: cutSessions n cost ss [s]
    else cutSessions n cost ss (cur ++ [s])
/-- The bodies of a program expanded over sessions and pages (R223). `blk` cuts sessions into the blocks of a BLOCK body: selection
blocks for one with a SELECT step, else absorption blocks. A body nested in a BLOCK body runs for the sessions whose last row the block
holds. -/
def expand (blk : Bool → List Nat → List (List Nat × List Nat)) (pages : Nat → List Nat) :
    Nat → List (List (Nat × WStep)) → List Nat → List Inst
  | 0, _, _ => []
  | _, [], _ => []
  | n + 1, b :: bs, ss =>
    let level := ((b.head?).map (·.2.iter)).getD 0
    let inner := bs.takeWhile fun c => level < ((c.head?).map (·.2.iter)).getD 0
    let rest := bs.dropWhile fun c => level < ((c.head?).map (·.2.iter)).getD 0
    let here : List Inst :=
      if level = 0 then b.map (fun s => { step := s.1, block := ss, ends := ss }) ++ expand blk pages n inner ss
      else if level = 1 then (blk (b.any fun s => s.2.op == 4) ss).zipIdx.flatMap fun k =>
        b.map (fun s => { step := s.1, item := k.2, block := k.1.1, ends := k.1.2 }) ++ expand blk pages n inner k.1.2
      else if level = 2 then ss.flatMap fun k =>
        b.map (fun s => { step := s.1, slot := some k, block := [k], ends := [k] }) ++ expand blk pages n inner [k]
      else ss.flatMap fun k => (pages k).flatMap fun q =>
        b.map fun s => { step := s.1, slot := some k, item := q, block := [k], ends := [k] }
    here ++ expand blk pages n rest ss

/-- Consecutive numbered steps of one level. -/
def numBodies : List (Nat × WStep) → List (List (Nat × WStep))
  | [] => []
  | x :: xs => match numBodies xs with
    | (y :: ys) :: bs => if x.2.iter = y.2.iter then (x :: y :: ys) :: bs else [x] :: (y :: ys) :: bs
    | bs => [x] :: bs
/-- The entry of a session in the row under way that feeds positions (R257). -/
def Dev.feeds (d : Dev) (g slot : Nat) : Option BatchEntry :=
  (d.group g).batch.find? fun b => b.slot == slot && (b.role == .decode || b.role == .chunk || b.role == .chunkLast)
/-- KIND of an entry's tiles (R151, R257). -/
def BatchEntry.kind (b : BatchEntry) : Nat := if b.role = .decode then 0 else 1
/-- The work of a session that its role gives, or the one that it will have (R158). -/
def Dev.workOf (d : Dev) (g slot stake : Nat) : Work :=
  let e := (d.feeds g slot).getD {}
  (d.att.work.find? fun w => w.group == g && w.slot == slot && w.stake == stake && w.kind == e.kind && w.kind != 2).getD
    { group := g, slot := slot, stake := stake, kind := e.kind, pos := e.pos, npos := max 1 e.npos, tag := (d.sess slot).d.partition }
/-- The level of an engine's task: the highest priority of a session with spans there, those of pushes among them; none for an empty
task (R271). -/
def Dev.taskLevel (d : Dev) (g e stake : Nat) : Option Nat :=
  (((d.group g).plan.filter fun s => s.stake == stake && s.engine == e).map fun s => (d.sess s.slot).d.prio).foldl
    (fun b p => match b with
      | none => some p
      | some q => some (max p q)) none
/-- Sessions with spans on an engine in a stake, ascending by id (R149, R159). -/
def Dev.engSessions (d : Dev) (g e stake : Nat) : List Nat :=
  let ss := (((d.group g).plan.filter fun s => s.stake == stake && s.engine == e && !s.push).map (·.slot)).dedup
  sortBy (fun s => [((d.sess s).d.sid : Int)]) ss
/-- The lead engine of a session in a stake: that of its first span (R159). -/
def Dev.leadOf (d : Dev) (g slot stake : Nat) : Option Nat :=
  (((d.group g).plan.filter fun s => s.stake == stake && s.slot == slot && !s.push).foldl (fun (b : Option Span) s => match b with
    | none => some s
    | some t => if s.idx < t.idx then some s else some t) none).map (·.engine)
/-- The spans of a session that an engine runs in a stake, ascending. -/
def Dev.engSpans (d : Dev) (g e slot stake : Nat) : List Nat :=
  sortBy (fun i => [(i : Int)])
    (((d.group g).plan.filter fun s => s.stake == stake && s.engine == e && s.slot == slot && !s.push).map (·.idx))
/-- Layer served at a stake. -/
def Weave.layerAt (w : Weave) (s : Nat) : Nat := (w.stakeTab.getD s {}).layer
/-- A session of a stake still has to select its pages (R211, R217). -/
def Dev.unselected (d : Dev) (g slot stake layer : Nat) : Bool :=
  let w := d.workOf g slot stake
  d.selects w layer && w.sel.isNone
/-- The page that stands for the pages of a session whose selected list is not known yet: its steps wait (R217, R230). -/
def pageUnknown : Nat := 2 ^ 20
/-- The pages of a session that an engine runs in a stake; before its list is known, one that stands for them. A session whose row is
voided before then has the planned number of pages, so that its skipped steps signal as often (R231; log entry 35). -/
def Dev.enginePages (d : Dev) (g e slot stake layer : Nat) : List Nat :=
  if d.unselected g slot stake layer then
    (if (d.sess slot).voided.isSome then
      List.range ((((d.group g).plan.filter fun s => s.stake == stake && s.engine == e && s.slot == slot && !s.push).map
        (·.pages)).foldl (· + ·) 0)
    else [pageUnknown])
  else (d.engSpans g e slot stake).flatMap fun j => d.spanOf (d.workOf g slot stake) layer j
/-- The blocks of a BLOCK body of an engine, over the rows of the sessions that it leads (R147, R159, R220, R223). -/
def Dev.stepBlocks (d : Dev) (g e stake : Nat) (selection : Bool) (ss : List Nat) : List (List Nat × List Nat) :=
  let n := max 1 (d.seen g F.ATT_CTL_ABSORB_BLOCK)
  let leads (s : Nat) : Bool := d.leadOf g s stake == some e
  if selection then (cutSessions n (fun s => b2n ((d.sess s).d.select && leads s)) ss []).map fun b => (b, b)
  else cutRows n (fun s => if leads s then ((d.feeds g s).map (·.npos)).getD 1 else 0) ss
/-- The expanded program of an engine for a stake of a group's row. -/
def Dev.program (d : Dev) (w : Weave) (g e stake : Nat) : List Inst :=
  let layer := w.layerAt stake
  let xs := (w.stepsOf stake).zipIdx.map fun s => (s.2, s.1)
  expand (d.stepBlocks g e stake) (fun slot => d.enginePages g e slot stake layer) (xs.length + 1) (numBodies xs) (d.engSessions g e stake)
/-- Key of an issued instance. -/
def Inst.key (i : Inst) : Nat × Nat × Nat := (i.step, (i.slot.map (· + 1)).getD 0, i.item)
/-- A session waits for its selection: its engine passes over it (R217). -/
def Dev.passedOver (d : Dev) (g stake : Nat) (i : Inst) : Bool := match i.slot with
  | some s => let w := d.workOf g s stake; w.selAsked && w.sel.isNone && (d.sess s).voided.isNone
  | none => false
/-- The next instance of a station: the first of its steps that has not issued; a session that is passed over holds up no step but those
that serve it (R217, R230). -/
def Dev.nextInst (d : Dev) (w : Weave) (e station : Nat) (t : Task) : Option Inst :=
  let xs := w.stepsOf t.stake
  let left := (d.program w t.group e t.stake).filter fun i =>
    (stationsOf (xs.getD i.step {})).contains station && !t.issued.contains i.key
  let passed (i : Inst) : Bool := d.passedOver t.group t.stake i
  match left.find? fun i => !passed i with
  | none => none
  | some i =>
    if i.slot.isNone && (left.takeWhile passed).any fun j => (j.slot.map i.block.contains).getD false then none else some i
/-- An instance is the next one of every sub-station that runs its step (R222, R230). -/
def Dev.headOf (d : Dev) (w : Weave) (e : Nat) (t : Task) (s : WStep) (i : Inst) : Bool :=
  (stationsOf s).all fun st => (d.nextInst w e st t).any fun j => j.key == i.key
/-- The first instance in program order that has not issued. -/
def Dev.firstInst (d : Dev) (w : Weave) (e : Nat) (t : Task) : Option Inst :=
  (d.program w t.group e t.stake).find? fun i => !t.issued.contains i.key

/-! ## Saving (R236, R237, R273, R274) -/

/-- Key of a buffer's places on an engine. -/
def bufKey (g e b : Nat) : Nat := g * 65536 + e * 1024 + b
/-- Bytes of an engine context (R237). -/
def engCtx : Nat := 16384
/-- A session of a task still has to select its pages, in a row that is not voided for it (R217). -/
def Dev.selecting (d : Dev) (w : Weave) (e : Nat) (t : Task) : Bool :=
  (d.engSessions t.group e t.stake).any fun s =>
    d.unselected t.group s t.stake (w.layerAt t.stake) && (d.sess s).voided.isNone && (d.feeds t.group s).isSome
/-- The live ranges of the cheap point that the engine is at, if it is at one: every step before has completed, which a SELECT step has
only with its selection (R211, R236, R237). -/
def Dev.cheapLives (d : Dev) (w : Weave) (e : Nat) (t : Task) : Option (List (Nat × Nat)) :=
  let asked (s : Nat) : Bool := let k := d.workOf t.group s t.stake; k.selAsked && k.sel.isNone && (d.sess s).voided.isNone
  if (d.engSessions t.group e t.stake).any asked then none
  else match d.firstInst w e t with
  | none => none
  | some i =>
    let tab := w.stakeTab.getD t.stake {}
    if !((w.stepsOf t.stake).getD i.step {}).cheap then none
    else (((w.cheaps.drop tab.cheapFirst).take tab.cheapCount).find? fun c => c.step == tab.stepFirst + i.step).map fun c =>
      (w.lives.drop c.liveFirst).take c.liveCount
/-- The bytes saved at a cheap point that the engine is at: its live ranges and the context (R237). -/
def Dev.cheapBytes (d : Dev) (w : Weave) (e : Nat) (t : Task) : Option Nat :=
  (d.cheapLives w e t).map fun ls => (ls.map (·.2)).foldl (· + ·) 0 + engCtx
/-- Tiles present in a buffer; those of sessions whose row is voided have left it. -/
def Dev.places (d : Dev) (g e b : Nat) : List Nat :=
  (NMap.getD d.att.present (bufKey g e b) []).filter fun s => s == 2 ^ 22 || (d.sess s).voided.isNone
/-- Ascending ranges cover `n` bytes from an offset. -/
def covers (ls : List (Nat × Nat)) (at' n : Nat) : Bool :=
  decide (at' + n ≤ ls.foldl (fun a l => if l.1 ≤ a then max a (l.1 + l.2) else a) at')
/-- Sessions of a task that have data in a buffer of the scratchpad which the live ranges of a save omit: it is lost (R237). Which place of
a buffer a tile is in is not kept: one whose buffer is not wholly live counts as omitted (DESIGN CHOICE, log entry 78). -/
def Dev.lostAt (d : Dev) (w : Weave) (e : Nat) (t : Task) : List Nat :=
  match d.cheapLives w e t with
  | none => []
  | some ls =>
    let out := (List.range w.bufs.length).flatMap fun b =>
      let x := w.bufs.getD b {}
      if x.loc == 1 && !covers ls x.base (64 * x.place64 * x.credits) then d.places t.group e b else []
    (out.flatMap fun s => if s = 2 ^ 22 then d.engSessions t.group e t.stake else [s]).dedup
/-- The running task is saved (R274); `cheap` holds its bytes at a cheap point. An engine holds one saved task of a level at most: while
its level's area is taken, the running task goes on (R276). -/
def Dev.saveTask (d : Dev) (e : Nat) (cheap : Option Nat) : Dev :=
  let x := d.engine e
  match x.running.filter fun t => !x.saved.any fun u => u.level == t.level with
  | none => d
  | some t =>
    let d := if cheap.isSome then d.sat F.ATT_PREEMPT_CNT_CHEAP 1 else d.sat F.ATT_PREEMPT_CNT_FULL 1
    let mine := d.att.work.filter fun w => w.group == t.group && w.stake == t.stake && (d.engSessions t.group e t.stake).contains w.slot
    let t := { t with
      saved := some (cheap.getD (4194304 + engCtx))
      lost := if cheap.isSome then ((d.weaveOf t.group).map fun w => d.lostAt w e t).getD [] else []
      tags := (mine.map fun w => (w.slot, w.tag)).dedup }
    d.setEngine e { x with running := none, saving := some t, request := none }
/-- A restore writes the saved tags back with the lines (R508). -/
def Dev.putTags (d : Dev) (t : Task) : Dev :=
  { d with att := { d.att with work := d.att.work.map fun w =>
    if w.group == t.group && w.stake == t.stake then
      (match t.tags.find? fun e => e.1 == w.slot with
       | some e => { w with tag := e.2 }
       | none => w)
    else w } }
/-- FP32 words in the place of some that are lost: free values. -/
def freeWords (n : Nat) (xs : List Nat) : List Nat := xs.zipIdx.map fun x => Config.freeNat (n + x.2) % 2 ^ 32
/-- Lists of words in the place of lost ones. -/
def freeLists (n : Nat) (xs : List (List Nat)) : List (List Nat) := xs.zipIdx.map fun x => freeWords (n + 2 ^ 16 * x.2) x.1
/-- A work whose data in the scratchpad is lost: its values are free; the FOLD registers are in the engine context (R237). -/
def Work.spoilt (n : Nat) (w : Work) : Work :=
  let part (i k : Nat) : Nat := n + 2 ^ 64 * (8 * k + i)
  { w with
    queries := freeLists (part 0 0) w.queries
    absorbed := freeLists (part 1 0) w.absorbed
    scores := NMap.mapV w.scores fun k rows => rows.zipIdx.map fun r =>
      (freeWords (part 2 k + 2 ^ 16 * r.2) (r.1.map fun s => s.getD 0)).zipWith (fun v s => s.map fun _ => v) r.1
    weights := NMap.mapV w.weights fun k rows => rows.zipIdx.map fun r =>
      r.1.map fun f => (f.1, freeWords (part 3 k + 2 ^ 16 * r.2) f.2)
    outs := w.outs.zipIdx.map fun o => (freeWords (part 4 0 + 2 ^ 16 * o.2) o.1.1, o.1.2) }
/-- A restore brings back no data that the live ranges of its cheap point omitted: the outputs of those sessions come out wrong, and nothing
else is affected (R237, R274). -/
def Dev.spoil (d : Dev) (t : Task) : Dev :=
  let hit (w : Work) : Bool := w.group == t.group && w.stake == t.stake && t.lost.contains w.slot
  if t.lost.isEmpty then d
  else { d with
    free := d.free + 2 ^ 96
    att := { d.att with work := d.att.work.zipIdx.map fun w => if hit w.1 then w.1.spoilt (d.free + 2 ^ 90 * w.2) else w.1 } }
/-- A preemption request is served if the engine is at a cheap point (R273). -/
def Dev.tryCheap (d : Dev) (e : Nat) : Dev :=
  let x := d.engine e
  match x.running, x.request with
  | some t, some _ =>
    (match d.weaveOf t.group with
     | some w => match d.cheapBytes w e t with
       | some n => d.saveTask e (some n)
       | none => d
     | none => d)
  | _, _ => d
/-- A ready task requests preemption of the running one (R273). -/
def Dev.askPreempt (d : Dev) (e : Nat) (t : Task) : Dev :=
  let x := d.engine e
  match t.level, x.running.bind (·.level) with
  | some l, some r =>
    if d.on F.ATT_PREEMPT_EN && r < l && (d.gi F.ATT_GRP_SCHED_WEIGHTING t.group == 0 || l == 7) then
      let req := match x.request with
        | some (o, at') => (max o l, at')
        | none => (l, d.now + d.ccNs (d.g F.ATT_PREEMPT_WAIT_CC))
      (d.setEngine e { x with request := some req }).tryCheap e
    else d
  | _, _ => d
/-- A task becomes ready on an engine (R271, R272, R273). -/
def Dev.readyTask (d : Dev) (g e stake : Nat) : Dev :=
  let t : Task := { group := g, stake := stake, level := d.taskLevel g e stake, readyAt := d.now }
  let x := d.engine e
  ((d.setEngine e { x with ready := x.ready ++ [t] }).dispatch e).askPreempt e t
/-- Every engine bound to a group gets its task for stake 0 as a row begins (R271). -/
def Dev.startTasks (d : Dev) (g : Nat) : Dev :=
  (d.att.slotOf.filter fun s => s.1 / 64 == g).foldl (fun d s => d.readyTask g s.2 0) d
/-- A group's tasks end with its row. -/
def Dev.dropTasks (d : Dev) (g : Nat) : Dev :=
  (NMap.keys d.att.engines).foldl (fun (d : Dev) e =>
    let x := d.engine e
    let keep (t : Task) : Bool := t.group != g
    (d.setEngine e { x with
      running := x.running.filter keep
      ready := x.ready.filter keep
      saved := x.saved.filter keep
      saving := x.saving.filter keep
      restoring := x.restoring.filter keep
      request := if x.running.any keep then x.request else none }).dispatch e) d
/-- Yielded tasks have nothing left to wait for; one that is still being saved no longer waits once it is saved (R275). -/
def Dev.wakeWhere (d : Dev) (hitOn : Nat → Task → Bool) : Dev :=
  (NMap.keys d.att.engines).foldl (fun (d : Dev) e =>
    let x := d.engine e
    let hit := hitOn e
    match x.saved.find? hit with
    | none =>
      if x.saving.any hit then d.setEngine e { x with saving := x.saving.map fun t => { t with awaits := none } } else d
    | some t =>
      let t' := { t with awaits := none, readyAt := d.now }
      let saved := x.saved.map fun u => if hit u then { u with awaits := none, readyAt := d.now } else u
      ((d.setEngine e { x with saved := saved }).dispatch e).askPreempt e t') d
/-- A tile that a yielded task awaits has arrived: a push tile for the engines of its die (R275). -/
def Dev.wakeTasks (d : Dev) (g stake what : Nat) (die : Option Nat := none) : Dev :=
  d.wakeWhere fun e t => t.group == g && t.stake == stake && t.awaits == some what && die.all (· == engDie e)
/-- The row is voided for a session: its unanswered tiles are answered VOIDED, and
a task that waits for one of them goes on (R49, R58, R153, R157, R231, R275). -/
def Dev.voidRow (d : Dev) (slot cause : Nat) : Dev :=
  let x := d.sess slot
  if !x.inRow || x.voided.isSome then d
  else ((((d.updSess slot fun x => { x with voided := some cause }).nullWork slot .voided).voidRanges slot).wakeWhere
      (fun _ t => t.group == x.d.group && t.awaits == some slot)).flushAll x.d.group

/-! ## Query tiles (R148 to R153) -/

/-- A query tile as written into a slot (R151). -/
def QTile.ofBytes (qp slot : Nat) (b : Bytes) : QTile :=
  { qp := qp
    sid := fieldAt b 0 0 64
    row := fieldAt b 8 0 48
    stake := fieldAt b 8 48 8
    layer := fieldAt b 8 56 8
    pos := fieldAt b 0x10 0 23
    npos := fieldAt b 0x10 23 7
    head0 := fieldAt b 0x10 30 9
    nheads := fieldAt b 0x10 39 9
    kind := fieldAt b 0x10 48 4
    kvPresent := fieldAt b 0x10 52 1 == 1
    latentIn := fieldAt b 0x10 53 1 == 1
    latentOut := fieldAt b 0x10 54 1 == 1
    mapEpoch := fieldAt b 0x18 0 32
    ownerEpoch := fieldAt b 0x18 32 32
    qfmt := fieldAt b 0x20 0 8
    kvfmt := fieldAt b 0x20 8 8
    ofmt := fieldAt b 0x20 16 8
    gfmt := fieldAt b 0x20 24 8
    tileSlot := slot
    replyKey := fieldAt b 0x28 32 32
    replyAddr := fieldAt b 0x30 0 64
    gradAddr := fieldAt b 0x38 0 64
    payload := slice b 64 (leAt b 0x28 4) }

/-- The stream that a tile of a member belongs to: kind, heads, forms and formats match (R153, R226). -/
def Weave.streamFor (w : Weave) (m : Nat) (t : QTile) : Option WStream :=
  w.streams.find? fun s => s.kind == t.kind && s.kind != 3 && s.member == m && s.head0 == t.head0 && s.nheads == t.nheads &&
    s.latentIn == t.latentIn && s.latentOut == t.latentOut && s.qfmt == t.qfmt && s.kvfmt == t.kvfmt &&
    s.ofmt == t.ofmt && s.gfmt == t.gfmt
/-- Position ranges of the same session, stake and kind that a tile's range breaks (R150). A tile with the POS and HEAD0 of one received
and another NPOS is a repeat by R150's third rule and an overlap by its second: it is taken for an overlap, whose check stands first in
R153 (DESIGN CHOICE; log entry 73). -/
def Work.clashes (w : Work) (t : QTile) : Bool :=
  w.ranges.any fun r => r != (t.pos, t.npos) && t.pos < r.1 + r.2 && r.1 < t.pos + t.npos
/-- The works of a tile's session, stake and kind. -/
def Dev.worksOf (d : Dev) (g slot : Nat) (t : QTile) : List Work :=
  d.att.work.filter fun w => w.group == g && w.slot == slot && w.stake == t.stake
/-- A tile is consistent with the weave, the profile, R150 and R152 (R153, R169, R189). R150 states the overlap rule for the ranges of a
chunk; the ranges of one session's BACKWARD tiles of a stake are held to it as well (DESIGN CHOICE, log entry 73). -/
def Dev.tileOk (d : Dev) (g m slot : Nat) (t : QTile) (e : BatchEntry) : Bool :=
  match d.weaveOf g with
  | none => false
  | some w =>
    let x := d.sess slot
    let p := d.prof x
    t.stake < w.stakes && w.layerAt t.stake == t.layer && 1 ≤ t.npos && t.npos ≤ 64 &&
    (match w.streamFor m t with
     | none => false
     | some s =>
       (if t.kind = 0 then e.role == .decode && t.npos == 1 && t.pos == x.d.committed && t.kvPresent == (t.head0 == 0)
        else if t.kind = 1 then e.role != .decode && e.pos ≤ t.pos && t.pos + t.npos ≤ e.pos + e.npos &&
          t.kvPresent == (t.head0 == 0)
        else d.on F.ATT_CTL_BWD_EN && !t.kvPresent && t.gradAddr != 0 && !s.expanded &&
          t.pos + t.npos ≤ max x.d.committed (e.pos + e.npos)) &&
       !(d.worksOf g slot t).any (fun v => v.kind == t.kind && v.clashes t) &&
       t.payload.length == ceilDiv (p.tileBytes t) 64 * 64 && t.finite p)
/-- A buffer in INGEST staging has a free place (R227). -/
def Dev.hasPlace (d : Dev) (w : Weave) (key : Nat) : Bool :=
  (NMap.getD d.att.present key []).length < (w.bufs.getD (key % 1024) {}).credits
/-- A tile takes a place of a buffer: the credit of its producer (R227, R230). -/
def Dev.takePlace (d : Dev) (key entry : Nat) : Dev :=
  { d with att := { d.att with present := NMap.put d.att.present key (NMap.getD d.att.present key [] ++ [entry]) } }
/-- The tiles that wait in their windows take the places of a group's buffers that are free, in order (R227, R230). -/
def Dev.restage (d : Dev) (g : Nat) (w : Weave) : Dev :=
  d.att.staging.foldl (fun (d : Dev) e =>
    if e.1 / 65536 == g && d.hasPlace w e.1 then
      ({ d with att := { d.att with staging := d.att.staging.erase e } }).takePlace e.1 e.2
    else d) d
/-- A tile of a session and stake takes a place of a buffer in INGEST staging on an engine, or waits for one in the window that it was
written to (R226, R227, R230). -/
def Dev.stageIn (d : Dev) (w : Weave) (g e b stake slot : Nat) : Dev :=
  if b < w.bufs.length ∧ (w.bufs.getD b {}).loc = 0 then
    if d.hasPlace w (bufKey g e b) then d.takePlace (bufKey g e b) (stake * 2 ^ 23 + slot)
    else { d with att := { d.att with staging := d.att.staging ++ [(bufKey g e b, stake * 2 ^ 23 + slot)] } }
  else d
/-- A query tile enters the buffer of its stream on the session's lead engine (R226). -/
def Dev.stageTile (d : Dev) (g m slot : Nat) (t : QTile) : Dev :=
  match d.weaveOf g, d.leadOf g slot t.stake with
  | some w, some e => d.stageIn w g e (((w.streamFor m t).map (·.inBuf)).getD 0x3FF) t.stake slot
  | _, _ => d
/-- The tiles of a session and stake are in a buffer of INGEST staging, and none of them waits for a place there (R230). -/
def Dev.staged (d : Dev) (key stake slot : Nat) : Bool :=
  (NMap.getD d.att.present key []).contains (stake * 2 ^ 23 + slot) && !d.att.staging.contains (key, stake * 2 ^ 23 + slot)
/-- Tiles of a session and stake that its engine has still to read (R158, R230). -/
def Dev.unread (d : Dev) (g stake slot : Nat) : Bool :=
  (d.sess slot).voided.isNone && d.att.work.any fun w => w.group == g && w.slot == slot && w.stake == stake && !w.emitted &&
    (!w.gathered || (w.kind != 2 && !w.kvWritten))
/-- The INGEST credits of a stake return once it has closed, those of tiles that have been read (R48, R230). -/
def Dev.returnStaged (d : Dev) (g stake : Nat) : Dev :=
  match d.weaveOf g with
  | none => d
  | some w =>
    let staging (k : Nat) : Bool := k / 65536 == g && (w.bufs.getD (k % 1024) {}).loc == 0
    let stays (p : Nat) : Bool := p / 2 ^ 23 != stake || d.unread g stake (p % 2 ^ 23)
    let left (e : Nat × List Nat) : List Nat := if staging e.1 then e.2.filter stays else e.2
    let present := (d.att.present.map fun e => (e.1, left e)).filter fun e => !e.2.isEmpty
    ({ d with att := { d.att with present := present } }).restage g w
/-- A consistent tile enters its session's work (R150, R158). -/
def Dev.takeTile (d : Dev) (g m slot : Nat) (t : QTile) (e : BatchEntry) : Dev :=
  let base : Work := if t.kind = 2 then { group := g, slot := slot, stake := t.stake, kind := 2, pos := t.pos, npos := t.npos }
    else { group := g, slot := slot, stake := t.stake, kind := t.kind, pos := e.pos, npos := max 1 e.npos }
  let base := { base with
    chunkTop := max (d.sess slot).d.committed (e.pos + e.npos)
    tag := (d.sess slot).d.partition }
  let w := (d.att.work.find? base.same).getD base
  let d := d.stageTile g m slot t
  (d.putWork { w with
    tiles := w.tiles ++ [(m, t)]
    ranges := if w.ranges.contains (t.pos, t.npos) then w.ranges else w.ranges ++ [(t.pos, t.npos)]
    got := w.got ++ [(t.pos, t.head0)]
    emitted := false }).wakeTasks g t.stake slot
/-- The checks of R153, in their order. -/
def Dev.checkTile (d : Dev) (g m : Nat) (t : QTile) : Dev :=
  match d.slotOf t.sid with
  | none =>
    if sidHome t.sid = d.self then d.nullAnswer g m t .staleGen
    else if d.foreign t.sid t.mapEpoch = .future then { d with att := { d.att with heldTiles := d.att.heldTiles ++ [(g, m, t)] } }
    else (d.nullAnswer g m t .remap (d.ownerHint t.sid)).seek t.sid
  | some slot =>
    let d := d.touch slot
    match d.epochs slot t.mapEpoch t.ownerEpoch with
    | .future => { d with att := { d.att with heldTiles := d.att.heldTiles ++ [(g, m, t)] } }
    | .remap tgt => d.nullAnswer g m t .remap tgt
    | .stale => d.nullAnswer g m t .staleGen
    | .accept =>
      let c := d.row g
      let x := d.sess slot
      if t.row < c ∨ (t.row = c ∧ (d.phase g ≠ 1 ∨ d.closed g t.stake)) then
        (d.cntP F.ATT_CNT1_LATE x.d.partition 1 false).nullAnswer g m t .late
      else if t.row = c + 1 then { d with att := { d.att with heldTiles := d.att.heldTiles ++ [(g, m, t)] } }
      else if c + 1 < t.row then d.nullAnswer g m t .badTile
      else match d.feeds g slot with
        | none => d.nullAnswer g m t (if (d.liveEngines (slotDie slot)).isEmpty then .unitFault else .notAdmitted)
        | some e =>
          let killed := x.d.kill || ((d.turnCtx slot).map fun i => (d.ctx i).kill).getD false
          if (d.liveEngines (slotDie slot)).isEmpty then d.nullAnswer g m t .unitFault
          else if killed then d.nullAnswer g m t .killed
          else if x.voided.isSome then d.nullAnswer g m t (if x.voided = some 0x20 then .unitFault else .voided)
          else if !d.tileOk g m slot t e then (d.nullAnswer g m t .badTile).voidRow slot 0x10
          else if (d.worksOf g slot t).any (fun w => w.got.contains (t.pos, t.head0)) then
            (d.cntP F.ATT_CNT1_DUP x.d.partition 1 false).nullAnswer g m t .dup
          else d.takeTile g m slot t e
/-- QUERY_TILE: a tile completes in a slot of a member's ingest window (R148, R153). -/
def execQueryTile (g m qp imm : Nat) (bytes : Bytes) : State → Host.Outcome State Fault Refusal :=
  onUnit (g < 64) fun _ d =>
    let t := QTile.ofBytes qp (imm % 65536) bytes
    let p := d.partOf t.sid
    if !d.on F.ATT_CTL_EN || d.gi F.ATT_GRP_SLOTS_SLOTS g ≤ imm then d.cntP F.ATT_CNT1_DISCARD p 1 false
    else
      let d := d.cntP F.ATT_CNT0_TILES_IN p 1 true
      if d.gi F.ATT_GRP_IN_SLOT_KIB g * 1024 < max bytes.length (64 + leAt bytes 0x28 4) then
        let d := d.nullAnswer g m t .badTile
        match d.slotOf t.sid with
        | some slot => if t.row = d.row g ∧ d.phase g = 1 then d.voidRow slot 0x10 else d
        | none => d
      else d.checkTile g m t

/-! ## Push tiles (R260 to R263) -/

/-- A push tile as written into a lane slot (R261). The slot that is acknowledged is the one that the immediate names, where the tile
was written; the header's own TILE_SLOT is not compared with it (DESIGN CHOICE, log entry 73). -/
def PTile.ofBytes (qp slot : Nat) (b : Bytes) : PTile :=
  { qp := qp
    sid := fieldAt b 0 0 64
    pushId := fieldAt b 8 0 32
    layer := fieldAt b 8 32 8
    pos := fieldAt b 0x10 0 23
    npos := fieldAt b 0x10 23 7
    kvfmt := fieldAt b 0x10 30 8
    mapEpoch := fieldAt b 0x18 0 32
    ownerEpoch := fieldAt b 0x18 32 32
    tileSlot := slot
    replyKey := fieldAt b 0x20 32 32
    replyAddr := fieldAt b 0x30 0 64
    payload := slice b 64 (leAt b 0x28 4) }
/-- Positions of the piece of a push that begins at a position (R261). -/
def Push.pieceLen (u : Push) (pos : Nat) : Nat := min (pos / 64 * 64 + 64) (u.first + u.count) - pos
/-- A piece of a push: its first position begins the push or a page within it (R261). -/
def Push.isPiece (u : Push) (pos : Nat) : Bool :=
  pos == u.first || (pos % 64 == 0 && u.first < pos && pos < u.first + u.count)
/-- Key of a piece. -/
def pieceKey (layer pos : Nat) : Nat := layer * 65536 + pos / 64
/-- Payload bytes of a push tile (R261). -/
def Profile.pushBytes (p : Profile) (t : PTile) : Nat := t.npos * (p.dc + p.dr) * fmtBytes t.kvfmt
/-- The format in which the PUSH_PLACE steps of a layer's stake take their pieces, by the PUSH stream that they name (R226; DEDUCED, log
entry 73). -/
def Dev.pushFmtOk (d : Dev) (g layer fmt : Nat) : Bool :=
  match d.weaveOf g with
  | none => true
  | some w => ((w.stepsOf (((w.stakeTab.findIdx? fun s => s.layer == layer)).getD 0)).filter fun s => s.op == 0x0E).all fun s =>
      let st := w.streams.getD s.stream {}
      st.kind != 3 || st.kvfmt == fmt
/-- The IN_BUF of the PUSH stream whose steps place a stake's pieces (R226). -/
def Weave.pushBuf (w : Weave) (stake : Nat) : Nat :=
  (((w.stepsOf stake).find? fun s => s.op == 0x0E && (w.streams.getD s.stream {}).kind == 3).map fun s =>
    (w.streams.getD s.stream {}).inBuf).getD 0x3FF
/-- A push tile enters the buffer of its stream, which all engines of the die read, under the die's first (R226, R227). -/
def Dev.stagePush (d : Dev) (g die stake slot : Nat) : Dev :=
  match d.weaveOf g with
  | some w => d.stageIn w g (32 * die) (w.pushBuf stake) stake slot
  | none => d
/-- A placed push tile leaves its buffer (R230). -/
def Dev.unstagePush (d : Dev) (g die stake slot : Nat) : Dev :=
  match d.weaveOf g with
  | some w =>
    let k := bufKey g (32 * die) (w.pushBuf stake)
    let at' := stake * 2 ^ 23 + slot
    let held := NMap.getD d.att.present k []
    let left := held.erase at'
    if held.contains at' then
      ({ d with att := { d.att with
        present := if left.isEmpty then NMap.del d.att.present k else NMap.put d.att.present k left } }).restage g w
    else { d with att := { d.att with staging := d.att.staging.erase (k, at') } }
  | none => d
/-- A push tile fits its push and its piece (R226, R261, R262, R189). One with an element that is not finite does not: it is answered
BAD_PARAM and voids no row (DESIGN CHOICE, log entry 73). -/
def Dev.pushOk (d : Dev) (g die lane : Nat) (u : Push) (t : PTile) : Bool :=
  let p := d.prof (d.sess u.slot)
  u.group == g && slotDie u.slot == die && u.lane == some lane && t.layer < p.layers && u.isPiece t.pos &&
    t.npos == u.pieceLen t.pos && tileFmt t.kvfmt && d.pushFmtOk g t.layer t.kvfmt && t.payload.length == ceilDiv (p.pushBytes t) 64 * 64 &&
    plainFinite t.kvfmt (t.npos * (p.dc + p.dr)) t.payload
/-- The pushes with one changed. -/
def Dev.setPush (d : Dev) (u : Push) : Dev :=
  { d with att := { d.att with pushes := d.att.pushes.map fun v => if v.slot == u.slot then u else v } }
/-- The stake that serves a layer in a group's rows (R225). -/
def Dev.layerStake (d : Dev) (g layer : Nat) : Nat :=
  ((d.weaveOf g).bind fun w => w.stakeTab.findIdx? fun s => s.layer == layer).getD 0
/-- The checks of R262, in their order; a tile that passes waits for its PUSH_PLACE step, in this row if its layer's stake has not closed
(R263). -/
def Dev.checkPush (d : Dev) (g die lane : Nat) (t : PTile) : Dev :=
  match d.slotOf t.sid with
  | none =>
    if sidHome t.sid = d.self then d.pushAck g t .staleGen 0
    else if d.foreign t.sid t.mapEpoch = .future then
      { d with att := { d.att with heldPush := d.att.heldPush ++ [(g, die, lane, t)] } }
    else (d.pushAck g t .remap (d.ownerHint t.sid)).seek t.sid
  | some slot =>
    let d := d.touch slot
    match d.epochs slot t.mapEpoch t.ownerEpoch with
    | .future => { d with att := { d.att with heldPush := d.att.heldPush ++ [(g, die, lane, t)] } }
    | .remap tgt => d.pushAck g t .remap tgt
    | .stale => d.pushAck g t .staleGen 0
    | .accept => match d.pushOf slot with
      | none => d.pushAck g t .staleGen 0
      | some u =>
        if u.lane.isNone || u.id ≠ t.pushId || t.pushId = 0 then d.pushAck g t .staleGen 0
        else if !d.pushOk g die lane u t then d.pushAck g t .badParam 0
        else if u.placed.contains (pieceKey t.layer t.pos) then d.pushAck g t .dup 0
        else
          let stake := d.layerStake g t.layer
          let row := if d.phase g = 1 ∧ !d.closed g stake then d.row g else d.row g + 1
          let d := d.setPush { u with waiting := u.waiting ++ [{ t with row := row, tag := (d.sess u.slot).d.partition }] }
          (d.stagePush g die stake slot).wakeTasks g stake (2 ^ 22) (some die)
/-- The frame into which a session writes a page of a layer: its own entry, or its reservation, which becomes the entry;
none while a copy is under way (R122, R160). -/
def Dev.ownFrame (d : Dev) (slot layer k : Nat) : Option (Nat × Dev) :=
  let x := d.sess slot
  match x.resv.find? fun r => r.layer == layer && r.page == k with
  | some r => if r.copyOf.isSome then none else some (r.pageId, d.installResv slot r id)
  | none => match x.entry layer (64 * k) with
    | some e => if e.cow then none else some (e.pageId, d)
    | none => none
/-- Rows are written into the slots of one page; a page whose slot 63 is written waits for its signature (R160, R205). -/
def Dev.writeRows (d : Dev) (slot layer pos : Nat) (rows : List (List Rat)) : Option Dev :=
  match d.ownFrame slot layer (pos / 64) with
  | none => none
  | some (id, d) =>
    let p := d.prof (d.sess slot)
    let d := d.awaitPage (d.sess slot).d.sid (layer * 65536 + pos / 64) pos
    let d := rows.zipIdx.foldl (fun (d : Dev) r => d.writeSlot p id (pos % 64 + r.2) r.1) d
    if pos % 64 + rows.length = 64 ∧ 0 < p.selGroups then
      some (d.updSess slot fun x => { x with unsigned := x.unsigned ++ [layer * 65536 + pos / 64] })
    else some d
/-- A waiting push tile is placed (R263), or stays where its page's copy is under way. -/
def Dev.placePush (d : Dev) (g : Nat) (u : Push) (t : PTile) : Dev :=
  let v := (d.pushOf u.slot).getD u
  if v.placed.contains (pieceKey t.layer t.pos) then
    (d.setPush { v with waiting := v.waiting.erase t }).pushAck g t .dup 0
  else
    let p := d.prof (d.sess u.slot)
    let n := p.dc + p.dr
    let (bytes, d) := d.readTagged t.tag (d.sess u.slot).d.partition t.payload (t.payload.map fun _ => 0)
    let rows := (List.range t.npos).map fun i =>
      plainVals t.kvfmt n (slice bytes (i * n * fmtBytes t.kvfmt) (n * fmtBytes t.kvfmt))
    match d.writeRows u.slot t.layer t.pos rows with
    | none => d
    | some d => ((d.setPush { v with
        waiting := v.waiting.erase t
        placed := v.placed ++ [pieceKey t.layer t.pos] }).unstagePush g (slotDie u.slot) (d.layerStake g t.layer) u.slot).pushAck g t .ok 0

/-- PUSH_PLACE: the tiles of a stake's layer that wait on a die, and that were taken before the stake closed, are placed (R263). -/
def Dev.placeStep (d : Dev) (g die layer : Nat) : Dev :=
  (d.att.pushes.filter fun u => u.group == g && slotDie u.slot == die).foldl (fun (d : Dev) u =>
    (u.waiting.filter fun t => t.layer == layer && decide (t.row ≤ d.row g)).foldl (fun d t => d.placePush g u t) d) d
/-- Key of a PUSH_PLACE step that has fired. -/
def firedKey (g stake die : Nat) : Nat := g * 1024 + stake * 2 + die
/-- Tiles that could not be placed as their PUSH_PLACE step fired, and that belong to its row, are placed after it (R263; log
entry 73). -/
def Dev.placeLate (d : Dev) (g die layer : Nat) : Dev :=
  if d.att.placedAt.contains (firedKey g (d.layerStake g layer) die) then d.placeStep g die layer else d
/-- PUSH_TILE: a tile completes in a slot of a lane (R261 to R263). -/
def execPushTile (g die qp imm : Nat) (bytes : Bytes) : State → Host.Outcome State Fault Refusal :=
  onUnit (g < 64 && die < 2) fun _ d =>
    let lane := imm / 65536 % 256
    let t := PTile.ofBytes qp (imm % 65536) bytes
    if d.gi F.ATT_GRP_PUSH_LANES g ≤ lane ∨ d.gi F.ATT_GRP_PUSH2_LANE_SLOTS g ≤ imm % 65536 then
      d.sati F.ATT_GRP_PCNT_REJECTED g 1
    else if d.gi F.ATT_GRP_PUSH_SLOT_4K g * 4096 < max bytes.length (64 + leAt bytes 0x28 4) then d.pushAck g t .badParam 0
    else (d.checkPush g die lane t).placeLate g die t.layer

/-! ## Range partials (R163 to R165) -/

/-- The output tile that bytes spell (R154). -/
def OTile.ofBytes (b : Bytes) : OTile :=
  { sid := fieldAt b 0 0 64
    row := fieldAt b 8 0 48
    stake := fieldAt b 8 48 8
    layer := fieldAt b 8 56 8
    pos := fieldAt b 0x10 0 23
    npos := fieldAt b 0x10 23 7
    head0 := fieldAt b 0x10 30 9
    nheads := fieldAt b 0x10 39 9
    kind := fieldAt b 0x10 48 4
    stakeEnd := fieldAt b 0x10 52 1 == 1
    null := fieldAt b 0x10 53 1 == 1
    isPartial := fieldAt b 0x10 54 1 == 1
    empty := fieldAt b 0x10 55 1 == 1
    reason := fieldAt b 0x10 56 4
    rangeIdx := fieldAt b 0x18 0 6
    rangeCnt := fieldAt b 0x18 6 6
    ownerEpoch := fieldAt b 0x18 32 32
    ofmt := fieldAt b 0x20 0 8
    tileSlot := fieldAt b 0x20 32 16
    mapEpoch := fieldAt b 0x30 0 32
    remapCtrl := fieldAt b 0x30 32 16
    payload := slice b 64 (leAt b 0x28 4) }
/-- Row `r` of a partial: outputs, maximum and sum (R155). -/
def OTile.partRow (t : OTile) (width r : Nat) : List Rat × Option Rat × Rat :=
  let n := width * fmtBytes t.ofmt
  let rows := t.npos * t.nheads
  let m := leAt t.payload (rows * n + 8 * r) 4
  (plainVals t.ofmt width (slice t.payload (r * n) n), if m = negInf then none else some (ofF32 m),
    ofF32 (leAt t.payload (rows * n + 8 * r + 4) 4))
/-- Range partials of one row merged, in ascending order (R163). -/
def mergeRange (width : Nat) (parts : List (List Rat × Option Rat × Rat)) : List Rat × Option Rat × Rat :=
  let zeros := List.replicate width (0 : Rat)
  match parts.foldl (fun (b : Option Rat) q => match b, q.2.1 with
    | none, y => y
    | some x, some y => some (max x y)
    | some x, none => some x) none with
  | none => (zeros, none, 0)
  | some m =>
    let (o, l) := parts.foldl (fun (a : List Rat × Rat) q => match q.2.1 with
      | some mi =>
        if 0 < q.2.2 then
          let w := rne32 (q.2.2 * fexp (rne32 (mi - m)))
          ((List.range width).map (fun i => rne32 (a.1.getD i 0 + rne32 (w * q.1.getD i 0))), rne32 (a.2 + w))
        else a
      | none => a) (zeros, 0)
    (o.map fun v => rne32 (v / l), some m, l)
/-- The tile that merged partials give: values and statistics (R163, R164). -/
def mergeForward (p : Profile) (q : QTile) (parts : List OTile) : OTile :=
  let width := p.formWidth q.latentOut
  let rows := (List.range (q.npos * q.nheads)).map fun r => mergeRange width (parts.map fun u => u.partRow width r)
  { q.answer with
    empty := rows.any fun r => r.2.2 == 0
    payload := rows.flatMap (fun r => plainBytes q.ofmt (r.1.map toF32)) ++
      rows.flatMap fun r => leBytes 4 ((r.2.1.map toF32).getD negInf) ++ leBytes 4 (toF32 r.2.2) }
/-- The tile that the partials of a BACKWARD tile give. R171's tile has no statistics, and its gradients are sums over the positions that
each range holds: the partials are added in ascending RANGE_IDX, rounded to FP32 after each addition, as R163's order has it (DESIGN
CHOICE, log entry 73: the spec gives no merge of them). -/
def mergeBackward (p : Profile) (q : QTile) (parts : List OTile) : OTile :=
  let width := p.formWidth q.latentIn + p.dr
  let row (r : Nat) : List Rat := sumVecs width (parts.map fun u => (u.partRow width r).1)
  { q.answer with payload := (List.range (q.npos * q.nheads)).flatMap fun r => plainBytes q.ofmt ((row r).map toF32) }
/-- The home merges the partials of a tile once it holds all of them, and EMIT sends one tile (R164). -/
def Dev.mergePartials (d : Dev) (g slot : Nat) (t : OTile) : Dev :=
  let mine (e : Nat × OTile) : Bool :=
    e.1 == g && e.2.sid == t.sid && e.2.row == t.row && e.2.stake == t.stake && e.2.pos == t.pos && e.2.head0 == t.head0
  let parts := sortBy (fun (q : OTile) => [(q.rangeIdx : Int)]) ((d.att.partials.filter mine).map (·.2))
  if parts.length ≤ t.rangeCnt then d
  else
    let d := { d with att := { d.att with partials := d.att.partials.filter fun e => !mine e } }
    let own? := d.att.work.find? fun w => w.group == g && w.slot == slot && w.stake == t.stake &&
      w.tiles.any fun e => e.2.pos == t.pos && e.2.head0 == t.head0
    match own? with
    | none => d
    | some w =>
      let q := w.tiles.filter fun e => e.2.pos == t.pos && e.2.head0 == t.head0
      if parts.any (·.null) then d.voidRow slot 0x11
      else
        let p := d.prof (d.sess slot)
        q.foldl (fun d e => (d.dropTile w e).emitTile g e.1 e.2.replyKey e.2.replyAddr
          { if e.2.kind = 2 then mergeBackward p e.2 parts else mergeForward p e.2 parts with
            ownerEpoch := (d.sess slot).d.ownerEpoch }) d
/-- A partial is kept for the row and stake that it names, also one of a row that has yet to begin here; one whose row has been voided
or has ended is discarded (R164, R165). -/
def Dev.keepPartial (d : Dev) (g slot : Nat) (t : OTile) : Dev :=
  let c := d.row g
  if c < t.row ∧ d.phase g ≠ 0 ∧ d.phase g ≠ 4 then { d with att := { d.att with partials := d.att.partials ++ [(g, t)] } }
  else if t.row ≠ c ∨ d.phase g ≠ 1 ∨ (d.sess slot).voided.isSome then d.cntP F.ATT_CNT1_LATE (d.sess slot).d.partition 1 false
  else ({ d with att := { d.att with partials := d.att.partials ++ [(g, t)] } }).mergePartials g slot t
/-- PARTIAL: a range partial arrives as a SEND to service 4; one that R445 refuses counts as null, and its sender is sent REDIRECT where it
names another target (R164, R165, R445). It refers to the session's descriptor, which the cache then holds (R81). -/
def execRangePartial (src : Nat) (tile : Bytes) : State → Host.Outcome State Fault Refusal :=
  onDev fun _ d =>
    let t := OTile.ofBytes tile
    let redirect (d : Dev) (target : Nat) : Dev :=
      (d.resolve src 4 .remap).send src svcOwner (d.ownMsg 15 Status.remap.code t.sid 0 target 0 0 0 0 0 0 [])
    if d.oldId t.sid then d.resolve src 4 .staleGen
    else match d.slotOf t.sid with
    | none => (match d.foreign t.sid t.mapEpoch with
      | .future => d.emit (.resolve src 4 .retryAfter 1000)
      | .remap tgt => (redirect d tgt).seek t.sid
      | _ => d.resolve src 4 .staleGen)
    | some slot =>
      let d := d.touch slot
      let g := (d.sess slot).d.group
      match d.epochs slot t.mapEpoch t.ownerEpoch with
      | .accept => (d.keepPartial g slot t).resolve src 4 .ok
      | .future => d.emit (.resolve src 4 .retryAfter 1000)
      | .remap tgt => redirect (d.keepPartial g slot { t with null := true }) tgt
      | .stale => (d.keepPartial g slot { t with null := true }).resolve src 4 .staleGen

/-! ## What the steps do (R222, R230, R231) -/

/-- Every head of every query position is carried by a tile taken, and every new position by its latent row (R158). -/
def Work.covered (w : Work) (p : Profile) : Bool :=
  (w.rows p).all fun r => w.tiles.any fun t =>
    t.2.pos ≤ r.1 && r.1 < t.2.pos + t.2.npos && t.2.head0 ≤ r.2 && r.2 < t.2.head0 + t.2.nheads
/-- The tile that carries a row. -/
def Work.tileFor (w : Work) (pos h : Nat) : QTile :=
  ((w.tiles.find? fun t => t.2.pos ≤ pos && pos < t.2.pos + t.2.npos && t.2.head0 ≤ h && h < t.2.head0 + t.2.nheads).map
    (·.2)).getD {}
/-- GATHER: the queries of every row are held (R158). -/
def Work.gather (w : Work) (p : Profile) : Work :=
  { w with
    gathered := true
    queries := (w.rows p).map fun r => let t := w.tileFor r.1 r.2; t.query p (r.1 - t.pos) (r.2 - t.head0)
    grads := if w.kind = 2 then (w.rows p).map fun r => let t := w.tileFor r.1 r.2; t.gradItems p (r.1 - t.pos) (r.2 - t.head0)
      else [] }
/-- WRITE_KV: the latent rows of the new positions that this controller holds, page by page; none while a page's copy is under way (R27,
R160). -/
def Dev.writeKv (d : Dev) (w : Work) (layer : Nat) : Option Dev :=
  let p := d.prof (d.sess w.slot)
  let x := (d.sess w.slot).d
  let pages := ((List.range ((w.pos + w.npos - 1) / 64 + 1)).drop (w.pos / 64)).filter x.holdsPage
  (pages.foldl (fun (d? : Option Dev) k => match d? with
    | none => none
    | some d =>
      let lo := max (if x.split then x.rangeLo else 0) (max w.pos (64 * k))
      let hi := min (if x.split ∧ x.rangeIdx ≠ x.rangeCnt then x.rangeHi else w.pos + w.npos) (min (w.pos + w.npos) (64 * k + 64))
      d.writeRows w.slot layer lo ((List.range (hi - lo)).map fun i =>
        let t := w.tileFor (lo + i) 0
        t.latentRow p (lo + i - t.pos))) (some d)).map fun d => d.putWork { w with kvWritten := true }
/-- The span that holds a page of a work's list. -/
def Dev.spanIndex (d : Dev) (w : Work) (layer k : Nat) : Nat :=
  let n := d.g F.ATT_CTL_SPAN_PAGES
  if d.selects w layer then min (d.lastSpan w) (((d.pageList w layer).findIdx (· == k)) / n) else k / n
/-- ABSORB of a work (R193). -/
def Work.absorbAll (w : Work) (v : Weave) (p : Profile) (layer : Nat) : Work :=
  { w with absorbed := ((w.rows p).zipIdx).map fun r =>
      let s := v.headStream w.kind r.1.2
      if p.splitKv || s.latentIn || s.headKeys then []
      else (p.absorb layer r.1.2 ((w.queries.getD r.2 []).map ofF32)).map toF32 }
/-- A row of the work needs absorption before SCORE. -/
def Work.needsAbsorb (w : Work) (v : Weave) (p : Profile) : Bool :=
  !p.splitKv && w.absorbed.isEmpty &&
    (List.range p.heads).any fun h => let s := v.headStream w.kind h; !s.latentIn && !s.headKeys
/-- A page of a session is read by an engine in a row, which counts as HEAT (R128). -/
def Dev.heatPage (d : Dev) (slot layer k row : Nat) : Dev :=
  match (d.sess slot).entry layer (64 * k) with
  | some e => d.heatFrame e.pageId row
  | none => d
/-- SCORE of a page (R128, R192). -/
def Dev.scoreStep (d : Dev) (m : Memory) (v : Weave) (w : Work) (layer k : Nat) : Dev :=
  let s := d.scorePage m v w layer (w.top (d.sess w.slot)) k
  (d.putWork { w with scores := NMap.put w.scores k s }).heatPage w.slot layer k (d.row w.group)
/-- FOLD of a page (R192). -/
def Dev.foldStep (d : Dev) (w : Work) (layer k : Nat) : Dev :=
  let j := d.spanIndex w layer k
  let rows := NMap.getD w.folds j []
  let out := (NMap.getD w.scores k []).zipIdx.map fun s => (rows.getD s.2 {}).fold s.1
  d.putWork { w with
    scores := NMap.del w.scores k
    folds := NMap.put w.folds j (out.map (·.1))
    weights := NMap.put w.weights k (out.map (·.2)) }
/-- MIX of a page (R192). -/
def Dev.mixStep (d : Dev) (m : Memory) (v : Weave) (w : Work) (layer k : Nat) : Dev :=
  let p := d.prof (d.sess w.slot)
  let j := d.spanIndex w layer k
  let vals := d.pageVals m w.slot layer k
  let top := w.top (d.sess w.slot)
  let ws := NMap.getD w.weights k []
  let heads := (w.rows p).map (·.2)
  let rows := (NMap.getD w.folds j []).zipIdx.map fun f =>
    let h := heads.getD f.2 0
    f.1.mix p.computeFmt (p.valueColumns (v.headStream w.kind h) layer h k top vals) ((ws.getD f.2 none))
  d.putWork { w with
    weights := NMap.del w.weights k
    folds := NMap.put w.folds j rows
    mixed := w.mixed ++ [k] }
/-- MERGE of the span partials of every row (R161, R163). -/
def Work.mergeAll (w : Work) (p : Profile) : Work :=
  { w with
    mergeDone := true
    merged := ((w.rows p).zipIdx).map fun r => mergeParts (w.folds.map fun f => f.2.getD r.2 {}) }
/-- The folds that a work merges: a work whose list is one span needs no MERGE step (R163). -/
def Work.finalRows (w : Work) (p : Profile) : List FoldRow := if w.mergeDone then w.merged else (w.mergeAll p).merged
/-- CLOSE of a work: the closing pass, or the backward pass with its latent gradients (R171, R193). The gradients, which are summed over all
heads, go where the head tile with HEAD0 = 0 says, and in its GFMT (DESIGN CHOICE, log entry 73). -/
def Dev.closeStep (d : Dev) (m : Memory) (v : Weave) (w : Work) (layer : Nat) : Dev :=
  let p := d.prof (d.sess w.slot)
  if w.kind = 2 then
    let pages := d.pageList w layer
    let (dq, dl) := d.backward m v w layer (w.top (d.sess w.slot)) (d.backSpans (d.selects w layer) pages)
    let d := pages.foldl (fun (d : Dev) k => d.heatPage w.slot layer k (d.row w.group)) d
    let d := match w.tiles.find? fun t => t.2.head0 == 0 with
      | none => d
      | some (mem, t) =>
        let first := (pages.headD 0) * 64
        let n := (p.dc + p.dr) * fmtBytes t.gfmt
        dl.foldl (fun (d : Dev) (e : Nat × List Nat) =>
          let (q, d) := d.pickQp w.group mem t.qp
          d.rdma q t.replyKey (t.gradAddr + (e.1 - first) * n) none (plainBytes t.gfmt e.2) .other mem) d
    d.putWork { w with
      outs := dq.map fun r => (r, none, 1)
      closed := true }
  else
    let outs := ((w.finalRows p).zipIdx).map fun f =>
      let h := f.2 % max 1 p.heads
      p.closeRow (v.headStream w.kind h) layer h f.1
    d.putWork { w with
      outs := outs
      closed := true }
/-- The output tile of a work's tile: statistics follow the values but for BACKWARD (R155, R171). -/
def Dev.outputOf (d : Dev) (w : Work) (t : QTile) : OTile :=
  let x := d.sess w.slot
  let o := w.outTile (d.prof x) t x.d.ownerEpoch
  let o := if w.kind = 2 then
      { o with
        empty := false
        payload := (List.range t.npos).flatMap fun i => (List.range t.nheads).flatMap fun h =>
          plainBytes t.ofmt (w.outs.getD ((t.pos + i - w.pos) * (d.prof x).heads + t.head0 + h) ([], none, 0)).1 }
    else o
  if x.d.split then
    { o with
      isPartial := true
      rangeIdx := x.d.rangeIdx
      rangeCnt := x.d.rangeCnt }
  else o
/-- EMIT or SEND_PARTIAL of a stream's tiles of a work; a tile leaves through the stream's OUT_BUF, of which its place in the EMIT queue is
free again once the port has taken it (R156, R163 to R165, R222, R226, R230). -/
def Dev.emitStep (d : Dev) (v : Weave) (w : Work) (s : WStream) (toHome : Bool) : Dev :=
  let q := w.tiles.filter fun t => t.1 == s.member && t.2.head0 == s.head0
  let x := d.sess w.slot
  let buf := if (v.bufs.getD s.outBuf {}).loc = 2 then bufKey w.group ((d.leadOf w.group w.slot w.stake).getD 0) s.outBuf + 1 else 0
  let home := d.homeOf x.d.sid
  let freed (d : Dev) : Dev := q.foldl (fun (d : Dev) t => d.freePlace { sid := t.2.sid, buf := buf }) d
  if (x.d.split && v.mergeHome) != toHome then freed d
  else if toHome then
    if home = d.self then freed (q.foldl (fun d t => d.keepPartial w.group w.slot (d.outputOf w t.2)) d)
    else freed (q.foldl (fun d t => (d.dropTile w t).send home 4 { d.outputOf w t.2 with mapEpoch := d.own.current }.bytes) d)
  else q.foldl (fun d t => (d.dropTile w t).emitTile w.group t.1 t.2.replyKey t.2.replyAddr { d.outputOf w t.2 with buf := buf }) d
/-- The signatures of a session's pages, given by layer * 65,536 + page, are computed; they wait for the commit (R203, R205). -/
def Dev.signSession (d : Dev) (m : Memory) (slot : Nat) (mine : List Nat) : Dev :=
  if mine.isEmpty then d
  else
    let sigs := mine.map fun k => (k, d.signature m slot (k / 65536) (k % 65536))
    let d := mine.foldl (fun (d : Dev) k => d.heatPage slot (k / 65536) (k % 65536) (d.row (d.sess slot).d.group)) d
    d.updSess slot fun x => { x with
      unsigned := x.unsigned.filter fun k => !mine.contains k
      newSigs := sigs.foldl (fun t e => NMap.put t e.1 e.2) x.newSigs }
/-- SIGNATURE: the pages completed in the stake on the engine's sessions (R203, R205). Pages that a push has filled are
signed by the first SIGNATURE of their layer on the home die. -/
def Dev.signStep (d : Dev) (m : Memory) (die layer : Nat) : Dev :=
  (NMap.keys d.ses.tab).foldl (fun (d : Dev) s =>
    if slotDie s ≠ die then d else d.signSession m s ((d.sess s).unsigned.filter fun k => k / 65536 == layer)) d

/-- A session takes part in a step of a stream's kind: its row is not voided, and it has work of that kind (R231). -/
def Dev.takesPart (d : Dev) (g slot kind : Nat) : Bool :=
  (d.sess slot).voided.isNone && (match d.feeds g slot with
    | some e => e.kind == kind
    | none => false)
/-- The works on which a step acts: for a session, its work of the stream's kind; of BACKWARD, every range gathered. -/
def Dev.stepWorks (d : Dev) (g stake kind : Nat) (slots : List Nat) : List Work :=
  slots.flatMap fun s =>
    if kind = 2 then
      (if (d.sess s).voided.isSome then [] else d.att.work.filter fun w => w.group == g && w.slot == s && w.stake == stake &&
        w.kind == 2 && !w.emitted)
    else if d.takesPart g s kind then [d.workOf g s stake] else []
/-- Steps of a session's lead engine alone (R159). -/
def leadOnly (op : Nat) : Bool := (2 ≤ op && op ≤ 5) || op == 0x0A || op == 0x0B || op == 0x0C || op == 0x12
/-- The works that an instance needs: none where it issues with no effect (R231). -/
def Dev.needed (d : Dev) (v : Weave) (e : Nat) (t : Task) (s : WStep) (i : Inst) : List Work :=
  if !takesStream s.op || s.op = 0x0E then []
  else
    let kind := (v.streams.getD s.stream {}).kind
    let slots := if leadOnly s.op || kind = 2 then i.block.filter fun k => d.leadOf t.group k t.stake == some e else i.block
    if kind = 2 && 6 ≤ s.op && s.op ≤ 0x0A then [] else d.stepWorks t.group t.stake kind slots
/-- What a step needs beside its buffers and counter: the data that the steps before it deliver (log entry 35). -/
def Dev.dataThere (d : Dev) (v : Weave) (t : Task) (layer : Nat) (s : WStep) (i : Inst) (w : Work) : Bool :=
  let p := d.prof (d.sess w.slot)
  match s.op with
  | 0x02 => w.gathered || w.covered p
  | 0x03 => w.gathered
  | 0x04 => w.gathered
  | 0x05 => w.gathered
  | 0x06 => w.gathered && (w.kind == 2 || w.kvWritten)
  | 0x07 => w.gathered && w.kvWritten && !w.needsAbsorb v p && (!d.selects w layer || w.sel.isSome)
  | 0x08 => NMap.has w.scores i.item
  | 0x09 => NMap.has w.weights i.item
  | 0x0A => (d.pageList w layer).all w.mixed.contains && (!d.selects w layer || w.sel.isSome)
  | 0x0B => if w.kind = 2 then w.gathered && (!d.selects w layer || w.sel.isSome) &&
        (decide (w.pos + w.npos ≤ (d.sess w.slot).d.committed) || (d.workOf t.group w.slot w.stake).kvWritten)
      else (d.pageList w layer).all w.mixed.contains && (!d.selects w layer || w.sel.isSome)
  | 0x0C => w.closed
  | 0x12 => w.closed
  | _ => true
/-- The effect of a step on one of the works it needs. -/
def Dev.stepOn (d : Dev) (m : Memory) (v : Weave) (layer : Nat) (s : WStep) (i : Inst) (w : Work) : Dev :=
  let p := d.prof (d.sess w.slot)
  match s.op with
  | 0x02 => if w.gathered then d else d.putWork (w.gather p)
  | 0x03 => if w.kind = 2 ∨ w.kvWritten then d else (d.writeKv w layer).getD d
  | 0x04 => if d.selects w layer then d.putWork { w with selAsked := true } else d
  | 0x05 => if w.kind = 2 ∨ !i.ends.contains w.slot then d else d.putWork (w.absorbAll v p layer)
  | 0x06 => d.putWork { w with expanded := w.expanded ++ [i.item] }
  | 0x07 => d.scoreStep m v w layer i.item
  | 0x08 => d.foldStep w layer i.item
  | 0x09 => d.mixStep m v w layer i.item
  | 0x0A => d.putWork (w.mergeAll p)
  | 0x0B => if i.ends.contains w.slot then d.closeStep m v w layer else d
  | 0x0C => d.emitStep v w (v.streams.getD s.stream {}) false
  | 0x12 => d.emitStep v w (v.streams.getD s.stream {}) true
  | _ => d
/-- A step's buffer lies in INGEST staging (R227). -/
def Weave.ingest (v : Weave) (b : Nat) : Bool := b != 0x3FF && (v.bufs.getD b {}).loc == 0
/-- A push that is open in a group and die still lacks a piece of a layer. -/
def Dev.pushLacks (d : Dev) (g die layer : Nat) : Bool :=
  d.att.pushes.any fun u => u.group == g && slotDie u.slot == die && u.lane.isSome &&
    decide ((u.placed.filter fun k => k / 65536 == layer).length < (u.first + u.count - 1) / 64 + 1 - u.first / 64)
/-- A PUSH_PLACE step waits: it names an INGEST buffer, in which no tile of its layer is present, a push still lacks one, and the stake has
not closed, so that the tile would be placed in this row. That of an empty task, to which no session is assigned, waits for none (R230,
R231, R232, R263, R271). -/
def Dev.pushWaits (d : Dev) (v : Weave) (t : Task) (s : WStep) (die : Nat) : Bool :=
  let layer := v.layerAt t.stake
  t.level.isSome && v.ingest s.inBuf && !d.closed t.group t.stake && d.pushLacks t.group die layer &&
    !d.att.pushes.any fun u => u.group == t.group && slotDie u.slot == die && u.waiting.any fun p => p.layer == layer
/-- A step's buffer lies in the scratchpad or in the EMIT queue: steps fill its places, and steps or the port empty them (R227, R230). -/
def Weave.counted (v : Weave) (b : Nat) : Bool := b != 0x3FF && (v.bufs.getD b {}).loc != 0
/-- The tiles that a step reads from INGEST staging are present: those of its works, on the engine that leads each, or of a step that
takes no work any tile of the stake. A tile that has been gathered needs no second reading (R230; DEDUCED, log entry 73). -/
def Dev.inStaging (d : Dev) (e : Nat) (t : Task) (s : WStep) (works : List Work) : Bool :=
  if works.isEmpty then (NMap.getD d.att.present (bufKey t.group e s.inBuf) []).any fun p => p / 2 ^ 23 == t.stake
  else works.all fun w => (w.gathered && s.op != 0x02) ||
    d.staged (bufKey t.group ((d.leadOf t.group w.slot t.stake).getD e) s.inBuf) t.stake w.slot
/-- The places of a buffer changed. -/
def Dev.setPlaces (d : Dev) (g e b : Nat) (xs : List Nat) : Dev :=
  { d with att := { d.att with present := NMap.put d.att.present (bufKey g e b) xs } }
/-- Some assigned session needs a step: only then does it take and return credits (R231). A step on tiles or sessions needs one of its
works; PUSH_PLACE an open push; SIGNATURE a page to sign; every other step a session of its body whose row is not voided. -/
def Dev.liveStep (d : Dev) (e : Nat) (t : Task) (layer : Nat) (s : WStep) (i : Inst) (works : List Work) : Bool :=
  if s.op = 0x0E then d.att.pushes.any fun u => u.group == t.group && slotDie u.slot == engDie e
  else if takesStream s.op then !works.isEmpty
  else if s.op = 0x0D then
    d.ses.tab.any fun x => x.2.d.group == t.group && slotDie x.1 == engDie e && x.2.unsigned.any fun k => k / 65536 == layer
  else i.block.any fun k => (d.sess k).voided.isNone && (d.feeds t.group k).isSome
/-- A counter has reached a target (R233). -/
def reached (v t : Nat) : Bool := (v + 2 ^ 32 - t) % 2 ^ 32 < 2 ^ 31
/-- The conditions of R230 for an instance. -/
def Dev.mayFire (d : Dev) (v : Weave) (e : Nat) (t : Task) (s : WStep) (i : Inst) (works : List Work) : Bool :=
  let g := t.group
  let layer := v.layerAt t.stake
  let live := d.liveStep e t layer s i works
  !(s.iter == 3 && i.item == pageUnknown) &&
    !(s.op == 0x0E && d.pushWaits v t s (engDie e)) &&
    (!(live && v.counted s.inBuf) || !(d.places g e s.inBuf).isEmpty) &&
    (!(live && v.ingest s.inBuf && s.op != 0x0E) || d.inStaging e t s works) &&
    (!(live && v.counted s.outBuf) || (d.places g e s.outBuf).length < (v.bufs.getD s.outBuf {}).credits) &&
    (!(live && v.ingest s.outBuf) || d.hasPlace v (bufKey g e s.outBuf)) &&
    (s.op != 0x0F || (match d.counterOf g e v s with
      | some c => reached (NMap.getD d.att.counters c 0) s.arg
      | none => true)) &&
    works.all (d.dataThere v t layer s i) &&
    (s.op != 0x03 || works.all fun w => w.kind == 2 || w.kvWritten || (d.writeKv w layer).isSome)
/-- What a work with another partition's tag reads as: zeros (R508). -/
def Work.zeroed (w : Work) : Work :=
  { w with
    tiles := w.tiles.map fun t => (t.1, { t.2 with payload := t.2.payload.map fun _ => 0 })
    queries := w.queries.map (·.map fun _ => 0)
    grads := w.grads.map fun g => (g.1.map fun _ => 0, 0, 0)
    absorbed := w.absorbed.map (·.map fun _ => 0)
    scores := NMap.mapV w.scores fun _ rows => rows.map fun r => r.map fun _ => some 0
    weights := NMap.mapV w.weights fun _ rows => rows.map (·.map fun f => (0, f.2.map fun _ => 0))
    folds := NMap.mapV w.folds fun _ rows => rows.map fun _ => {}
    merged := w.merged.map fun _ => {}
    outs := w.outs.map fun o => (o.1.map fun _ => 0, o.2.1.map fun _ => 0, 0) }
/-- A step reads its works' tiles and scratchpad lines for their sessions (R508). -/
def Dev.readWorks (d : Dev) : List Work → List Work × Dev
  | [] => ([], d)
  | w :: ws =>
    let (v, d) := d.readTagged w.tag (d.sess w.slot).d.partition w w.zeroed
    let (vs, d) := d.readWorks ws
    (v :: vs, d)
/-- PREFETCH: for each of an engine's sessions in the next stake, LOOKUP stages its root entry and its leaves in the scratchpad, and MOVE
its first page: a read that counts as HEAT (R117, R128, R217, R222). One page is taken for a session's first pages, whose number the rule
leaves open (DESIGN CHOICE, log entry 73). -/
def Dev.prefetch (d : Dev) (v : Weave) (t : Task) (e op : Nat) : Dev :=
  let layer := v.layerAt (t.stake + 1)
  if op ≠ 0x01 ∨ v.stakes ≤ t.stake + 1 then d
  else (d.engSessions t.group e (t.stake + 1)).foldl (fun (d : Dev) s =>
    if (d.sess s).voided.isSome || d.unselected t.group s (t.stake + 1) layer then d
    else match d.enginePages t.group e s (t.stake + 1) layer with
      | [] => d
      | k :: _ => d.heatPage s layer k (d.row t.group)) d
/-- An instance issues: buffers, counter, effect (R230, R231, R233). -/
def Dev.issue (d : Dev) (m : Memory) (v : Weave) (e : Nat) (t : Task) (s : WStep) (i : Inst) (works : List Work) : Dev :=
  let g := t.group
  let layer := v.layerAt t.stake
  let live := d.liveStep e t layer s i works
  let d := if live && v.counted s.inBuf then d.setPlaces g e s.inBuf ((d.places g e s.inBuf).drop 1) else d
  let d := if live && v.counted s.outBuf then
      d.setPlaces g e s.outBuf (d.places g e s.outBuf ++ [i.slot.getD (2 ^ 22)]) else d
  let d := if live && v.ingest s.outBuf then d.takePlace (bufKey g e s.outBuf) (t.stake * 2 ^ 23 + i.slot.getD (2 ^ 22)) else d
  let d := if s.op = 0x10 then (match d.counterOf g e v s with
      | some c => 
          let cs := NMap.put d.att.counters c ((NMap.getD d.att.counters c 0 + s.arg) % 2 ^ 32)
          { d with att := { d.att with counters := cs } }
      | none => d) else d
  let d := if s.op = 0x0D then d.signStep m (engDie e) layer else d
  let d := if s.op = 0x0E then
      ({ d with att := { d.att with placedAt := d.att.placedAt ++ [firedKey g t.stake (engDie e)] } }).placeStep g (engDie e) layer
    else d
  let d := if live && (s.op = 0x01 || s.op = 0x11) then
      let desc : MoveDesc := { op := s.op, group := g, engine := e, stake := t.stake, arg := s.arg, len := s.arg2 }
      ({ d with att := { d.att with dpath := d.att.dpath ++ [desc] } }).prefetch v t e s.op
    else d
  let (works, d) := d.readWorks works
  works.foldl (fun d w => d.stepOn m v layer s i w) d
/-- The running task of an engine records an instance as issued. -/
def Dev.markIssued (d : Dev) (e : Nat) (i : Inst) : Dev :=
  let x := d.engine e
  d.setEngine e { x with running := x.running.map fun t => { t with issued := t.issued ++ [i.key] } }
/-- The work of a task is given up: every counter that its skipped steps would have signalled is signalled (R231). -/
def Dev.signalRest (d : Dev) (v : Weave) (e : Nat) (t : Task) : Dev :=
  let xs := v.stepsOf t.stake
  ((d.program v t.group e t.stake).filter fun i => !t.issued.contains i.key).foldl (fun (d : Dev) i =>
    let s := xs.getD i.step {}
    if s.op ≠ 0x10 then d
    else match d.counterOf t.group e v s with
      | some c => { d with att := { d.att with
          counters := NMap.put d.att.counters c ((NMap.getD d.att.counters c 0 + s.arg) % 2 ^ 32) } }
      | none => d) d
/-- Slot whose tile the running task waits for on a GATHER, or 2^22 on a PUSH_PLACE, if its next EXPAND or MOVE step
waits for one (R275). -/
def Dev.tileWait (d : Dev) (v : Weave) (e : Nat) (t : Task) : Option Nat :=
  let waits (station : Nat) : Option Nat := match d.nextInst v e station t with
    | none => none
    | some i =>
      let s := (v.stepsOf t.stake).getD i.step {}
      if s.op = 0x02 then
        ((d.needed v e t s i).find? fun w => !w.gathered && !w.covered (d.prof (d.sess w.slot))).map (·.slot)
      else if s.op = 0x0E ∧ d.pushWaits v t s (engDie e) then some (2 ^ 22)
      else none
  match waits 0 with
  | some s => some s
  | none => waits 4
/-- A wait for a tile that begins takes the value of YIELD_CC at its begin; `waited` says that the task waits since before (R275, R280). -/
def Dev.latchYield (d : Dev) (e : Nat) (waited : Bool) : Dev :=
  let x := d.engine e
  if waited then d
  else d.setEngine e { x with running := x.running.map fun t =>
    { t with yieldCc := d.g F.ATT_PREEMPT_YIELD_CC, waitFrom := d.now } }
/-- STEP_FIRE: the next step of a station of an engine fires if its conditions hold (R230). An engine retired within the row finishes its
work (R239). -/
def execStepFire (e station : Nat) : State → Host.Outcome State Fault Refusal :=
  onUnit (e < 64 && station < 6) fun m d =>
    match (d.engine e).running with
    | none => d
    | some t => match d.weaveOf t.group with
      | none => d
      | some v =>
        if d.phase t.group ≠ 1 then d
        else match d.nextInst v e station t with
          | none => d
          | some i =>
            let s := (v.stepsOf t.stake).getD i.step {}
            let works := d.needed v e t s i
            if d.headOf v e t s i && d.mayFire v e t s i works then
              let waited := (d.tileWait v e t).isSome && s.op != 0x02 && s.op != 0x0E
              let d := (((d.issue m v e t s i works).markIssued e i).latchYield e waited).flushAll t.group
              (if d.closed t.group t.stake then d.returnStaged t.group t.stake else d).tryCheap e
            else d

/-! ## Selection, copies (R122, R211) -/

/-- The SIFT engine that runs a session's selections: (8 × die) + (slot mod 8), or the next of the die that is not retired (R215). -/
def Dev.siftFor (d : Dev) (slot : Nat) : Option Nat :=
  let die := slotDie slot
  ((List.range 8).map fun j => 8 * die + (slot + j) % 8).find? fun e => !bitOf (d.g F.FLT_RET_ENG_SIFT) e
/-- SELECTION: the SIFT engine of a session completes the selection of its stake; a die without one completes none. An engine that has
waited for it with a preemption request may stand at its cheap point now (R211, R215, R217, R273). -/
def execSelection (sid stake : Nat) : State → Host.Outcome State Fault Refusal :=
  onDev fun _ d => match d.slotOf sid with
    | none => d
    | some slot =>
      let g := (d.sess slot).d.group
      if (d.siftFor slot).isNone then d
      else match d.weaveOf g, d.att.work.find? fun w => w.group == g && w.slot == slot && w.stake == stake && w.selAsked && w.sel.isNone with
      | some v, some w =>
        ((((d.group g).plan.filter fun s => s.stake == stake && s.slot == slot && !s.push).map (·.engine)).dedup).foldl Dev.tryCheap
          (d.putWork { w with sel := some (d.selection v w (v.layerAt stake)) })
      | _, _ => d

/-- MOVE engines of a die that are not retired (R235, R586). -/
def Dev.moveEngines (d : Dev) (die : Nat) : Nat := ((List.range 16).filter fun j => !d.unitRetired 9 (16 * die + j)).length
/-- COW_COPY: a copy of a shared page completes: slots below COMMITTED and the trailer; the entry names the copy with
COW = 0, and the shared frame, which MOVE has read, loses a reference (R122, R128). The copies of a die are taken in the order of their
submission by its MOVE engines, so that no copy completes before one that is not yet taken (R235). -/
def execCowCopy (slot layer page : Nat) : State → Host.Outcome State Fault Refusal :=
  onDev fun m d =>
    match d.pgs.copies.find? fun c => c.1 == slot && c.2.1 == layer && c.2.2.1 == page with
    | none => d
    | some c =>
      let before := (d.pgs.copies.filter fun k => slotDie k.1 == slotDie slot).takeWhile (· != c)
      if d.moveEngines (slotDie slot) ≤ before.length then d
      else
      let src := c.2.2.2.1
      let dst := c.2.2.2.2
      let x := d.sess slot
      let p := d.prof x
      let n := min 64 (x.d.committed - 64 * page)
      let fs := d.frame src
      let d := d.heatFrame src (d.row x.d.group)
      let d := d.poke (d.frameAddr dst) (m.readN (d.frameAddr src) (n * p.slotBytes))
      let d := { d with pgs := { d.pgs with copies := d.pgs.copies.erase c } }.sat F.PGS_CNT_COW 1
      let d := match x.resv.find? fun r => r.layer == layer && r.page == page with
        | some r => d.installResv slot r fun f => { f with
            fill := n
            fmt := fs.fmt
            parkFid := fs.parkFid
            written := fs.written
            ofsLat := fs.ofsLat
            ofsRot := fs.ofsRot }
        | none => d
      (d.dropRef slot src).placeLate x.d.group (slotDie slot) layer

/-! ## Task events (R271 to R276) -/

/-- TASK_COMPLETE: the running task of an engine has issued every step; its group's next stake becomes ready there, and
the engine takes its next task (R271, R272). -/
def execTaskComplete (e : Nat) : State → Host.Outcome State Fault Refusal :=
  onUnit (e < 64) fun _ d =>
    let x := d.engine e
    match x.running with
    | none => d
    | some t => match d.weaveOf t.group with
      | none => (d.setEngine e { x with running := none, request := none }).dispatch e
      | some v =>
        if (d.firstInst v e t).isSome || d.selecting v e t then d
        else
          let d := d.setEngine e { x with running := none, request := none }
          let d := if t.stake + 1 < v.stakes then d.readyTask t.group e (t.stake + 1) else d
          d.dispatch e

/-- PREEMPTION_WAIT: WAIT_CC has passed without a cheap point, and the whole scratchpad is saved (R273, R274). -/
def execPreemptionWait (e : Nat) : State → Host.Outcome State Fault Refusal :=
  onUnit (e < 64) fun _ d =>
    let x := d.engine e
    match x.running, x.request with
    | some _, some (_, at') => (d.reach at').saveTask e none
    | _, _ => d

/-- YIELD: a task that has waited YIELD_CC for a fabric tile gives way, if another is ready or saved and its own level's
save area is free (R275). -/
def execYield (e : Nat) : State → Host.Outcome State Fault Refusal :=
  onUnit (e < 64) fun _ d =>
    let x := d.engine e
    match x.running with
    | none => d
    | some t => match t.level, d.weaveOf t.group with
      | some l, some v => match d.tileWait v e t with
        | none => d
        | some what =>
          let other := !x.ready.isEmpty || x.saved.any fun u => u.awaits.isNone
          let free := NMap.has d.att.saveSets (saveKey (engDie e) l) && !x.saved.any fun u => u.level == some l
          if t.yieldCc = 0 ∨ !other ∨ !free then d
          else
            let d := d.reach (t.waitFrom + d.ccNs t.yieldCc)
            let d := (d.sat F.ATT_PREEMPT_CNT_YIELD 1).setEngine e
              { x with running := some { t with awaits := some what } }
            d.saveTask e (d.cheapBytes v e t)
      | _, _ => d

/-- SAVE: a save completes; the engine takes the preempting task (R272, R274). -/
def execSave (e : Nat) : State → Host.Outcome State Fault Refusal :=
  onUnit (e < 64) fun _ d =>
    let x := d.engine e
    match x.saving with
    | none => d
    | some t => (d.setEngine e { x with saving := none, saved := x.saved ++ [{ t with readyAt := d.now }] }).dispatch e

/-- RESTORE: a restore completes, and the task continues at its saved step (R274); a task that became ready in the meantime, or whose
tile has arrived, requests preemption now (R273, R275). -/
def execRestore (e : Nat) : State → Host.Outcome State Fault Refusal :=
  onUnit (e < 64) fun _ d =>
    let x := d.engine e
    match x.restoring with
    | none => d
    | some t =>
      let d := (d.sat F.ATT_PREEMPT_CNT_RESTORE 1).setEngine e
        { x with
          restoring := none
          running := some { t with
            saved := none
            tags := []
            lost := []
            yieldCc := d.g F.ATT_PREEMPT_YIELD_CC
            waitFrom := d.now } }
      let d := (d.putTags t).spoil t
      (x.ready ++ x.saved.filter fun u => u.awaits.isNone).foldl (fun (d : Dev) u => d.askPreempt e u) d

end Sys2Proof.Machine
end

