-- ==== Sys2Proof/Machine/Sift.lean ====
section
/-! DEFINITION. Memory search: indexes, inserts, deletes, queries and merges (R447 to R463). -/
namespace Sys2Proof.Machine
open Sys2Proof

/-! ## Indexes and handles (R447 to R450) -/

/-- Die of an index key. -/
def indexDie (k : Nat) : Nat := k / 32768 % 2
/-- The index that a handle names: its GEN is that of the slot (R448). -/
def Dev.sindex (d : Dev) (handle : Nat) : Option SIndex :=
  match NMap.get? d.sft.idx (indexKey handle) with
  | some x => if x.gen = handle / 2 ^ 16 then some x else none
  | none => none
/-- The indexes with one changed. -/
def Dev.setIndex (d : Dev) (handle : Nat) (x : SIndex) : Dev :=
  { d with sft := { d.sft with idx := NMap.put d.sft.idx (indexKey handle) x } }
/-- A function may use an index: its owner, and partition 0 to release it (R448). An index that is not found is decided by
the command's own rules. -/
def Dev.mayIndex (d : Dev) (fn handle : Nat) (zeroToo : Bool) : Bool :=
  match d.sindex handle with
  | some x => x.partition == fn || (zeroToo && fn == 0)
  | none => true
/-- HBM bytes that an index reserves at creation (R450). -/
def indexSize (dim degree nodesMax sideMax : Nat) : Nat := 16384 + 4 * sideMax + nodesMax * (dim / 8 + dim + 32 + 4 * degree + 32)
/-- Bytes of an index. -/
def SIndex.size (x : SIndex) : Nat := indexSize x.dim x.degree x.nodesMax x.sideMax
/-- Free bytes of the SIFT region of a die (R450, R463). -/
def Dev.sftFree (d : Dev) (die : Nat) : Nat :=
  (if die = 0 then d.g F.SFT_REGION_GIB_W else d.g F.SFT_REGION_GIB_E) * 2 ^ 30 -
    d.sft.idx.foldl (fun a e => if indexDie e.1 = die then a + e.2.size else a) 0
/-- A live node that holds a key (R452). -/
def SIndex.keyed (x : SIndex) (key : Nat) : Option Nat := (x.nodes.find? fun e => !e.2.tomb && e.2.key == key).map (·.1)
/-- A command on an index under capture waits until it is captured: the capture comes first, and the wait is counted
(R554). -/
def Dev.awaitIndex (d : Dev) (handle : Nat) : Dev :=
  let mine (c : Capture) : Bool := c.indexTodo && (c.index.map (·.1)) == some handle
  if d.ckp.shards.any fun s => s.caps.any mine then
    let shards := d.ckp.shards.map fun s => { s with caps := s.caps.map fun c => if mine c then { c with indexTodo := false } else c }
    ({ d with ckp := { d.ckp with shards := shards } }).sat F.CKP_CNT1_WAITS 1
  else d

/-! ## Vectors (R451, R456) -/

/-- Formats of vectors (R451). -/
def vecFmtOk (f : Nat) : Bool := f ≤ 2
/-- The values of a vector; none if one is not finite (R451). -/
def readVec (f n : Nat) (bs : Bytes) : Option (List Rat) :=
  match fmtElem f with
  | some x => readPlain x bs n
  | none => none
/-- The code of a vector (R451). -/
def SIndex.code (x : SIndex) (v : List Rat) : Nat :=
  ((List.range x.dim).map fun i => if ofF32 (x.centres.getD i 0) < v.getD i 0 then 2 ^ i else 0).foldl (· + ·) 0
/-- The SQ8 elements of a vector (R451). -/
def SIndex.sq8 (x : SIndex) (v : List Rat) : List Int :=
  (List.range x.dim).map fun i =>
    max (-127) (min 127 (rneInt ((v.getD i 0 - ofF32 (x.centres.getD i 0)) / ofF32 (x.scales.getD i 0))))
/-- The SQ8 vector of a node decoded (R451). -/
def SIndex.decode (x : SIndex) (q : List Int) : List Rat :=
  (List.range x.dim).map fun i => rne32 (ofF32 (x.centres.getD i 0) + (q.getD i 0 : Rat) * ofF32 (x.scales.getD i 0))
/-- Bits that differ between two codes. -/
def hamming (dim a b : Nat) : Nat := popcount (a ^^^ b) dim
/-- A node of an index. -/
def SIndex.node (x : SIndex) (i : Nat) : SNode := NMap.getD x.nodes i {}
/-- Hamming distance of a node from a code. -/
def SIndex.dist (x : SIndex) (code i : Nat) : Nat := hamming x.dim code (x.node i).code
/-- The `n` nearest of a set of nodes, ties to the lower id (R457). -/
def SIndex.best (x : SIndex) (code n : Nat) (s : List Nat) : List Nat :=
  (sortBy (fun i => [(x.dist code i : Int), (i : Int)]) s).take n
/-- The re-rank distance of a node (R456): FP32, with the grouping of R191. -/
def SIndex.reDist (x : SIndex) (q : List Rat) (i : Nat) : Rat :=
  let v := x.decode (x.node i).sq8
  if x.ip then -(dot q v)
  else
    let diff := (List.range x.dim).map fun i => rne32 (q.getD i 0 - v.getD i 0)
    dot diff diff
/-- A distance that is an FP32 value, as a whole number of the least FP32 step. -/
def f32Key (q : Rat) : Int := (q * (2 ^ 149 : Nat)).num

/-! ## Creating, inserting, deleting (R449 to R454) -/

/-- A merge begins with the entries present; the command that asks for it, if one does, is noted by its sequence number (R459). -/
def SIndex.startMerge (x : SIndex) (hseq : Nat := 0) : SIndex :=
  { x with
    mergeHseq := hseq
    mergeDue := false
    merging := some
      { side := x.side
        dead := (x.nodes.filter fun e => e.2.tomb).map (·.1)
        nodes := x.nodes } }
/-- Entries of the side list that no merge under way has taken (R459). -/
def SIndex.waiting (x : SIndex) : Nat := x.side.length - ((x.merging.map fun m => m.side.length).getD 0)
/-- An insert has brought the side list to SIDE_MERGE entries with AUTO_MERGE set: a merge starts, or waits for the end of the one under
way. A list that reached it before AUTO_MERGE was written starts none (R459, R463). -/
def SIndex.autoMerge (x : SIndex) (auto : Bool) : SIndex :=
  if !auto || x.waiting != x.sideMerge then x
  else if x.merging.isNone then x.startMerge
  else { x with mergeDue := true }
/-- The SIFT engine of an index: engine (8 × DIE) + (SLOT mod 8), or the next live one of the die, wrapping (R455). -/
def Dev.indexEngine (d : Dev) (handle : Nat) : Option Nat :=
  let k := indexKey handle
  ((List.range 8).map fun j => 8 * indexDie k + (k + j) % 8).find? fun e => !bitOf (d.g F.FLT_RET_ENG_SIFT) e
/-- An insert, a delete or a merge runs on the engine of its index; with no live one on the die it ends with a unit fault (R455, R461,
R585). -/
def Dev.onEngine (d : Dev) (handle : Nat) (run : Nat → Dev → Res) : Res :=
  match d.indexEngine handle with
  | some e => run e d
  | none => d.faultRes 2
/-- Creation parameters are in range (R450). -/
def createOk (dim degree metric nodesMax sideMax sideMerge efBuild : Nat) : Bool :=
  64 ≤ dim && dim ≤ 2048 && dim % 64 == 0 && [8, 16, 32, 64].contains degree && metric ≤ 1 && 1024 ≤ nodesMax &&
    nodesMax ≤ 16777216 && 1024 ≤ sideMax && sideMax ≤ 1048576 && 1 ≤ sideMerge && sideMerge ≤ sideMax && 16 ≤ efBuild &&
    efBuild ≤ 1024
/-- A node is written: the lowest free slot, SIDE set, its id appended to the side list (R453). -/
def SIndex.insert (x : SIndex) (key tags : Nat) (v : List Rat) : Option (Nat × SIndex) :=
  (NMap.freeFrom x.nodes x.nodesMax 0).map fun i =>
    let n : SNode :=
      { key := key
        tags := tags
        side := true
        code := x.code v
        sq8 := x.sq8 v }
    (i, { x with nodes := NMap.put x.nodes i n, side := x.side ++ [i] })
/-- SIFT_INSERT into an index that exists (R453, R459). -/
def Dev.insertVec (d : Dev) (handle : Nat) (replace : Bool) (key tags fmt : Nat) (vec : Bytes) : Res :=
  match d.sindex handle with
  | none => d.res .staleGen
  | some x =>
    match readVec fmt x.dim vec with
    | none => d.res .badParam
    | some v => d.onEngine handle fun e d =>
      let d := d.awaitIndex handle
      let old := x.keyed key
      if old.isSome ∧ !replace then d.res .badParam
      else if x.sideMax ≤ x.side.length then
        { (d.res .noSpace) with dev := if x.merging.isNone then d.setIndex handle x.startMerge else d }
      else
        let x := match old with
          | some i => { x with nodes := NMap.upd x.nodes i fun n => { n with tomb := true } }
          | none => x
        match x.insert key tags v with
        | none => d.res .noSpace
        | some (i, x) =>
          let x := { x with engine := e }.autoMerge (d.on F.SFT_CTL_AUTO_MERGE)
          let d := (d.setIndex handle x).wrap F.SFT_CNT0_INSERTS 1
          { dev := d, result := leBytes 4 handle ++ leBytes 4 i }

/-- Die of a new index: the home die of its session, or the one with more free region (R450). -/
def Dev.indexPlace (d : Dev) (bound : Option Nat) : Nat :=
  match bound with
  | some slot => slotDie slot
  | none => if d.sftFree 0 < d.sftFree 1 then 1 else 0
/-- An index is created, bound to a session or to none, and its first vector inserted (R449, R450). -/
def Dev.makeIndex (d : Dev) (h : Hdr) (x : SIndex) (bound : Option Nat) (key tags fmt : Nat) (vec param : Bytes) : Res :=
  let cs := readElems param 32 (2 * x.dim)
  let scales := cs.drop x.dim
  let badBind := bound.any fun s => (d.sess s).d.partition != h.fn || (d.sess s).d.siftIndex != 0 || (d.sess s).d.state == .closed
  if badBind || !(cs.all Elem.fp32.finite) || !(scales.all fun s => decide (0 < ofF32 s)) then d.res .badParam
  else match readVec fmt x.dim vec with
  | none => d.res .badParam
  | some v =>
    let die := d.indexPlace bound
    if d.sftFree die < x.size || overLimit h.fn (d.useIndexes h.fn) 1 (d.limits h.fn).indexes then d.res .noSpace
    else match NMap.freeFrom d.sft.idx 32768 (die * 32768) with
      | none => d.res .noSpace
      | some k =>
        let gen := NMap.getD d.sft.gens k 1
        let handle := gen * 2 ^ 16 + k
        let x := { x with
          gen := gen
          partition := h.fn
          fn := h.fn
          eq := h.eq
          bind := (bound.map fun s => (d.sess s).d.sid).getD 0
          centres := cs.take x.dim
          scales := scales }
        match x.insert key tags v with
        | none => d.res .noSpace
        | some (i, x) =>
          let x := { x with engine := (d.indexEngine handle).getD 0 }.autoMerge (d.on F.SFT_CTL_AUTO_MERGE)
          let d := (d.setIndex handle x).wrap F.SFT_CNT0_INSERTS 1
          let d := match bound with
            | some s => d.updDesc s fun y => { y with siftIndex := handle }
            | none => d
          { dev := d, result := leBytes 4 handle ++ leBytes 4 i }
/-- SIFT_INSERT with INDEX = 0. The session that it binds is decided by R73 and R445 as that of a command is: an old id is STALE_GEN, and
the session of another home that is not served here REMAP (R73, R445, R450). -/
def Dev.createIndex (d : Dev) (h : Hdr) (x : SIndex) (bind key tags fmt : Nat) (vec param : Bytes) : Res :=
  if bind = 0 then d.makeIndex h x none key tags fmt vec param
  else d.onSession h bind fun slot d => d.makeIndex h x (some slot) key tags fmt vec param

/-- SIFT_INSERT: the vector and the parameters as read from host memory. -/
def execSiftInsert (h : Hdr) (handle : Nat) (replace : Bool) (key tags : Nat) (vec param : Bytes)
    (bind nodesMax sideMax sideMerge dim efBuild degree metric fmt : Nat) : State → Host.Outcome State Fault Refusal :=
  onDev fun _ d =>
    let ok := vecFmtOk fmt && (handle != 0 || createOk dim degree metric nodesMax sideMax sideMerge efBuild)
    d.command h 0x0501 (d.mayIndex h.fn handle false) ok true fun d => d.needs [F.SFT_CTL_EN] fun d =>
      if handle ≠ 0 then d.insertVec handle replace key tags fmt vec
      else
        d.createIndex h
          { dim := dim
            degree := degree
            ip := metric == 1
            nodesMax := nodesMax
            sideMax := sideMax
            sideMerge := sideMerge
            efBuild := efBuild } bind key tags fmt vec param

/-- SIFT_DELETE: a key's node is tombstoned, or the index is released (R448, R449, R454). -/
def execSiftDelete (h : Hdr) (handle : Nat) (drop : Bool) (key : Nat) : State → Host.Outcome State Fault Refusal :=
  onDev fun _ d =>
    d.command h 0x0502 (d.mayIndex h.fn handle drop) true false fun d => d.needs [F.SFT_CTL_EN] fun d =>
      match d.sindex handle with
      | none => d.res .staleGen
      | some x =>
        let d := d.awaitIndex handle
        if drop then (d.dropIndex handle).res .ok
        else d.onEngine handle fun e d => match x.keyed key with
          | none => d.res .dup
          | some i =>
            ((d.setIndex handle { x with engine := e, nodes := NMap.upd x.nodes i fun n => { n with tomb := true } }).sat
              F.SFT_CNT1_DELETES 1).res .ok

/-! ## Queries (R456 to R458) -/

/-- What a search has seen: the pool, the beam, the nodes expanded, the probes made. -/
structure Search where
  pool : List Nat := []
  beam : List Nat := []
  expanded : List Nat := []
  probes : Nat := 0
  limit : Nat := 0
  bounded : Bool := true
  widened : Bool := false
  deriving DecidableEq, Repr

/-- The elements of a list that are not in another, each once. -/
def newIn (seen : List Nat) (xs : List Nat) : List Nat :=
  (xs.foldl (fun a x => if seen.contains x || a.contains x then a else a ++ [x]) [])
/-- A round expands up to four open nodes (R457). -/
def SIndex.round (x : SIndex) (code : Nat) (s : Search) (open' : List Nat) : Search :=
  let r := x.best code (min 4 (s.limit - s.probes)) open'
  let fresh := newIn s.pool (r.flatMap fun n => (x.node n).nbrs)
  { s with
    expanded := s.expanded ++ r
    pool := s.pool ++ fresh
    beam := s.beam ++ fresh
    probes := s.probes + r.length }
/-- The search loop of R457; `elig` tells which nodes may be returned. -/
def SIndex.loop (x : SIndex) (code ef k : Nat) (widen : Option Nat) (elig : Nat → Bool) : Nat → Search → Search
  | 0, s => s
  | n + 1, s =>
    let have' := (s.pool.filter elig).length
    if !s.bounded ∧ k ≤ have' then s
    else
      let beam := if s.bounded then x.best code ef s.beam else s.beam
      let s := { s with beam := beam }
      let open' := beam.filter fun i => !s.expanded.contains i
      if open'.isEmpty ∨ s.probes = s.limit then
        match widen with
        | some w =>
          if s.bounded ∧ have' < k then
            SIndex.loop x code ef k none elig n { s with
              limit := s.limit + w
              bounded := false
              widened := true
              beam := s.pool }
          else s
        | none => s
      else SIndex.loop x code ef k widen elig n (x.round code s open')

/-- A result entry (R458). -/
def resultEntry (key dist : Nat) (null side : Bool) : Bytes :=
  pack 16 [⟨0, 0, 64, key⟩, ⟨8, 0, 32, dist⟩, ⟨8, 32, 1, b2n null⟩, ⟨8, 33, 1, b2n side⟩]

/-- A node that a query may return: live, with the tags that it asks for (R456). -/
def SIndex.eligible (x : SIndex) (all any i : Nat) : Bool :=
  NMap.has x.nodes i && !(x.node i).tomb && ((x.node i).tags &&& all) == all && (any == 0 || ((x.node i).tags &&& any) != 0)
/-- What a query asks for beside its vector (R456). -/
structure Query where
  all : Nat := 0
  any : Nat := 0
  k : Nat := 1
  ef : Nat := 1
  maxProbes : Nat := 1
  rerank : Nat := 0
  widen : Option Nat := none
  deriving DecidableEq, Repr
/-- The probes of a query (R456, R457). -/
def SIndex.probe (x : SIndex) (q : Query) (code : Nat) : Search :=
  let side := x.side.filter fun i => !(x.node i).tomb
  x.loop code q.ef q.k q.widen (x.eligible q.all q.any) (q.maxProbes + q.widen.getD 0 + 2)
    { pool := side ++ newIn side x.entry
      beam := x.entry
      limit := q.maxProbes }
/-- The nodes that a query returns, best first, each with its distance (R456, R458). -/
def SIndex.found (x : SIndex) (q : Query) (v : List Rat) : List (Nat × Nat) :=
  let code := x.code v
  let cand := x.best code (max q.k q.rerank) ((x.probe q code).pool.filter (x.eligible q.all q.any))
  let ranked : List (Nat × Nat) := if q.rerank = 0 then cand.map fun i => (i, toF32 (x.dist code i : Nat))
    else (sortBy (fun i => [f32Key (x.reDist v i), ((x.node i).key : Int)]) cand).map fun i => (i, toF32 (x.reDist v i))
  ranked.take q.k
/-- The K result entries of a query in host memory: those found, then null entries (R458). -/
def SIndex.entries (x : SIndex) (q : Query) (out : List (Nat × Nat)) : Bytes :=
  (out.flatMap fun e => resultEntry (x.node e.1).key e.2 false (x.node e.1).side) ++
    (List.replicate (q.k - out.length) (resultEntry 0 0x7F7FFFFF true false)).flatten
/-- Probes that selection work has delayed are counted: none while no row runs, else a free number of those made (R461, R463; log
entry 2). -/
def Dev.selWaits (d : Dev) (probes : Nat) : Dev :=
  if d.noGroupRuns then d
  else
    let (v, d) := d.draw
    d.sat F.SFT_CNT2_SEL_WAITS (v % (probes + 1))
/-- A query of an index runs (R456 to R458). -/
def Dev.query (d : Dev) (h : Hdr) (x : SIndex) (res : Nat) (q : Query) (v : List Rat) : Res :=
  let s := x.probe q (x.code v)
  let out := x.found q v
  let d := d.selWaits s.probes
  let d := ((d.emit (.host h.fn res (x.entries q out))).wrap F.SFT_CNT0_QUERIES 1).wrap F.SFT_CNT2_PROBES s.probes
  let d := if s.widened then d.sat F.SFT_CNT1_WIDENED 1 else d
  let d := if out.length < q.k then d.sat F.SFT_CNT1_PARTIAL 1 else d
  { dev := d
    st := if out.length < q.k then .partialDone else .ok
    result := leBytes 4 s.probes ++ leBytes 2 out.length ++ leBytes 1 (b2n s.widened) }
/-- SIFT_QUERY: the vector as read from host memory (R456 to R458). -/
def execSiftQuery (h : Hdr) (handle : Nat) (widen : Bool) (vec : Bytes)
    (res all any k ef maxProbes rerank widenProbes fmt : Nat) : State → Host.Outcome State Fault Refusal :=
  onDev fun _ d =>
    let ok := vecFmtOk fmt && 1 ≤ k && k ≤ 1024 && k ≤ ef && ef ≤ 4096 && 1 ≤ maxProbes &&
      (rerank == 0 || (k ≤ rerank && rerank ≤ 4096)) &&
      (!widen || (1 ≤ widenProbes && widenProbes ≤ d.g F.SFT_CTL_WIDEN_MAX))
    d.command h 0x0503 (d.mayIndex h.fn handle false) ok true fun d => d.needs [F.SFT_CTL_EN] fun d =>
      match d.sindex handle with
      | none => d.res .staleGen
      | some x => match readVec fmt x.dim vec with
        | none => d.res .badParam
        | some v =>
          d.query h x res
            { all := all
              any := any
              k := k
              ef := ef
              maxProbes := maxProbes
              rerank := rerank
              widen := if widen then some widenProbes else none } v

/-- SIFT_MERGE starts a merge (R459). -/
def execSiftMerge (h : Hdr) (handle : Nat) : State → Host.Outcome State Fault Refusal :=
  onDev fun _ d =>
    d.command h 0x0504 (d.mayIndex h.fn handle false) true false fun d => d.needs [F.SFT_CTL_EN] fun d =>
      match d.sindex handle with
      | none => d.res .staleGen
      | some x =>
        if x.merging.isSome then d.res .busy
        else d.onEngine handle fun _ d => ((d.awaitIndex handle).setIndex handle (x.startMerge h.hseq)).res .ok

/-- The `n` nearest of a set to a node, itself not among them. -/
def SIndex.nearTo (x : SIndex) (i n : Nat) (s : List Nat) : List Nat := x.best (x.node i).code n (s.filter (· != i))
/-- Pass 1 of a merge: a side node is linked (R460). -/
def SIndex.link (x : SIndex) (i : Nat) : SIndex :=
  let s := x.loop (x.node i).code x.efBuild 0 none (fun _ => true) (x.nodesMax + 2)
    { pool := x.entry
      beam := x.entry
      limit := x.nodesMax + 1 }
  let near := x.nearTo i x.degree (s.pool.filter fun j => NMap.has x.nodes j && !(x.node j).tomb)
  let nodes := NMap.upd x.nodes i fun n => { n with nbrs := near, side := false }
  let y := { x with nodes := nodes, side := x.side.erase i }
  near.foldl (fun (y : SIndex) j =>
    { y with nodes := NMap.upd y.nodes j fun n => { n with nbrs := y.nearTo j y.degree (newIn [] (n.nbrs ++ [i])) } }) y
/-- Pass 2 of a merge: the edges of a record to tombstoned nodes are replaced (R460). -/
def SIndex.repair (dead : List Nat) (x : SIndex) (i : Nat) : SIndex :=
  let n := x.node i
  let gone := n.nbrs.filter dead.contains
  if gone.isEmpty then x
  else
    let live := n.nbrs.filter fun j => !dead.contains j
    let more := (gone.flatMap fun t => (x.node t).nbrs).filter fun j => NMap.has x.nodes j && !(x.node j).tomb
    { x with nodes := NMap.upd x.nodes i fun n => { n with nbrs := x.nearTo i x.degree (live ++ newIn live more) } }
/-- The three passes of a merge over the side nodes and tombstones that it took (R460). -/
def SIndex.passes (x : SIndex) (taken dead : List Nat) : SIndex :=
  let x := taken.foldl SIndex.link x
  let x := (NMap.keys x.nodes).foldl (SIndex.repair dead) x
  let live := (x.nodes.filter fun e => !e.2.tomb).map (·.1)
  let entry := if live.isEmpty then [] else newIn [] ((List.range 16).map fun i => live.getD (i * live.length / 16) 0)
  { x with
    entry := entry
    nodes := x.nodes.filter fun e => !dead.contains e.1 }
/-- A merge ends: the records are those that its passes made of the nodes that it took; nodes inserted meanwhile stay in the side list,
and ones tombstoned meanwhile are tombstones for the next merge, which starts at once if it is due (R459, R460). -/
def SIndex.merge (x : SIndex) (m : SMerge) : SIndex :=
  let r := { x with nodes := m.nodes, side := m.side }.passes m.side m.dead
  let nodes := (x.nodes.filter fun e => !m.dead.contains e.1).map fun e => match NMap.get? r.nodes e.1 with
    | some n => (e.1, { n with tomb := e.2.tomb })
    | none => e
  let x := { x with
    nodes := nodes
    side := x.side.filter fun i => !m.side.contains i
    entry := r.entry
    merging := none }
  if x.mergeDue then x.startMerge else x

/-- MERGE_DONE: the merge of an index ends (R459, R460). -/
def execMergeDone (handle : Nat) : State → Host.Outcome State Fault Refusal :=
  onDev fun _ d => match d.sindex handle with
    | none => d
    | some x => match x.merging with
      | none => d
      | some t =>
        let d := (((d.awaitIndex handle).setIndex handle (x.merge t)).sat F.SFT_CNT1_MERGES 1).selWaits 0xFFFF
        d.post x.fn x.eq { typ := 0x0E, subject := handle, hseq := x.mergeHseq, args := [t.side.length, t.dead.length] }

/-- The bytes of an index as a shard holds them: parameters, records, codes, SQ8 vectors and side list, in the order of
R450 to R452 (R556). -/
def SIndex.bytes (x : SIndex) : Bytes :=
  let node (i : Nat) : SNode := x.node i
  let ids := List.range (((NMap.keys x.nodes).getLast?.map (· + 1)).getD 0)
  let rec' (i : Nat) : Bytes :=
    let n := node i
    pack 32 [⟨0, 0, 64, n.key⟩, ⟨8, 0, 64, n.tags⟩, ⟨0x10, 0, 1, b2n (NMap.has x.nodes i)⟩, ⟨0x10, 1, 1, b2n n.tomb⟩,
      ⟨0x10, 2, 1, b2n n.side⟩, ⟨0x10, 8, 7, n.nbrs.length⟩] ++
      (List.range x.degree).flatMap fun j => leBytes 4 (n.nbrs.getD j 0xFFFFFFFF)
  let head := pack 32
    [⟨0, 0, 16, x.dim⟩, ⟨0, 16, 8, x.degree⟩, ⟨0, 24, 1, b2n x.ip⟩, ⟨0, 32, 32, x.nodesMax⟩, ⟨8, 0, 32, x.sideMax⟩,
     ⟨8, 32, 32, x.sideMerge⟩, ⟨0x10, 0, 32, x.efBuild⟩, ⟨0x10, 32, 32, ids.length⟩, ⟨0x18, 0, 32, x.side.length⟩,
     ⟨0x18, 32, 32, x.entry.length⟩]
  head ++ writeElems 32 (x.centres ++ x.scales ++ x.entry) ++ ids.flatMap rec' ++
    ids.flatMap (fun i => leBytes (x.dim / 8) (node i).code) ++
    ids.flatMap (fun i => (node i).sq8.flatMap fun q => leBytes 1 (unsigned 8 q)) ++ writeElems 32 x.side

end Sys2Proof.Machine
end

