-- ==== Sys2Proof/Machine/Ckpt.lean ====
section
/-! DEFINITION. Checkpoints: the cut, shards and their mirrors, the manifest, generations, the end of a checkpoint
(R544 to R559). -/
namespace Sys2Proof.Machine
open Sys2Proof

/-! ## What a cut captures (R544, R551, R556) -/

/-- The used part of a grammar area: header, stack cells, undo entries (R306, R551). -/
def GArea.bytes (a : GArea) (strs : List Bytes) : Bytes :=
  let excl (i : Nat) : List Put := match a.excl[i]? with
    | some e => [⟨8 + 8 * i, 0, 23, e.1⟩, ⟨8 + 8 * i, 23, 1, 1⟩, ⟨8 + 8 * i, 24, 20, e.2⟩]
    | none => []
  let undo (u : Undo) : Bytes :=
    pack 16 [⟨0, 0, 20, u.state⟩, ⟨0, 20, 13, u.stack.length⟩, ⟨0, 33, 16, Config.matcherCode strs u.tail⟩, ⟨8, 0, 32, u.text⟩,
      ⟨8, 32, 8, u.cells.length⟩] ++
      padTo 64 (u.cells.flatMap fun c => pack 8 [⟨0, 0, 12, c.1⟩, ⟨0, 22, 22, c.2⟩])
  pack 64 ([⟨0, 0, 20, a.state⟩, ⟨0, 20, 13, a.stack.length⟩, ⟨0, 33, 7, a.undo.length⟩, ⟨0, 40, 6, a.undoHead % 64⟩] ++
      (List.range 3).flatMap excl) ++
    a.stack.reverse.flatMap (leBytes 4) ++ a.undo.flatMap undo
/-- A session as the cut captures it (R551, R553). -/
def Dev.capture (d : Dev) (p : CkpProg) (slot : Nat) : Capture :=
  let x := d.sess slot
  let hot := x.d.tier == .hot && x.d.state != .reviving
  let ctx := (d.turnCtx slot).map d.ctx
  { sid := x.d.sid
    cCut := x.d.committed
    hCut := x.d.histLen
    hot := hot
    desc := x.d.bytes
    ctx := ctx.map Ctx.bytes
    grammar := if x.area then some ((d.garea slot).bytes (NMap.getD d.tok.stops x.d.stopSet {}).strs) else none
    sess := x
    context := ctx
    area := if x.area then some (d.garea slot) else none
    hist := x.hist
    todo := if hot then (x.pt.map (·.1)).filter fun k => k % 65536 * 64 < x.d.committed else []
    index := if p.indexes && x.d.siftIndex != 0 then (d.sindex x.d.siftIndex).map fun i => (x.d.siftIndex, i) else none
    indexTodo := p.indexes && x.d.siftIndex != 0
    tail := NMap.getD d.tok.tails slot [] }
/-- The bytes of a session entry (R556). -/
def Dev.entryBytes (d : Dev) (m : Memory) (p : CkpProg) (c : Capture) : Bytes :=
  let flags := [⟨0x10, 0, 1, b2n c.hot⟩, ⟨0x10, 1, 1, b2n c.ctx.isSome⟩, ⟨0x10, 2, 1, b2n c.grammar.isSome⟩,
    ⟨0x10, 3, 1, b2n c.index.isSome⟩]
  let head := padTo 0x100 (pack 24 (([⟨0, 0, 64, c.sid⟩, ⟨8, 0, 23, c.cCut⟩, ⟨8, 23, 23, c.hCut⟩] : List Put) ++ flags)) ++
    c.desc ++ padTo 64 (c.ctx.getD []) ++ c.grammar.getD []
  let pages := if c.hot then d.imageBody c.sess (p.mx4 && !(d.prof c.sess).splitKv) (d.pageOf m c.sess) else []
  let index := match c.index with
    | some (_, i) => padUp 16384 i.bytes
    | none => []
  padUp 16384 head ++ padUp 16384 (c.hist.flatMap (leBytes 4)) ++ pages ++ index
/-- A shard whole: header page and session entries (R556). -/
def shardBytes (manifest row ctrl die : Nat) (mx4 : Bool) (sessions : Nat) (body : Bytes) : Bytes :=
  padTo 16384 (pack 0x28
    [⟨0, 0, 32, 0x51534844⟩, ⟨0, 32, 16, 1⟩, ⟨8, 0, 64, manifest⟩, ⟨0x10, 0, 48, row⟩, ⟨0x18, 0, 16, ctrl⟩,
     ⟨0x18, 16, 1, die⟩, ⟨0x18, 17, 1, b2n mx4⟩, ⟨0x18, 32, 32, sessions⟩, ⟨0x20, 0, 64, body.length⟩] ++
    padTo 48 (Config.sha384 body)) ++ body
/-- The buddy of this controller, or 0 (R334, R525). -/
def Dev.buddyOf (d : Dev) : Nat := ((d.own.buddies.find? fun e => e.1 == d.self).map (·.2)).getD 0
/-- An object is mirrored to a controller: opened, written in SENDs of at most 1 MiB, sealed (R558). -/
def Dev.sendMirror (d : Dev) (dst g manifest row flags : Nat) (obj : Bytes) : Dev :=
  let d := d.send dst svcCkpt (ckptMsg 6 0 0 (d.gid g) manifest row flags 0 obj.length [])
  let d := (List.range (ceilDiv obj.length 1048512)).foldl (fun (d : Dev) i =>
    let piece := slice obj (1048512 * i) 1048512
    d.sendBulk dst svcCkpt (ckptMsg 7 0 0 (d.gid g) manifest row flags (1048512 * i) piece.length piece)) d
  d.send dst svcCkpt (ckptMsg 8 0 0 (d.gid g) manifest row flags 0 48 (padTo 48 (Config.sha384 obj)))

/-- The shard of one die is created and its bytes go to the hamper; none if they cannot be reserved (R546, R551, R553). -/
def Dev.cutDie (d : Dev) (m : Memory) (g row : Nat) (p : CkpProg) (die : Nat) : Option Dev :=
  let slots := (d.ses.tab.filter fun e => slotDie e.1 == die && e.2.d.group == g && d.serving e.1 &&
    e.2.d.state != .free && e.2.d.state != .closed).map (·.1)
  let caps := slots.map (d.capture p)
  let body := caps.flatMap (d.entryBytes m p)
  let obj := shardBytes p.manifest row d.self die p.mx4 caps.length body
  match d.createObj die 5 p.manifest 0 (ceilDiv obj.length 16384) with
  | none => none
  | some (hd, d) =>
    let d := ((caps.filter (·.hot)).foldl (fun (d : Dev) c => match d.slotOf c.sid with
      | some s => d.heatSession s
      | none => d) d).writeObj hd 0 obj
    let want := p.mirror && d.buddyOf != 0
    let s : Shard :=
      { manifest := p.manifest
        row := row
        ctrl := d.self
        die := die
        handle := hd
        caps := caps
        wantMirror := want
        info :=
          { ctrl := d.self
            die := die
            buddy := if want then d.buddyOf else 0
            row := row
            size := body.length
            sessions := caps.length
            digest := padTo 48 (Config.sha384 body) } }
    let d := { d with ckp := { d.ckp with shards := d.ckp.shards ++ [s] } }
    some (if want then d.sendMirror d.buddyOf g p.manifest row (p.flags + 8 * die) obj else d)
/-- Whatever this controller holds of a manifest's shards is released, and the mirrors of them at the buddy (R545, R552). -/
def Dev.dropShards (d : Dev) (g manifest : Nat) : Dev :=
  let mine := d.ckp.shards.filter fun s => s.manifest == manifest && s.ctrl == d.self
  let d := mine.foldl (fun (d : Dev) s => d.askRelease s.handle) d
  let d := if mine.any (·.wantMirror) then d.send d.buddyOf svcCkpt (ckptMsg 13 0 0 (d.gid g) manifest 0 0 0 0 []) else d
  { d with ckp := { d.ckp with shards := d.ckp.shards.filter fun s => !(s.manifest == manifest && s.ctrl == d.self) } }
/-- The cut at a boundary: its result for the report, if one is due there (R551). -/
def Dev.takeCut (d : Dev) (m : Memory) (g row : Nat) : Dev × Option Bool :=
  match d.prog g with
  | none => (d, none)
  | some p =>
    if p.cutRow ≠ row ∨ p.cutTaken then (d, none)
    else match (d.cutDie m g row p 0).bind fun d => d.cutDie m g row p 1 with
      | some d =>
        let q := { p with
          cutTaken := true
          cutWall := d.wall
          cutMono := d.now
          writeBy := some (d.now + d.seen g F.CKP_CFG_WRITE_S * 1000000000) }
        (d.setProg g q, some true)
      | none => (d, some false)

/-! ## The end of a checkpoint (R545, R552, R557, R559) -/

/-- CKPT_DONE is posted where the checkpoint was asked for (R559). -/
def Dev.postCkpt (d : Dev) (p : CkpProg) (st : Status) (cause bytes sessions : Nat) : Dev :=
  if !p.origin then d
  else d.post p.fn p.eq
    { typ := 0x23
      subject := p.manifest
      status := st.code
      cause := cause
      hseq := p.hseq
      args := [p.cutRow, p.manifest % 2 ^ 32, bytes, sessions] }
/-- A generation in progress ends here without becoming valid (R552, R559). -/
def Dev.dropProg (d : Dev) (g : Nat) (st : Status) (cause : Nat) : Dev :=
  match d.prog g with
  | none => d
  | some p =>
    let d := ((d.dropShards g p.manifest).endProg g).sat F.CKP_CNT_FAILED 1
    let d := if p.manifestHandle = 0 then d else d.askRelease p.manifestHandle
    d.postCkpt p st cause 0 0
/-- Status of a failure's cause (R559). -/
def ckptStatus (cause : Nat) : Status := if cause = 6 then .noSpace else .fault
/-- The timekeeper fails a checkpoint: ABORT goes to every controller (R552). -/
def Dev.failCkpt (d : Dev) (g cause : Nat) : Dev :=
  match d.prog g with
  | none => d
  | some p => (d.ckptAll g 12 cause 0 p.manifest p.cutRow p.flags).dropProg g (ckptStatus cause) cause
/-- Sessions and bytes of a generation. -/
def Manifest.total (x : Manifest) (f : ShardInfo → Nat) : Nat := (x.shards.map f).foldl (· + ·) 0
/-- One 80-byte entry of a manifest (R557). -/
def ShardInfo.bytes (s : ShardInfo) : Bytes :=
  pack 32 [⟨0, 0, 16, s.ctrl⟩, ⟨0, 16, 1, s.die⟩, ⟨0, 32, 16, s.buddy⟩, ⟨8, 0, 48, s.row⟩, ⟨0x10, 0, 64, s.size⟩,
    ⟨0x18, 0, 32, s.sessions⟩] ++ padTo 48 s.digest
/-- The entry that 80 bytes spell (R557). -/
def ShardInfo.ofBytes (b : Bytes) : ShardInfo :=
  { ctrl := fieldAt b 0 0 16
    die := fieldAt b 0 16 1
    buddy := fieldAt b 0 32 16
    row := fieldAt b 8 0 48
    size := fieldAt b 0x10 0 64
    sessions := fieldAt b 0x18 0 32
    digest := slice b 0x20 48 }
/-- The bytes of a manifest (R557). -/
def Manifest.bytes (x : Manifest) : Bytes :=
  let head := pack 0x30 [⟨0, 0, 32, 0x514D4E46⟩, ⟨0, 32, 16, 1⟩, ⟨8, 0, 64, x.id⟩, ⟨0x10, 0, 48, x.row⟩, ⟨0x18, 0, 64, x.time⟩,
    ⟨0x20, 0, 32, x.mapEpoch⟩, ⟨0x20, 32, 32, x.tkEpoch⟩, ⟨0x28, 0, 8, x.shards.length⟩, ⟨0x28, 8, 3, x.flags⟩]
  let body := x.shards.flatMap ShardInfo.bytes
  head ++ padTo 48 (Config.sha384 (padTo 128 head ++ body)) ++ List.replicate 32 0 ++ body
/-- The manifest that bytes spell, and whether its digest verifies (R557). -/
def Manifest.ofBytes (b : Bytes) : Manifest :=
  { id := fieldAt b 8 0 64
    row := fieldAt b 0x10 0 48
    time := fieldAt b 0x18 0 64
    mapEpoch := fieldAt b 0x20 0 32
    tkEpoch := fieldAt b 0x20 32 32
    flags := fieldAt b 0x28 8 3
    shards := (List.range (fieldAt b 0x28 0 8)).map fun i => ShardInfo.ofBytes (slice b (128 + 80 * i) 80)
    digestOk := padTo 48 (Config.sha384 (padTo 128 (b.take 0x30) ++ b.drop 128)) == slice b 0x30 48 }
/-- A generation is valid: its cut is that of the last valid generation, and what is held of the one three before it is released:
shards, manifest and mirrors (R545, R547). -/
def Dev.commitGen (d : Dev) (g manifest row : Nat) : Dev :=
  let d := match d.prog g with
    | some p =>
      if p.manifest = manifest ∧ p.cutTaken then { d with ckp := { d.ckp with lastCut := NMap.put d.ckp.lastCut g p.cutMono } } else d
    | none => d
  let d := (d.si F.CKP_GRP_GEN_LAST g (manifest % 2 ^ 32)).si F.CKP_GRP_ROW_ROW g row
  let old := manifest - 3
  let d := d.dropShards g old
  let gone := ((NMap.getD d.ckp.valid g []).filter fun x => x.id == old)
  let d := gone.foldl (fun (d : Dev) x => if x.handle = 0 then d else d.askRelease x.handle) d
  let d := if gone.isEmpty then d else d.send (d.deputy g) svcCkpt (ckptMsg 13 0 0 (d.gid g) old 0 0 0 0 [])
  ({ d with ckp := { d.ckp with valid := NMap.put d.ckp.valid g ((NMap.getD d.ckp.valid g []).filter fun x => x.id != old) } }).sat
    F.CKP_CNT_DONE 1

/-! ## Commands and messages (R547 to R552, R555, R557, R558) -/

/-- CKPT_BEGIN, with its request block as read from host memory (R548). -/
def execCkptBegin (h : Hdr) (req : Bytes) : State → Host.Outcome State Fault Refusal :=
  onDev fun _ d =>
    let gid := leAt req 0 4
    let ok := req.length == 32 && fieldAt req 0 35 29 == 0 && fieldAt req 8 48 16 == 0 && leAt req 0x10 16 == 0
    d.command h 0x0801 (fromZero h) ok true fun d => d.needs [F.CKP_CTL_EN, F.HMP_CTL_EN] fun d =>
      match d.groupOf gid with
      | none => d.res .badParam
      | some g =>
        if (d.prog g).isSome ∨ NMap.has d.ckp.fwd g then d.res .busy
        else if d.isTk g then
          let (d, p) := d.startCkpt g (fieldAt req 0 32 3) (fieldAt req 8 0 48) true h.fn h.eq h.hseq
          { dev := d, result := leBytes 8 p.manifest }
        else
          let d := d.send (d.tk g) svcCkpt (ckptMsg 2 0 0 gid 0 0 (fieldAt req 0 32 3) 0 0 req)
          { dev := { d with ckp := { d.ckp with fwd := NMap.put d.ckp.fwd g (h.fn, h.ring, h.eq, h.hseq) } }
            later := true }

/-- CKPT_PERIOD: PERIOD_S has passed at the timekeeper since the cut of the last valid generation (R547). -/
def execCkptPeriod (g : Nat) : State → Host.Outcome State Fault Refusal :=
  onUnit (g < 64) fun _ d =>
    let period := d.seen g F.CKP_CFG_PERIOD_S
    if d.gid g = 0 ∨ !d.isTk g ∨ period = 0 ∨ !d.on F.CKP_CTL_EN ∨ !d.on F.CKP_CTL_AUTO_EN ∨ !bitOf (d.g F.CKP_TRIG_MASK) 0 then d
    else (d.reach (NMap.getD d.ckp.lastCut g 0 + period * 1000000000)).autoCkpt g

/-- The timekeeper of a group that it names by its group id acts on a checkpoint message; any other message is resolved
BAD_PARAM (R558). -/
def Dev.asTk (d : Dev) (src gid : Nat) (f : Nat → Dev → Dev) : Dev :=
  match d.groupOf gid with
  | some g => if d.isTk g && d.on F.CKP_CTL_EN then (f g d).resolve src svcCkpt .ok else d.resolve src svcCkpt .badParam
  | none => d.resolve src svcCkpt .badParam
/-- CKPT_REQUEST: an early warning reaches the timekeeper (R547). -/
def execCkptRequest (src gid : Nat) : State → Host.Outcome State Fault Refusal :=
  onDev fun _ d => d.asTk src gid fun g d => if d.on F.CKP_CTL_AUTO_EN then d.autoCkpt g else d.sat F.CKP_CNT_SKIPPED 1

/-- BEGIN_FWD: a CKPT_BEGIN taken at another controller (R548). -/
def execBeginFwd (src gid : Nat) (req : Bytes) : State → Host.Outcome State Fault Refusal :=
  onDev fun _ d => d.asTk src gid fun g d =>
    if (d.prog g).isSome then d.send src svcCkpt (ckptMsg 3 0 Status.busy.code gid 0 0 0 0 0 [])
    else
      let (d, p) := d.startCkpt g (fieldAt req 0 32 3) (fieldAt req 8 0 48) false 0 0xFFFF 0
      d.send src svcCkpt (ckptMsg 3 0 0 gid p.manifest p.cutRow p.flags 0 0 [])

/-- The status of a code, of those that a checkpoint message carries. -/
def statusOf (code : Nat) : Status :=
  if code = 0 then .ok else if code = 0x20 then .noSpace else if code = 0x10 then .busy else if code = 0x51 then .digestFail
  else if code = 0x70 then .badParam else .fault
/-- BEGIN_REPLY: the timekeeper has answered a forwarded CKPT_BEGIN (R548). -/
def execBeginReply (src gid status manifest cutRow : Nat) : State → Host.Outcome State Fault Refusal :=
  onDev fun _ d => match d.groupOf gid with
    | none => d.resolve src svcCkpt .badParam
    | some g => match NMap.get? d.ckp.fwd g with
      | none => d.resolve src svcCkpt .ok
      | some (fn, ring, eq, hseq) =>
        let d := { d with ckp := { d.ckp with fwd := NMap.del d.ckp.fwd g } }
        let d := if status = 0 then
            let p := (d.prog g).getD { manifest := manifest, cutRow := cutRow }
            let p := { p with
              origin := true
              fn := fn
              eq := eq
              hseq := hseq }
            if p.manifest = manifest then d.setProg g p else d
          else d
        let x : Res := if status = 0 then { dev := d, result := leBytes 8 manifest } else { dev := d, st := statusOf status }
        (x.answer fn ring).resolve src svcCkpt .ok

/-- PREPARE: the cut row is recorded and PREPARED answered (R549, R550). -/
def execPrepare (src gid manifest cutRow flags : Nat) : State → Host.Outcome State Fault Refusal :=
  onDev fun _ d => match d.groupOf gid with
    | none => d.resolve src svcCkpt .badParam
    | some g =>
      let answer (d : Dev) (st : Status) : Dev :=
        (d.send src svcCkpt (ckptMsg 5 0 st.code gid manifest cutRow flags 0 0 [])).resolve src svcCkpt .ok
      if src ≠ d.tk g then d.resolve src svcCkpt .denied
      else match d.prog g with
        | some p =>
          if p.manifest ≠ manifest then answer d .noSpace
          else answer (d.setProg g { p with
            cutRow := if p.cutTaken then p.cutRow else cutRow
            mx4 := bitOf flags 0
            indexes := bitOf flags 1
            mirror := bitOf flags 2 }) .ok
        | none =>
          if !d.on F.CKP_CTL_EN then answer d .noSpace
          else
            let p : CkpProg :=
              { manifest := manifest
                cutRow := cutRow
                mx4 := bitOf flags 0
                indexes := bitOf flags 1
                mirror := bitOf flags 2 }
            let d := { d with ckp := { d.ckp with lastGen := NMap.put d.ckp.lastGen g (manifest % 2 ^ 32) } }
            answer (d.setProg g p) .ok

/-- PREPARED: the timekeeper collects an answer; a refusal fails the checkpoint (R549, R552, R559). -/
def execPrepared (src gid manifest status : Nat) : State → Host.Outcome State Fault Refusal :=
  onDev fun _ d => d.asTk src gid fun g d =>
    match d.prog g with
    | some p =>
      if p.manifest ≠ manifest ∨ !p.timekeeper then d
      else if status ≠ 0 then d.failCkpt g 6
      else d.setProg g { p with prepared := if p.prepared.contains src then p.prepared else p.prepared ++ [src] }
    | none => d

/-- The mirror of an object that a message names. -/
def ckptKey (x : CkpMirror) (sender manifest flags : Nat) : Bool :=
  x.sender == sender && x.manifest == manifest && x.die == bits flags 3 1 && x.isManifest == bitOf flags 4
/-- The mirrors with one changed. -/
def Dev.updCkptMirror (d : Dev) (src manifest flags : Nat) (f : CkpMirror → CkpMirror) : Dev :=
  { d with ckp := { d.ckp with mirrors := d.ckp.mirrors.map fun x => if ckptKey x src manifest flags then f x else x } }
/-- ACK of SHARD_OPEN or SHARD_SEAL (R558). -/
def Dev.ckptAck (d : Dev) (dst gid manifest flags : Nat) (st : Status) : Dev :=
  d.send dst svcCkpt (ckptMsg 9 0 st.code gid manifest 0 flags 0 0 [])
/-- SHARD_OPEN: the mirror of a shard or of a manifest is created (R558). -/
def execShardOpen (src gid manifest flags length : Nat) : State → Host.Outcome State Fault Refusal :=
  onDev fun _ d =>
    if d.ckp.mirrors.any fun x => ckptKey x src manifest flags then
      (d.ckptAck src gid manifest flags .dup).resolve src svcCkpt .ok
    else match d.createObj (bits flags 3 1) 5 manifest 0 (ceilDiv length 16384) with
      | none => (d.ckptAck src gid manifest flags .noSpace).resolve src svcCkpt .ok
      | some (hd, d) =>
        let x : CkpMirror :=
          { manifest := manifest
            sender := src
            die := bits flags 3 1
            isManifest := bitOf flags 4
            handle := hd
            length := length }
        let d := { d with ckp := { d.ckp with mirrors := d.ckp.mirrors ++ [x] } }
        (d.ckptAck src gid manifest flags .ok).resolve src svcCkpt .ok

/-- SHARD_DATA: bytes of a mirror (R558). -/
def execShardData (src manifest flags offset : Nat) (data : Bytes) : State → Host.Outcome State Fault Refusal :=
  onDev fun _ d =>
    match d.ckp.mirrors.find? fun x => ckptKey x src manifest flags with
    | none => d.resolve src svcCkpt .badParam
    | some x =>
      if x.length < offset + data.length ∨ x.sealed then d.resolve src svcCkpt .badParam
      else
        let d := d.writeObj x.handle offset data
        (d.updCkptMirror src manifest flags fun x => { x with data := padTo offset x.data ++ data ++ x.data.drop (offset + data.length) }).resolve
          src svcCkpt .ok

/-- SHARD_SEAL: a mirror is durable and its digest verified before it is acknowledged (R558). -/
def execShardSeal (src gid manifest flags : Nat) (digest : Bytes) : State → Host.Outcome State Fault Refusal :=
  onDev fun _ d =>
    match d.ckp.mirrors.find? fun x => ckptKey x src manifest flags with
    | none => d.resolve src svcCkpt .badParam
    | some x =>
      if x.data.length ≠ x.length ∨ padTo 48 (Config.sha384 x.data) ≠ digest then
        (d.ckptAck src gid manifest flags .digestFail).resolve src svcCkpt .ok
      else
        ((d.updCkptMirror src manifest flags fun x => { x with sealed := true }).ackCkptSeals).resolve src svcCkpt .ok

/-- CKPT_ACK: the status of a mirror reaches its sender; the first acknowledgement is of SHARD_OPEN (R558). -/
def execCkptAck (src gid manifest flags status : Nat) : State → Host.Outcome State Fault Refusal :=
  onDev fun _ d =>
    let d := d.resolve src svcCkpt .ok
    match d.groupOf gid with
    | none => d
    | some g =>
      if status ≠ 0 ∧ status ≠ Status.dup.code then d
      else if bitOf flags 4 then
        (match d.prog g with
         | some p =>
           if p.manifest ≠ manifest ∨ !p.manifestWritten then d
           else d.setProg g (if p.manifestOpened then { p with manifestMirrored := true } else { p with manifestOpened := true })
         | none => d)
      else
        { d with ckp := { d.ckp with shards := d.ckp.shards.map fun s =>
          if s.manifest == manifest && s.ctrl == d.self && s.die == bits flags 3 1 && s.wantMirror then
            (if s.opened then { s with mirrored := true } else { s with opened := true })
          else s } }

/-- The timekeeper holds the SHARD_DONE of a controller; with all of them it writes the manifest and mirrors it, or fails the
checkpoint where the manifest cannot be reserved (R552, R557; log entry 45). -/
def Dev.takeDone (d : Dev) (g src : Nat) (xs : List ShardInfo) : Dev :=
  match d.prog g with
  | none => d
  | some p =>
    let p := { p with dones := NMap.put p.dones src xs }
    let all := (d.group g).ctrls.all (NMap.has p.dones)
    if !all || p.manifestWritten then d.setProg g p
    else
      let x : Manifest :=
        { id := p.manifest
          row := p.cutRow
          time := p.cutWall
          mono := d.now
          mapEpoch := d.own.current
          tkEpoch := d.tkEpoch g
          flags := p.flags
          shards := (d.group g).ctrls.flatMap fun c => NMap.getD p.dones c [] }
      match d.createObj 0 5 p.manifest 0 (ceilDiv x.bytes.length 16384) with
      | none => (d.setProg g p).failCkpt g 6
      | some (hd, d) =>
        let d := (d.writeObj hd 0 x.bytes).setProg g { p with
          manifestWritten := true
          manifestHandle := hd
          pending := some { x with handle := hd } }
        if d.deputy g = d.self ∨ d.deputy g = 0 then d
        else d.sendMirror (d.deputy g) g p.manifest p.cutRow (p.flags + 16) x.bytes
/-- SHARD_DURABLE: both shards of a generation, and their mirrors if wanted, are durable; SHARD_DONE is sent (R555). -/
def execShardDurable (g : Nat) : State → Host.Outcome State Fault Refusal :=
  onUnit (g < 64) fun _ d =>
    match d.prog g with
    | none => d
    | some p =>
      let mine := d.ckp.shards.filter fun s => s.manifest == p.manifest && s.ctrl == d.self
      if !p.cutTaken ∨ p.sentDone ∨ !mine.all (fun s => d.objDurable s.handle && (!s.wantMirror || s.mirrored)) then d
      else
        let shards := d.ckp.shards.map fun s => if s.manifest == p.manifest && s.ctrl == d.self then
            { s with
              durable := true
              caps := s.caps.map fun c => { c with todo := [], histDone := true, indexTodo := false } }
          else s
        let d := ({ d with ckp := { d.ckp with shards := shards } }).setProg g { p with sentDone := true }
        let xs := mine.map (·.info)
        if d.isTk g then d.takeDone g d.self xs
        else d.send (d.tk g) svcCkpt (ckptMsg 10 0 0 (d.gid g) p.manifest p.cutRow p.flags 0 0 (xs.flatMap ShardInfo.bytes))

/-- SHARD_DONE: the timekeeper collects a controller's shards (R555, R557). -/
def execShardDone (src gid manifest : Nat) (entries : Bytes) : State → Host.Outcome State Fault Refusal :=
  onDev fun _ d => d.asTk src gid fun g d =>
    match d.prog g with
    | some p =>
      if p.manifest ≠ manifest ∨ !(d.group g).ctrls.contains src then d
      else d.takeDone g src [ShardInfo.ofBytes (slice entries 0 80), ShardInfo.ofBytes (slice entries 80 80)]
    | none => d

/-- MANIFEST_DURABLE: the manifest and its mirror are durable; the generation is valid, COMMIT_GEN is sent (R545, R557). -/
def execManifestDurable (g : Nat) : State → Host.Outcome State Fault Refusal :=
  onUnit (g < 64) fun _ d =>
    match d.prog g with
    | none => d
    | some p =>
      let alone := d.deputy g == d.self || d.deputy g == 0
      match p.pending with
      | none => d
      | some x =>
        if !d.objDurable p.manifestHandle ∨ (!alone && !p.manifestMirrored) then d
        else
          let d := { d with ckp := { d.ckp with
            valid := NMap.put d.ckp.valid g (x :: NMap.getD d.ckp.valid g [])
            lastCut := NMap.put d.ckp.lastCut g p.cutMono } }
          let d := (d.ckptAll g 11 0 0 p.manifest p.cutRow p.flags).commitGen g p.manifest p.cutRow
          (d.endProg g).postCkpt p .ok 0 (x.total (·.size)) (x.total (·.sessions))

/-- COMMIT_GEN: a generation is valid (R545, R557). Where the CKPT_BEGIN was taken at this controller, CKPT_DONE is posted:
COMMIT_GEN carries neither the bytes nor the sessions of all shards, which are free values there. -/
def execCommitGen (src gid manifest cutRow : Nat) : State → Host.Outcome State Fault Refusal :=
  onDev fun _ d => match d.groupOf gid with
    | none => d.resolve src svcCkpt .badParam
    | some g =>
      if src ≠ d.tk g then d.resolve src svcCkpt .denied
      else
        let d := d.commitGen g manifest cutRow
        let d := match d.prog g with
          | some p =>
            if p.manifest ≠ manifest then d
            else
              let (a, d) := d.draw
              let (b, d) := d.draw
              (d.endProg g).postCkpt p .ok 0 (a % 2 ^ 64) (b % 2 ^ 64)
          | none => d
        d.resolve src svcCkpt .ok

/-- CKPT_ABORT: a checkpoint has failed; its shards and mirrors are released (R552). -/
def execCkptAbort (src gid manifest cause : Nat) : State → Host.Outcome State Fault Refusal :=
  onDev fun _ d => match d.groupOf gid with
    | none => d.resolve src svcCkpt .badParam
    | some g =>
      if src ≠ d.tk g then d.resolve src svcCkpt .denied
      else
        let hit := (d.prog g).any fun p => p.manifest == manifest
        (if hit then d.dropProg g (ckptStatus cause) cause else d.dropShards g manifest).resolve src svcCkpt .ok

/-- SHARD_RELEASE: the mirrors of a manifest that a sender had made are released (R545, R558). -/
def execShardRelease (src manifest : Nat) : State → Host.Outcome State Fault Refusal :=
  onDev fun _ d =>
    let mine (x : CkpMirror) : Bool := x.sender == src && x.manifest == manifest
    let d := (d.ckp.mirrors.filter mine).foldl (fun (d : Dev) x => d.askRelease x.handle) d
    ({ d with ckp := { d.ckp with mirrors := d.ckp.mirrors.filter fun x => !mine x } }).resolve src svcCkpt .ok

/-- CKPT_BARRIER_TIMEOUT: CKPT_MS has passed without a beacon that carries CUT (R552). -/
def execCkptBarrierTimeout (g : Nat) : State → Host.Outcome State Fault Refusal :=
  onUnit (g < 64) fun _ d =>
    match (d.prog g).bind (·.barrier) with
    | some t => (d.reach t).failCkpt g 1
    | none => d

/-- CKPT_WRITE_TIMEOUT: WRITE_S has passed since the cut without every SHARD_DONE (R555). -/
def execCkptWriteTimeout (g : Nat) : State → Host.Outcome State Fault Refusal :=
  onUnit (g < 64) fun _ d =>
    match d.prog g with
    | some p => match p.writeBy with
      | some t => if p.timekeeper ∧ !(d.group g).ctrls.all (NMap.has p.dones) then (d.reach t).failCkpt g 3 else d
      | none => d
    | none => d

end Sys2Proof.Machine
end

