-- ==== Sys2Proof/Machine/Handoff.lean ====
section
/-! DEFINITION. Session ownership: leases, handoffs, reclaim, the hall directory, acting homes (R425 to R440). -/
namespace Sys2Proof.Machine
open Sys2Proof

/-! ## Names of ownership -/

/-- This controller is the home, or the acting home, of a session (R425, R440). -/
def Dev.isHome (d : Dev) (sid : Nat) : Bool := d.homeOf sid == d.self
/-- Lease expiry in ns (R67). -/
def Dev.expiryNs (d : Dev) : Nat := d.g F.TIM_LEASE_EXPIRY_MS * 1000000
/-- Renew period in ns (R67). -/
def Dev.renewNs (d : Dev) : Nat := d.g F.TIM_LEASE_RENEW_MS * 1000000
/-- What the home waits beyond the expiry: 1 ms for each second of it, at least 1 ms (R431). -/
def graceNs (expiry : Nat) : Nat := max 1000000 (expiry / 1000)
/-- An ownership message that names a session, an epoch and a controller (R432, R433). -/
def Dev.own1 (d : Dev) (dst kind sid epoch ctrl : Nat) (st : Status) : Dev :=
  d.send dst svcOwner (d.ownMsg kind st.code sid epoch ctrl 0 0 0 0 0 0 [])
/-- The periods of a lease message are this controller's (R68). -/
def Dev.samePeriods (d : Dev) (renew expiry : Nat) : Bool :=
  renew == d.g F.TIM_LEASE_RENEW_MS && expiry == d.g F.TIM_LEASE_EXPIRY_MS
/-- LEASE_MISMATCH (R68, R535). -/
def Dev.mismatch (d : Dev) (peer : Nat) : Dev := d.post0 { typ := 0x18, status := Status.badParam.code, args := [peer] }
/-- An event goes to partition 0 and to a session's partition (R430, R437). -/
def Dev.postBoth (d : Dev) (p : Nat) (e : Event) : Dev := let d := d.post0 e; if p = 0 then d else d.postP p e

/-! ## A copy of a session goes (R430, R434, R437, R449) -/

/-- An index bound to a session that leaves this controller stays, unbound (R449). -/
def Dev.unbindIndex (d : Dev) (slot : Nat) : Dev :=
  let i := indexKey (d.sess slot).d.siftIndex
  let d := match NMap.get? d.sft.idx i with
    | some x => if x.bind = (d.sess slot).d.sid ∧ x.bind ≠ 0 then
        { d with sft := { d.sft with idx := NMap.put d.sft.idx i { x with bind := 0 } } }
      else d
    | none => d
  d.updDesc slot fun x => { x with siftIndex := 0 }
/-- Pages, grammar area and tier work of a session are given up; frames go to the reclaim list. -/
def Dev.dropState (d : Dev) (slot : Nat) : Dev :=
  let d := (((d.abandonTier slot).dropPushes slot).dropTable slot).releaseArea slot
  let d := { d with tok := { d.tok with tails := NMap.del d.tok.tails slot } }
  (d.unbindIndex slot).updDesc slot fun x => { x with histAddr := 0 }
/-- Hamper objects of a session are released. -/
def Dev.dropObjects (d : Dev) (slot : Nat) (hist : Bool) : Dev :=
  let x := (d.sess slot).d
  let d := if x.imageHandle = 0 then d else d.askRelease x.imageHandle
  let d := if hist ∧ x.histHandle ≠ 0 then d.askRelease x.histHandle else d
  d.updDesc slot fun x => { x with
    imageHandle := 0
    imageValid := false
    imageMx4 := false
    histHandle := if hist then 0 else x.histHandle }
/-- The mirror that the buddy holds is released (R434 step 5). -/
def Dev.dropMirror (d : Dev) (slot : Nat) : Dev :=
  let x := (d.sess slot).d
  (if x.buddy = 0 then d else d.toBuddy slot 5 0 0 0 []).updDesc slot fun x => { x with mirrorValid := false }
/-- The handoffs with one changed. -/
def Dev.setOut (d : Dev) (sid : Nat) (o : HandOut) : Dev := d.updOwn fun w => { w with outs := NMap.put w.outs sid o }
/-- A slot that this controller held for another's session returns to FREE (R74, R430, R434). -/
def Dev.freeGuest (d : Dev) (slot : Nat) : Dev :=
  let x := (d.sess slot).d
  let d := (d.dropStops x.stopSet).slotBack slot (d.nextGen slot + 1)
  let d := d.dropLine slot
  let d := { d with
    ses := { d.ses with tab := NMap.del d.ses.tab slot }
    tok := { d.tok with areas := NMap.del d.tok.areas slot, tails := NMap.del d.tok.tails slot }
    iso := { d.iso with tallies := NMap.del d.iso.tallies slot } }
  d.updOwn fun o => { o with
    guests := NMap.del o.guests x.sid
    ownLeases := NMap.del o.ownLeases slot }
/-- A turn in progress ends here with FAULT_UNIT, since the session is no longer this controller's (R437). -/
def Dev.endTurnHere (d : Dev) (slot : Nat) : Dev :=
  match d.turnCtx slot with
  | some i =>
    let d := ((d.latch i 0x20).dropPushes slot).nullWork slot .staleGen
    d.finishTurn slot i (d.sess slot).d.lastRow
  | none => d
/-- A controller drops its copy of a session that it no longer owns (R430, R437). -/
def Dev.dropCopy (d : Dev) (slot : Nat) : Dev :=
  let x := d.sess slot
  let d := d.endTurnHere slot
  let d := (d.endOut x.d.sid).updOwn fun o => { o with moves := o.moves.filter fun e => e.1 != x.d.sid }
  let d := (((d.dropState slot).dropObjects slot true).unbindGrammar slot).freeGuest slot
  if d.noGroupRuns then d.reclaimFrames.reclaimBlocks else d
/-- A session's state at the home after it has left: the record stays, its pages do not (R427, R434 step 5). -/
def Dev.leaveHome (d : Dev) (slot : Nat) : Dev :=
  let x := d.sess slot
  let d := (((d.dropMirror slot).dropState slot).dropObjects slot false).unbindGrammar slot
  let d := (d.updSess slot fun y => { y with
    tierCtx := none
    d := { y.d with state := x.prevState, tier := x.prevTier, ctxValid := false, committed := x.d.committed } }).idleStart slot
  if d.noGroupRuns then d.reclaimFrames.reclaimBlocks else d

/-! ## The source: notice and abort (R434 step 5, R435) -/

/-- The former owner keeps a forwarding entry (R434 step 5). -/
def Dev.addForward (d : Dev) (sid target epoch : Nat) : Dev :=
  let ends := d.now + max (d.g F.TIM_LEASE_DRAIN_MS) (d.g F.TIM_LEASE_EXPIRY_MS) * 1000000
  d.updOwn fun o => { o with forwards := o.forwards.filter (fun f => f.1 != sid) ++ [(sid, target, epoch, ends)] }
/-- The handoff has been committed: the source lets the session go (R434 step 5, R449). -/
def Dev.noticeOut (d : Dev) (slot target epoch : Nat) : Dev :=
  let sid := (d.sess slot).d.sid
  let d := (d.endOut sid).updOwn fun o => { o with moves := o.moves.filter fun e => e.1 != sid }
  let d := d.addForward sid target epoch
  if d.isHome sid then d.leaveHome slot
  else
    let d := (((d.dropMirror slot).dropState slot).dropObjects slot true).unbindGrammar slot
    let d := d.freeGuest slot
    if d.noGroupRuns then d.reclaimFrames.reclaimBlocks else d
/-- The source's handoff ends without a commit: the session returns to its previous state (R87, R435). -/
def Dev.abortOut (d : Dev) (slot : Nat) : Dev :=
  let x := d.sess slot
  let d := d.endOut x.d.sid
  if x.d.state = .migrating then d.setState slot x.prevState x.prevTier else d

/-! ## The target (R434 steps 2, 4, 5, R436) -/

/-- The target gives up its reservation and its guest slot (R435, R436). -/
def Dev.abandonIn (d : Dev) (sid : Nat) : Dev :=
  match NMap.get? d.own.ins sid with
  | none => d
  | some y =>
    let d := ((d.endIn sid).dropTable y.slot).releaseArea y.slot
    let d := if d.isHome sid then d.updSess y.slot fun x => { x with tierCtx := none }
      else (d.updDesc y.slot fun x => { x with stopSet := 0 }).freeGuest y.slot
    if d.noGroupRuns then d.reclaimFrames.reclaimBlocks else d
/-- Bytes of the pages of a HOT copy, and of its signature runs. -/
def Profile.copyPages (p : Profile) (n : Nat) : Nat := p.layers * ceilDiv n 64 * pagePayload p.slotBytes
/-- Bytes of the signature runs of a HOT copy. -/
def Profile.copyRuns (p : Profile) (n : Nat) : Nat := if p.selGroups = 0 then 0 else p.layers * runsFor n * 36864
/-- History tokens of their bytes. -/
def tokensOf (bs : Bytes) : List Nat := (List.range (bs.length / 4)).map fun i => leAt bs (4 * i) 4
/-- Numbers of 4 bytes behind their count. -/
def putList (xs : List Nat) : Bytes := leBytes 4 xs.length ++ xs.flatMap (leBytes 4)
/-- The numbers of `putList`, and the bytes that follow. -/
def takeList (bs : Bytes) : List Nat × Bytes :=
  let n := leAt bs 0 4
  (tokensOf (slice bs 4 (4 * n)), bs.drop (4 + 4 * n))
/-- A grammar area in the copy region: the spec names what is copied and gives no layout (log entry 41). -/
def GArea.copyBytes (a : GArea) : Bytes :=
  leBytes 4 a.state ++ leBytes 4 a.undoHead ++ putList a.stack ++ putList a.above ++ putList (a.excl.map (·.1)) ++ putList (a.excl.map (·.2)) ++
    leBytes 4 a.undo.length ++ a.undo.flatMap fun u =>
      leBytes 4 u.state ++ leBytes 4 u.text ++ putList u.stack ++ putList u.above ++ putList (u.cells.map (·.1)) ++
        putList (u.cells.map (·.2)) ++ putList (u.tail.map (·.toNat))
/-- Undo entries of a copied grammar area. -/
def takeUndo : Nat → Bytes → List Undo
  | 0, _ => []
  | n + 1, bs =>
    let (st, r) := takeList (bs.drop 8)
    let (up, r) := takeList r
    let (ix, r) := takeList r
    let (old, r) := takeList r
    let (tl, r) := takeList r
    let u : Undo :=
      { state := leAt bs 0 4
        text := leAt bs 4 4
        stack := st
        above := up
        cells := ix.zip old
        tail := tl.map (BitVec.ofNat 8) }
    u :: takeUndo n r
/-- The grammar area that copied bytes spell. -/
def GArea.ofCopy (bs : Bytes) (maskSlot : Nat) : GArea :=
  let (st, r) := takeList (bs.drop 8)
  let (up, r) := takeList r
  let (ps, r) := takeList r
  let (ts, r) := takeList r
  { state := leAt bs 0 4
    undoHead := leAt bs 4 4
    stack := st
    above := up
    excl := ps.zip ts
    undo := takeUndo (leAt r 0 4) (r.drop 4)
    maskSlot := maskSlot }
/-- What the source writes into the copy region, in the order of R434 step 3. -/
def Dev.copyBytes (d : Dev) (m : Memory) (slot : Nat) (tier : Tier) : Bytes :=
  let x := d.sess slot
  let p := d.prof x
  let n := x.d.committed
  let hist := (x.hist.take x.d.histLen).flatMap (leBytes 4)
  match tier with
  | .hot =>
    let pages := (List.range p.layers).flatMap fun l =>
      (List.range (ceilDiv n 64)).flatMap fun k => padTo (pagePayload p.slotBytes) (d.pageOf m x l k)
    let runs := if p.selGroups = 0 then []
      else (List.range p.layers).flatMap fun l => (List.range (runsFor n)).flatMap fun j => padTo 36864 (x.runBytes l j)
    pages ++ runs ++ hist ++ (if x.area then (d.garea slot).copyBytes else [])
  | .parked => ((d.readObj x.d.imageHandle).map (·.data)).getD [] ++ hist
  | _ => hist

/-- A proposed descriptor is that of a range: its sender is not the owner that it names (R437). -/
def Desc.isRange (x : Desc) (src : Nat) : Bool := x.split && x.ownerCtrl != src
/-- The target serves the session, or the range: it takes the descriptor as copied, under the new epoch, and its lease runs from the COMMIT
that is answered (R430, R434 step 5, R437); its buddy gets the durable history, the descriptor, and the image of a PARKED session (R334). -/
def Dev.committedIn (d : Dev) (m : Memory) (sid : Nat) : Dev :=
  match NMap.get? d.own.ins sid with
  | none => d
  | some y =>
    let x := Desc.ofBytes y.desc
    let home := d.isHome sid
    let old := d.sess y.slot
    let p := NMap.getD d.att.profiles x.profile {}
    let n := x.committed
    let data := match NMap.get? d.hall.regions y.region with
      | some r => m.readN r.base y.want
      | none => []
    let d := d.dropRegion y.region
    let pos := if x.tier = .hot then p.copyPages n + p.copyRuns n else y.image
    let hist := tokensOf (slice data pos (4 * x.histLen))
    let d := d.freeCtx y.ctx
    let d := d.updSess y.slot fun s => { s with
      tierCtx := none
      hist := hist
      d := { x with
        ownerEpoch := y.epoch
        ownerCtrl := if x.isRange y.source then x.ownerCtrl else d.self
        lease := if home then .none else .held
        buddy := ((d.own.buddies.find? fun e => e.1 == d.self).map (·.2)).getD 0
        mirrorValid := false
        imageHandle := y.imageHandle
        histHandle := if home then old.d.histHandle else y.histHandle
        histDurable := if home then old.d.histDurable else x.histDurable
        ptRoot := s.d.ptRoot
        histAddr := 0
        grmState := s.d.grmState
        siftIndex := 0
        stopSet := if home then old.d.stopSet else 0
        ctx := 0
        ctxValid := false } }
    let d := if x.tier = .hot then
        let d := d.fillFromPages y.slot n data
        let d := if p.selGroups = 0 then d
          else d.putRuns y.slot n fun l j => slice data (p.copyPages n + (l * runsFor n + j) * 36864) 36864
        let d := if (d.sess y.slot).area then
            d.setArea y.slot (GArea.ofCopy (data.drop (pos + 4 * x.histLen)) (d.garea y.slot).maskSlot)
          else d
        if 0 < x.histLen then
          let (v, d) := d.draw
          d.updDesc y.slot fun x => { x with histAddr := slotDie y.slot * 2 ^ 47 + (v % (2 ^ 40 - 1) + 1) * 64 }
        else d
      else
        let d := if y.imageHandle = 0 then d else d.writeObj y.imageHandle 0 (data.take y.image)
        let hd := (d.sess y.slot).d.histHandle
        if hd = 0 ∨ home then d else d.writeObj hd 0 (slice data pos (4 * x.histLen))
    let d := d.updOwn fun o => { o with
      ins := NMap.del o.ins sid
      ownLeases := if home then o.ownLeases
        else NMap.put o.ownLeases y.slot
          { ts := y.commits.headD y.firstCommit, expiry := d.expiryNs, renewAt := d.now + d.renewNs } }
    let d := d.setState y.slot x.state x.tier
    let d := (if (d.sess y.slot).d.histDurable = 0 then d else d.mirrorHist y.slot 0 (d.sess y.slot).d.histDurable).refresh y.slot
    if x.tier = .parked ∧ x.imageValid ∧ (d.sess y.slot).d.buddy ≠ 0 then
      let img := data.take y.image
      ((d.toBuddy y.slot 1 3 0 img.length []).mirrorData y.slot 3 0 img).toBuddy y.slot 3 3 0 img.length
        (padTo 48 (Config.sha384 img))
    else d

/-! ## The directory (R438) -/

/-- A controller is reachable: the map does not list it as lost, and no connection to it has failed (R398, R438, R440). -/
def Dev.reachable (d : Dev) (c : Nat) : Bool :=
  !d.own.lostCtrls.contains c && !d.hall.conns.any fun e => e.2.peer == c && !e.2.bulk && e.2.state == .failed
/-- Both holders of a session's shard are reachable (R438). -/
def Dev.holdersUp (d : Dev) (sid : Nat) : Bool := match d.holders sid with
  | some (p, r) => d.reachable p && d.reachable r
  | none => false
/-- The 32 bytes of a directory entry (R438). -/
def DirEntry.bytes (e : DirEntry) : Bytes :=
  pack 32 [⟨0, 0, 64, e.sid⟩, ⟨8, 0, 32, e.ownerEpoch⟩, ⟨8, 32, 16, e.ownerCtrl⟩, ⟨8, 48, 16, e.actingHome⟩,
    ⟨0x10, 0, 16, e.buddy⟩, ⟨0x10, 16, 3, e.tier⟩]
/-- A directory entry from its bytes. -/
def DirEntry.ofBytes (bs : Bytes) : DirEntry :=
  { sid := fieldAt bs 0 0 64
    ownerEpoch := fieldAt bs 8 0 32
    ownerCtrl := fieldAt bs 8 32 16
    actingHome := fieldAt bs 8 48 16
    buddy := fieldAt bs 0x10 0 16
    tier := fieldAt bs 0x10 16 3 }
/-- A shard holder stores or deletes an entry: NO_SPACE when its region is full (R438). -/
def Dev.storeDir (d : Dev) (sid : Nat) (e : Option DirEntry) : Status × Dev :=
  match e with
  | none => (.ok, d.updOwn fun o => { o with dir := NMap.del o.dir sid })
  | some e =>
    if !NMap.has d.own.dir sid && decide (Config.dirEntries ≤ d.own.dir.length) then (.noSpace, d)
    else (.ok, d.updOwn fun o => { o with dir := NMap.put o.dir sid e })
/-- A directory write goes to both holders; a holder that is this controller answers at once (R438). -/
def Dev.writeDir (d : Dev) (sid : Nat) (e : Option DirEntry) (commit : Option (Nat × Nat)) : Dev :=
  match d.holders sid with
  | none => d
  | some (p, r) =>
    let all := [p, r].dedup
    let others := all.filter (· != d.self)
    let (st, d) := if all.contains d.self then d.storeDir sid e else (.ok, d)
    let w : DirWrite :=
      { entry := e.getD { sid := sid }
        del := e.isNone
        waits := others
        commit := commit
        failed := st != .ok }
    let d := d.updOwn fun o => { o with dirWrites := NMap.put o.dirWrites sid w }
    others.foldl (fun d c => match e with
      | some e => d.send c svcDir (d.ownMsg 16 0 sid e.ownerEpoch e.ownerCtrl 0 0 0 0 0 0 e.bytes)
      | none => d.send c svcDir (d.ownMsg 17 0 sid 0 0 0 0 0 0 0 0 [])) d
/-- Nothing is waited for any more. -/
def Dev.dirDone (d : Dev) (sid : Nat) : Option DirWrite := match NMap.get? d.own.dirWrites sid with
  | some w => if w.waits.isEmpty then some w else none
  | none => none
/-- A finished directory write is forgotten. -/
def Dev.endDir (d : Dev) (sid : Nat) : Dev := d.updOwn fun o => { o with dirWrites := NMap.del o.dirWrites sid }

/-! ## The home: commit and abort (R434 step 4, R435) -/

/-- The lease that the home keeps for a session. -/
def Dev.homeLease (d : Dev) (sid : Nat) : HomeLease := NMap.getD d.own.homeLeases sid {}
/-- A controller holds a range of a split session, as far as its home knows (R27). -/
def Dev.isRange (d : Dev) (slot ctrl : Nat) : Bool :=
  let x := d.sess slot
  x.d.split && x.d.ownerCtrl != ctrl && x.ranges.any fun r => r.ctrl == ctrl
/-- The lease of a range begins or is renewed at the home (R431, R437). -/
def Dev.renewRange (d : Dev) (slot src : Nat) : Dev :=
  d.updSess slot fun y => { y with
    ranges := y.ranges.map fun r => if r.ctrl = src then { r with tr := d.now, expiry := d.expiryNs } else r }
/-- The offer open for a session is that of a range, by its holder (R437). -/
def Dev.offersRange (d : Dev) (slot : Nat) : Bool :=
  let x := (d.sess slot).d
  x.split && (d.homeLease x.sid).offerTo.isSome && (d.homeLease x.sid).offerFrom != x.ownerCtrl
/-- The home commits a range of a split session to a target: the session's epoch advances, its owner stays, and the owner and the other
ranges are told the epoch (R437; log entry 37). -/
def Dev.commitRange (d : Dev) (slot target epoch : Nat) : Dev :=
  let x := d.sess slot
  let l := d.homeLease x.d.sid
  let d := d.updSess slot fun y => { y with ranges := y.ranges.filter fun r => r.ctrl != l.offerFrom }
  let d := d.tellAll slot 8 epoch
  let d := d.updSess slot fun y => { y with
    ranges := y.ranges ++ (x.ranges.filter fun r => r.ctrl == l.offerFrom).map fun r => { r with
      ctrl := target
      tr := d.now
      expiry := d.expiryNs }
    d := { y.d with
      ownerEpoch := epoch
      lease := if x.d.ownerCtrl = d.self then .none else .held } }
  let d := d.updOwn fun o => { o with homeLeases := NMap.put o.homeLeases x.d.sid { l with offerTo := none, lastTarget := target } }
  (d.own1 target 9 x.d.sid epoch target .ok).own1 l.offerFrom 10 x.d.sid epoch target .ok
/-- The home commits a session to a target at an epoch (R426, R427, R434 step 4). -/
def Dev.commitTo (d : Dev) (m : Memory) (slot target epoch : Nat) : Dev :=
  if d.offersRange slot then d.commitRange slot target epoch else
  let x := d.sess slot
  let sid := x.d.sid
  let former := x.d.ownerCtrl
  let mine := target == d.self
  let d := d.updDesc slot fun x => { x with
    ownerEpoch := epoch
    ownerCtrl := target
    lease := if mine then .none else .held }
  let l : HomeLease :=
    { tr := d.now
      expiry := d.expiryNs
      lastTarget := target }
  let d := d.updOwn fun o => { o with
    homeLeases := if mine then NMap.del o.homeLeases sid else NMap.put o.homeLeases sid l }
  let d := if mine then (d.committedIn m sid).writeDir sid none none else d.own1 target 9 sid epoch target .ok
  if former = d.self then d.noticeOut slot target epoch else d.own1 former 10 sid epoch target .ok
/-- The home aborts an offer: owner and target are told (R435). -/
def Dev.abortOffer (d : Dev) (slot : Nat) : Dev :=
  let x := (d.sess slot).d
  let l := d.homeLease x.sid
  let t := l.offerTo.getD d.self
  let src := l.offerFrom
  let d := d.updOwn fun o => { o with homeLeases :=
    if x.ownerCtrl = d.self then NMap.del o.homeLeases x.sid else NMap.put o.homeLeases x.sid { l with offerTo := none } }
  let d := d.updDesc slot fun y => { y with lease := if x.ownerCtrl = d.self then .none else .held }
  let d := if src = d.self then d.abortOut slot else d.own1 src 11 x.sid x.ownerEpoch t .ok
  if t = d.self then d.abandonIn x.sid else d.own1 t 11 x.sid x.ownerEpoch t .ok
/-- A directory write that both holders have answered lets the commit that needs it go on, or refuses it (R438). -/
def Dev.finishDir (d : Dev) (m : Memory) (sid : Nat) : Dev :=
  match d.dirDone sid with
  | none => d
  | some w =>
    let d := d.endDir sid
    match w.commit, d.slotOf sid with
    | some (t, e), some slot =>
      if w.failed then (d.own1 t 9 sid e t .noSpace).abortOffer slot else d.commitTo m slot t e
    | _, _ => d
/-- The directory entry of a session that this controller is the home of, at an epoch and with an owner (R438). -/
def Dev.dirEntry (d : Dev) (slot epoch owner : Nat) : DirEntry :=
  let x := (d.sess slot).d
  { sid := x.sid
    ownerEpoch := epoch
    ownerCtrl := owner
    actingHome := if sidHome x.sid = d.self then 0 else d.self
    buddy := ((d.own.buddies.find? fun e => e.1 == d.self).map (·.2)).getD 0
    tier := x.tier.code }
/-- COMMIT at the home (R434 step 4, R438): the status that refuses it, or what it does. A repeat of one that waits for the directory is
answered RETRY_AFTER once a holder can no longer be reached; a repeat of one that was committed starts the lease's time again, since it
is answered with a COMMITTED (R431). -/
def Dev.homeCommit (d : Dev) (m : Memory) (src sid epoch : Nat) : Dev :=
  let refuse (d : Dev) (st : Status) : Dev := if src = d.self then d.abandonIn sid else d.own1 src 9 sid epoch src st
  match d.slotOf sid with
  | none => refuse d .staleGen
  | some slot =>
    let x := (d.sess slot).d
    let l := d.homeLease sid
    let pending := ((NMap.get? d.own.dirWrites sid).map fun w => w.commit == some (src, epoch)).getD false
    if pending then (if d.holdersUp sid then d else refuse (d.endDir sid) .retryAfter)
    else if x.ownerEpoch = epoch ∧ l.lastTarget = src ∧ (x.ownerCtrl = src ∨ d.isRange slot src) then
      refuse ((d.updOwn fun o => { o with homeLeases := NMap.upd o.homeLeases sid fun l => { l with
        tr := if x.ownerCtrl = src then d.now else l.tr } }).renewRange slot src) .dup
    else if x.lease = .offered ∧ l.offerTo = some src ∧ epoch = x.ownerEpoch + 1 ∧ d.now ≤ l.offerDeadline then
      if src = d.self ∨ (d.offersRange slot ∧ x.ownerCtrl = d.self) then d.commitTo m slot src epoch
      else if d.g F.TIM_STATUS_SYNC = 0 || !d.holdersUp sid then refuse d .retryAfter
      else
        let e := d.dirEntry slot epoch (if d.offersRange slot then x.ownerCtrl else src)
        (d.writeDir sid (some e) (some (src, epoch))).finishDir m sid
    else refuse d .staleGen
/-- A map has changed holders of the directory: a write under way goes to the new ones, and so does the entry of every session that this
controller is the home of, and that has one (R438). `was` gives the holders of before. -/
def Dev.redoDir (d : Dev) (m : Memory) (was : Nat → Option (Nat × Nat)) : Dev :=
  let due := (NMap.keys d.own.dirWrites).filter fun sid => d.holders sid != was sid
  let has (x : Desc) : Bool := d.isHome x.sid && (x.ownerCtrl != d.self || sidHome x.sid != d.self) && !NMap.has d.own.dirWrites x.sid &&
    d.holders x.sid != was x.sid
  let again := d.ses.tab.filter fun e => e.2.d.state != .free && e.2.d.state != .closed && has e.2.d
  let d := due.foldl (fun (d : Dev) sid => match NMap.get? d.own.dirWrites sid with
    | some w => (d.writeDir sid (if w.del then none else some w.entry) w.commit).finishDir m sid
    | none => d) d
  again.foldl (fun (d : Dev) e => d.writeDir e.2.d.sid (some (d.dirEntry e.1 e.2.d.ownerEpoch e.2.d.ownerCtrl)) none) d

/-- COMMIT goes to the home (R434 step 4, R436). -/
def Dev.sendCommit (d : Dev) (m : Memory) (sid : Nat) : Dev :=
  match NMap.get? d.own.ins sid with
  | none => d
  | some y =>
    let first := if y.commitAt.isNone then d.now else y.firstCommit
    let y := { y with
      commitAt := some d.now
      firstCommit := first
      commits := y.commits ++ [d.now] }
    let d := d.updOwn fun o => { o with ins := NMap.put o.ins sid y }
    if d.isHome sid then d.homeCommit m d.self sid y.epoch else d.own1 (d.homeOf sid) 8 sid y.epoch d.self .ok
/-- Bytes of a copy have become visible in the copy region; with all of them there, COMMIT is sent (R434 step 4). -/
def Dev.copySeen (d : Dev) (m : Memory) (region n : Nat) : Dev :=
  match d.own.ins.find? fun e => e.2.accepted && e.2.region == region with
  | none => d
  | some (sid, y) =>
    let d := d.updOwn fun o => { o with ins := NMap.put o.ins sid { y with got := y.got + n } }
    if y.commitAt.isNone ∧ y.want ≤ y.got + n then d.sendCommit m sid else d
/-- ACCEPT: it names the copy region; a repeat of the PROPOSE gets the same one (R433, R434 step 2). -/
def Dev.acceptMsg (d : Dev) (sid : Nat) (y : HandIn) : Dev :=
  let r := NMap.getD d.hall.regions y.region {}
  d.send y.source svcOwner (d.ownMsg 6 0 sid y.epoch d.self 0 0 0 (d.self * 2 ^ 48 + r.base) y.region r.gen [])
/-- A target that has reserved what the copy needs creates the copy region and sends ACCEPT (R434 step 2); a copy of nothing
is complete at once, and without a place or an index for the region the reservation stays deferred. In FREE_RUN it accepts no handoff, and
refuses with RETRY_AFTER, the status that R434 gives the home then (R65; DESIGN CHOICE, log entry 41). -/
def Dev.sendAccept (d : Dev) (m : Memory) (sid : Nat) : Dev :=
  match NMap.get? d.own.ins sid with
  | none => d
  | some y =>
    if !y.reserved || y.accepted then d
    else if d.g F.TIM_STATUS_SYNC = 0 then (d.own1 y.source 7 sid y.epoch d.self .retryAfter).abandonIn sid
    else
      let (a, d) := d.draw
      let n := max 64 (ceilDiv y.want 64 * 64)
      let place := (d.hbmPlace [slotDie y.slot] n 64 a).map (slotDie y.slot * 2 ^ 47 + ·)
      let reg : Region :=
        { base := place.getD 0
          length := n
          partition := fieldAt y.desc 8 8 5
          read := true
          write := true
          qht := true }
      match place.bind fun _ => d.newRegion reg with
      | none => d
      | some (i, d) =>
        let y := { y with accepted := true, region := i }
        let d := (d.updOwn fun o => { o with ins := NMap.put o.ins sid y }).acceptMsg sid y
        if y.want = 0 then d.copySeen m i 0 else d
/-- The hamper objects of a PARKED or HISTORY session are reserved for its copy, both or neither (R434 step 2). -/
def Dev.reserveCold (d : Dev) (sid : Nat) : Dev :=
  match NMap.get? d.own.ins sid with
  | none => d
  | some y =>
    let x := Desc.ofBytes y.desc
    let room (d : Dev) (kind bytes : Nat) : Option (Nat × Dev) :=
      if bytes = 0 then some (0, d)
      else if kind = 2 then d.createHist (slotDie y.slot) kind sid x.partition (ceilDiv bytes 16384)
      else d.createObj (slotDie y.slot) kind sid x.partition (ceilDiv bytes 16384)
    if y.reserved || x.tier == .hot then d
    else match room d 1 y.image with
      | none => d
      | some (ih, e) => match room e 2 (if d.isHome sid then 0 else 4 * x.histLen) with
        | none => d
        | some (hh, e) => e.updOwn fun o => { o with ins := NMap.put o.ins sid { y with
            reserved := true
            imageHandle := ih
            histHandle := hh } }
/-- A target whose reservation is still deferred at the offer deadline refuses the handoff (R434 step 2). -/
def Dev.refuseLate (d : Dev) (sid : Nat) (y : HandIn) : Dev :=
  (d.own1 y.source 7 sid y.epoch d.self .noSpace).abandonIn sid
/-- The admission step of a boundary: what a handoff needs of the hamper is reserved, reservations made are accepted, and those still
deferred at the offer deadline refused (R434 step 2). -/
def Dev.acceptAll (d : Dev) (m : Memory) : Dev :=
  (NMap.keys d.own.ins).foldl (fun (d : Dev) sid =>
    let d := (d.reserveCold sid).sendAccept m sid
    match NMap.get? d.own.ins sid with
    | some y => if !y.accepted && decide (y.deadline ≤ d.now) then d.refuseLate sid y else d
    | none => d) d

/-! ## The source: offers (R434 steps 1 to 3) -/

/-- PROPOSE: the descriptor, then the bytes of the copy in all and of its image part (R433; log entry 41). -/
def Dev.proposeHandoff (d : Dev) (m : Memory) (slot : Nat) : Dev :=
  let x := (d.sess slot).d
  match d.handOut x.sid with
  | none => d
  | some o =>
    let image := if x.tier = .parked then ((d.obj x.imageHandle).map fun o => o.data.length).getD 0 else 0
    let n := (d.copyBytes m slot x.tier).length
    let d := d.setOut x.sid { o with phase := 2 }
    d.send o.target svcOwner (d.ownMsg 5 0 x.sid (o.epoch + 1) o.target x.state.code x.tier.code x.histLen 0 0 0
      (x.bytes ++ leBytes 8 n ++ leBytes 8 image))
/-- An offer at the home: OK, BUSY, STALE_GEN or RETRY_AFTER (R426, R434 step 1); a repeat is answered as before (R433). -/
def Dev.offerAt (d : Dev) (src sid epoch target : Nat) : Status × Dev :=
  match d.slotOf sid with
  | none => (.staleGen, d)
  | some slot =>
    let x := (d.sess slot).d
    let l := d.homeLease sid
    if x.ownerEpoch ≠ epoch ∨ (x.ownerCtrl ≠ src ∧ !d.isRange slot src) then (.staleGen, d)
    else if x.lease = .offered then (if l.offerTo = some target ∧ l.offerFrom = src then .ok else .busy, d)
    else if x.ownerEpoch = 0xFFFFFFFF ∨ d.fenced slot then (.busy, d)
    else if d.g F.TIM_STATUS_SYNC = 0 then (.retryAfter, d)
    else
      let d := d.updDesc slot fun x => { x with lease := .offered }
      let l := { l with
        offerTo := some target
        offerFrom := src
        offerDeadline := d.now + d.expiryNs }
      (.ok, d.updOwn fun o => { o with homeLeases := NMap.put o.homeLeases sid l })
/-- A controller hands over what it holds of a session: its owner the session, and the holder of a range its range, if it leaves the
session's group (R437, R446; DEDUCED, log entry 37: a move list names sessions and no ranges). -/
def Dev.mayMove (d : Dev) (slot : Nat) : Bool :=
  d.owns slot || (d.holdsRange slot && (d.group (d.sess slot).d.group).leaving.contains d.self)
/-- A session may be offered: it is not WARM, and has no turn queued or in progress and no tier work under way (R434). -/
def Dev.mayOffer (d : Dev) (slot : Nat) : Bool :=
  let x := d.sess slot
  d.mayMove slot && !d.fenced slot && x.d.tier != .warm && !x.d.turnQueued && !x.d.ctxValid && x.tierCtx.isNone && !x.d.kill &&
    (d.park slot).isNone && !x.pendHistory && x.pendCommitted.isNone && x.pendDiscard.isNone &&
    (x.d.state == .open || x.d.state == .waiting || x.d.state == .parked || x.d.state == .history)
/-- The context of a migration at its source: none, and no offer, while no context is free or the partition has none left (R84,
R466). -/
def Dev.outCtx (d : Dev) (slot : Nat) : Option (Nat × Dev) :=
  let x := (d.sess slot).d
  let p := x.partition
  if overLimit p (d.useContexts p) 1 (d.limits p).contexts then none
  else d.newCtx (slotDie slot)
    { sid := x.sid
      slot := slot
      fn := p
      kind := .migrateOut
      phase := .tierMove
      prio := x.prio
      mapEpoch := d.own.current
      ownerEpoch := x.ownerEpoch
      group := x.group
      eq := d.gi F.PRK_POLICY_EQ p
      baseCommitted := x.committed
      baseHist := x.histLen }
/-- An owner offers a session that its move list sends to a target, if it qualifies; a WARM session is brought back first
(R434). In FREE_RUN no handoff is begun (R65). -/
def Dev.tryOffer (d : Dev) (m : Memory) (sid target : Nat) : Dev :=
  match d.slotOf sid with
  | none => d
  | some slot =>
    let x := d.sess slot
    if !d.mayMove slot || target == d.self || (d.handOut sid).isSome then d
    else if x.d.tier = .warm ∧ !x.d.turnQueued ∧ !x.d.ctxValid ∧ x.tierCtx.isNone ∧ d.hready (slotDie slot) then
      (d.beginRevive m slot 0 x.d.partition (d.gi F.PRK_POLICY_EQ x.d.partition) 0).getD d
    else if !d.mayOffer slot then d
    else match d.outCtx slot with
    | none => d
    | some (i, d) =>
      let d := d.setOut sid { target := target, epoch := x.d.ownerEpoch, ctx := i }
      if d.isHome sid then
        match d.offerAt d.self sid x.d.ownerEpoch target with
        | (.ok, d) => d.proposeHandoff m slot
        | (_, d) => d.endOut sid
      else d.own1 (d.homeOf sid) 3 sid x.d.ownerEpoch target .ok
/-- Every move of the move list is tried (R434, R442). -/
def Dev.tryMoves (d : Dev) (m : Memory) : Dev := d.own.moves.foldl (fun d e => d.tryOffer m e.1 e.2) d

/-! ## The rows -/

/-- OFFER at the home (R434 step 1). -/
def execOffer (src sid epoch target : Nat) : State → Host.Outcome State Fault Refusal :=
  onDev fun _ d =>
    let d := d.heard src svcOwner sid
    let (st, d) := d.offerAt src sid epoch target
    d.own1 src 4 sid epoch target st

/-- OFFER_ACK at the owner: OK lets it propose; any other answer ends the attempt (R434 step 2). -/
def execOfferAck (src sid status : Nat) : State → Host.Outcome State Fault Refusal :=
  onDev fun m d => d.onHall src svcOwner sid fun d =>
    match d.slotOf sid, d.handOut sid with
    | some slot, some o =>
      if o.phase ≠ 0 ∨ d.homeOf sid ≠ src then d
      else if status = 0 ∧ d.mayOffer slot then d.proposeHandoff m slot
      else d.endOut sid
    | _, _ => d

/-- The range of a SELECT session begins and ends at a multiple of 4,096 positions; the end of its last range is exempt (R213). -/
def Desc.rangeOk (x : Desc) : Bool :=
  !(x.split && x.select) || (x.rangeLo % 4096 == 0 && (x.rangeIdx == x.rangeCnt || x.rangeHi % 4096 == 0))
/-- PROPOSE at the target: a guest slot and a context are taken; what the copy needs is reserved at the next boundary, or at once where no
group runs (R434 step 2). A controller holds one descriptor of a session: one that holds its record or a range of it refuses a range with
BUSY (DESIGN CHOICE, log entry 37). -/
def execPropose (src sid epoch : Nat) (desc : Bytes) (want image : Nat) : State → Host.Outcome State Fault Refusal :=
  onDev fun m d => d.onHall src svcOwner sid fun d =>
    let desc := padTo 256 desc
    let x := Desc.ofBytes desc
    let refuse (d : Dev) (st : Status) : Dev := d.own1 src 7 sid epoch d.self st
    let newer := d.own.guests.any fun e =>
      sidHome e.1 == sidHome sid && sidSlot e.1 == sidSlot sid && decide (sidGen sid < sidGen e.1)
    let held := NMap.get? d.own.ins sid
    if (held.map fun y => y.source == src && y.epoch == epoch).getD false then
      (match held.filter (·.accepted) with
       | some y => d.acceptMsg sid y
       | none => d)
    else if newer || held.isSome then refuse d .staleGen
    else if x.isRange src && (d.slotOf sid).isSome || !d.isHome sid && NMap.has d.own.guests sid then refuse d .busy
    else if !x.rangeOk then refuse d .badParam
    else if d.g F.TIM_STATUS_SYNC = 0 then refuse d .retryAfter
    else
      let home := d.isHome sid
      let die := slotDie (sidSlot sid)
      let slot? := if home then d.slotOf sid
        else match d.lowestSlot 2097152 (die * 2097152) with
          | some s => some s
          | none => d.lowestSlot 2097152 ((1 - die) * 2097152)
      match slot? with
      | none => refuse d .noSpace
      | some slot =>
        let c : Ctx :=
          { sid := sid
            slot := slot
            kind := .migrateIn
            phase := .tierMove
            prio := x.prio
            group := x.group
            fn := x.partition
            eq := d.gi F.PRK_POLICY_EQ x.partition
            mapEpoch := d.own.current
            ownerEpoch := epoch
            baseCommitted := x.committed
            baseHist := x.histLen }
        match d.newCtx (slotDie slot) c with
        | none => refuse d .noSpace
        | some (i, d) =>
          let guest : Session :=
            { d := { x with
                state := .migrating
                ownerCtrl := src
                lease := .none
                ptRoot := 0
                histAddr := 0
                grmState := 0
                imageHandle := 0
                histHandle := 0
                siftIndex := 0
                stopSet := 0
                ctxValid := false
                turnQueued := false
                idleSince := 0 } }
          let d := if home then d
            else ((d.setSess slot guest).touch slot).updOwn fun o => { o with guests := NMap.put o.guests sid slot }
          let y : HandIn :=
            { source := src
              home := d.homeOf sid
              epoch := epoch
              slot := slot
              ctx := i
              desc := desc
              want := want
              image := image
              deadline := d.now + d.expiryNs }
          let d := d.updOwn fun o => { o with ins := NMap.put o.ins sid y }
          let d := d.updSess slot fun s => { s with tierCtx := if home then s.tierCtx else some i }
          if !d.noGroupRuns then d
          else if x.tier != .hot then (d.reserveCold sid).sendAccept m sid
          else ((Adm.joinMigrate m { g := x.group, row := x.lastRow, die := slotDie slot } { dev := d } slot i).dev).sendAccept m sid

/-- ACCEPT at the owner: the session becomes MIGRATING, and its state is written into the copy region on the BULK connection
(R434 step 3). An ACCEPT of a handoff that has ended is ignored (R435). -/
def execAccept (src sid epoch addr region gen : Nat) : State → Host.Outcome State Fault Refusal :=
  onDev fun m d => d.onHall src svcOwner sid fun d =>
    match d.slotOf sid, d.handOut sid with
    | some slot, some o =>
      let x := d.sess slot
      if o.phase ≠ 2 ∨ o.target ≠ src ∨ epoch ≠ o.epoch + 1 then d
      else if !d.mayOffer slot then d.endOut sid
      else
        let bs := d.copyBytes m slot x.d.tier
        let d := d.setOut sid { o with phase := 3 }
        let d := (d.updSess slot fun y => { y with
          prevState := x.d.state
          prevTier := x.d.tier }).setState slot .migrating x.d.tier
        let d := if x.d.tier = .parked then d.countReads x.d.imageHandle 0 bs.length
          else if x.d.tier = .hot then d.heatSession slot else d
        d.write src region gen addr x.d.partition bs
    | _, _ => d

/-- REFUSE at the owner: the attempt ends (R434 step 2); the offer at the home runs to its deadline (R435). -/
def execRefuse (src sid : Nat) : State → Host.Outcome State Fault Refusal :=
  onDev fun _ d => d.onHall src svcOwner sid fun d =>
    match d.slotOf sid, d.handOut sid with
    | some slot, some o => if o.target = src then d.abortOut slot else d
    | _, _ => d

/-- COMMIT at the home (R434 step 4). -/
def execCommit (src sid epoch : Nat) : State → Host.Outcome State Fault Refusal :=
  onDev fun m d => (d.heard src svcOwner sid).homeCommit m src sid epoch

/-- COMMITTED at the target: OK and DUP let it serve the session; RETRY_AFTER leaves COMMIT to be sent again; any other answer
ends the handoff (R434 steps 4 and 5, R436, R438). -/
def execCommitted (src sid epoch status : Nat) : State → Host.Outcome State Fault Refusal :=
  onDev fun m d => d.onHall src svcOwner sid fun d =>
    match NMap.get? d.own.ins sid with
    | none => d
    | some y =>
      if y.epoch ≠ epoch ∨ y.commitAt.isNone ∨ d.homeOf sid ≠ src then d
      else if status = Status.ok.code ∨ status = Status.dup.code then d.committedIn m sid
      else if status = Status.retryAfter.code then
        d.updOwn fun o => { o with ins := NMap.put o.ins sid { y with commits := y.commits.drop 1 } }
      else d.abandonIn sid

/-- NOTICE at the former owner: it releases the session and keeps a forwarding entry (R434 step 5). -/
def execNotice (src sid epoch target : Nat) : State → Host.Outcome State Fault Refusal :=
  onDev fun _ d => d.onHall src svcOwner sid fun d =>
    match d.slotOf sid, d.handOut sid with
    | some slot, some o => if d.homeOf sid = src ∧ o.target = target ∧ epoch = o.epoch + 1 then d.noticeOut slot target epoch else d
    | _, _ => d

/-- No valid COMMIT by the offer deadline: the home aborts (R435). A COMMIT whose directory entry is being written has come in
time. A target elsewhere whose reservation is still deferred then refuses the handoff (R434 step 2). -/
def execOfferDeadline (sid : Nat) : State → Host.Outcome State Fault Refusal :=
  onDev fun _ d => match d.slotOf sid, (NMap.get? d.own.ins sid).filter fun y => !y.accepted && !d.isHome sid with
    | _, some y => (d.reach y.deadline).refuseLate sid y
    | none, none => d
    | some slot, none =>
      let x := (d.sess slot).d
      let busy := ((NMap.get? d.own.dirWrites sid).map fun w => w.commit.isSome).getD false
      if !d.isHome sid || x.lease != .offered || busy then d
      else (d.reach (d.homeLease sid).offerDeadline).abortOffer slot

/-- ABORT at the owner and at the target (R435). -/
def execAbort (src sid : Nat) : State → Host.Outcome State Fault Refusal :=
  onDev fun _ d => d.onHall src svcOwner sid fun d =>
    if d.homeOf sid ≠ src then d
    else if (NMap.get? d.own.ins sid).isSome then d.abandonIn sid
    else match d.slotOf sid with
      | some slot => if (d.handOut sid).isSome then d.abortOut slot else d
      | none => d

/-- RENEW_MS has passed since a COMMIT without COMMITTED: it is sent again (R436). -/
def execCommitResend (sid : Nat) : State → Host.Outcome State Fault Refusal :=
  onDev fun m d => match NMap.get? d.own.ins sid with
    | none => d
    | some y => match y.commitAt with
      | none => d
      | some t => (d.reach (t + d.renewNs)).sendCommit m sid

/-- A COMMIT has gone unconfirmed for EXPIRY_MS: the target abandons the handoff (R436). -/
def execHandoffLost (sid : Nat) : State → Host.Outcome State Fault Refusal :=
  onDev fun _ d => match NMap.get? d.own.ins sid with
    | none => d
    | some y =>
      if y.commitAt.isNone then d
      else
        let d := (d.reach (y.firstCommit + d.expiryNs)).abandonIn sid
        d.post0 { typ := 0x1E, subject := sid, status := Status.fault.code, args := [y.epoch] }

/-! ## Acting homes (R440) -/

/-- The buddy of a lost home takes its place for a session: under the directory's epoch, or the mirror's (R440). -/
def Dev.actAsHome (d : Dev) (sid : Nat) (entry : Option DirEntry) : Dev :=
  match NMap.get? d.prk.mirrors sid with
  | none => d
  | some y =>
    let x := Desc.ofBytes (padTo 256 y.desc)
    let epoch := (entry.map (·.ownerEpoch)).getD y.ownerEpoch
    let owner := (entry.map (·.ownerCtrl)).getD (sidHome sid)
    let live := !d.own.lostCtrls.contains owner && owner != d.self
    let die := slotDie (sidSlot sid)
    let slot? := match d.lowestSlot 2097152 (die * 2097152) with
      | some s => some s
      | none => d.lowestSlot 2097152 ((1 - die) * 2097152)
    match (NMap.get? d.own.guests sid).orElse fun _ => slot? with
    | none => d
    | some slot =>
      let hist := match y.hist.bind d.readObj with
        | some o => tokensOf o.data
        | none => []
      let whole := match y.image.bind d.readObj with
        | some o => y.whole && o.complete && !o.damaged
        | none => false
      let n := hist.length
      let e := if live then epoch else epoch + 1
      let own := if live then owner else d.self
      let s : Session :=
        { hist := hist
          d := { x with
            sid := sid
            partition := y.partition
            state := if live then x.state else if whole then .parked else .history
            tier := if live then x.tier else if whole then .parked else .history
            kill := false
            ownerEpoch := e
            ownerCtrl := own
            lease := if live then .held else .reclaimed
            buddy := ((d.own.buddies.find? fun e => e.1 == d.self).map (·.2)).getD 0
            committed := if live || whole then x.committed else 0
            histLen := n
            histDurable := n
            ptRoot := 0
            histAddr := 0
            grmState := 0
            imageValid := !live && whole
            mirrorValid := false
            imageHandle := if !live && whole then y.image.getD 0 else 0
            histHandle := y.hist.getD 0
            ctx := 0
            ctxValid := false
            turnQueued := false
            siftIndex := 0
            stopSet := 0
            idleSince := 0 } }
      let d := (d.setSess slot s).touch slot
      let d := if live || !whole then (match y.image with
          | some h => d.askRelease h
          | none => d)
        else d
      let d := { d with prk := { d.prk with mirrors := NMap.del d.prk.mirrors sid } }
      let d := (d.mirrorHist slot 0 n).refresh slot
      let d := d.updOwn fun o => { o with
        guests := NMap.put o.guests sid slot
        actHome := NMap.put o.actHome sid d.self
        asked := o.asked.erase sid
        homeLeases := if live then NMap.put o.homeLeases sid { tr := d.now, expiry := d.expiryNs } else o.homeLeases }
      let de : DirEntry :=
        { sid := sid
          ownerEpoch := e
          ownerCtrl := own
          actingHome := d.self
          buddy := s.d.buddy
          tier := s.d.tier.code }
      let d := d.writeDir sid (some de) none
      if live then d
      else d.postBoth y.partition { typ := 0x1D, subject := sid, args := [e, owner] }
/-- A directory entry is known: an acting home proceeds, an owner learns where its home's place is taken, and any other controller who the
owner is; with no entry the home owns the session (R439, R440). -/
def Dev.dirKnown (d : Dev) (sid : Nat) (e : Option DirEntry) : Dev :=
  let answered (d : Dev) : Dev := d.updOwn fun o => { o with asked := o.asked.erase sid }
  if !d.own.asked.contains sid then d
  else if NMap.has d.prk.mirrors sid then d.actAsHome sid e
  else match e with
    | none => answered d
    | some e =>
      let d := if e.actingHome = 0 then d else d.updOwn fun o => { o with actHome := NMap.put o.actHome sid e.actingHome }
      let d := if (d.slotOf sid).isSome || e.ownerCtrl == d.self then d else d.addForward sid e.ownerCtrl e.ownerEpoch
      answered d
/-- The directory is asked about a session whose home is lost (R439, R440). -/
def Dev.askDir (d : Dev) (sid : Nat) : Dev :=
  let d := d.updOwn fun o => { o with asked := if o.asked.contains sid then o.asked else o.asked ++ [sid] }
  match d.askedHolder sid with
  | none => d.dirKnown sid none
  | some h => if h = d.self then d.dirKnown sid (NMap.get? d.own.dir sid) else d.dirGet h sid

/-! ## Leases (R429 to R431, R437) -/

/-- RENEW_MS has passed: a non-home owner sends RENEW, fenced or not (R429, R430); while its home is lost and no acting home is known, it asks
the directory again (R439, R440). -/
def execRenewTimer (sid : Nat) : State → Host.Outcome State Fault Refusal :=
  onDev fun _ d => match d.slotOf sid with
    | none => d
    | some slot => match NMap.get? d.own.ownLeases slot with
      | none => d
      | some l =>
        if !d.away slot then d
        else
          let d := d.reach l.renewAt
          let l := { l with
            sents := l.sents ++ [d.now]
            renewAt := d.now + d.renewNs }
          let d := d.updOwn fun o => { o with ownLeases := NMap.put o.ownLeases slot l }
          let d := if d.own.lostCtrls.contains (sidHome sid) && !NMap.has d.own.actHome sid then d.askDir sid else d
          d.own1 (d.homeOf sid) 1 sid (d.sess slot).d.ownerEpoch d.self .ok

/-- RENEW at the home, of an owner or of the holder of a range (R68, R429, R437). -/
def execRenew (src sid epoch renewMs expiryMs : Nat) : State → Host.Outcome State Fault Refusal :=
  onDev fun _ d =>
    let d := d.heard src svcOwner sid
    if !d.samePeriods renewMs expiryMs then (d.own1 src 2 sid epoch 0 .badParam).mismatch src
    else match d.slotOf sid with
      | none => d.own1 src 2 sid epoch 0 .staleGen
      | some slot =>
        let x := (d.sess slot).d
        if d.isHome sid ∧ x.ownerEpoch = epoch ∧ x.ownerCtrl = src then
          let l := { d.homeLease sid with
            tr := d.now
            expiry := d.expiryNs }
          (d.updOwn fun o => { o with homeLeases := NMap.put o.homeLeases sid l }).own1 src 2 sid epoch 0 .ok
        else if d.isHome sid ∧ x.ownerEpoch = epoch ∧ d.isRange slot src then
          (d.renewRange slot src).own1 src 2 sid epoch 0 .ok
        else d.own1 src 2 sid epoch 0 .staleGen

/-- RENEW_ACK at the owner: OK refreshes the lease from when the RENEW that it answers was sent, the oldest without an answer, and a fence
lifts at the next boundary; STALE_GEN ends it (R68, R430). -/
def execRenewAck (src sid epoch status renewMs expiryMs : Nat) : State → Host.Outcome State Fault Refusal :=
  onDev fun _ d =>
    if !d.samePeriods renewMs expiryMs then (d.resolve src svcOwner .badParam).mismatch src
    else d.onHall src svcOwner sid fun d =>
      match d.slotOf sid with
      | none => d
      | some slot => match NMap.get? d.own.ownLeases slot with
        | none => d
        | some l =>
          if !d.away slot || d.homeOf sid != src || (d.sess slot).d.ownerEpoch != epoch then d
          else if status = Status.staleGen.code then d.dropCopy slot
          else if status = 0 then
            let now := d.noGroupRuns
            let l := { l with
              ts := max l.ts (l.sents.headD l.ts)
              sents := l.sents.drop 1
              expiry := d.expiryNs
              fenced := l.fenced && !now
              lifting := l.fenced && !now }
            d.updOwn fun o => { o with ownLeases := NMap.put o.ownLeases slot l }
          else d
/-- Fences that a RENEW answered OK has ended lift at a boundary (R430). -/
def Dev.liftFences (d : Dev) (g : Nat) : Dev :=
  d.updOwn fun o => { o with ownLeases := NMap.mapV o.ownLeases fun slot l =>
    if l.lifting && ((d.sess slot).d.group == g || d.phase (d.sess slot).d.group == 0) then
      { l with fenced := false, lifting := false }
    else l }

/-- EXPIRY_MS has passed since the last RENEW answered OK: the owner fences the session (R430). -/
def execFence (sid : Nat) : State → Host.Outcome State Fault Refusal :=
  onDev fun _ d => match d.slotOf sid with
    | none => d
    | some slot => match NMap.get? d.own.ownLeases slot with
      | none => d
      | some l =>
        if l.fenced || !d.away slot then d
        else
          let d := d.reach (l.ts + l.expiry)
          let d := d.updOwn fun o => { o with ownLeases := NMap.put o.ownLeases slot { l with fenced := true, lifting := false } }
          let d := d.nullWork slot .staleGen
          let x := (d.sess slot).d
          d.postBoth x.partition { typ := 0x1C, subject := sid, status := Status.staleGen.code, args := [x.ownerEpoch] }

/-- The home takes a session back at the next epoch, as HISTORY; a split session whole, and every range is released (R437). A CLOSED one
stays GONE (R29). -/
def Dev.reclaim (d : Dev) (slot : Nat) : Dev :=
  let y := d.sess slot
  let x := y.d
  let l := d.homeLease x.sid
  let former := x.ownerCtrl
  if x.state = .closed then d
  else
  let d := if former = d.self then ((d.endTurnHere slot).dropState slot).releaseImage slot else d
  let d := d.updSess slot fun y => { y with
    hist := y.hist.take x.histDurable
    ranges := []
    d := { y.d with
      ownerEpoch := x.ownerEpoch + 1
      ownerCtrl := d.self
      lease := .reclaimed
      split := false
      committed := 0
      histLen := x.histDurable } }
  let d := (d.setState slot .history .history).refresh slot
  let d := d.updOwn fun o => { o with homeLeases := NMap.del o.homeLeases x.sid }
  let d := d.writeDir x.sid none none
  let d := match l.offerTo with
    | some t => if t = former then d else if t = d.self then d.abandonIn x.sid
      else d.own1 t 12 x.sid (x.ownerEpoch + 1) d.self .ok
    | none => d
  let told := (if former = d.self then [] else [former]) ++ if x.split then y.ranges.map (·.ctrl) else []
  let d := told.foldl (fun d c => d.own1 c 12 x.sid (x.ownerEpoch + 1) d.self .ok) d
  let d := d.postBoth x.partition { typ := 0x1D, subject := x.sid, args := [x.ownerEpoch + 1, former] }
  if former == d.self && d.noGroupRuns then d.reclaimFrames.reclaimBlocks else d
/-- When the home may reclaim a session: the first of its owner's lease and its range leases to run out, with the margin (R431,
R437). -/
def Dev.leaseEnd (d : Dev) (slot : Nat) : Option Nat :=
  let y := d.sess slot
  let l := d.homeLease y.d.sid
  let own := if y.d.ownerCtrl != d.self && NMap.has d.own.homeLeases y.d.sid then [l.tr + l.expiry + graceNs l.expiry] else []
  let ranges := (y.ranges.filter fun r => y.d.split && r.expiry != 0).map fun r => r.tr + r.expiry + graceNs r.expiry
  (own ++ ranges).min?
/-- A lease has run out at the home: EXPIRY_MS and the margin have passed since the last RENEW answered OK (R431, R437). -/
def execLeaseReclaim (sid : Nat) : State → Host.Outcome State Fault Refusal :=
  onDev fun _ d => match d.slotOf sid with
    | none => d
    | some slot => match (if d.isHome sid && (d.sess slot).d.state != .closed then d.leaseEnd slot else none) with
      | some t => (d.reach t).reclaim slot
      | none => d

/-- RECLAIMED at a former owner, or at a target whose offer was pending (R430, R437). -/
def execReclaimed (src sid epoch : Nat) : State → Host.Outcome State Fault Refusal :=
  onDev fun _ d => d.onHall src svcOwner sid fun d =>
    if d.homeOf sid ≠ src then d
    else if (NMap.get? d.own.ins sid).isSome then d.abandonIn sid
    else match d.slotOf sid with
      | some slot => if d.serving slot ∧ (d.sess slot).d.ownerEpoch < epoch then d.dropCopy slot else d
      | none => d

/-! ## STATE_SYNC (R428) -/

/-- What the intake of one row added to a session is discarded: its position, its sampled token, and the grammar's step with it; a prompt
accepted since moves down by the token (R59). -/
def Dev.discardOne (d : Dev) (slot : Nat) (r : RowMark) : Dev :=
  let k := r.after - r.histLen
  let ends := (d.sess slot).d.histLen == r.after
  let a := d.garea slot
  let d := match if k = 0 ∨ !ends ∨ !(d.sess slot).area then none else a.undo[k - 1]? with
    | some u =>
      let d := d.setArea slot { a with
        state := u.state
        stack := u.stack
        above := u.above
        undo := a.undo.drop k
        undoHead := (a.undoHead + 64 - k % 64) % 64 }
      { d with tok := { d.tok with tails := NMap.put d.tok.tails slot u.tail } }
    | none => d
  let d := match d.turnCtx slot with
    | some i => d.updCtx i fun y =>
        if r.after ≤ y.baseHist then { y with
          baseHist := y.baseHist - k
          baseCommitted := min y.baseCommitted r.committed }
        else { y with genTokens := y.genTokens - k }
    | none => d
  (d.updSess slot fun x => { x with
    hist := x.hist.take r.histLen ++ x.hist.drop r.after
    d := { x.d with
      committed := min x.d.committed r.committed
      histLen := x.d.histLen - k
      histDurable := if k = 0 then x.d.histDurable else min x.d.histDurable r.histLen } }).clearAbove slot
/-- What a session took in from a row on is discarded, the newest row first. A row in progress, which went on from there, is void for the
session with cause ROW_TIMEOUT (DESIGN CHOICE: R59 does not say what becomes of it; log entry 37). -/
def Dev.discardFrom (d : Dev) (slot row : Nat) : Dev :=
  let marks := (d.sess slot).rowStarts.filter fun r => decide (row ≤ r.row)
  let d := marks.foldl (fun d r => d.discardOne slot r) d
  d.updSess slot fun x => { x with
    rowStarts := x.rowStarts.filter fun r => decide (r.row < row)
    pendDiscard := none
    voided := if x.inRow && x.voided.isNone && !marks.isEmpty then some 0x11 else x.voided }
/-- What a session took in from a row on is to be discarded, at the start of the next boundary of its group; at once if the group runs no
rows (R59). -/
def Dev.discardLater (d : Dev) (slot row : Nat) : Dev :=
  if d.phase (d.sess slot).d.group = 0 then d.discardFrom slot row
  else d.updSess slot fun x => { x with pendDiscard := some (min row (x.pendDiscard.getD row)) }
/-- Controllers that hold a range of a split session, as far as this one knows: its home, its owner, and at the home those that have
reported (R27; log entry 37). -/
def Dev.rangeCtrls (d : Dev) (slot : Nat) : List Nat :=
  let x := d.sess slot
  d.homeOf x.d.sid :: x.d.ownerCtrl :: x.ranges.map (·.ctrl)
/-- The room that a holder reports to a range's controller for its pages: region, generation and address are free values, since the holder
chooses them (R337, R380; log entries 31 and 37). -/
def Dev.holderFor (d : Dev) (ctrl : Nat) : WarmHolder × Dev :=
  let (r, d) := d.draw
  let (g, d) := d.draw
  let (a, d) := d.draw
  ({ ctrl := ctrl
     room := true
     region := r % 65536
     gen := g % 2 ^ 32
     addr := ctrl * 2 ^ 48 + a % 2 ^ 48 }, d)
/-- A range controller carries out a decision of the session's home on its own range; it reports a park that its hamper cannot hold as
abandoned (R59, R333; log entry 37). -/
def Dev.carryOut (d : Dev) (m : Memory) (slot decision arg : Nat) : Dev :=
  let x := (d.sess slot).d
  let eq := d.gi F.PRK_POLICY_EQ x.partition
  let rests := (x.state == .open || x.state == .waiting) && !x.turnQueued && !x.ctxValid && (d.sess slot).tierCtx.isNone
  match decision with
  | 0 =>
    if !rests then d
    else (d.beginPark m slot 0 {} x.partition eq 0).getD
      ((((d.setState slot .parking x.tier).stateSync slot []).setState slot x.state x.tier).stateSync slot [])
  | 1 =>
    if x.state = .parked ∧ x.histLen ≤ x.histDurable then (d.supersede slot).toHistory slot x.lastRow x.partition eq 0
    else if rests || x.state == .parked then ((d.supersede slot).beginPark m slot 1 {} x.partition eq 0).getD d
    else d
  | 2 =>
    if rests && x.tier == .hot then
      let (holder, d) := d.holderFor arg
      (d.beginPark m slot 2 holder x.partition eq 0).getD d
    else d
  | 3 =>
    let (v, d) := d.draw
    let d := d.abandonPark slot (v % 5 + 1)
    let y := (d.sess slot).d
    if y.tier ≠ .hot ∧ y.state ≠ .reviving ∧ y.state ≠ .migrating ∧ y.state ≠ .closed then
      (d.beginRevive m slot arg x.partition eq 0).getD d
    else d
  | 4 =>
    let (v, d) := d.draw
    d.abandonPark slot (v % 5 + 1)
  | 5 => d.voidRow slot 0x11
  | 6 => d.discardLater slot arg
  | 7 => d.closeSession slot
  | 8 => d.updDesc slot fun x => { x with ownerEpoch := max x.ownerEpoch arg }
  | _ => d

/-- A range of a split session reports its state and tier: a park that waited for it goes on, one that the range has abandoned is
abandoned, for a cause that no message names and that is a free value, and a revive that waited for it ends (R27, R333). -/
def Dev.rangeSync (d : Dev) (slot src state tier : Nat) (place : List Nat) : Dev :=
  let x := d.sess slot
  let old := x.ranges.find? fun r => r.ctrl == src
  let st := SState.ofCode state
  let new : RangeInfo :=
    { ctrl := src
      index := place.headD ((old.map (·.index)).getD 0)
      lo := place.getD 1 ((old.map (·.lo)).getD 0)
      hi := place.getD 2 ((old.map (·.hi)).getD 0)
      state := st
      tier := Tier.ofCode tier
      tr := (old.map (·.tr)).getD d.now
      expiry := (old.map (·.expiry)).getD d.expiryNs }
  let d := d.updSess slot fun y => { y with ranges := y.ranges.filter (fun r => r.ctrl != src) ++ [new] }
  let gaveUp := (old.any fun r => r.state == .parking) && (st == .open || st == .waiting)
  if gaveUp && x.d.state == .parking then
    let (v, d) := d.draw
    d.abandonPark slot (v % 5 + 1)
  else
    let d := d.checkPark slot
    if ((d.revive slot).map (·.whole)).getD false then d.revived slot (d.sess slot).d.lastRow else d
/-- STATE_SYNC at the home: state and tier as the owner reports them, with the mirrored descriptor refreshed; a session that the owner has
closed is closed here too, and stays so, since GONE is final (R29, R102, R334); flushed tokens go to the home's own history object, and
SYNC_ACK follows once they are durable (R427, R428). At the controller of a range, or at an owner elsewhere, a STATE_SYNC of the home is a
decision that it carries out (R59, R333; log entry 37). -/
def execStateSync (src sid epoch state tier histLen : Nat) (tokens : List Nat) : State → Host.Outcome State Fault Refusal :=
  onDev fun m d =>
    let d := d.heard src svcOwner sid
    match d.slotOf sid with
    | none => d.syncAck src sid epoch histLen .staleGen
    | some slot =>
      let x := (d.sess slot).d
      if d.homeOf sid = src ∧ !d.isHome sid ∧ x.ownerEpoch = epoch ∧ d.serving slot then
        (d.carryOut m slot (tokens.headD 9) (tokens.getD 1 0 + 2 ^ 32 * tokens.getD 2 0)).syncAck src sid epoch histLen .ok
      else if !d.isHome sid ∨ x.ownerEpoch ≠ epoch then d.syncAck src sid epoch histLen .staleGen
      else if x.ownerCtrl ≠ src then
        (if x.split then (d.rangeSync slot src state tier tokens).syncAck src sid epoch histLen .ok
         else d.syncAck src sid epoch histLen .staleGen)
      else if x.state = .closed then d.syncAck src sid epoch histLen .ok
      else if SState.ofCode state = .closed then
        (((d.updOwn fun o => { o with homeLeases := NMap.del o.homeLeases sid }).writeDir sid none none).closeSession slot).syncAck src sid
          epoch histLen .ok
      else
        let d := d.updDesc slot fun x => { x with
          state := if SState.ofCode state = .free then x.state else SState.ofCode state
          tier := Tier.ofCode tier
          idleSince := 0 }
        let d := if x.tier = Tier.ofCode tier ∧ tokens.isEmpty then d else d.refresh slot
        if tokens.isEmpty then d.syncAck src sid epoch histLen .ok
        else
          let lo := histLen - tokens.length
          let made := if (d.obj x.histHandle).isSome then some (x.histHandle, d)
            else d.createObj (slotDie slot) 2 sid x.partition 0
          match made with
          | none => d.syncAck src sid epoch histLen .noSpace
          | some (hd, d) =>
            let d := d.updDesc slot fun x => { x with histHandle := hd }
            match d.growObj hd (ceilDiv (4 * histLen) 16384) with
            | none => d.syncAck src sid epoch histLen .noSpace
            | some d =>
              let d := d.updSess slot fun y => { y with
                hist := y.hist.take lo ++ List.replicate (lo - y.hist.length) 0 ++ tokens
                d := { y.d with histLen := histLen } }
              let d := d.writeObj hd (4 * lo) (tokens.flatMap (leBytes 4))
              let d := d.updOwn fun o => { o with syncs := o.syncs ++ [(sid, src, histLen)] }
              (d.mirrorHist slot lo histLen).ackSyncs

/-- SYNC_ACK at the owner: the acknowledged tokens count as durable (R428). -/
def execSyncAck (src sid epoch status histLen : Nat) : State → Host.Outcome State Fault Refusal :=
  onDev fun _ d => d.onHall src svcOwner sid fun d =>
    match d.slotOf sid with
    | none => d
    | some slot =>
      let x := (d.sess slot).d
      if status ≠ 0 ∨ !d.away slot ∨ d.homeOf sid ≠ src ∨ x.ownerEpoch ≠ epoch then d
      else (d.updDesc slot fun x => { x with histDurable := max x.histDurable (min histLen x.histLen) }).checkPark slot

/-! ## Directory messages (R438, R439) -/

/-- DIR_PUT at a shard holder (R438). -/
def execDirPut (src sid epoch owner acting buddy tier : Nat) : State → Host.Outcome State Fault Refusal :=
  onDev fun _ d => d.onHall src svcDir sid fun d =>
    let e : DirEntry :=
      { sid := sid
        ownerEpoch := epoch
        ownerCtrl := owner
        actingHome := acting
        buddy := buddy
        tier := tier }
    let (st, d) := d.storeDir sid (some e)
    d.send src svcDir (d.ownMsg 18 st.code sid epoch owner 0 0 0 0 0 0 [])

/-- DIR_DEL at a shard holder (R438). -/
def execDirDel (src sid : Nat) : State → Host.Outcome State Fault Refusal :=
  onDev fun _ d => d.onHall src svcDir sid fun d =>
    let d := (d.storeDir sid none).2
    d.send src svcDir (d.ownMsg 18 0 sid 0 0 0 0 0 0 0 0 [])

/-- DIR_ACK at the home: with both holders' answers the write completes (R438). -/
def execDirAck (src sid status : Nat) : State → Host.Outcome State Fault Refusal :=
  onDev fun m d => d.onHall src svcDir sid fun d =>
    match NMap.get? d.own.dirWrites sid with
    | none => d
    | some w =>
      if !w.waits.contains src then d
      else
        let w := { w with
          waits := w.waits.erase src
          failed := w.failed || status != 0 }
        (d.updOwn fun o => { o with dirWrites := NMap.put o.dirWrites sid w }).finishDir m sid

/-- DIR_GET at a shard holder (R433, R439). -/
def execDirGet (src sid : Nat) : State → Host.Outcome State Fault Refusal :=
  onDev fun _ d => d.onHall src svcDir sid fun d =>
    match NMap.get? d.own.dir sid with
    | some e => d.send src svcDir (d.ownMsg 20 0 sid e.ownerEpoch e.ownerCtrl 0 e.tier 0 0 0 0 e.bytes)
    | none => d.send src svcDir (d.ownMsg 20 Status.noSpace.code sid 0 0 0 0 0 0 0 0 [])

/-! ## Lost controllers (R440) -/

/-- A map lists controllers as lost: the directory is asked about the sessions mirrored here and owned here whose home is
among them (R439, R440). -/
def Dev.onLost (d : Dev) : Dev :=
  let lost (sid : Nat) : Bool := d.own.lostCtrls.contains (sidHome sid) && !NMap.has d.own.actHome sid
  let mine := (NMap.keys d.prk.mirrors).filter fun sid => lost sid && !NMap.has d.own.guests sid
  let owned := (d.ses.tab.filter fun e => lost e.2.d.sid && e.2.d.ownerCtrl == d.self).map fun e => e.2.d.sid
  (mine ++ owned).foldl (fun d sid => d.askDir sid) d

/-- DIR_REPLY at the requester (R439, R440). -/
def execDirReply (src sid status epoch owner acting : Nat) : State → Host.Outcome State Fault Refusal :=
  onDev fun _ d => d.onHall src svcDir sid fun d =>
    d.dirKnown sid (if status = 0 then some
      { sid := sid
        ownerEpoch := epoch
        ownerCtrl := owner
        actingHome := acting }
    else none)

/-- REDIRECT: the sender of refused work learns its new target, which it keeps as the session's owner by local knowledge while
it neither owns the session nor is its home (R439, R445). -/
def execRedirect (src sid epoch target : Nat) : State → Host.Outcome State Fault Refusal :=
  onDev fun _ d => d.onHall src svcOwner sid fun d =>
    if (d.slotOf sid).isSome || d.isHome sid || target == d.self then d
    else d.addForward sid target epoch

/-- A forwarding entry expires (R434 step 5). -/
def execForwardingExpiry (sid : Nat) : State → Host.Outcome State Fault Refusal :=
  onDev fun _ d => match d.own.forwards.find? fun f => f.1 == sid with
    | none => d
    | some f => (d.reach f.2.2.2).updOwn fun o => { o with forwards := o.forwards.filter fun f => f.1 != sid }

/-- DRAIN_MS has passed since a map took effect: the previous epoch is no longer accepted (R444). -/
def execDrainWindow : State → Host.Outcome State Fault Refusal :=
  onDev fun _ d => match d.own.previous with
    | none => d
    | some (_, ends) => (d.reach ends).updOwn fun o => { o with previous := none }

end Sys2Proof.Machine
end

