-- ==== Sys2Proof/Machine/Transport.lean ====
section
/-! DEFINITION. The sending side of the hall transport: messages begin, packets are cut, leave, and leave again on other paths (R398 to
R400, R409 to R411). -/
namespace Sys2Proof.Machine
open Sys2Proof

/-! ## Sending (R400, R409 to R411) -/

/-- Packets that wait for a path with room leave, oldest first: one that was not acknowledged in time on the next LIVE path after its last
(R409), any other on the path of R411. -/
def Dev.sendQueued (d : Dev) (i : Nat) : Dev :=
  ((d.conn i).pkts.filter (·.queued)).foldl (fun (d : Dev) k =>
    match (if k.after then (d.conn i).nextPath k.path k.len else (d.conn i).bestPath k.len) with
    | some p => (d.updConn i fun x => { x with pkts := x.pkts.erase k }).sendPkt i p { k with tries := k.tries + 1 }
    | none => d) d
/-- Message m may begin: every message up to m − 64 is resolved (R400). -/
def Conn.mayBegin (x : Conn) : Bool :=
  x.msgs.all fun y => y.type == 2 || match y.msn with
    | some m => decide ((x.nextSend + 2 ^ 32 - m) % 2 ^ 32 < 64)
    | none => true
/-- Messages begin in the order of submission: each takes the next MSN while the window allows. -/
def Conn.beginMsgs (x : Conn) : Conn :=
  (x.msgs.filter (·.msn.isNone)).foldl (fun (x : Conn) y =>
    if x.mayBegin then
      { x with
        nextSend := (x.nextSend + 1) % 2 ^ 32
        msgs := x.msgs.erase y ++ [{ y with msn := some x.nextSend }] }
    else x) x
/-- Bytes of a message that its packets carry: a READ_REQ carries none. -/
def QMsg.wire (y : QMsg) : Nat := if y.type = 1 then 0 else y.len
/-- A message has packets that have not been cut. -/
def QMsg.uncut (y : QMsg) : Bool := y.msn.isSome && y.retryAt.isNone && (if y.type = 1 then y.cut == 0 else decide (y.cut < y.len))
/-- The next packet of a message leaves, if a path has room: at most 4,096 bytes (R400, R411). -/
def Dev.cutPkt (d : Dev) (i : Nat) (y : QMsg) : Option Dev :=
  let n := min 4096 (y.wire - y.cut)
  match (d.conn i).bestPath n with
  | none => none
  | some p =>
    let d := d.updConn i fun x => { x with
      msgs := x.msgs.map fun z => if z == y then { z with cut := z.cut + (if y.type = 1 then 1 else n) } else z }
    some (d.sendPkt i p
      { kind := y.type
        msn := y.msn.getD 0
        offset := if y.type = 1 then 0 else y.cut
        len := n
        first := d.now })
/-- Packets leave while a begun message has some left and a path has room. -/
def Dev.pump (i : Nat) : Nat → Dev → Dev
  | 0, d => d
  | n + 1, d =>
    match (d.conn i).msgs.find? (·.uncut) with
    | none => d
    | some y => match d.cutPkt i y with
      | none => d
      | some d => Dev.pump i n d
/-- Packets that the messages of a connection still have to send. -/
def Conn.toCut (x : Conn) : Nat := x.msgs.foldl (fun n y => n + ceilDiv (y.wire + 1 - y.cut) 4096 + 1) 0
/-- REKEY leaves on the open connection when the sender's TSN has reached 2^47 (R399). -/
def Dev.startRekey (d : Dev) (i : Nat) : Dev :=
  let x := d.conn i
  if x.state != .opened || x.rekeying then d
  else
    let (x, d) := d.propose x
    (d.setConn i { x with rekeying := true }).sendCtl i 11
/-- An open or draining connection sends what it may: a draining one the reads that it still answers (R393, R399, R400, R411). -/
def Dev.sendMore (d : Dev) (i : Nat) : Dev :=
  let x := d.conn i
  if x.state = .opened ∨ x.state = .draining then
    let d := (d.updConn i Conn.beginMsgs).sendQueued i
    let d := Dev.pump i (d.conn i).toCut d
    if 2 ^ 47 ≤ (d.conn i).tsn then d.startRekey i else d
  else d

/-! ## Sending again (R398, R409, R410) -/

/-- A packet is sent again: on the next LIVE path after its last, or when one has room (R409). -/
def Dev.resend (d : Dev) (i : Nat) (k : QPkt) : Dev :=
  let d := d.updConn i fun x => x.dropPkts (· == k)
  let d := d.sat F.HLF_CNT1_RETX 1
  match (d.conn i).nextPath k.path k.len with
  | some p => d.sendPkt i p { k with tries := k.tries + 1 }
  | none => d.updConn i fun x => { x with pkts := x.pkts ++ [{ k with queued := true, after := true }] }
/-- A path is RETIRED: its packets are sent again on others, probes begin, and where no path is left FAIL_MS runs (R398,
R410). `loss`: it is posted and counted. -/
def Dev.retirePath (d : Dev) (i p : Nat) (loss : Bool) : Dev :=
  let x := d.conn i
  if !(((x.paths[p]?).map (·.live)).getD false) then d
  else
    let x := x.updPath p fun q => { q with
      live := false
      replies := 0
      asked := false
      probeAt := d.now + d.g F.HLF_CONN_CFG_PROBE_MS * 1000000 }
    let x := { x with noPathSince := if x.paths.any (·.live) then none else some d.now }
    let d := d.setConn i x
    let d := if loss then (d.sat F.HLF_CNT2_PATHS_RETIRED 1).post0 { typ := 0x1A, args := [x.peer, b2n x.bulk, p] } else d
    (x.pkts.filter fun k => k.path == p && !k.queued).foldl (fun (d : Dev) k => d.resend i k) d

end Sys2Proof.Machine
end

