-- ==== Sys2Proof/Machine/Maps.lean ====
section
/-! DEFINITION. Composition maps: COMPOSE_MAP, its checks, its installation, and the activation of a map for a group (R43,
R380, R385, R418, R441 to R446, R525, R569); OWNER_QUERY (R75, R439). -/
namespace Sys2Proof.Machine
open Sys2Proof

/-! ## The map block (R418, R520, R525) -/

/-- Records of a map block: type and body; none if a record is malformed. -/
def mapRecords : Nat → Bytes → Option (List (Nat × Bytes))
  | 0, bs => if bs.isEmpty then some [] else none
  | n + 1, bs =>
    let len := leAt bs 2 4
    if len < 8 ∨ len % 8 ≠ 0 ∨ bs.length < len then none
    else (mapRecords n (bs.drop len)).map fun rs => (leAt bs 0 2, slice bs 8 (len - 8)) :: rs
/-- Bodies of the records of a type. -/
def recsOf (rs : List (Nat × Bytes)) (t : Nat) : List Bytes := (rs.filter fun r => r.1 == t).map (·.2)
/-- A record's body has at least the bytes of its type. -/
def recOk (r : Nat × Bytes) : Bool :=
  match r.1 with
  | 1 | 2 | 3 => 8 ≤ r.2.length
  | 4 => 4 + 4 * leAt r.2 0 4 ≤ r.2.length
  | 5 => 32 ≤ r.2.length
  | 6 => 48 ≤ r.2.length
  | 7 => 64 + 2 * leAt r.2 23 1 ≤ r.2.length
  | 8 => 40 ≤ r.2.length
  | 9 => 16 ≤ r.2.length
  | _ => false

/-- A MEMBER record: group, member, and what it names. -/
def memberOf (b : Bytes) : Nat × Nat × Member :=
  (leAt b 38 1, leAt b 39 1,
    { qp := leAt b 36 2
      planKey := leAt b 28 4
      planAddr := leAt b 8 8
      maskKey := leAt b 32 4
      maskAddr := leAt b 16 8
      beaconKey := leAt b 24 4
      beaconAddr := leAt b 0 8 })
/-- A GROUP record, without its members and windows. -/
def groupRec (b : Bytes) : MapGroup :=
  { index := leAt b 22 1
    groupId := leAt b 0 4
    tk := leAt b 12 2
    deputy := leAt b 14 2
    tkEpoch := leAt b 8 4
    ctrls := (List.range (leAt b 23 1)).map fun i => leAt b (64 + 2 * i) 2
    slotKib := leAt b 24 1
    slots := leAt b 4 4
    tokEntries := leAt b 18 2
    pushSlot4k := leAt b 25 1
    lanes := leAt b 26 1
    laneSlots := leAt b 27 1
    maskSlots := leAt b 20 2
    maskKib := leAt b 28 1
    samplers := leAt b 32 32 }
/-- The map that a block spells; none if the block is malformed (R525). -/
def mapOf (img : Bytes) (drain : Nat) : Option (CompMap × List (Nat × Bytes)) :=
  if img.length < 64 ∨ leAt img 0 4 ≠ 0x514D4150 ∨ leAt img 4 2 ≠ 1 ∨ leAt img 0x10 4 ≠ img.length then none
  else match mapRecords (leAt img 12 4) (img.drop 64) with
    | none => none
    | some rs =>
      if !rs.all recOk then none
      else match recsOf rs 1 with
        | [self] =>
          let ms := (recsOf rs 8).map memberOf
          let gs := (recsOf rs 7).map groupRec
          let sh := (recsOf rs 4).headD []
          let n := leAt sh 0 4
          let me := leAt self 0 2
          some (
            { epoch := leAt img 8 4
              self := me
              image := img
              domains := (me, leAt self 4 4) :: (recsOf rs 2).map fun b => (leAt b 0 2, leAt b 4 4)
              buddies := [(me, leAt self 2 2)]
              shardLog2 := Nat.log2 n
              shards := (List.range n).map fun i => (i, leAt sh (4 + 4 * i) 2, leAt sh (6 + 4 * i) 2)
              lost := (recsOf rs 3).map fun b => leAt b 0 2
              groups := gs.map fun g => { g with members := (ms.filter fun m => m.1 == g.index).map (·.2) }
              moves := (recsOf rs 9).map fun b => (leAt b 0 8, leAt b 8 2)
              drain := drain }, rs)
        | _ => none

/-! ## Checks (R42, R43, R309, R385, R418, R438, R441, and the ranges of the group registers) -/

/-- A group record is within the ranges of its registers and names its members and controllers whole. -/
def MapGroup.ok (g : MapGroup) (members : Nat) : Bool :=
  g.index < 64 && g.groupId != 0 && 1 ≤ members && members ≤ 256 && g.members.length == members &&
    (List.range members).all (fun m => g.members.any fun e => e.1 == m) && 1 ≤ g.ctrls.length && g.ctrls.length ≤ 64 &&
    distinct g.ctrls && g.ctrls.all (· != 0) && g.ctrls.contains g.tk && (g.deputy == 0 || g.ctrls.contains g.deputy) &&
    4 ≤ g.slotKib && g.slotKib ≤ 64 && 64 ≤ g.slots && g.slots ≤ 65536 && 1 ≤ g.tokEntries && g.tokEntries ≤ 32768 &&
    1 ≤ g.pushSlot4k && g.pushSlot4k ≤ 80 && 1 ≤ g.lanes && g.lanes ≤ 128 && 1 ≤ g.laneSlots && 1 ≤ g.maskSlots && g.maskSlots ≤ 32768 &&
    1 ≤ g.maskKib && g.maskKib ≤ 128
/-- A queue pair from its record (R418). -/
def qpOf (b : Bytes) : Nat × Qp :=
  (fieldAt b 0 0 16,
    { state := .rts
      port := fieldAt b 0 16 4
      partition := fieldAt b 0 20 5
      peerQpn := fieldAt b 8 0 24
      sqPsn := fieldAt b 8 24 24
      rqPsn := fieldAt b 0x10 0 24
      timeout := fieldAt b 0x10 24 5
      retry := fieldAt b 0x10 29 3
      tclass := fieldAt b 0x10 32 8
      pkey := fieldAt b 0x10 40 16
      peerGid := leAt b 0x18 16
      group := fieldAt b 0x28 0 8
      member := fieldAt b 0x28 8 8
      memberValid := fieldAt b 0x28 16 1 == 1 })
/-- Role of a port under a map: that of its PORT record, else OFF. -/
def roleIn (ports : List Bytes) (p : Nat) : Nat := match ports.find? fun b => leAt b 26 1 == p with
  | some b => leAt b 27 1
  | none => 0
/-- Queue pairs bound to a port: not in RESET (R385). -/
def Dev.portBound (d : Dev) (p : Nat) : Bool := d.hall.qps.any fun e => e.2.port == p && e.2.state != .reset
/-- The map is well formed as a whole. -/
def mapOk (c : CompMap) (rs : List (Nat × Bytes)) : Bool :=
  let ports := recsOf rs 5
  let named := c.groups.flatMap (fun g => g.tk :: g.deputy :: g.ctrls) ++ c.lost ++ c.shards.flatMap (fun s => [s.2.1, s.2.2]) ++
    c.moves.map (·.2) ++ c.buddies.map (·.2)
  c.self != 0 && c.epoch != 0 &&
  (recsOf rs 7).all (fun b => (c.groups.find? fun g => g.index == leAt b 22 1).any fun g => g.ok (leAt b 16 2)) &&
  distinct (c.groups.map (·.index)) && distinct (c.groups.map (·.groupId)) &&
  named.all (fun n => n == 0 || c.domains.any fun e => e.1 == n) &&
  (c.shards.isEmpty || (c.shards.length == 2 ^ c.shardLog2 && c.shards.length ≤ 65536 && c.shards.all fun s =>
    s.2.1 != 0 && s.2.2 != 0 && (c.domains.find? fun e => e.1 == s.2.1).map (·.2) != (c.domains.find? fun e => e.1 == s.2.2).map (·.2))) &&
  ports.all (fun b => leAt b 26 1 < 16 && leAt b 27 1 ≤ 2 && leAt b 24 2 < 4095) && distinct (ports.map fun b => leAt b 26 1) &&
  (recsOf rs 6).all (fun b => (!(qpOf b).2.memberValid || (qpOf b).2.group < 64) && roleIn ports (qpOf b).2.port == 1) &&
  distinct ((recsOf rs 6).map fun b => (qpOf b).1) &&
  (recsOf rs 8).all (fun b => c.groups.any fun g => g.index == (memberOf b).1)
/-- A session is moved by a map. -/
def CompMap.movesIt (c : CompMap) (sid : Nat) : Bool := c.moves.any fun e => e.1 == sid
/-- The map takes this controller out of a group of a session that it owns and that the map does not move (R441). -/
def Dev.strands (d : Dev) (c : CompMap) : Bool :=
  d.ses.tab.any fun e =>
    let x := e.2.d
    x.ownerCtrl == d.self && x.state != .closed && d.gid x.group != 0 && !c.movesIt x.sid &&
      !(c.groups.any fun g => g.index == x.group && g.groupId == d.gid x.group && g.ctrls.contains c.self)
/-- What makes a whole map BUSY: the controller's id while it holds sessions (R422), a port's role while a queue pair is bound
to it (R385), fewer mask slots than are bound (R320). -/
def Dev.mapBusy (d : Dev) (c : CompMap) (rs : List (Nat × Bytes)) : Bool :=
  (c.self != d.self && !d.ses.tab.isEmpty) ||
  ((List.range 16).any fun p => roleIn (recsOf rs 5) p != d.gi F.HLF_PORT_ROLE p && d.portBound p) ||
  (c.groups.any fun g => decide (g.maskSlots < (d.maskSlots g.index).length) ||
    (d.maskSlots g.index).any fun i => decide (g.maskSlots ≤ i))

/-! ## Windows (R148, R260, R291, R380) -/

/-- The sizes of a group's windows: members, slots, KiB, token entries, push slot units, lanes, lane slots. -/
def MapGroup.shape (g : MapGroup) : List Nat :=
  [g.members.length, g.slots, g.slotKib, g.tokEntries, g.pushSlot4k, g.lanes, g.laneSlots]
/-- The sizes of the windows that a group has in use. -/
def Dev.winShape (d : Dev) (g : Nat) : List Nat :=
  [d.gi F.TIM_GRP_SHAPE_MEMBERS g, d.gi F.ATT_GRP_SLOTS_SLOTS g, d.gi F.ATT_GRP_IN_SLOT_KIB g, d.gi F.TOK_GRP_IN_ENTRIES g,
   d.gi F.ATT_GRP_PUSH_SLOT_4K g, d.gi F.ATT_GRP_PUSH_LANES g, d.gi F.ATT_GRP_PUSH2_LANE_SLOTS g]
/-- Bytes of a group's doorbell, ingest, token and push windows. -/
def MapGroup.winBytes (g : MapGroup) (k : Nat) : Nat :=
  let m := g.members.length
  if k = 0 then 4096
  else if k = 1 then m * g.slots * g.slotKib * 1024
  else if k = 2 then m * (ceilDiv (64 + 16 * g.tokEntries) 4096 * 4096)
  else g.lanes * g.laneSlots * g.pushSlot4k * 4096
/-- The windows of a group are created: doorbell, ingest, token, push west, push east. The controller chooses their bases,
free values (log entry 2); the push windows lie at one offset on both dies (R281). -/
def Dev.newWindows (d : Dev) (g : MapGroup) : Option (MapGroup × Dev) :=
  let (b0, d) := d.draw
  let (b1, d) := d.draw
  let (b2, d) := d.draw
  let (b3, d) := d.draw
  let make (acc : Option (List (Nat × Nat) × Dev)) (k : Nat) : Option (List (Nat × Nat) × Dev) := acc.bind fun (ws, d) =>
    let n := g.winBytes k
    let place := if k = 4 then (ws[3]?).map fun w => 2 ^ 47 + w.2
      else if k = 3 then d.hbmPlace [0, 1] n 4096 b3
      else d.hbmPlace [0] n 4096 (if k = 0 then b0 else if k = 1 then b1 else b2)
    place.bind fun base =>
      (d.newRegion { base := base, length := n, write := true, qht := 3 ≤ k, roce := true }).map fun x => (ws ++ [(x.1, base)], x.2)
  ((List.range 5).foldl make (some ([], d))).map fun (ws, d) =>
    let base (k : Nat) : Nat := ((ws[k]?).map (·.2)).getD 0
    ({ g with wins := ws.map (·.1), inBase := base 1, tokBase := base 2, pushBase := base 3 }, d)
/-- A group keeps its windows where their shape stays, and takes new ones where it changes. -/
def Dev.windowsFor (d : Dev) (g : MapGroup) : Option (MapGroup × Dev) :=
  let x := d.group g.index
  if d.gid g.index == g.groupId && d.winShape g.index == g.shape && !x.wins.isEmpty then
    some ({ g with
      wins := x.wins
      inBase := d.gi F.ATT_GRP_IN_BASE g.index
      tokBase := d.gi F.TOK_GRP_IN_BASE g.index
      pushBase := d.gi F.ATT_GRP_PUSH_BASE g.index }, d)
  else d.newWindows g
/-- The groups of a map that concern this controller: those that list it, and those that it is in. -/
def Dev.concerns (d : Dev) (c : CompMap) (g : MapGroup) : Bool := g.ctrls.contains c.self || d.gid g.index == g.groupId
/-- Windows for every group of a map; none if the region table is full. -/
def Dev.mapWindows (d : Dev) (c : CompMap) : Option (CompMap × Dev) :=
  let step (acc : Option (List MapGroup × Dev)) (g : MapGroup) : Option (List MapGroup × Dev) := match acc with
    | none => none
    | some (gs, d) => if !d.concerns c g then some (gs, d) else (d.windowsFor g).map fun x => (gs ++ [x.1], x.2)
  (c.groups.foldl step (some ([], d))).map fun x => ({ c with groups := x.1 }, x.2)
/-- The output entries of the reply: one for each window, then one for each queue pair (R525). -/
def Dev.mapEntries (d : Dev) (c : CompMap) (rs : List (Nat × Bytes)) : List Bytes :=
  (c.groups.flatMap fun g => g.wins.zipIdx.map fun w =>
    pack 32 [⟨0, 0, 8, w.2 + 1⟩, ⟨0, 8, 8, g.index⟩, ⟨0, 16, 16, w.1⟩,
      ⟨8, 0, 64, c.self * 2 ^ 48 + ((NMap.get? d.hall.regions w.1).map (·.base)).getD 0⟩, ⟨0x10, 0, 32, d.regionKey w.1⟩]) ++
  (recsOf rs 6).map fun b =>
    let q := qpOf b
    pack 32 [⟨0, 0, 8, 6⟩, ⟨0, 8, 8, q.2.group⟩, ⟨0, 16, 16, q.1⟩, ⟨8, 0, 64, 0x010000 + q.1⟩, ⟨0x10, 0, 32, q.2.sqPsn⟩,
      ⟨0x10, 32, 32, q.2.rqPsn⟩]

/-! ## Activation (R43, R442 to R444) -/

/-- This controller owns, or holds a range of, a session of a group (R53, R443). -/
def Dev.ownsIn (d : Dev) (g : Nat) : Bool :=
  d.ses.tab.any fun e => e.2.d.group == g && d.serving e.1 && e.2.d.state != .closed
/-- Tiles that wait for a composition map are checked again (R445). -/
def Dev.recheckHeld (d : Dev) : Dev :=
  let ts := d.att.heldTiles
  let ps := d.att.heldPush
  let d := { d with att := { d.att with heldTiles := [], heldPush := [] } }
  let d := ts.foldl (fun d t => d.checkTile t.1 t.2.1 t.2.2) d
  ps.foldl (fun d t => d.checkPush t.1 t.2.1 t.2.2.1 t.2.2.2) d
/-- The installed map becomes current: its predecessor is accepted for the drain window (R444). -/
def Dev.becomeCurrent (d : Dev) : Dev :=
  match d.own.installed with
  | none => d
  | some c =>
    if !d.own.inactive.isEmpty || d.own.current == c.epoch then d
    else
      let old := d.own.current
      (d.updOwn fun o => { o with
        current := c.epoch
        previous := if old = 0 then none else some (old, d.now + c.drain * 1000000) }).recheckHeld
/-- Windows that are no longer used are released (R382). -/
def Dev.dropWindows (d : Dev) (ws keep : List Nat) : Dev :=
  (ws.filter fun w => !keep.contains w).foldl (fun d w => d.dropRegion w) d
/-- A group index is unused (R525). -/
def Dev.clearGroup (d : Dev) (g : Nat) : Dev :=
  let d := (d.endBinding g).dropWindows (d.group g).wins []
  let d := [F.TIM_GRP_CFG_GROUP_ID, F.TIM_GRP_CFG_TK_CTRL, F.TIM_GRP_CFG_DEPUTY, F.TIM_GRP_SHAPE_MEMBERS,
    F.TIM_GRP_SHAPE_CTRLS, F.TIM_GRP_SHAPE_TK_EPOCH, F.TIM_GRP_SHAPE_STAKES, F.TIM_ROW_ROW, F.TIM_ROW_PHASE, F.TIM_ROW_VOIDS,
    F.TIM_STAKE_CLOSED, F.TIM_STAKE_ANY_CLOSED, F.TIM_STAKE_LAGGING].foldl (fun d f => d.si f g 0) d
  let d := d.dropTasks g
  { d with groups := NMap.del d.groups g }
/-- The registers of a group take a record's values (R43, R70, R174, R281, R320). -/
def Dev.groupRegs (d : Dev) (mg : MapGroup) (n : Nat) : Dev :=
  let g := mg.index
  let fresh := d.gid g != mg.groupId
  let d := if fresh || d.tkEpoch g < mg.tkEpoch then
      (((d.si F.TIM_GRP_CFG_TK_CTRL g mg.tk).si F.TIM_GRP_CFG_DEPUTY g mg.deputy).si F.TIM_GRP_SHAPE_TK_EPOCH g mg.tkEpoch).updGroup
        g fun x => { x with silenced := false }
    else d
  let d := if fresh then (d.si F.TIM_ROW_ROW g 0).si F.TIM_ROW_VOIDS g 0 else d
  [(F.TIM_GRP_CFG_GROUP_ID, mg.groupId), (F.TIM_GRP_SHAPE_MEMBERS, mg.members.length), (F.TIM_GRP_SHAPE_CTRLS, n),
   (F.ATT_GRP_IN_BASE, mg.inBase), (F.ATT_GRP_IN_SLOT_KIB, mg.slotKib), (F.ATT_GRP_SLOTS_SLOTS, mg.slots),
   (F.TOK_GRP_IN_BASE, mg.tokBase), (F.TOK_GRP_IN_ENTRIES, mg.tokEntries), (F.ATT_GRP_PUSH_BASE, mg.pushBase),
   (F.ATT_GRP_PUSH_SLOT_4K, mg.pushSlot4k), (F.ATT_GRP_PUSH_LANES, mg.lanes), (F.ATT_GRP_PUSH2_LANE_SLOTS, mg.laneSlots),
   (F.GRM_GRP_MASK_SLOTS, mg.maskSlots), (F.GRM_GRP_MASK_SLOT_KIB, mg.maskKib),
   (F.GRM_GRP_SAMP0_MEMBERS, bits mg.samplers 0 64), (F.GRM_GRP_SAMP1_MEMBERS, bits mg.samplers 64 64),
   (F.GRM_GRP_SAMP2_MEMBERS, bits mg.samplers 128 64), (F.GRM_GRP_SAMP3_MEMBERS, bits mg.samplers 192 64)].foldl
    (fun (d : Dev) e => d.si e.1 g e.2) d
/-- A GROUP record is applied: registers, members, controllers with those that leave, windows (R43, R442, R443). A leaving controller stays
in the list until a report has shown that it owns no session of the group; reports reach the timekeeper, so elsewhere it stays on. Leaving
controllers stand behind the record's own, without a limit to their number: R42's 64 is that of a record (DESIGN CHOICE; log entry 43). -/
def Dev.applyGroup (d : Dev) (mg : MapGroup) : Dev :=
  let g := mg.index
  let old := d.group g
  let gone := old.ctrls.filter fun c => !mg.ctrls.contains c
  let owns (c : Nat) : Bool :=
    if c = d.self then d.ownsIn g else !old.cleared.contains c
  let leaving := gone.filter fun c => !old.leaving.contains c || owns c
  let ctrls := mg.ctrls ++ leaving
  let d := d.groupRegs mg ctrls.length
  (d.updGroup g fun x => { x with
    ctrls := ctrls
    leaving := leaving
    members := mg.members.foldl (fun m e => NMap.put m e.1 e.2) []
    wins := mg.wins }).dropWindows old.wins mg.wins
/-- The installed map is activated for a group (R442, R443): its record, its moves; RECOMPOSED (R487). A group without a
record, or which this controller has left with no session, is unused from then on. -/
def Dev.activate (d : Dev) (m : Memory) (g : Nat) : Dev :=
  match d.own.installed with
  | none => d
  | some c =>
    if !d.own.inactive.contains g then d
    else
      let old := d.group g
      let stays (mg : MapGroup) : Bool := mg.ctrls.contains d.self || !old.leaving.contains d.self || d.ownsIn g
      let moves := c.moves.filter fun e => match d.slotOf e.1 with
        | some s => (d.sess s).d.group == g && d.serving s
        | none => false
      let d := d.updOwn fun o => { o with moves := o.moves.filter (fun e => !moves.any fun f => f.1 == e.1) ++ moves }
      let d := match c.groups.find? fun x => x.index == g with
        | some mg => if stays mg then d.applyGroup mg else d.clearGroup g
        | none => d.clearGroup g
      let d := d.updOwn fun o => { o with inactive := o.inactive.erase g }
      ((d.postAll { typ := 0x32, args := [c.epoch] }).becomeCurrent).tryMoves m

/-! ## Installation (R385, R418, R441, R442, R569) -/

/-- A port takes its role, addresses and priorities; a port without a record is OFF (R385). -/
def Dev.setPort (d : Dev) (ports : List Bytes) (p : Nat) : Dev :=
  match ports.find? fun b => leAt b 26 1 == p with
  | some b =>
    [(F.HLF_PORT_ROLE, leAt b 27 1), (F.HLF_PORT_NH_MAC, leAt b 0 6), (F.HLF_PORT_IP0_ADDR_LO, leAt b 8 8),
     (F.HLF_PORT_IP1_ADDR_HI, leAt b 16 8), (F.HLF_PORT_VLAN, leAt b 24 2), (F.HLF_PORT_PFC_PRIOS, leAt b 28 1)].foldl
      (fun (d : Dev) e => d.si e.1 p e.2) d
  | none => d.si F.HLF_PORT_ROLE p 0
/-- Paths through ports that have left the hall role are retired at once, and not counted as lost; their packets are sent again on others
(R385, R410). -/
def Dev.retirePaths (d : Dev) (before : List Nat) : Dev :=
  let gone := before.filter fun p => !d.hallPorts.contains p
  d.hall.conns.foldl (fun (d : Dev) (e : Nat × Conn) =>
    (List.range e.2.paths.length).foldl (fun (d : Dev) k =>
      if gone.contains (d.pathPort e.2 k) then d.retirePath e.1 k false else d) d) d
/-- Queue pairs follow the map: a record that repeats a pair in RTS leaves it as it is; any other installs it anew; a pair
without a record is in RESET (R418, R525; log entry 42). -/
def Dev.setQps (d : Dev) (recs : List Bytes) : Dev :=
  let same (a b : Qp) : Bool := a.port == b.port && a.partition == b.partition && a.peerQpn == b.peerQpn && a.timeout == b.timeout &&
    a.retry == b.retry && a.tclass == b.tclass && a.pkey == b.pkey && a.peerGid == b.peerGid && a.group == b.group &&
    a.member == b.member && a.memberValid == b.memberValid
  let qps := recs.foldl (fun (m : NMap Qp) b =>
    let q := qpOf b
    match NMap.get? d.hall.qps q.1 with
    | some x => NMap.put m q.1 (if x.state == .rts && same x q.2 then x else q.2)
    | none => NMap.put m q.1 q.2) []
  { d with hall := { d.hall with qps := qps } }
/-- Orphans of the time before the reset are released with the first map (R569). -/
def Dev.dropOrphans (d : Dev) : Dev :=
  d.halves.foldl (fun (d : Dev) h =>
    (h.2.objs.filter fun o => o.2.valid && (o.2.kind == 1 || o.2.kind == 2) && !d.ses.tab.any fun s =>
      let a := mkHandle h.1 o.2.kind o.2.gen o.1
      s.2.d.imageHandle == a || s.2.d.histHandle == a).foldl (fun d o => d.askRelease (mkHandle h.1 o.2.kind o.2.gen o.1)) d) d
/-- The pages that a holder had are gone: the session becomes HISTORY, and COMMITTED 0 with the next boundary (R78, R337). A copy back under way fails, and the session returns to
HISTORY; a rebuild goes on, and would return to it (R87). -/
def Dev.lostPages (d : Dev) (slot : Nat) : Dev :=
  let x := (d.sess slot).d
  let eq := d.gi F.PRK_POLICY_EQ x.partition
  match d.revive slot with
  | some r =>
    let d := (d.setRevive slot { r with c0 := 0 }).updSess slot fun y => { y with
      prevState := .history
      prevTier := .history
      sigs := if r.pushed then y.sigs else []
      coarse := if r.pushed then y.coarse else []
      d := { y.d with tier := .history } }
    let d := if r.pushed then d else d.commitLater slot 0
    let d := (d.tierEvent x.partition eq slot .ok x.lastRow).refresh slot
    if r.mode = 2 then d else d.reviveFailed slot 1
  | none =>
    let d := if x.state = .parking then d.abandonPark slot 4 else d
    ((d.tellRanges slot 1).becomeHistory slot x.lastRow x.partition eq 0).commitLater slot 0
/-- A WARM session whose holder is lost becomes HISTORY, one that parks from the holder's pages too, unless its image is durable
(R337). -/
def Dev.warmLost (d : Dev) : Dev :=
  let gone (slot : Nat) (x : Session) : Bool :=
    d.own.lostCtrls.contains x.warmHolder.ctrl && x.d.ownerCtrl == d.self &&
      (x.d.tier == .warm || (match d.park slot with
        | some p => p.fromWarm && x.d.tier == .hot
        | none => false))
  (d.ses.tab.filter fun e => gone e.1 e.2).foldl (fun (d : Dev) e => d.lostPages e.1) d
/-- A holder answers a WARM copy: it acknowledges the copy, or can no longer take it; or it delivers the pages that a park of a WARM session
waits for, or can no longer; or it has released the pages of a WARM session, which becomes HISTORY (R330, R331, R337). -/
def execWarmCopy (sid : Nat) (ok : Bool) (data : Bytes) : State → Host.Outcome State Fault Refusal :=
  onDev fun _ d => match d.slotOf sid with
    | none => d
    | some slot =>
      let x := d.sess slot
      let gone := if !ok && x.d.tier == .warm && d.owns slot then d.lostPages slot else d
      match d.park slot with
      | none => gone
      | some p =>
        if p.target = 2 then
          (if ok then (d.setPark slot { p with mirrored := true }).checkPark slot
           else (d.endPark slot).tierDone slot x.d.lastRow p.fn p.eq p.hseq .noSpace)
        else if p.target = 0 ∧ p.handle = 0 ∧ p.fromWarm then
          (if ok then
            (d.stageImage slot p (pageIn' (pagePayload (d.prof x).slotBytes) (ceilDiv x.d.committed 64) data)).getD
              (d.abandonPark slot 4)
           else ((d.tellRanges slot 1).becomeHistory slot x.d.lastRow p.fn p.eq p.hseq).commitLater slot 0)
        else gone
/-- A group that is IDLE here has no boundary to wait for: its record is held from acceptance, and its map becomes active with
its first row (R443, R625; log entry 43). -/
def Dev.idleGroups (d : Dev) (c : CompMap) : Dev :=
  (List.range 64).foldl (fun (d : Dev) g =>
    if d.phase g ≠ 0 then d
    else match c.groups.find? fun x => x.index == g with
      | some mg => (d.applyGroup mg).updGroup g fun x => { x with readySent := false, mapReady := x.mapReady.filter fun e => c.epoch ≤ e.2.1 }
      | none => if d.gid g = 0 then d else d.clearGroup g) d
/-- A checked map is installed (R441, R442). -/
def Dev.installMap (d : Dev) (m : Memory) (c : CompMap) (rs : List (Nat × Bytes)) : Dev :=
  let first := d.own.installed.isNone
  let pending := match d.own.installed with
    | some o => if o.epoch = d.own.current then [] else (o.groups.filter fun g => d.own.inactive.contains g.index).flatMap (·.wins)
    | none => []
  let used := (d.groups.flatMap fun e => e.2.wins) ++ c.groups.flatMap (·.wins)
  let d := d.dropWindows pending used
  let before := d.hallPorts
  let was := d.holders
  let d := (d.s F.HLF_SELF_CTRL_ID c.self).updOwn fun o => { o with
    installed := some c
    domains := c.domains
    buddies := c.buddies
    shardLog2 := c.shardLog2
    shards := c.shards
    lostCtrls := c.lost }
  let d := (List.range 16).foldl (fun d p => d.setPort (recsOf rs 5) p) d
  let d := (d.retirePaths before).setQps (recsOf rs 6)
  let d := if first then d.dropOrphans else d
  let d := d.idleGroups c
  let free := c.moves.filter fun e => match d.slotOf e.1 with
    | some s => d.gid (d.sess s).d.group == 0 && d.owns s
    | none => false
  let d := d.updOwn fun o => { o with
    inactive := (List.range 64).filter fun g => d.gid g != 0
    moves := o.moves.filter (fun e => !free.any fun f => f.1 == e.1) ++ free }
  let d := d.becomeCurrent
  (((d.warmLost.onLost).redoDir m was).tryMoves m).checkReadyAll

/-- COMPOSE_MAP (R441, R525): DUP, STALE_GEN, BAD_PARAM, BUSY, NO_SPACE for want of regions, or the map whole. -/
def Dev.composeMap (d : Dev) (m : Memory) (fn outAddr outLen : Nat) (img : Bytes) : Res :=
  match mapOf img (d.g F.TIM_LEASE_DRAIN_MS) with
  | none => d.res .badParam
  | some (c, rs) =>
    let same := (d.own.installed.map fun o => o.epoch == c.epoch && o.image == img).getD false
    if same then d.res .dup
    else if c.epoch < d.installedEpoch then d.res .staleGen
    else if c.epoch = d.installedEpoch ∨ !mapOk c rs ∨ d.strands c then d.res .badParam
    else if d.mapBusy c rs then d.res .busy
    else match d.mapWindows c with
      | none => d.res .noSpace
      | some (c, e) =>
        let es := e.mapEntries c rs
        if outLen < 32 * es.length then { dev := d, st := .badParam, result := leBytes 4 es.length }
        else
          let e := (e.installMap m c rs).emit (.host fn outAddr es.flatten)
          { dev := e, result := leBytes 4 es.length }

/-- COMPOSE_MAP: the map block as read from host memory. -/
def execComposeMap (h : Hdr) (outAddr outLen : Nat) (img : Bytes) : State → Host.Outcome State Fault Refusal :=
  onDev fun m d =>
    d.command h 0x0803 (fromZero h) true true fun d => d.needs [] fun d => d.composeMap m h.fn outAddr outLen img

/-! ## OWNER_QUERY (R75, R89, R439) -/

/-- OWNER_QUERY: what the descriptor here says, the home's record of a session owned elsewhere included. -/
def execOwnerQuery (h : Hdr) (sid addr : Nat) (desc : Bool) : State → Host.Outcome State Fault Refusal :=
  onDev fun _ d =>
    d.command h 0x0804 (d.mayUse h.fn sid false) true desc fun d => d.needs [] fun d =>
      match d.slotOf sid with
      | none =>
        if sidHome sid = d.self then
          (if d.flt.quarantined.contains (sidSlot sid) then d.faultRes 2 else d.res .staleGen)
        else (d.seek sid).remap (d.ownerHint sid)
      | some slot =>
        if (d.sess slot).lost then d.faultRes 2 else
        let x := (d.sess slot).d
        let d := if desc then d.emit (.host h.fn addr x.bytes) else d
        { dev := d
          result := leBytes 4 x.ownerEpoch ++ leBytes 4 x.histLen ++ leBytes 4 x.committed ++ leBytes 2 x.ownerCtrl ++
            leBytes 1 x.state.code ++ leBytes 1 (d.sess slot).coldest.code ++ leBytes 1 x.lease.code }

end Sys2Proof.Machine
end

