-- ==== Sys2Proof/Machine/Boundary.lean ====
section
/-! DEFINITION. The end-of-row steps of a decode group: intake, text, grammar, reclamation, admission, shaping, records
(R49, R50, R58, R79, R131, R255 to R265, R292, R307, R309, R471 to R474). -/
namespace Sys2Proof.Machine
open Sys2Proof

/-! ## The begin of a boundary (R50, R58, R157) -/

/-- Every held tile of a group's stakes goes out, then the late ones (R58, R153, R156). -/
def Dev.flushRow (d : Dev) (g : Nat) : Dev :=
  let d := d.flushAll g
  (d.att.lateQ.filter fun e => e.1 == g).foldl (fun d e => d.flushStake g e.2.1 e.2.2.2.2.stake) d
/-- What the PUSH_PLACE steps of a group's row have left is placed as the row ends, and a page that a push has filled and that no SIGNATURE
step has signed gets its signature in the row that filled it (R205, R263; log entry 73). -/
def Dev.endPushes (d : Dev) (m : Memory) (g : Nat) : Dev :=
  let us := d.att.pushes.filter fun u => u.group == g
  let d := us.foldl (fun (d : Dev) u =>
    ((u.waiting.map (·.layer)).dedup).foldl (fun (d : Dev) l => d.placeLate g (slotDie u.slot) l) d) d
  us.foldl (fun (d : Dev) u => d.signSession (Memory.apply m d.wr) u.slot (d.sess u.slot).unsigned) d
/-- Row boundary n begins: a row timer's boundary voids the row for every session of the group, and its unclosed stakes
count as closed (R58); tiles that are still unanswered are answered VOIDED. -/
def Dev.beginBoundary (d : Dev) (g : Nat) (timedOut : Bool) : Dev :=
  let d := if timedOut then ((d.group g).batch.foldl (fun d e => d.voidRow e.slot 0x11) d) else d
  let slots := ((d.att.work.filter fun w => w.group == g && !w.emitted).map (·.slot)).dedup
  let d := slots.foldl (fun d s => d.nullWork s .voided) d
  let d := if timedOut then
      ((d.si F.TIM_STAKE_CLOSED g (d.gi F.TIM_GRP_SHAPE_STAKES g - 1)).si F.TIM_STAKE_ANY_CLOSED g 1).si F.TIM_STAKE_LAGGING g 0
    else d
  let d := (d.setPhase g .boundary).updGroup g fun x => { x with
    stakeDeadline := none
    rowDeadline := none
    rowVoided := timedOut
    boundaryDone := false
    reportPending := none }
  let d := ((d.flushRow g).dropTasks g).liftFences g
  { d with att := { d.att with work := d.att.work.filter fun w => w.group != g } }

/-! ## Step 1: token intake (R79, R255, R264, R265, R292) -/

/-- The context of tier work under which a session takes part in rows (R84, R85). -/
def Dev.tierRow (d : Dev) (slot : Nat) : Option Nat := (d.sess slot).tierCtx.filter fun i => (d.ctx i).batchSlot.isSome
/-- Context under which a session takes part in rows: its turn's, or that of a rebuild. -/
def Dev.rowCtx (d : Dev) (slot : Nat) : Option Nat :=
  match d.turnCtx slot with
  | some i => if (d.ctx i).batchSlot.isSome then some i else d.tierRow slot
  | none => d.tierRow slot
/-- Running totals of a session's charges (R471). -/
def Dev.updTally (d : Dev) (slot : Nat) (f : Tally → Tally) : Dev :=
  { d with iso := { d.iso with tallies := NMap.put d.iso.tallies slot (f (NMap.getD d.iso.tallies slot {})) } }
/-- Signatures computed in the row become valid, and the coarse records of the blocks that are full with them (R205, R208). -/
def Dev.commitSigs (d : Dev) (slot : Nat) : Dev :=
  let x := d.sess slot
  if x.newSigs.isEmpty then d
  else
    let sigs := x.newSigs.foldl (fun (m : NMap Nat) e => NMap.put m e.1 e.2) x.sigs
    let blocks := (x.newSigs.map fun e => e.1 / 65536 * 1024 + e.1 % 65536 / 64).dedup
    let full (b : Nat) : Option (List Nat) :=
      ((List.range 64).mapM fun i => NMap.get? sigs (b / 1024 * 65536 + b % 1024 * 64 + i))
    let coarse := blocks.foldl (fun (m : NMap Nat) b => match full b with
      | some ss => NMap.put m b (coarseOf ss)
      | none => m) x.coarse
    d.setSess slot { x with
      sigs := sigs
      coarse := coarse
      newSigs := [] }
/-- COMMITTED advances by positions of a row or of a push (R79, R255, R264). -/
def Dev.advanceTo (d : Dev) (slot n : Nat) : Dev :=
  ((d.updDesc slot fun x => { x with committed := n }).commitSigs slot)
/-- What a row computed for a session and does not commit is discarded (R205). -/
def Dev.discardRow (d : Dev) (slot : Nat) : Dev :=
  d.updSess slot fun x => { x with
    newSigs := []
    unsigned := [] }
/-- A row is voided for a session that is pushed to: its placed pieces stay, and the signatures that the row computed are discarded, to be
computed again (R205, R263). -/
def Dev.unsign (d : Dev) (slot : Nat) : Dev :=
  d.updSess slot fun x => { x with
    newSigs := []
    unsigned := x.unsigned ++ (NMap.keys x.newSigs).filter fun k => !x.unsigned.contains k }
/-- Tokens that the members reported for a session, each once (R292). -/
def Group.reported (x : Group) (sid : Nat) : List Nat :=
  (((x.tokens.flatMap (·.2)).filter fun e => e.sid == sid).map (·.token)).dedup
/-- A listed session's token: accepted, or rejected with a reason 1 to 4 (R292). -/
def Dev.checkToken (d : Dev) (slot : Nat) (toks : List Nat) : Except Nat Nat :=
  match toks with
  | [] => .error 1
  | [t] =>
    if (d.tkzOf slot).vocab ≤ t then .error 3
    else if (d.sess slot).d.grammarBound && !(((d.garea slot).mask.map fun a => a.contains t).getD true) then .error 4
    else .ok t
  | _ => .error 2
/-- A rejected token: the row is voided as to commitment; TOKEN_REJECTED goes to partition 0 and to the context's queue, once
where they are the same. The token that the event names is a free value where the members report none or several (log
entry 2). -/
def Dev.rejectToken (d : Dev) (slot i row why : Nat) (toks : List Nat) : Dev :=
  let (v, d) := d.draw
  let c := d.ctx i
  let tok := match toks with
    | [t] => t
    | _ => v % 2 ^ 32
  let ev : Event :=
    { typ := 0x0D
      subject := c.sid
      cause := why
      hseq := c.hseq
      args := [row, tok] }
  let d := d.post0 ev
  let d := if c.fn = 0 ∧ d.queueOf 0 c.eq = d.defaultQueue 0 then d else d.post c.fn c.eq ev
  let d := d.cntP F.TOK_CNT1_REJECTED (d.sess slot).d.partition 1 false
  let d := if why = 4 then d.sat F.GRM_CNT0_OUT_OF_MASK 1 else d
  (d.discardRow slot).updCtx i fun c => { c with voidRows := c.voidRows + 1 }

/-- What the intake of a row has gathered: sessions that took part, tokens appended, rows voided with their causes. -/
structure Intake where
  dev : Dev
  parts : List Nat := []
  appended : List (Nat × Nat) := []
  voids : List (Nat × Nat) := []
  deriving DecidableEq, Repr

/-- Ends that the intake decides: END_TOKEN, MAX_NEW, CONTEXT_LIMIT (R96). -/
def Dev.intakeEnds (d : Dev) (slot i tok : Nat) : Dev :=
  let c := d.ctx i
  let x := (d.sess slot).d
  let d := if tok = d.endTok slot then d.latch i 1 else d
  let d := if c.maxNew ≠ 0 ∧ c.maxNew ≤ c.genTokens then d.latch i 2 else d
  if (if x.select then 4194304 else 1048576) ≤ x.histLen then d.latch i 8 else d
/-- A sampled token is appended to the history and counted (R79, R94). -/
def Dev.appendToken (d : Dev) (slot i tok : Nat) : Dev :=
  let x := d.sess slot
  let d := (d.awaitHist x.d.sid x.d.histLen).updSess slot fun x => { x with
    hist := x.hist ++ [tok]
    d := { x.d with histLen := x.d.histLen + 1 } }
  let d := d.updCtx i fun c => { c with genTokens := c.genTokens + 1 }
  (d.updTally slot fun t => { t with gen := t.gen + 1 }).intakeEnds slot i tok
/-- Pieces of a push: layers times pages. -/
def Dev.pushPieces (d : Dev) (p : Push) : Nat :=
  (d.prof (d.sess p.slot)).layers * ((p.first + p.count - 1) / 64 + 1 - p.first / 64)
/-- A push whose pieces are all placed commits; a rebuild then ends, or goes on with its next push (R264, R340). A rebuild whose history a
cancelled turn has shortened meanwhile commits what is left of it, so that COMMITTED stays within HIST_LEN (R78; log entry 30). -/
def Dev.commitPush (d : Dev) (slot i row : Nat) (p : Push) : Dev :=
  if p.placed.length < d.pushPieces p then d
  else
    let d := p.waiting.foldl (fun d t => d.pushAck p.group t .dup 0) d
    let d := { d with att := { d.att with pushes := d.att.pushes.filter fun q => q.slot != slot } }
    let h := (d.sess slot).d.histLen
    let n := if p.rebuild then min (p.first + p.count) (h - 1) else p.first + p.count
    let d := if n < p.first + p.count then d.dropPages slot ((d.sess slot).pagesFrom (firstWholePage n)) else d
    let d := d.advanceTo slot n
    if !p.rebuild then d.updTally slot fun t => { t with pre := t.pre + p.count }
    else
      let d := (d.clearAbove slot).notePushed slot
      let d := d.updTally slot fun t => { t with reb := t.reb + p.count }
      if n + 1 < h then d.leaveRows slot i else d.revived slot row

/-- A row ends for a session: one not voided by a unit fault ends its run of such rows (R585). -/
def Dev.noteRun (d : Dev) (slot : Nat) : Dev :=
  match NMap.get? d.flt.voidRuns slot with
  | none => d
  | some v =>
    let runs := if v % 2 = 1 then NMap.put d.flt.voidRuns slot (v - 1) else NMap.del d.flt.voidRuns slot
    { d with flt := { d.flt with voidRuns := runs } }
/-- A chunk of more than one position commits, and is kept for the BACKWARD tiles of its positions (R214). -/
def Dev.noteChunk (d : Dev) (e : BatchEntry) : Dev :=
  if e.npos ≤ 1 then d else d.updSess e.slot fun x => { x with chunks := x.chunks ++ [(e.pos, e.pos + e.npos)] }
/-- Intake of one entry of the batch list (R49, R58, R79, R99, R255, R264, R292). -/
def Intake.entry (g row : Nat) (lists : Group) (a : Intake) (e : BatchEntry) : Intake :=
  let x := a.dev.sess e.slot
  if e.role = .held ∨ x.d.sid ≠ e.sid then a
  else match a.dev.rowCtx e.slot with
  | none => { a with dev := a.dev.updSess e.slot fun x => { x with
      inRow := false
      voided := none
      d := if x.inRow then { x.d with lastRow := row } else x.d } }
  | some i =>
    let (c, d) := a.dev.readCtx i x.d.partition
    let cause := x.voided
    let d := d.updSess e.slot fun x => { x with
      inRow := false
      voided := none
      d := { x.d with lastRow := row } }
    let d := d.noteRun e.slot
    let toks := lists.reported e.sid
    let a := { a with dev := d, parts := a.parts ++ [e.slot] }
    let again := if e.role = .chunk ∨ e.role = .chunkLast then some (e.pos + e.npos) else none
    let d := d.updCtx i fun c => { c with redo := none }
    let void (d : Dev) : Dev := d.updCtx i fun c => { c with
      voidRows := c.voidRows + 1
      redo := again }
    if c.kill then
      let d := (void d).discardRow e.slot
      { a with dev := if c.keep then d else d.toBase e.slot i }
    else match cause with
    | some why =>
      let d := if e.role = .push ∧ (d.pushOf e.slot).isSome then (void d).unsign e.slot
        else (void d).discardRow e.slot
      { a with dev := d, voids := a.voids ++ [(e.slot, why)] }
    | none =>
      match e.role with
      | .push => match d.pushOf e.slot with
        | some p => { a with dev := d.commitPush e.slot i row p }
        | none => { a with dev := d }
      | .chunk =>
        let d := if toks.isEmpty then d else d.sati F.ATT_GRP_PCNT_REJECTED g 1
        let d := (d.advanceTo e.slot (e.pos + e.npos)).noteChunk e
        { a with dev := d.updTally e.slot fun t => { t with pre := t.pre + e.npos } }
      | _ => match d.checkToken e.slot toks with
        | .error why => { a with dev := (d.rejectToken e.slot i row why toks).updCtx i fun c => { c with redo := again } }
        | .ok tok =>
          let d := (d.advanceTo e.slot (e.pos + e.npos)).noteChunk e
          let d := if e.role = .chunkLast then
              (d.updTally e.slot fun t => { t with pre := t.pre + e.npos }).updCtx i fun c => { c with
                phase := if c.kind = .turn then .decode else c.phase }
            else d
          { a with
            dev := d.appendToken e.slot i tok
            appended := a.appended ++ [(e.slot, tok)] }
/-- Tokens of sessions that the row did not list are counted, once per session (R292). -/
def Dev.countStray (d : Dev) (x : Group) : Dev :=
  let sids := ((x.tokens.flatMap (·.2)).map (·.sid)).dedup
  (sids.filter fun s => !x.batch.any fun e => e.sid == s).foldl (fun d s => d.cntP F.TOK_CNT1_STRAY (d.partOf s) 1 false) d
/-- Where the counts of the split sessions that took part in a row stood before its intake is kept, of their last four rows (R59). -/
def Dev.noteRows (before d : Dev) (row : Nat) (parts : List Nat) : Dev :=
  parts.foldl (fun (d : Dev) s =>
    if !(d.sess s).d.split then d
    else
      let x := (before.sess s).d
      d.updSess s fun y =>
        let r : RowMark :=
          { row := row
            committed := x.committed
            histLen := x.histLen
            after := y.d.histLen }
        { y with rowStarts := (r :: y.rowStarts).take 4 }) d
/-- A beacon marks controllers for the row before it: a split session of the group with a range on one of them loses its position of that
row on every range; the home, which knows all its ranges, tells them and the owner (R59; log entry 37). -/
def Dev.markSplit (d : Dev) (g row : Nat) (marked : List Nat) : Dev :=
  if marked.isEmpty then d
  else
    ((NMap.keys d.ses.tab).filter fun s =>
      let x := (d.sess s).d
      x.group == g && x.split && (d.serving s || d.homeOf x.sid == d.self) && (d.rangeCtrls s).any marked.contains).foldl
        (fun (d : Dev) s => (d.tellAll s 6 row).discardLater s row) d
/-- What waits for a boundary of a group takes effect before token intake: rows to discard, and falls of COMMITTED (R59, R78). -/
def Dev.applyPend (d : Dev) (g : Nat) : Dev :=
  let mine (x : Session) : Bool := x.d.group == g || d.phase x.d.group == 0
  (d.ses.tab.filter fun e => mine e.2).foldl (fun (d : Dev) e =>
    let d := match e.2.pendDiscard with
      | some n => d.discardFrom e.1 n
      | none => d
    match e.2.pendCommitted with
    | some n => (d.updSess e.1 fun x => { x with
        pendCommitted := none
        d := { x.d with committed := n } }).clearAbove e.1
    | none => d) d
/-- ATT_LOAD after a row: its longest planned engine time, and array-busy cycles, which are a free value, in units of 1,024 cc (R172; log
entry 2). -/
def Dev.showLoad (d : Dev) (g : Nat) : Dev :=
  let (busy, d) := d.draw
  (d.s F.ATT_LOAD_ROW_CC ((d.group g).planCc / 1024 % 2 ^ 32)).s F.ATT_LOAD_ARRAY_BUSY (busy % 2 ^ 32)
/-- Step 1 (R131). -/
def Dev.intake (d : Dev) (g row : Nat) : Intake :=
  let x := d.group g
  let a := x.batch.foldl (Intake.entry g row x) { dev := d.countStray x }
  { a with dev := a.dev.updGroup g fun y => { y with tokens := [] } }

/-! ## Steps 2 and 3 (R131, R293 to R316) -/

/-- The appended tokens are detokenized and matched against stop strings (R293 to R298, R306). -/
def Dev.detokAll (d : Dev) (xs : List (Nat × Nat)) : Dev := xs.foldl (fun d e => (d.noteUndo e.1).detok e.1 e.2) d
/-- The automata advance; dead-end policies apply to the turns that go on (R297, R312 to R316). -/
def Dev.grammarAll (d : Dev) (xs : List (Nat × Nat)) : Dev :=
  xs.foldl (fun d e =>
    if !(d.sess e.1).d.grammarBound then d
    else
      let d := d.advance e.1 e.2
      match d.turnCtx e.1 with
      | some i => if (d.ctx i).cause.isNone then d.deadEnds e.1 i 5 else d
      | none => d) d

/-! ## Step 4: reclamation (R103, R116, R119, R130, R277) -/

/-- A move whose source is still the owner's alone (R130). -/
def Dev.moveHolds (d : Dev) (v : Move) : Bool :=
  let f := d.frame v.src
  f.refcount == 1 && f.ownerValid && f.owner == v.slot && f.fstate == 2 &&
    (NMap.get? (d.sess v.slot).pt (v.layer * 65536 + v.page)).any fun e => e.pageId == v.src
/-- A completed move: MOVE read the source in the row that ends (R128), and the owner's entry names the copy, whose record is the
source's (R130). -/
def Dev.swapMove (d : Dev) (m : Memory) (v : Move) : Dev :=
  let d := d.heatFrame v.src (d.row (d.sess v.slot).d.group)
  let f := d.frame v.src
  let now := Memory.apply m d.wr
  let d := d.poke (d.frameAddr v.dst) (Memory.readN now (d.frameAddr v.src) (classBytes f.cls))
  let d := d.setFrame v.dst { f with moving := false }
  (d.updSess v.slot fun x => { x with
    pt := NMap.upd x.pt (v.layer * 65536 + v.page) fun e => { e with pageId := v.dst } }).sat F.PGS_CNT_MOVES 1
/-- The moves of a group's sessions are swapped or abandoned, around the emptying of the reclaim list: an abandoned copy is
reclaimed at this boundary, a swapped source at the next (R130, R131). -/
def Dev.reclaimMoves (d : Dev) (m : Memory) (g : Nat) : Dev :=
  let mine (v : Move) : Bool :=
    let h := (d.sess v.slot).d.group
    h == g || d.phase h == 0 || !NMap.has d.ses.tab v.slot
  let vs := d.pgs.moves.filter mine
  let good := vs.filter d.moveHolds
  let bad := vs.filter fun v => !d.moveHolds v
  let d := { d with pgs := { d.pgs with moves := d.pgs.moves.filter fun v => !mine v } }
  let d := bad.foldl (fun (d : Dev) v =>
    let d := d.setFrame v.dst { d.frame v.dst with refcount := 0, fstate := 3 }
    if (d.frame v.src).fstate = 0 then d else d.setFrame v.src { d.frame v.src with moving := false }) d
  let d := ((d.rowRead g).reclaimFrames).reclaimBlocks
  good.foldl (fun (d : Dev) v =>
    let d := (d.swapMove m v).readBy v.src g
    d.setFrame v.src { d.frame v.src with refcount := 0, fstate := 3, moving := false, ownerValid := false }) d
/-- A save set is released once no session of its level is admitted, held out or pushing on its die (R277). -/
def Dev.releaseSaves (d : Dev) : Dev :=
  let used (k : Nat) : Bool := (NMap.vals d.ses.ctxs).any fun c =>
    c.batchSlot.isSome && c.prio == k % 8 && slotDie c.slot == k / 8
  (d.att.saveSets.filter fun e => !used e.1).foldl (fun (d : Dev) e =>
    let d := e.2.foldl (fun d id => d.freeFrame id) d
    { d with att := { d.att with saveSets := NMap.del d.att.saveSets e.1 } }) d
/-- A push that has waited PUSH_ROWS rows is reported, and under FALLBACK abandoned (R265). -/
def Dev.stallPushes (d : Dev) (g row : Nat) : Dev :=
  (d.att.pushes.filter fun p => p.group == g && p.lane.isSome && !p.stalled &&
      p.rows ≤ row - p.readyRow).foldl (fun (d : Dev) p =>
    let c := d.ctx p.ctx
    let d := (d.sati F.ATT_GRP_PCNT_STALLED g 1).post c.fn c.eq
      { typ := 0x0A
        subject := c.sid
        hseq := c.hseq
        args := [p.id, row - p.readyRow] }
    if c.fallback && d.gi F.ATT_GRP_SCHED_CHUNK_OK g == 1 then
      ((d.dropPushes p.slot).discardRow p.slot).updCtx p.ctx fun c => { c with push := false }
    else { d with att := { d.att with pushes := d.att.pushes.map fun q => if q.slot = p.slot then { q with stalled := true } else q } }) d
/-- Contexts of a group's turns whose end has been decided. -/
def Dev.ended (d : Dev) (g : Nat) : List (Nat × Nat) :=
  (d.ses.ctxs.filter fun e => e.2.group == g && e.2.kind == .turn && e.2.cause.isSome).map fun e => (e.2.slot, e.1)
/-- Rebuilds of a group's sessions that have nothing more to push complete at a boundary: COMMITTED of a session that holds no page falls
to 0 there (R78, R340; log entry 30). -/
def Dev.endRebuilds (d : Dev) (g row : Nat) : Dev :=
  (NMap.keys d.prk.revives).foldl (fun (d : Dev) slot =>
    match d.revive slot with
    | none => d
    | some r =>
      let x := (d.sess slot).d
      let mine := x.group == g || d.phase x.group == 0
      if mine && r.mode == 2 && r.staged && !r.whole && (d.pushOf slot).isNone && x.histLen ≤ d.feedFrom slot + 1 then
        d.emptyRebuild slot (if x.group = g then row else x.lastRow)
      else d) d
/-- Step 4: what the group's row could still read is reclaimed together with what parks, ended work and save sets give up at this
boundary, so that step 5 finds it free (R103, R108, R116, R131, R277). -/
def Dev.reclaimStep (d : Dev) (m : Memory) (g row : Nat) : Dev :=
  let d := { d with ses := { d.ses with tab := NMap.mapV d.ses.tab fun _ (x : Session) =>
    if x.d.state = SState.closed ∧ (x.d.group = g ∨ !x.inRow) then { x with reclaimed := true } else x } }
  let d := ((d.letGo g).parksAt g row).endRebuilds g row
  let d := (d.ended g).foldl (fun (d : Dev) e => d.leaveRows e.1 e.2) d
  (d.releaseSaves.reclaimMoves m g).stallPushes g row

/-! ## Step 5: admission, masks, lanes, moves (R127 to R130, R259, R260, R307) -/

/-- Pushes without a lane receive one, with their id (R260). -/
def Dev.giveLanes (d : Dev) (g row : Nat) : Dev :=
  (d.att.pushes.filter fun p => p.group == g && p.lane.isNone).foldl (fun (d : Dev) p =>
    let die := slotDie p.slot
    let used := d.att.pushes.filterMap fun q => if q.group == g && slotDie q.slot == die then q.lane else none
    match (List.range (d.gi F.ATT_GRP_PUSH_LANES g)).find? fun l => !used.contains l with
    | none => d
    | some l =>
      let id := d.att.nextPush
      let pushes := d.att.pushes.map fun q => if q.slot = p.slot then { q with
          id := id
          lane := some l
          readyRow := row
          rows := d.gi F.ATT_GRP_SCHED_PUSH_ROWS g } else q
      let d := { d with att := { d.att with pushes := pushes, nextPush := id + 1 } }
      let c := d.ctx p.ctx
      d.post c.fn c.eq
        { typ := 0x09
          subject := c.sid
          hseq := c.hseq
          args := [id, p.first, p.count, die + 256 * l] }) d
/-- Masks are formed for the sessions that sample in the next row (R307): at step 5 for all of them, since the roles stand only then, and
a state that step 3 has left does not change between the two steps. -/
def Dev.formMasks (d : Dev) (g : Nat) : Dev :=
  ((d.group g).nextBatch.filter fun e => e.role == .decode || e.role == .chunkLast).foldl (fun (d : Dev) e =>
    let killed := ((d.turnCtx e.slot).map fun i => (d.ctx i).kill).getD true
    if (d.sess e.slot).d.grammarBound && !killed then d.formMask e.slot else d) d
/-- A frame that a hint puts on the wrong die: die to go to (R127). -/
def hintDie (f : Frame) (home : Nat) (id : Nat) : Option Nat :=
  if f.place = 1 ∧ pageDie id ≠ home then some home
  else if f.place = 3 ∧ pageDie id = home then some (1 - home)
  else none
/-- A move begins, if the die keeps PAGES + LOW_WATER units (R129, R130). -/
def Dev.beginMove (d : Dev) (slot key id dst : Nat) : Dev :=
  let f := d.frame id
  let floor := d.g F.PGS_BRIM_PAGES + d.g F.PGS_TRACK_LOW_WATER
  if d.avail dst f.cls < floor + classUnits f.cls then d
  else match d.takeFrame dst f.cls { f with moving := false } with
    | none => d
    | some (to', d) =>
      let v : Move :=
        { src := id
          dst := to'
          slot := slot
          layer := key / 65536
          page := key % 65536 }
      let d := d.setFrame id { f with moving := true }
      { d with pgs := { d.pgs with moves := d.pgs.moves ++ [v] } }
/-- Frames that may move at a group's boundary, those of its own sessions (DESIGN CHOICE; log entry 71): slot, page key, page id,
frame. -/
def Dev.movable (d : Dev) (g : Nat) : List (Nat × Nat × Nat × Frame) :=
  (d.ses.tab.filter fun e => e.2.d.group == g && e.2.d.tier == .hot).flatMap fun e =>
    (e.2.pt.map fun p => (e.1, p.1, p.2.pageId, d.frame p.2.pageId)).filter fun p =>
      p.2.2.2.refcount == 1 && p.2.2.2.ownerValid && p.2.2.2.owner == e.1 && p.2.2.2.fstate == 2 && !p.2.2.2.moving
/-- The tracker's candidates: unhinted full frames whose owner is neither PARKING nor MIGRATING (R129). -/
def Dev.tracked (d : Dev) (g : Nat) : List (Nat × Nat × Nat × Frame) :=
  (d.movable g).filter fun p => p.2.2.2.place == 0 && p.2.2.2.fill == 64 &&
    (d.sess p.1).d.state != .parking && (d.sess p.1).d.state != .migrating
/-- Moves under way that began at this boundary stay within MOVES_MAX (R129). -/
def Dev.moveRoom (d : Dev) (start : Nat) : Bool := d.pgs.moves.length - start < d.g F.PGS_TRACK_MOVES_MAX
/-- Hint moves, then the tracker's returns and relief, begin (R127, R129, R130). A move that has begun frees nothing yet, so it does not
count toward the avail that relief is to reach (DESIGN CHOICE; log entry 71). -/
def Dev.beginMoves (d : Dev) (g : Nat) : Dev :=
  let start := d.pgs.moves.length
  let d := (sortBy (fun (p : Nat × Nat × Nat × Frame) => [(p.2.2.1 : Int)]) (d.movable g)).foldl (fun (d : Dev) p =>
    match hintDie p.2.2.2 (slotDie p.1) p.2.2.1 with
    | some die => if d.moveRoom start then d.beginMove p.1 p.2.1 p.2.2.1 die else d
    | none => d) d
  if !d.on F.PGS_CTL_TRACK_EN then d
  else
    let low := d.g F.PGS_TRACK_LOW_WATER
    let pages := d.g F.PGS_BRIM_PAGES
    let back := (d.tracked g).filter fun p => d.isHot p.2.2.2 && pageDie p.2.2.1 != slotDie p.1
    let d := (sortBy (fun (p : Nat × Nat × Nat × Frame) => [-(p.2.2.2.heat : Int), (p.2.2.1 : Int)]) back).foldl
      (fun (d : Dev) p => if d.moveRoom start then d.beginMove p.1 p.2.1 p.2.2.1 (slotDie p.1) else d) d
    let cold := (d.tracked g).filter fun p => !d.isHot p.2.2.2
    (sortBy (fun (p : Nat × Nat × Nat × Frame) => [(p.2.2.2.heat : Int), (p.2.2.1 : Int)]) cold).foldl (fun (d : Dev) p =>
      let die := pageDie p.2.2.1
      let c := p.2.2.2.cls
      if d.moveRoom start && decide (d.avail die c < pages + low) && decide (pages + 2 * low ≤ d.avail (1 - die) c) then
        d.beginMove p.1 p.2.1 p.2.2.1 (1 - die)
      else d) d
/-! ## Evacuation of a retired set (R586) -/

/-- A frame of a class on a die, or else on the other (R586). -/
def Dev.evacTake (d : Dev) (die : Nat) (f : Frame) : Option (Nat × Dev) :=
  match d.takeFrame die f.cls f with
  | some x => some x
  | none => d.takeFrame (1 - die) f.cls f
/-- The same, with victims taken in the order of R136, whatever their priority, while units run short (R586). -/
def Dev.evacRoom (d : Dev) (m : Memory) (row die : Nat) (f : Frame) : List Nat → Option (Nat × Dev)
  | [] => d.evacTake die f
  | s :: ss => match d.evacTake die f with
    | some x => some x
    | none => Dev.evacRoom ((d.takeVictim m s row).getD d) m row die f ss
/-- A frame leaves a retired set: its bytes are copied, and every entry that names it is rewritten (R586). -/
def Dev.evacFrame (d : Dev) (m : Memory) (row id : Nat) : Dev :=
  let f := d.frame id
  let die := pageDie id
  let vs := d.victimOrder ((NMap.keys d.ses.tab).filter fun s => d.restsHot die s && !(d.sess s).pt.any fun e => e.2.pageId == id)
  match d.evacRoom m row die f vs with
  | none => d
  | some (new, d) =>
    let d := d.poke (d.frameAddr new) (Memory.readN (Memory.apply m d.wr) (d.frameAddr id) (classBytes f.cls))
    let d := d.setFrame new { f with moving := false }
    let d := { d with ses := { d.ses with tab := NMap.mapV d.ses.tab fun _ x => { x with
      pt := NMap.mapV x.pt fun _ e => if e.pageId = id then { e with pageId := new } else e } } }
    let d := { d with att := { d.att with saveSets := NMap.mapV d.att.saveSets fun _ l => l.map fun i => if i = id then new else i } }
    d.setFrame id { f with
      refcount := 0
      fstate := 3
      moving := false
      ownerValid := false }
/-- IN_USE frames of retired sets whose sessions are at a boundary or run no rows leave them (R586). -/
def Dev.evacuate (d : Dev) (m : Memory) (g row : Nat) : Dev :=
  if d.g F.FLT_RET_SET_W_SETS = 0 ∧ d.g F.FLT_RET_SET_E_SETS = 0 then d
  else
    let still (id : Nat) : Bool := d.ses.tab.all fun e =>
      e.2.d.group == g || !e.2.inRow || d.phase e.2.d.group == 0 || !e.2.pt.any fun p => p.2.pageId == id
    let named (id : Nat) : Bool :=
      d.ses.tab.any (fun e => e.2.pt.any fun p => p.2.pageId == id) || d.att.saveSets.any fun e => e.2.contains id
    let ids := (d.pgs.frames.filter fun e => e.2.fstate == 2 && !e.2.moving && d.binRetired (pageBin e.1) && named e.1 && still e.1).map (·.1)
    ids.foldl (fun (d : Dev) id => if (d.frame id).fstate = 2 then d.evacFrame m row id else d) d

/-- Sessions of a group. -/
def Dev.inGroup (d : Dev) (g : Nat) : List Nat := (d.ses.tab.filter fun e => e.2.d.group == g).map (·.1)
/-- The placement hints that wait for a group's boundary are applied in the order in which they were set, whatever session set them, so that
a frame that sessions share keeps the one set last (R127). -/
def Dev.applyWaiting (d : Dev) (g : Nat) : Dev :=
  let waiting := (d.inGroup g).flatMap fun s => (d.sess s).hints.map fun h => (s, h)
  let d := (sortBy (fun (e : Nat × PlaceHint) => [(e.2.seq : Int)]) waiting).foldl (fun (d : Dev) e => d.applyHint e.1 e.2) d
  (d.inGroup g).foldl (fun (d : Dev) s =>
    if (d.sess s).hints.isEmpty then d else d.updSess s fun x => { x with hints := [] }) d
/-- Step 5 (R131). -/
def Dev.admitStep (d : Dev) (m : Memory) (g row : Nat) : Dev :=
  let d := d.applyWaiting g
  let d := d.admission m g row
  let d := (d.acceptAll m).tryMoves m
  (((d.formMasks g).giveLanes g row).beginMoves g).evacuate m g row

/-! ## Step 6: shaping (R471, R472, R474) -/

/-- The charge of a session at this boundary, and the tallies after it (R471). -/
def Dev.chargeOf (d : Dev) (slot : Nat) (admitted : Bool) : Nat × Tally :=
  let t : Tally := NMap.getD d.iso.tallies slot {}
  let t := if admitted then { t with gen := 0, pre := 0, genB := 0, preB := 0 } else t
  let svc := d.node 1 (d.sess slot).d.service
  let part (w a b : Nat) : Nat := w * a / 256 - w * b / 256
  let n := (if admitted then svc.overhead else 0) + (t.gen - t.genB) + part svc.promptW t.pre t.preB +
    part svc.rebuildW t.reb t.rebB
  let rest := (d.sess slot).d.state != .reviving
  (n, { t with
    genB := t.gen
    preB := t.pre
    reb := if rest then 0 else t.reb
    rebB := if rest then 0 else t.reb })
/-- A session is charged (R471, R472). -/
def Dev.charge (d : Dev) (slot : Nat) (admitted : Bool) : Dev :=
  let (n, t) := d.chargeOf slot admitted
  let d := d.updTally slot fun _ => t
  if n = 0 then d
  else
    let x := (d.sess slot).d
    let d := d.updDesc slot fun x => { x with charged := x.charged + n }
    let d := match d.turnCtx slot with
      | some i => d.updCtx i fun c => { c with charge := c.charge + n }
      | none => d
    let d := [0, 1, 2].foldl (fun (d : Dev) k =>
      let d := d.refillNode k (nodeOf x k)
      let y := d.node k (nodeOf x k)
      let y := if y.shape then { y with level := max (-(2 : Int) ^ 47) (y.level - n) } else y
      let y := if k = 0 ∧ y.budgetOn then { y with budget := max (-(2 : Int) ^ 63) (y.budget - n) } else y
      d.setNode k (nodeOf x k) y) d
    let d := { d with iso := { d.iso with charged := d.iso.charged + n } }
    d.s F.SHP_CNT_CHARGED_M (d.iso.charged / 1000000)
/-- A turn ends for want of budget: its frames and its batch slot return at once (R131, R474). -/
def Dev.budgetEnd (d : Dev) (g slot i : Nat) : Dev :=
  let d := ((d.latch i 7).dropPushes slot).freeResv slot
  (d.leaveRows slot i).updGroup g fun x => { x with
    nextBatch := x.nextBatch.filter fun e => e.slot != slot
    nextPlan := x.nextPlan.filter fun s => s.slot != slot }
/-- A boundary at which nothing is charged: what its sessions have done so far is never charged (R471). -/
def Dev.uncharged (d : Dev) (slot : Nat) (admitted : Bool) : Dev :=
  let t := (d.chargeOf slot admitted).2
  d.updTally slot fun _ => t
/-- Step 6 (R131): the charges, and the turns of every group that a subscriber's budget ends (R474). -/
def Dev.shapeStep (d : Dev) (g row : Nat) (parts : List Nat) : Dev :=
  let joined (s : Nat) : Bool := match d.turnCtx s with
    | some i => let c := d.ctx i; c.admitRow == row && c.group == g && !(d.sess s).d.turnQueued
    | none => false
  let work := (parts ++ (d.inGroup g).filter fun s => joined s && !parts.contains s).filter fun s => NMap.has d.ses.tab s
  let work := sortBy (fun s => let x := (d.sess s).d; [-(x.prio : Int), (x.sid : Int)]) work
  let en := d.on F.SHP_CTL_EN
  let d := work.foldl (fun d s => if en then d.charge s (joined s) else d.uncharged s (joined s)) d
  (NMap.keys d.ses.tab).foldl (fun (d : Dev) s => match d.turnCtx s with
    | none => d
    | some i =>
      let b := d.node 0 (d.sess s).d.subscriber
      if b.budgetOn && decide (b.budget ≤ 0) && !(d.ctx i).kill && (en && work.contains s || (d.sess s).d.turnQueued) then
        d.budgetEnd (d.sess s).d.group s i
      else d) d

/-! ## Step 7: records, lists, masks, the report (R50, R53, R95, R97, R256, R309) -/

/-- The masks of the next row go to the samplers: bodies first, then header and directory (R309). -/
def Dev.writeMasks (d : Dev) (g row : Nat) : Dev :=
  let es := (d.group g).nextBatch.filter fun e =>
    (e.role == .decode || e.role == .chunkLast) && (d.sess e.slot).d.grammarBound && (d.garea e.slot).mask.isSome
  let outs := es.map fun e => (e, (d.garea e.slot).maskSlot, d.maskOut e.slot)
  let base := ceilDiv (0x40 + 16 * d.gi F.GRM_GRP_MASK_SLOTS g) 4096 * 4096
  let head := pack 64 [⟨0, 0, 48, row⟩, ⟨0, 48, 16, d.self⟩, ⟨8, 0, 32, d.gid g⟩, ⟨8, 32, 32, es.length⟩,
    ⟨0x10, 0, 32, d.own.current⟩]
  let dir := outs.flatMap fun o =>
    pack 16 [⟨0, 0, 64, o.1.sid⟩, ⟨8, 0, 16, o.2.1⟩, ⟨8, 16, 2, o.2.2.1⟩, ⟨8, 20, 21, o.2.2.2.1⟩]
  let sampler (m : Nat) : Bool :=
    let f := if m < 64 then F.GRM_GRP_SAMP0_MEMBERS else if m < 128 then F.GRM_GRP_SAMP1_MEMBERS
      else if m < 192 then F.GRM_GRP_SAMP2_MEMBERS else F.GRM_GRP_SAMP3_MEMBERS
    bitOf (d.gi f g) (m % 64)
  let d := d.wrap F.GRM_CNT1_MASKS es.length
  ((d.group g).members.filter fun e => sampler e.1).foldl (fun (d : Dev) e =>
    let (q, d) := d.pickQp g e.1 e.2.qp
    let d := outs.foldl (fun (d : Dev) o =>
      d.rdma q e.2.maskKey (e.2.maskAddr + base + o.2.1 * d.gi F.GRM_GRP_MASK_SLOT_KIB g * 1024) none o.2.2.2.2 .other e.1) d
    (d.rdma q e.2.maskKey e.2.maskAddr (some 0x030000) (head ++ dir) .mask e.1).updGroup g fun x =>
      { x with acksWanted := if x.acksWanted.contains (256 + e.1) then x.acksWanted else x.acksWanted ++ [256 + e.1] }) d
/-- Turns queued in other groups that end for want of budget at this boundary (R474). -/
def Dev.brokeElsewhere (d : Dev) (g : Nat) : List (Nat × Nat) :=
  (d.ses.ctxs.filter fun e => e.2.group != g && e.2.kind == .turn && e.2.cause == some 7 && (d.sess e.2.slot).d.turnQueued).map
    fun e => (e.2.slot, e.1)
/-- Final and non-final completion records of a boundary (R95, R97). -/
def Dev.postRecords (d : Dev) (g row : Nat) (voids : List (Nat × Nat)) : Dev :=
  let finals := d.ended g
  let d := (d.brokeElsewhere g).foldl (fun (d : Dev) e =>
    (d.sat F.SHP_CNT_BUDGET_ENDS 1).finishTurn e.1 e.2 (d.sess e.1).d.lastRow) d
  let d := finals.foldl (fun (d : Dev) e =>
    let d := if (d.ctx e.2).cause = some 7 then d.sat F.SHP_CNT_BUDGET_ENDS 1 else d
    d.finishTurn e.1 e.2 row) d
  (voids.filter fun v => !finals.any fun e => e.1 == v.1).foldl (fun (d : Dev) v => match d.turnCtx v.1 with
    | some i => d.postRecord v.1 i v.2 false row
    | none => d) d
/-- The cut, if this boundary is one: what the report says of it (R551). -/
def Dev.cutStep (d : Dev) (m : Memory) (g row : Nat) : Dev × Option Bool := d.takeCut (Memory.apply m d.wr) g row
/-- Step 7, but for the sending of the report (R131). -/
def Dev.postStep (d : Dev) (m : Memory) (g row : Nat) (a : Intake) : Dev :=
  let d := d.postRecords g row a.voids
  let d := a.parts.foldl (fun (d : Dev) s => if NMap.has d.ses.tab s then d.writeBack s else d) d
  let d := (NMap.keys d.ses.tab).foldl (fun (d : Dev) s => d.tryFree s) d
  let (d, cut) := d.cutStep m g row
  let d := d.updGroup g fun x => { x with acksWanted := [] }
  let d := (d.writeList g (row + 1) (d.group g).nextBatch).writeMasks g (row + 1)
  let d := (d.group g).nextBatch.foldl (fun (d : Dev) e =>
    if e.role = .held then d else d.updSess e.slot fun x => { x with inRow := true }) d
  let r : Report :=
    { row := row
      tkEpoch := d.tkEpoch g
      mapEpoch := d.installedEpoch
      status := if cut = some false then Status.noSpace.code else 0
      void := (d.group g).rowVoided
      cutOk := cut == some true
      cutFail := cut == some false
      owns := d.ownsIn g }
  d.updGroup g fun x => { x with
    boundaryDone := true
    reportPending := some r }
/-- A group enters STALLED (R61). Doorbells and token lists that it already holds for the next row stay held: the spec discards only
those that come after (R626; DESIGN CHOICE, log entry 72). -/
def Dev.stall (d : Dev) (g cause row : Nat) : Dev :=
  ((d.setPhase g .stalled).updGroup g fun x => { x with
    stakeDeadline := none
    rowDeadline := none
    beaconDeadline := none
    takeoverDeadline := none
    lostDeadline := none
    heldBeacon := none
    reportPending := none }).post0 { typ := 0x16, subject := d.gid g, cause := cause, args := [row] }
/-- The count of consecutive voided rows; at three the group is STALLED and reports nothing (R61). -/
def Dev.countVoids (d : Dev) (g row : Nat) : Dev :=
  if !(d.group g).rowVoided then d.si F.TIM_ROW_VOIDS g 0
  else
    let d := (d.si F.TIM_ROW_VOIDS g (min 3 (d.gi F.TIM_ROW_VOIDS g + 1))).sati F.TIM_GRP_CNT_VOIDED g 1
    if d.gi F.TIM_ROW_VOIDS g < 3 then d else d.stall g 1 row

/-- Row boundary n of a group, from its begin to the report that it leaves to be sent (R50, R58, R131). -/
def Dev.runBoundary (d : Dev) (m : Memory) (g : Nat) (timedOut : Bool) : Dev :=
  let n := d.row g
  let d := (d.endPushes m g).beginBoundary g timedOut
  let d := ((d.applyS g).applyIso).applyBinding g
  let d := (d.inGroup g).foldl (fun (d : Dev) s =>
    let d := d.applyPolicy s
    d.updSess s fun x => { x with
      pendSelect := none
      d := { x.d with select := x.pendSelect.getD x.d.select } }) d
  let d := d.applyPend g
  let a := d.intake g n
  let a := { a with dev := (d.noteRows a.dev n a.parts).showLoad g }
  let d := (a.dev.detokAll a.appended).grammarAll a.appended
  let d := d.reclaimStep m g n
  let d := d.admitStep m g n
  let d := d.shapeStep g n a.parts
  let d := (d.postStep m g n a).countVoids g n
  let passed := if d.iso.passed.contains g then d.iso.passed else d.iso.passed ++ [g]
  ({ d with iso := { d.iso with passed := passed } }).checkStrict

end Sys2Proof.Machine
end

