-- ==== Sys2Proof/Machine/Rows.lean ====
section
/-! DEFINITION. Rows: doorbells, stake closes, timers, boundary reports, beacons, takeover and restart (R42 to R61, R443, R549 to
R552, R575, R625, R626). -/
namespace Sys2Proof.Machine
open Sys2Proof

/-! ## Stakes (R44 to R49, R57) -/

/-- Stakes of a group's rows (R42). -/
def Dev.stakes (d : Dev) (g : Nat) : Nat := d.gi F.TIM_GRP_SHAPE_STAKES g
/-- Stakes of the row in progress that have closed. -/
def Dev.closedCount (d : Dev) (g : Nat) : Nat := if d.gi F.TIM_STAKE_ANY_CLOSED g = 1 then d.gi F.TIM_STAKE_CLOSED g + 1 else 0
/-- Members of a group that have not announced a stake (R48). -/
def Dev.silent (d : Dev) (g s : Nat) : List Nat :=
  (List.range (d.gi F.TIM_GRP_SHAPE_MEMBERS g)).filter fun m => match NMap.get? (d.group g).announced m with
    | some a => decide (a < s)
    | none => true
/-- TIM_STAKE.LAGGING: members that have not announced the next stake (R70). -/
def Dev.showLag (d : Dev) (g : Nat) : Dev :=
  let next := d.closedCount g
  d.si F.TIM_STAKE_LAGGING g (if next < d.stakes g then (d.silent g next).length else 0)
/-- A stake closes: a session whose tiles are not all there has its row voided, tiles that wait for a map are late, the stake's
last tiles go out, its INGEST credits return, and the stake timer runs for the next (R48, R49, R57, R156, R230, R445). -/
def Dev.closeStake (d : Dev) (g s : Nat) : Dev :=
  let es := (d.group g).batch.filter fun e => e.role == .decode || e.role == .chunk || e.role == .chunkLast
  let missing (e : BatchEntry) : Bool :=
    let x := d.sess e.slot
    x.d.sid == e.sid && x.inRow && x.voided.isNone && !(d.workOf g e.slot s).covered (d.prof x)
  let d := (es.filter missing).foldl (fun (d : Dev) e => d.voidRow e.slot 0x10) d
  let d := ((d.si F.TIM_STAKE_CLOSED g s).si F.TIM_STAKE_ANY_CLOSED g 1).showLag g
  let row := d.row g
  let lateOne (t : Nat × Nat × QTile) : Bool := t.1 == g && t.2.2.row == row && t.2.2.stake == s
  let ts := d.att.heldTiles.filter lateOne
  let d := { d with att := { d.att with heldTiles := d.att.heldTiles.filter fun t => !lateOne t } }
  let d := ts.foldl (fun (d : Dev) t =>
    (d.cntP F.ATT_CNT1_LATE (d.partOf t.2.2.sid) 1 false).nullAnswer t.1 t.2.1 t.2.2 .late) d
  let d := (List.range (d.gi F.TIM_GRP_SHAPE_MEMBERS g)).foldl (fun (d : Dev) m => d.flushStake g m s) d
  let d := (d.returnStaged g s).wakeTasks g s (2 ^ 22)
  d.updGroup g fun x => { x with
    stakeDeadline := if s + 1 < d.stakes g then some (d.now + d.seen g F.TIM_DPATH_STAKE_US * 1000) else none }
/-- Stakes close in order as far as every member has announced them (R46, R48). -/
def Dev.closeStakes (d : Dev) (g : Nat) : Nat → Dev
  | 0 => d.showLag g
  | n + 1 =>
    let s := d.closedCount g
    if s < d.stakes g && (d.silent g s).isEmpty then Dev.closeStakes (d.closeStake g s) g n else d.showLag g
/-- A doorbell that is discarded as bad (R47). -/
def Dev.badBell (d : Dev) (g member rec' : Nat) : Dev :=
  (d.sati F.TIM_GRP_CNT_BAD_DB g 1).post0 { typ := 0x13, subject := d.gid g, args := [member, rec'] }
/-- A doorbell that is discarded as stale (R47, R626). -/
def Dev.staleBell (d : Dev) (g : Nat) : Dev := d.sati F.TIM_GRP_CNT_STALE_DB g 1
/-- A member's doorbell record, by phase and row (R44 to R47, R626). -/
def Dev.bell (d : Dev) (g member rec' : Nat) : Dev :=
  let n := bits rec' 0 48
  let s := bits rec' 48 8
  let kind := bits rec' 56 2
  let c := d.row g
  let ann := NMap.get? (d.group g).announced member
  if d.phase g = 0 ∨ d.phase g = 4 then d.staleBell g
  else if n < c ∨ (n = c ∧ d.phase g ≠ 1) then d.staleBell g
  else if 2 ≤ kind ∨ c + 1 < n ∨ (kind = 0 ∧ n = c ∧ d.stakes g ≤ s) then d.badBell g member rec'
  else if n = c + 1 then d.updGroup g fun x => { x with heldBells := NMap.put x.heldBells member rec' }
  else if kind = 1 then
    d.updGroup g fun x => { x with rowEnds := if x.rowEnds.contains member then x.rowEnds else x.rowEnds ++ [member] }
  else if ann.any fun a => decide (s < a) then d.badBell g member rec'
  else (d.updGroup g fun x => { x with announced := NMap.put x.announced member s }).closeStakes g 256

/-- STAKE_DOORBELL: a write of a member's doorbell slot; the rest of the region is reserved (R44). -/
def execStakeDoorbell (g member word : Nat) : State → Host.Outcome State Fault Refusal :=
  onUnit (g < 64) fun _ d => if d.gi F.TIM_GRP_SHAPE_MEMBERS g ≤ member then d else d.bell g member word

/-- Members of a group as a map of four 64-bit words (R535). -/
def memberWords (ms : List Nat) : List Nat :=
  (List.range 4).map fun w => ms.foldl (fun n m => if m / 64 = w then setBit n (m % 64) true else n) 0
/-- STAKE_TIMEOUT: the members that have not announced the stake are reported; the controller keeps waiting (R57). -/
def execStakeTimeout (g : Nat) : State → Host.Outcome State Fault Refusal :=
  onUnit (g < 64) fun _ d => match (d.group g).stakeDeadline with
    | none => d
    | some t =>
      if d.phase g ≠ 1 then d
      else
        let d := (d.reach t).updGroup g fun x => { x with stakeDeadline := none }
        let s := d.closedCount g
        let ev : Event := { typ := 0x12, subject := d.gid g, args := [d.row g, s] ++ memberWords (d.silent g s) }
        let parts := (((d.group g).batch.map fun e => (d.sess e.slot).d.partition).filter (· != 0)).dedup
        (parts.foldl (fun (d : Dev) p => d.postP p ev) (d.post0 ev)).sati F.TIM_GRP_CNT_STAKE_TO g 1

/-! ## The boundary begins (R50, R58, R575) -/

/-- ROW_TIMEOUT: the row is voided for the sessions of the group here, and its boundary begins (R58). -/
def execRowTimeout (g : Nat) : State → Host.Outcome State Fault Refusal :=
  onUnit (g < 64) fun m d => match (d.group g).rowDeadline with
    | none => d
    | some t => if d.phase g = 1 then (d.reach t).runBoundary m g true else d
/-- Every stake of the row has closed and every ROW_END is present; the blocks of the boundary's steps are enabled (R50, R575). -/
def Dev.rowOver (d : Dev) (g : Nat) : Bool :=
  d.phase g == 1 && d.closedCount g == d.stakes g &&
    (List.range (d.gi F.TIM_GRP_SHAPE_MEMBERS g)).all (fun m => (d.group g).rowEnds.contains m) &&
    d.on F.PGS_CTL_EN && d.on F.ATT_CTL_EN && d.on F.TOK_CTL_EN && d.on F.GRM_CTL_EN
/-- ROW_BOUNDARY (R50, R131). -/
def execRowBoundary (g : Nat) : State → Host.Outcome State Fault Refusal :=
  onUnit (g < 64) fun m d => if d.rowOver g then d.runBoundary m g false else d

/-! ## The timekeeper's rounds (R51, R59, R443, R552) -/

/-- The record of a group in the installed map. -/
def Dev.mapGroup (d : Dev) (g : Nat) : Option MapGroup := d.own.installed.bind fun c => c.groups.find? fun x => x.index == g
/-- Controllers that the installed map adds to a group (R443). -/
def Dev.added (d : Dev) (g : Nat) : List Nat :=
  ((d.mapGroup g).map fun mg => mg.ctrls.filter fun c => !(d.group g).ctrls.contains c).getD []
/-- The installed map may be activated at the boundary of the round (R443, R550). -/
def Dev.mayActivate (d : Dev) (g : Nat) : Bool :=
  let x := d.group g
  d.own.inactive.contains g && x.ctrls.all (fun c => (NMap.get? x.reports c).any fun r => decide (d.installedEpoch ≤ r.mapEpoch)) &&
    (d.added g).all (fun c => (NMap.get? x.mapReady c).any fun e => decide (d.installedEpoch ≤ e.1)) &&
    !((d.prog g).any fun p => p.cutRow == x.roundRow)
/-- What the round says of a prepared cut: CUT is set when every controller took it, and else the checkpoint fails (R552). -/
def Dev.roundCut (d : Dev) (g : Nat) : Bool × Dev :=
  let x := d.group g
  match d.prog g with
  | none => (false, d)
  | some p =>
    if p.cutRow ≠ x.roundRow then (false, d)
    else if !x.ctrls.all fun c => NMap.has x.reports c then (false, d.failCkpt g 2)
    else if x.ctrls.all fun c => (NMap.get? x.reports c).any (·.cutOk) then (true, d.setProg g { p with barrier := none })
    else (false, d.failCkpt g 6)
/-- The timekeeper issues the beacon that ends its round (R51, R52, R56, R58, R59, R443). -/
def Dev.endRound (d : Dev) (g : Nat) : Dev :=
  let x := d.group g
  let missing := x.ctrls.filter fun c => !NMap.has x.reports c
  let resync := x.roundRestart || x.tookOver || d.ckp.restored.contains g
  let top := (NMap.vals x.reports).foldl (fun n r => max n r.row) x.roundRow
  let bad (c : Nat) : Bool := match NMap.get? x.reports c with
    | some r => r.void
    | none => true
  let reconf := missing.isEmpty && d.mayActivate g
  let (cut, d) := d.roundCut g
  let b : Beacon :=
    { row := if resync then top + 1 else x.roundRow + 1
      tkEpoch := d.tkEpoch g
      groupId := d.gid g
      void := (NMap.vals x.reports).any (·.void)
      resync := resync
      cut := cut
      reconf := reconf
      memberLost := !missing.isEmpty
      voidMap := x.ctrls.zipIdx.foldl (fun n e => if bad e.1 then setBit n e.2 true else n) 0 }
  let d := missing.foldl (fun (d : Dev) c => d.post0 { typ := 0x14, subject := d.gid g, args := [x.roundRow, c] }) d
  let news := if reconf then d.added g else []
  let d := news.foldl (fun (d : Dev) c => d.send c svcTime (d.timeHdr g 1 0 b.row 0 ++ b.bytes)) d
  (d.issueBeacon g b).updGroup g fun x => { x with tookOver := false }
/-- The timekeeper's own boundary is over, and every report of the round is there (R51). -/
def Dev.tryBeacon (d : Dev) (g : Nat) : Dev :=
  let x := d.group g
  if d.issues g && d.phase g == 3 && x.heldBeacon.isNone && !x.ctrls.isEmpty && x.ctrls.all (NMap.has x.reports) then d.endRound g
  else d
/-- The timekeeper takes a report for its round (R53, R61). -/
def Dev.takeReport (d : Dev) (g src : Nat) (r : Report) : Dev :=
  (d.updGroup g fun x => { x with
    reports := NMap.put x.reports src r
    cleared := x.cleared.filter (· != src) ++ (if r.owns then [] else [src])
    roundRestart := x.roundRestart || r.restart }).tryBeacon g
/-- Flags of a BOUNDARY_REPORT (R53). -/
def Report.flags (r : Report) : Nat :=
  b2n r.void + 2 * b2n r.cutOk + 4 * b2n r.cutFail + 8 * b2n r.owns + 16 * b2n r.restart
/-- A report goes to the timekeeper, and the beacon limit runs; the timekeeper keeps its own, and gives the others one row
timeout (R50, R53, R59, R60). -/
def Dev.sendReport (d : Dev) (g : Nat) (r : Report) : Dev :=
  if d.isTk g then
    (d.updGroup g fun x => { x with
      roundRow := r.row
      lostDeadline := some (d.now + d.seen g F.TIM_DPATH_ROW_MS * 1000000) }).takeReport g d.self r
  else
    let d := d.updGroup g fun x => { x with
      beaconDeadline := some (d.now + d.seen g F.TIM_DPATH_BEACON_MS * 1000000)
      takeoverDeadline := none
      reports := NMap.put x.reports d.self r }
    d.send (d.tk g) svcTime (d.timeHdr g 2 r.status r.row r.flags)

/-- BOUNDARY_REPORT_SEND: every member has acknowledged the list and every sampler the masks (R50, R257, R309). -/
def execBoundaryReportSend (g : Nat) : State → Host.Outcome State Fault Refusal :=
  onUnit (g < 64) fun _ d =>
    let x := d.group g
    match x.reportPending with
    | none => d
    | some r =>
      if d.phase g ≠ 2 ∨ !x.boundaryDone ∨ !x.acksWanted.isEmpty then d
      else
        let d := (d.setPhase g .waitBeacon).updGroup g fun x => { x with
          reportPending := none
          boundaryDone := false }
        d.sendReport g r

/-! ## TIME messages (R53, R55, R56, R60) -/

/-- A TIME message of a group: an unknown one is resolved by its map epoch (R53). -/
def Dev.asGroup (d : Dev) (src gid mapEpoch : Nat) (f : Nat → Dev → Dev) : Dev :=
  match d.groupOf gid with
  | some g => f g d
  | none => if d.installedEpoch < mapEpoch then d.emit (.resolve src svcTime .retryAfter 1000) else d.resolve src svcTime .staleGen

/-- BOUNDARY_REPORT (R53). -/
def execBoundaryReport (src gid row epoch mapEpoch status : Nat) (void cutOk cutFail owns restart : Bool) :
    State → Host.Outcome State Fault Refusal :=
  onDev fun _ d => d.asGroup src gid mapEpoch fun g d =>
    let x := d.group g
    let r : Report :=
      { row := row
        tkEpoch := epoch
        mapEpoch := mapEpoch
        status := status
        void := void
        cutOk := cutOk
        cutFail := cutFail
        owns := owns
        restart := restart }
    if !x.ctrls.contains src then d.resolve src svcTime .badParam
    else
      let d := d.resolve src svcTime .ok
      if d.isTk g && (row == x.roundRow || restart || (x.tookOver && decide (x.roundRow < row))) then d.takeReport g src r
      else if !d.isTk g && d.deputy g == d.self then d.updGroup g fun x => { x with reports := NMap.put x.reports src r }
      else d.staleBell g

/-- MEMBER_LOST: a report is missing one row timeout after the timekeeper's own boundary; the beacon goes out without it
(R59). -/
def execMemberLost (g : Nat) : State → Host.Outcome State Fault Refusal :=
  onUnit (g < 64) fun _ d => match (d.group g).lostDeadline with
    | none => d
    | some t => if d.issues g && d.phase g == 3 && (d.group g).heldBeacon.isNone then (d.reach t).endRound g else d

/-- The controller that may name itself timekeeper at a higher epoch: by the installed map, or by takeover (R43, R55, R60). -/
def Dev.namedTk (d : Dev) (g src epoch : Nat) : Bool :=
  (d.mapGroup g).any (fun mg => mg.tkEpoch == epoch && mg.tk == src) || (d.deputy g == src && src != 0 && epoch == d.tkEpoch g + 1)
/-- The controller after one in a group's list, cyclically; none in a list of one (R60). -/
def nextCtrl (cs : List Nat) (c : Nat) : Nat :=
  match cs.getD ((cs.findIdx (· == c) + 1) % max 1 cs.length) 0 with
  | n => if n = c then 0 else n
/-- A takeover is known here: timekeeper, epoch, deputy; TK_CHANGED (R60). -/
def Dev.newTk (d : Dev) (g tk epoch : Nat) : Dev :=
  let dep := match (d.mapGroup g).filter fun mg => mg.tkEpoch == epoch && mg.tk == tk with
    | some mg => mg.deputy
    | none => nextCtrl (d.group g).ctrls tk
  let d := ((d.si F.TIM_GRP_CFG_TK_CTRL g tk).si F.TIM_GRP_CFG_DEPUTY g dep).si F.TIM_GRP_SHAPE_TK_EPOCH g epoch
  let d := d.updGroup g fun x => { x with silenced := false }
  d.post0 { typ := 0x15, subject := d.gid g, args := [epoch, tk] }
/-- A beacon whose epoch and sender are right, by row (R54, R56, R61). GROUP_STALLED names the beacon's row where a forward jump stalls
the group (DESIGN CHOICE; log entry 72); after a restart a beacon of the next row without RESYNC is discarded and counted as stale
(R61; log entry 72). -/
def Dev.takeBeacon (d : Dev) (g src : Nat) (b : Beacon) : Dev :=
  let c := d.row g
  let here (d : Dev) : Dev := d.updGroup g fun x => { x with
    beaconDeadline := none
    takeoverDeadline := none }
  let hold (d : Dev) : Dev := (here d).updGroup g fun x => { x with heldBeacon := some (src, b) }
  if b.row ≤ c then (here d).staleBell g
  else if c + 1 < b.row && !b.resync then d.stall g 2 b.row
  else if (d.group g).needResync && !b.resync then d.staleBell g
  else
    let d := hold d
    match d.prog g with
    | some p => if b.cut then d.setProg g { p with barrier := none } else d
    | none => d

/-- A beacon in phase IDLE: the first one, with RESYNC and RECONF, from the timekeeper held, at the epoch held and for a row above the
current one, is held for ROW_BEGIN; any other is discarded and counted as stale, and answered as R55 answers its epoch and sender (R55,
R625; log entry 72). -/
def Dev.idleBeacon (d : Dev) (g src : Nat) (b : Beacon) : Dev :=
  if b.tkEpoch < d.tkEpoch g then (d.staleBell g).resolve src svcTime .staleGen
  else if (b.tkEpoch = d.tkEpoch g ∧ src ≠ d.tk g) ∨ (d.tkEpoch g < b.tkEpoch ∧ !d.namedTk g src b.tkEpoch) then
    (d.staleBell g).resolve src svcTime .denied
  else if b.reconf && b.resync && decide (d.row g < b.row) && b.tkEpoch == d.tkEpoch g then
    (d.updGroup g fun x => { x with heldBeacon := some (src, b) }).resolve src svcTime .ok
  else (d.staleBell g).resolve src svcTime .ok

/-- BEACON (R51 to R56, R60, R61, R625). A beacon that R56 rejects for its jump forward is resolved OK, since that rule names no status
(DESIGN CHOICE, log entry 72). -/
def execBeacon (src gid row epoch mapEpoch : Nat) (void resync cut reconf memberLost : Bool) (voidMap : Nat) :
    State → Host.Outcome State Fault Refusal :=
  onDev fun _ d => d.asGroup src gid mapEpoch fun g d =>
    let b : Beacon :=
      { row := row
        tkEpoch := epoch
        groupId := gid
        void := void
        resync := resync
        cut := cut
        reconf := reconf
        memberLost := memberLost
        voidMap := voidMap }
    let denied (d : Dev) : Dev := (d.sati F.TIM_GRP_CNT_BAD_DB g 1).resolve src svcTime .denied
    if d.phase g = 4 then (d.staleBell g).resolve src svcTime .ok
    else if d.phase g = 0 then d.idleBeacon g src b
    else if epoch < d.tkEpoch g then d.resolve src svcTime .staleGen
    else if epoch = d.tkEpoch g then
      (if src = d.tk g then (d.takeBeacon g src b).resolve src svcTime .ok else denied d)
    else if d.namedTk g src epoch then ((d.newTk g src epoch).takeBeacon g src b).resolve src svcTime .ok
    else denied d

/-! ## A row begins (R54, R550, R625) -/

/-- The sync counters of a group's binding return to 0 (R234). -/
def Dev.zeroCounters (d : Dev) (g : Nat) : Dev :=
  match (d.group g).bound with
  | none => d
  | some b =>
    let mine (k : Nat) : Bool := (if k / 65536 = 0 then b.runsW else b.runsE).any fun r =>
      decide (r.1 ≤ k % 65536) && decide (k % 65536 < r.1 + r.2)
    { d with att := { d.att with counters := d.att.counters.filter fun e => !mine e.1 } }
/-- What stood for the last row of a group is cleared. -/
def Dev.clearRow (d : Dev) (g : Nat) : Dev :=
  let d := d.zeroCounters g
  { d with att := { d.att with
      work := d.att.work.filter fun w => w.group != g
      partials := d.att.partials.filter fun p => p.1 != g || p.2.row == d.row g
      emitQ := d.att.emitQ.filter fun e => e.1 != g
      lateQ := d.att.lateQ.filter fun e => e.1 != g
      present := d.att.present.filter fun e => e.1 / 2 ^ 16 != g
      staging := d.att.staging.filter fun e => e.1 / 2 ^ 16 != g
      placedAt := d.att.placedAt.filter fun k => k / 1024 != g
      dpath := d.att.dpath.filter fun x => x.group != g } }
/-- A cut that some controller has not prepared as its row begins is moved, and prepared again (R550). -/
def Dev.moveCut (d : Dev) (g : Nat) : Dev :=
  match d.prog g with
  | none => d
  | some p =>
    let ready := ((d.group g).ctrls.filter (· != d.self)).all fun c => p.prepared.contains c
    if !p.timekeeper || p.cutRow != d.row g || ready then d
    else
      let p := { p with cutRow := d.row g + d.seen g F.CKP_CFG_LEAD_ROWS, prepared := [] }
      (d.setProg g p).sendPrepare g p
/-- Tiles, doorbells and token lists that were held for the row are taken; those that name a skipped row are not (R47, R54,
R56, R626). -/
def Dev.takeHeld (d : Dev) (g : Nat) (next : Bool) : Dev :=
  let x := d.group g
  let ts := d.att.heldTiles.filter fun t => t.1 == g
  let d := { d with att := { d.att with heldTiles := d.att.heldTiles.filter fun t => t.1 != g } }
  let d := d.updGroup g fun x => { x with
    heldBells := []
    heldTokens := []
    tokens := if next then x.heldTokens else [] }
  let d := if next then d else x.heldTokens.foldl (fun (d : Dev) e => d.strayList e.2) d
  let d := ts.foldl (fun (d : Dev) t => d.checkTile t.1 t.2.1 t.2.2) d
  x.heldBells.foldl (fun (d : Dev) e => d.bell g e.1 e.2) d
/-- The row of a beacon begins (R54, R56, R57, R58, R256, R625). -/
def Dev.beginRow (d : Dev) (m : Memory) (g : Nat) (b : Beacon) : Dev :=
  let next := b.row == d.row g + 1
  let marked := (d.group g).ctrls.zipIdx.filterMap fun e => if bitOf b.voidMap e.2 then some e.1 else none
  let d := d.markSplit g (d.row g) marked
  let d := if b.reconf then d.activate m g else d
  if d.gid g = 0 then d
  else
    let d := (((d.si F.TIM_ROW_ROW g b.row).setPhase g .stakes).si F.TIM_STAKE_CLOSED g 0xFF).si F.TIM_STAKE_ANY_CLOSED g 0
    let d := d.updGroup g fun x => { x with
      heldBeacon := none
      announced := []
      rowEnds := []
      rowVoided := false
      boundaryDone := false
      needResync := false
      batch := x.nextBatch
      plan := x.nextPlan
      planCc := x.nextCc
      querySeen := []
      beaconDeadline := none
      takeoverDeadline := none
      lostDeadline := none
      readySent := if b.reconf then false else x.readySent
      mapReady := if b.reconf then [] else x.mapReady
      stakeDeadline := some (d.now + d.seen g F.TIM_DPATH_STAKE_US * 1000)
      rowDeadline := some (d.now + d.seen g F.TIM_DPATH_ROW_MS * 1000000) }
    let d := { d with ckp := { d.ckp with restored := d.ckp.restored.erase g } }
    let d := ((d.clearRow g).moveCut g).startTasks g
    (d.takeHeld g next).showLag g

/-- ROW_BEGIN: the beacon is held and the boundary before it is complete (R54, R625). -/
def execRowBegin (g : Nat) : State → Host.Outcome State Fault Refusal :=
  onUnit (g < 64) fun m d => match (d.group g).heldBeacon with
    | none => d
    | some (_, b) => if (d.phase g == 0 || d.phase g == 3) && d.on F.TIM_CTL_EN then d.beginRow m g b else d

/-! ## Queries, readiness, takeover, restart (R53, R60, R61, R625) -/

/-- BEACON_QUERY (R53, R60). -/
def execBeaconQuery (src gid row epoch mapEpoch : Nat) : State → Host.Outcome State Fault Refusal :=
  onDev fun _ d => d.asGroup src gid mapEpoch fun g d =>
    let _ := (row, epoch)
    let d := d.resolve src svcTime .ok
    if d.issues g then
      (match (d.group g).lastBeacon with
       | some b => if d.phase g = 4 then d else d.send src svcTime (d.timeHdr g 1 0 b.row 0 ++ b.bytes)
       | none => d)
    else if !d.isTk g && d.deputy g == d.self then
      d.updGroup g fun x => { x with querySeen := if x.querySeen.contains src then x.querySeen else x.querySeen ++ [src] }
    else d

/-- MAP_READY (R53, R443, R625). -/
def execMapReady (src gid row epoch mapEpoch : Nat) : State → Host.Outcome State Fault Refusal :=
  onDev fun _ d => d.asGroup src gid mapEpoch fun g d =>
    let _ := epoch
    let d := d.resolve src svcTime .ok
    (d.updGroup g fun x => { x with mapReady := NMap.put x.mapReady src (mapEpoch, row) }).firstBeacon g

/-- BEACON_LIMIT: the timekeeper and the deputy are asked; the deputy's own query stands among those that it records for the test of
TAKEOVER (R53, R60; log entry 72). -/
def execBeaconLimit (g : Nat) : State → Host.Outcome State Fault Refusal :=
  onUnit (g < 64) fun _ d => match (d.group g).beaconDeadline with
    | none => d
    | some t =>
      if d.phase g ≠ 3 then d
      else
        let d := d.reach t
        let again := d.deputy g = d.self ∨ d.deputy g = 0
        let d := d.updGroup g fun x => { x with
          beaconDeadline := none
          querySeen := if d.deputy g = d.self ∧ !x.querySeen.contains d.self then x.querySeen ++ [d.self] else x.querySeen
          takeoverDeadline := if again then some (t + d.seen g F.TIM_DPATH_BEACON_MS * 1000000) else none }
        (([d.tk g, d.deputy g].filter fun c => c != 0 && c != d.self).dedup).foldl (fun (d : Dev) c =>
          d.send c svcTime (d.timeHdr g 3 0 (d.row g) 0)) d

/-- TAKEOVER: the deputy becomes timekeeper at the next epoch and collects the reports anew; without a deputy the group is
STALLED (R60, R61, R552). -/
def execTakeover (g : Nat) : State → Host.Outcome State Fault Refusal :=
  onUnit (g < 64) fun _ d => match (d.group g).takeoverDeadline with
    | none => d
    | some t =>
      if d.phase g ≠ 3 ∨ (d.group g).heldBeacon.isSome then d
      else
        let d := (d.reach t).updGroup g fun x => { x with takeoverDeadline := none }
        if d.deputy g = 0 then d.stall g 3 (d.row g)
        else if d.deputy g ≠ d.self ∨ (d.group g).querySeen = [] then d
        else
          let d := d.newTk g d.self (d.tkEpoch g + 1)
          let n := d.row g
          let d := (d.failCkpt g 4).updGroup g fun x => { x with
            tookOver := true
            roundRow := n
            reports := x.reports.filter fun e => decide (n ≤ e.2.row)
            lostDeadline := some (d.now + d.seen g F.TIM_DPATH_ROW_MS * 1000000) }
          d.tryBeacon g

/-- RESTART: the group returns to WAIT_BEACON and reports its current row with RESTART (R61). Of the reports that a timekeeper holds when it
restarts itself, those with RESTART count for the round that its own opens, and the others do not (DESIGN CHOICE; log entry 72). -/
def Dev.restartGroup (d : Dev) (g : Nat) : Dev :=
  let d := ((d.setPhase g .waitBeacon).si F.TIM_ROW_VOIDS g 0).updGroup g fun x => { x with
    needResync := true
    reports := if d.isTk g then x.reports.filter fun e => e.2.restart else x.reports
    roundRestart := x.roundRestart || d.isTk g }
  d.sendReport g
    { row := d.row g
      tkEpoch := d.tkEpoch g
      mapEpoch := d.installedEpoch
      owns := d.ownsIn g
      restart := true }

end Sys2Proof.Machine
end

