-- ==== Sys2Proof/Machine/Hall.lean ====
section
/-! DEFINITION. The hall transport: placement, visibility, acknowledgement, paths, connections, on-demand paging (chapter 13).
Whether a packet's tag, and whether a request's MAC, verifies is an operand of the event (log entry 50). -/
namespace Sys2Proof.Machine
open Sys2Proof

/-! ## Sending (R393, R400) -/

/-- MESSAGE_SEND: a message that waits begins once its window allows, on the open connection or on one that is asked for
(R393, R400). -/
def execMessageSend (peer : Nat) (bulk : Bool) : State → Host.Outcome State Fault Refusal :=
  onDev fun _ d => match d.connOf peer bulk with
    | some i => d.sendMore i
    | none =>
      if d.on F.HLF_CTL_EN && d.enrolled && d.hall.wait.any (fun e => e.1 == peer && e.2.1 == bulk) then d.connect peer bulk else d

/-! ## The ACK (R408) -/

/-- SACK: bit i, TSN CUM_TSN + 1 + i has been received. -/
def Conn.sack (x : Conn) : Nat := ((List.range 64).filter fun i => x.rxTsn.contains (x.cumTsn + i)).foldl (fun n i => n + 2 ^ i) 0
/-- An ACK leaves on the first LIVE path: CUM_TSN, SACK, VIS_MSN, CE_MASK, ST_MSN, STATUS, RETRY_US (R408). -/
def Dev.sendAck (d : Dev) (i msn : Nat) (st retryUs : Nat) : Dev :=
  let x := d.conn i
  let path := ((x.paths.zipIdx.find? fun e => e.1.live).map (·.2)).getD 0
  let d := d.setConn i { x with
    sinceAck := 0
    ackDue := none
    ceMask := 0 }
  d.packet x path 4 [(x.cumTsn + 2 ^ 48 - 1) % 2 ^ 48, x.sack, x.next, x.ceMask, msn, st, retryUs] []

/-! ## Opening, closing and failing (R393 to R398) -/

/-- Paths of a connection that opens now (R410, R411). -/
def Dev.newPaths (d : Dev) : List QPath := List.replicate (d.g F.HLF_CONN_CFG_PATHS) { window := d.g F.HLF_CC_WIN_INIT_KIB }
/-- A connection is OPEN: messages that waited for it are submitted (R393). -/
def Dev.openConn (d : Dev) (i : Nat) : Dev :=
  let x := d.conn i
  let mine := d.hall.wait.filter fun e => e.1 == x.peer && e.2.1 == x.bulk
  let d := { d with hall := { d.hall with wait := d.hall.wait.filter fun e => !(e.1 == x.peer && e.2.1 == x.bulk) } }
  (d.setConn i { x with
    state := .opened
    paths := d.newPaths
    ports := d.hallPorts
    lastUse := d.now
    msgs := x.msgs ++ mine.map (·.2.2) }).sendMore i
/-- Connections are asked for on behalf of messages that wait without one (R393, R397). -/
def Dev.askConns (d : Dev) : Dev :=
  if d.on F.HLF_CTL_EN && d.enrolled then
    d.hall.wait.foldl (fun (d : Dev) e => match d.connOf e.1 e.2.1 with
      | some _ => d
      | none => d.connect e.1 e.2.1) d
  else d
/-- An entry is CLOSED; messages submitted meanwhile, and messages that found no free entry, ask for connections (R393, R397). -/
def Dev.dropConn (d : Dev) (i : Nat) : Dev := { d with hall := { d.hall with conns := NMap.del d.hall.conns i } }
/-- A draining connection that has resolved every message sends CLOSE, and is CLOSED once CLOSE is exchanged: its own is acknowledged,
and the peer's has come, which a last ACK acknowledges (R393). -/
def Dev.tryClose (d : Dev) (i : Nat) : Dev :=
  let x := d.conn i
  if x.state = .draining ∧ x.quiet then
    let d := d.sendClose i
    if x.closeSent ∧ x.closeGot then ((if x.ackDue.isSome then d.sendAck i 0 0 0 else d).dropConn i).askConns else d
  else d
/-- A submitted message completes with a status (R398, R406). -/
def Dev.complete (d : Dev) (peer : Nat) (bulk : Bool) (y : QMsg) (st : Nat) : Dev :=
  d.emit (.done peer bulk y.type (if y.type = 3 then y.service else y.region) y.msn st)
/-- The messages that wait for a connection complete with a status (R393, R398). -/
def Dev.endWait (d : Dev) (peer : Nat) (bulk : Bool) (st : Status) : Dev :=
  let mine (e : Nat × Bool × QMsg) : Bool := e.1 == peer && e.2.1 == bulk
  let d := (d.hall.wait.filter mine).foldl (fun (d : Dev) e => d.complete peer bulk e.2.2 st.code) d
  { d with hall := { d.hall with wait := d.hall.wait.filter fun e => !mine e } }
/-- A connection fails: its outgoing messages complete with FAULT, its incoming ones are discarded, and no RENEW sent on it waits for an
answer any more (R430); CONN_FAILED is posted and counted (R398). Cause: 1 a packet unacknowledged, 2 no LIVE path, 3 CONN_REQ unanswered, 4 the peer restarted. -/
def Dev.failConn (d : Dev) (i cause : Nat) : Dev :=
  let x := d.conn i
  let d := if x.state = .connecting then d.endWait x.peer x.bulk .fault else d
  let d := (x.msgs.filter (·.type != 2)).foldl (fun (d : Dev) y => d.complete x.peer x.bulk y Status.fault.code) d
  let d := d.setConn i
    { state := .failed
      peer := x.peer
      bulk := x.bulk
      failedAt := d.now }
  let d := if x.bulk then d
    else d.updOwn fun o => { o with
      ownLeases := NMap.mapV o.ownLeases fun slot l => if d.homeOf (d.sess slot).d.sid = x.peer then { l with sents := [] } else l }
  (d.sat F.HLF_CNT3_CONN_FAILED 1).post0
    { typ := 0x19
      status := Status.fault.code
      cause := cause
      args := [x.peer, b2n x.bulk] }

/-! ## Receiving (R388 to R391, R401) -/

/-- A field of the QHT header (R389). -/
def hf (h : Bytes) (off lo w : Nat) : Nat := fieldAt h off lo w
/-- SRC_CTRL of a header. -/
def srcOf (h : Bytes) : Nat := hf h 8 0 16
/-- CLASS of a header. -/
def classOf (h : Bytes) : Bool := hf h 8 60 1 == 1
/-- A frame that the port does not take in is dropped and counted (R386). -/
def Dev.dropFrame (d : Dev) (port : Nat) : Dev := d.sati F.HLF_PORT_CNT_RX_DROP port 1
/-- A QHT frame at a HALL port of the enabled block whose VERSION, TYPE and DST_CTRL are valid (R390, R401). -/
def Dev.qhtHead (d : Dev) (port typ : Nat) (h : Bytes) (k : Dev → Dev) : Dev :=
  if !d.on F.HLF_CTL_EN || d.gi F.HLF_PORT_ROLE port != 2 then d.dropFrame port
  else
    let d := d.wrap F.HLF_CNT0_PKTS_IN 1
    if hf h 0 0 4 ≠ 1 ∨ hf h 0 4 4 ≠ typ ∨ hf h 8 16 16 ≠ d.self then d.sat F.HLF_CNT3_BAD_HDR 1
    else k d
/-- An entry is the one that a header names: OPEN or DRAINING, of its CONN_EPOCH, SRC_CTRL, SRC_CONN and CLASS (R401). -/
def Conn.named (x : Conn) (h : Bytes) : Bool :=
  (x.state == .opened || x.state == .draining) && x.epoch == hf h 0 32 32 && x.peer == srcOf h && x.peerConn == hf h 8 46 14 &&
    x.bulk == classOf h
/-- A packet that passes the connection check and the tag check (R401). -/
def Dev.qhtIn (d : Dev) (port typ : Nat) (tag : Bool) (h : Bytes) (k : Nat → Dev → Dev) : Dev :=
  d.qhtHead port typ h fun d =>
    let i := hf h 8 32 14
    if !(d.conn i).named h then d.sat F.HLF_CNT3_STRAY 1
    else if !tag then d.sat F.HLF_CNT1_AUTH_FAIL 1
    else k i d

/-! ## Acknowledgement at the receiver (R408) -/

/-- CUM_TSN after TSNs have arrived: `cumTsn` counts the TSNs received without a gap. -/
def advanceCum : Nat → Nat → List Nat → Nat × List Nat
  | 0, c, ts => (c, ts)
  | n + 1, c, ts => if ts.contains c then advanceCum n (c + 1) (ts.erase c) else (c, ts)
/-- A TSN has been received (R401, R408). -/
def Conn.take (x : Conn) (tsn : Nat) : Conn :=
  let ts := if tsn < x.cumTsn ∨ x.rxTsn.contains tsn then x.rxTsn else x.rxTsn ++ [tsn]
  let r := advanceCum ts.length x.cumTsn ts
  { x with
    cumTsn := r.1
    rxTsn := r.2 }
/-- The counters of answers (R422). -/
def Dev.countAnswer (d : Dev) (st : Status) : Dev :=
  match st with
  | .dup => d.sat F.HLF_CNT1_DUP 1
  | .staleGen => d.sat F.HLF_CNT1_STALE 1
  | .retryAfter => d.sat F.HLF_CNT2_RETRY_AFTER 1
  | .busy => d.sat F.HLF_CNT2_BUSY 1
  | _ => d
/-- A status other than OK is answered at once (R408). -/
def Dev.answer (d : Dev) (i msn : Nat) (st : Status) (retryUs : Nat) : Dev := (d.countAnswer st).sendAck i msn st.code retryUs
/-- A packet is received: its TSN, its CE mark, and the ACK due after 8 packets or 2 µs (R408). -/
def Dev.rxPacket (d : Dev) (i : Nat) (ce : Bool) (h : Bytes) : Dev :=
  let x := (d.conn i).take (hf h 0x10 0 48)
  let x := { x with
    sinceAck := x.sinceAck + 1
    ceMask := if ce then setBit x.ceMask (hf h 0 16 4) true else x.ceMask
    ackDue := match x.ackDue with
      | some t => some t
      | none => some (d.now + 2000) }
  let d := d.setConn i x
  if 8 ≤ x.sinceAck then d.sendAck i 0 0 0 else d

/-- ACK_TIMER: 2 µs after the first unacknowledged packet an ACK is sent (R408). -/
def execAckTimer (conn : Nat) : State → Host.Outcome State Fault Refusal :=
  onDev fun _ d => match (d.conn conn).ackDue with
    | some t => (d.reach t).sendAck conn 0 0 0
    | none => d

/-! ## Placement (R401, R402, R407, R413 to R415) -/

/-- What a data packet's header says of its message. -/
structure QIn where
  typ : Nat
  msn : Nat
  off : Nat
  total : Nat
  plen : Nat
  last : Bool
  part : Nat
  addr : Nat
  region : Nat
  gen : Nat
  counter : Nat
  notify : Bool
  incr : Nat
  deriving DecidableEq, Repr

/-- The header's fields (R389). -/
def qinOf (typ : Nat) (h : Bytes) : QIn :=
  { typ := typ
    msn := hf h 0x18 0 32
    off := hf h 0x18 32 24
    total := hf h 0x20 0 25
    plen := hf h 0x20 25 13
    last := hf h 0 8 1 == 1
    part := hf h 0 20 5
    addr := hf h 0x28 0 64
    region := hf h 0x30 0 16
    gen := hf h 0x30 16 32
    counter := hf h 0x38 0 17
    notify := hf h 0x38 17 1 == 1
    incr := hf h 0x38 32 32 }

/-- OFFSET, PAYLOAD_LEN and LAST agree with TOTAL_LEN and with the payload (R389, R400, R401). -/
def QIn.shape (q : QIn) (data : Bytes) : Bool :=
  1 ≤ q.total && q.total ≤ 16777216 && q.plen == data.length &&
    (if q.typ = 1 then q.plen == 0 && q.off == 0
     else q.off % 4096 == 0 && q.off < q.total && q.plen == min 4096 (q.total - q.off) && q.last == (q.off + q.plen == q.total))
/-- The region that a message names, if it is VALID (R379). -/
def Dev.region (d : Dev) (i : Nat) : Option Region := (NMap.get? d.hall.regions i).bind fun r => if r.valid then some r else none
/-- The local offset of a hall address that lies here. Controller id 0 names the controller that issued the address: `own` says that this
controller did, and in an address that another controller sends it names that one (R378). -/
def Dev.localOf (d : Dev) (own : Bool) (addr : Nat) : Option Nat :=
  if (own ∧ addr / 2 ^ 48 = 0) ∨ addr / 2 ^ 48 = d.self then some (addr % 2 ^ 48) else none
/-- A range lies within a region. -/
def Dev.inside (d : Dev) (r : Region) (own : Bool) (addr n : Nat) : Bool :=
  match d.localOf own addr with
  | some a => r.base ≤ a && a + n ≤ r.base + r.length
  | none => false
/-- The checks that a message's first packet to arrive decides for it all (R383, R401, R405). -/
def Dev.checkMsg (d : Dev) (q : QIn) : Status :=
  if q.typ = 3 then (if 1048576 < q.total ∨ q.region = 0 ∨ 6 < q.region then .badParam else .ok)
  else match d.region q.region with
    | none => .staleGen
    | some r =>
      if !d.inside r false q.addr q.total ∨ (q.typ = 0 ∧ q.incr ≠ 0 ∧ (q.counter < r.counter ∨ r.counter + r.counters ≤ q.counter)) then .badParam
      else if q.gen ≠ r.gen then .staleGen
      else if q.part ≠ r.partition ∨ !r.qht ∨ (q.typ = 0 ∧ !r.write) ∨ (q.typ = 1 ∧ !r.read) then .denied
      else .ok
/-- The 64 KiB pages of a region that a range touches (R413). -/
def pagesOf (r : Region) (a n : Nat) : List Nat :=
  let lo := (a - r.base) / 65536
  (List.range ((a + max 1 n - 1 - r.base) / 65536 + 1 - lo)).map (lo + ·)
/-- Pages of a range of a PAGED region that are in a list. -/
def Region.touches (r : Region) (list : List Nat) (a n : Nat) : Bool := r.paged && (pagesOf r a n).any list.contains
/-- A held request asks for its pages out of turn, and is counted (R414). -/
def Dev.holdOn (d : Dev) (region : Nat) (r : Region) (a n : Nat) : Dev :=
  let want := (pagesOf r a n).filter fun p => r.absent.contains p && !r.fetching.contains p
  (d.sat F.HLF_CNT2_PAGE_STALL 1) |> fun d =>
    { d with hall := { d.hall with regions := NMap.put d.hall.regions region { r with fetching := r.fetching ++ want } } }
/-- The tracker of a message. -/
def Dev.track (d : Dev) (i msn : Nat) : Option QTrack := NMap.get? (d.conn i).tracks msn
/-- The trackers with one changed. -/
def Dev.setTrack (d : Dev) (i msn : Nat) (t : QTrack) : Dev := d.updConn i fun x => { x with tracks := NMap.put x.tracks msn t }
/-- Bytes of a message that have been placed. -/
def QTrack.bytes (t : QTrack) : Nat := t.placed.foldl (fun n e => n + e.2) 0
/-- A packet is placed: a WRITE's data in HBM, a SEND's in the reassembly buffer; an offset already placed is ignored
(R402). -/
def Dev.place (d : Dev) (i msn off : Nat) (data : Bytes) : Dev :=
  match d.track i msn with
  | none => d
  | some t =>
    if t.status.isSome || t.placed.any (fun e => e.1 == off) then d
    else
      let d := if t.type = 0 then d.poke (t.addr % 2 ^ 48 + off) data else d
      let t := { t with
        placed := t.placed ++ [(off, data.length)]
        body := if t.type = 3 then NMap.put t.body off data else t.body }
      d.setTrack i msn { t with status := if t.bytes = t.total then some .ok else none }
/-- A message is resolved with a rejection, which is answered at once (R401, R408). -/
def Dev.refuse (d : Dev) (i : Nat) (q : QIn) (st : Status) : Dev :=
  let t : QTrack := (d.track i q.msn).getD { type := q.typ, total := q.total }
  (d.setTrack i q.msn { t with
    status := some st
    held := []
    heldUntil := none }).answer i q.msn st 0
/-- The highest KIND of a service's messages; those of PARTIAL carry none (R53, R165, R335, R433, R558). -/
def kindMax (svc : Nat) : Option Nat :=
  match svc with
  | 1 => some 4
  | 2 => some 20
  | 3 => some 20
  | 5 => some 10
  | 6 => some 13
  | _ => none
/-- The first packet of a message to a service carries a KIND that is reserved there (R53, R335, R433, R558). -/
def QIn.badKind (q : QIn) (data : Bytes) : Bool :=
  q.typ == 3 && q.off == 0 && match kindMax q.region with
    | some n => leAt data 0 1 == 0 || n < leAt data 0 1
    | none => false
/-- A packet whose page is absent is held, or its message fails with the page's fetch; else it is placed (R402, R414,
R415). -/
def Dev.placeOrHold (d : Dev) (i : Nat) (q : QIn) (data : Bytes) : Dev :=
  let go (d : Dev) : Dev :=
    if q.typ = 1 then match d.track i q.msn with
      | some t => d.setTrack i q.msn { t with status := some .ok }
      | none => d
    else d.place i q.msn q.off data
  if q.typ = 3 then (if q.badKind data then d.refuse i q .badParam else go d)
  else match d.region q.region with
    | none => go d
    | some r =>
      let a := q.addr % 2 ^ 48 + q.off
      let n := if q.typ = 1 then q.total else data.length
      if r.touches r.failed a n then d.refuse i q .fault
      else if r.touches r.absent a n then
        let d := d.holdOn q.region r a n
        match d.track i q.msn with
        | none => d
        | some t => d.setTrack i q.msn { t with
            held := t.held ++ (if t.held.any (fun e => e.1 == q.off) then [] else [(q.off, data)])
            heldUntil := match t.heldUntil with
              | some u => some u
              | none => some (d.now + d.g F.TIM_FAB_PAGE_STALL_US * 1000) }
      else go d
/-- Bytes of a message in the reassembly buffer of a port: a SEND's placed packets and those held for an absent page (R402, R414). -/
def QTrack.bytesAt (t : QTrack) (port : Nat) : Nat :=
  let mine (xs : List (Nat × Bytes)) : Nat :=
    xs.foldl (fun a e => if NMap.get? t.via e.1 = some port then a + e.2.length else a) 0
  mine t.body + mine t.held
/-- A page that a message's packet touches is absent, or its fetch has failed (R414, R415). -/
def Dev.pageWaits (d : Dev) (q : QIn) (data : Bytes) : Bool :=
  q.typ != 3 && (d.region q.region).any fun r =>
    let a := q.addr % 2 ^ 48 + q.off
    let n := if q.typ = 1 then q.total else data.length
    r.touches r.failed a n || r.touches r.absent a n
/-- A port has room for a packet of a partition: a tracker, for a message that has none yet, and room in the reassembly buffer, which
the event says (log entry 9); in STRICT the partition's share of each, in proportion to its SLOTS, is not full (R479). -/
def Dev.roomFor (d : Dev) (port part : Nat) (room fresh : Bool) (n : Nat) : Bool :=
  let mine := d.hall.conns.flatMap fun e => (e.2.tracks.filter fun t => t.2.partition == part).map (·.2)
  room && (!d.strict ||
    (decide ((mine.foldl (fun a t => a + t.bytesAt port) 0) + n ≤ 1048576 * d.partSlots part / 64) &&
      (!fresh || decide ((mine.filter fun t => t.port == port).length + 1 ≤ Config.portTrackers * d.partSlots part / 64))))
/-- A data packet that a port received, within the window of 64 messages: one that waits for a page is held before room is looked for
(R401, R402, R412, R414, R479). -/
def Dev.dataNew (d : Dev) (i port : Nat) (room : Bool) (q : QIn) (data : Bytes) : Dev :=
  match d.track i q.msn with
  | some t =>
    if t.status.isSome then
      match t.status with
      | some .ok => d
      | some st => d.answer i q.msn st 0
      | none => d
    else if !q.shape data ∨ t.total ≠ q.total then d.refuse i q .badParam
    else if !d.pageWaits q data && !d.roomFor port t.partition room false data.length then
      let (us, d) := d.draw
      d.answer i q.msn .busy (us % 2 ^ 32)
    else (d.setTrack i q.msn { t with
        via := if (NMap.get? t.via q.off).isSome then t.via else NMap.put t.via q.off port }).placeOrHold i q data
  | none =>
    if !q.shape data then d.refuse i q .badParam
    else
      let st := d.checkMsg q
      if st ≠ .ok then d.refuse i q st
      else if !d.pageWaits q data && !d.roomFor port q.part room true data.length then
        let (us, d) := d.draw
        d.answer i q.msn .busy (us % 2 ^ 32)
      else
        (d.setTrack i q.msn
          { type := q.typ
            total := q.total
            region := q.region
            regionGen := q.gen
            addr := q.addr
            partition := q.part
            counter := q.counter
            incr := q.incr
            notify := q.notify
            port := port
            via := NMap.put [] q.off port }).placeOrHold i q data

/-! ## Visibility and reads (R403, R404) -/

/-- The data of a read is sent as READ_RESP packets with the request's MSN and partition (R389, R404). -/
def Dev.runRead (m : Memory) (d : Dev) (i msn addr n part : Nat) : Dev :=
  (d.updConn i fun x => { x with
    msgs := x.msgs ++ [{ msn := some msn, type := 2, len := n, partition := part, body := m.readN (addr % 2 ^ 48) n }] }).sendMore i
/-- Released regions that no message of a connection and no held RoCEv2 READ still uses give their memory back (R382). -/
def Dev.giveBack (d : Dev) : Dev :=
  let kept := d.hall.released.filter fun e => d.regionUsed e.1 e.2.gen
  let e := { d with hall := { d.hall with released := kept } }
  if kept.length < d.hall.released.length && d.noGroupRuns then e.reclaimFrames else e
/-- The message at `next` takes effect if it is resolved: its counter, its completion, its delivery to a service, its read; then next
advances, and its outcome is kept among the last 1,024 (R403 to R405, R407). -/
def Dev.visible (m : Memory) (d : Dev) (i : Nat) : Dev :=
  let x := d.conn i
  match d.track i x.next with
  | none => d
  | some t => match t.status with
    | none => d
    | some st =>
      let ok := st == .ok
      let d := if ok && t.type == 0 && t.incr != 0 then
          { d with att := { d.att with
            counters := NMap.put d.att.counters t.counter ((NMap.getD d.att.counters t.counter 0 + t.incr) % 2 ^ 32) } }
        else d
      let d := if ok && t.type == 0 && t.notify then
          let r := NMap.get? d.hall.regions t.region
          d.post ((r.map (·.partition)).getD 0) ((r.map (·.eq)).getD 0xFFFF)
            { typ := 0x01
              args := [t.addr, t.total, x.next] }
        else d
      let d := if t.type = 0 ∧ ok then d.copySeen m t.region t.total else d
      let d := if ok && t.type == 3 then d.emit (.deliver x.peer x.bulk t.region (t.body.flatMap (·.2))) else d
      let old := (x.next + 2 ^ 32 - 1024) % 2 ^ 32
      let d := d.updConn i fun x => { x with
        next := (x.next + 1) % 2 ^ 32
        tracks := NMap.del x.tracks x.next
        outcomes := NMap.put (NMap.del x.outcomes old) x.next st
        lastUse := d.now
        ackDue := match x.ackDue with
          | some t => some t
          | none => some (d.now + 2000) }
      let d := if ok && t.type == 1 then d.runRead m i x.next t.addr t.total t.partition else d
      d.giveBack.tryClose i
/-- A data packet after the tag check (R401). A READ_REQ that has been executed and comes again is executed again where its region still
admits it (R379, R383, R404). -/
def Dev.dataIn (m : Memory) (d : Dev) (i port : Nat) (ce room : Bool) (typ : Nat) (h data : Bytes) : Dev :=
  let d := d.rxPacket i ce h
  let q := qinOf typ h
  let x := d.conn i
  let dist := signed 32 (q.msn + 2 ^ 32 - x.next)
  let genOk : Bool := ((d.region q.region).map fun r => r.gen == q.gen).getD false
  let ran := decide (dist < -1024) || NMap.get? x.outcomes q.msn == some .ok
  if 64 ≤ dist then d.sat F.HLF_CNT3_OVERRUN 1
  else if dist < 0 then
    if typ = 1 ∧ ran ∧ q.shape [] ∧ d.checkMsg q = .ok ∧ !d.pageWaits q [] then
      (d.runRead m i q.msn q.addr q.total q.part).answer i q.msn .dup 0
    else if dist < -1024 ∧ typ ≠ 3 ∧ !genOk then d.answer i q.msn .staleGen 0
    else d.answer i q.msn .dup 0
  else
    let d := d.dataNew i port room q data
    if typ = 1 ∧ q.msn = x.next then d.visible m i else d

/-- WRITE: a packet is checked and placed in its region (R401, R402). -/
def execWrite (port : Nat) (ce tag room : Bool) (hdr data : Bytes) : State → Host.Outcome State Fault Refusal :=
  onDev fun m d => d.qhtIn port 0 tag hdr fun i d => d.dataIn m i port ce room 0 hdr data
/-- READ_REQ: a read runs once every lower MSN is resolved (R401, R404). -/
def execReadReq (port : Nat) (ce tag room : Bool) (hdr : Bytes) : State → Host.Outcome State Fault Refusal :=
  onDev fun m d => d.qhtIn port 1 tag hdr fun i d => d.dataIn m i port ce room 1 hdr []
/-- SEND: a packet is placed in the port's reassembly buffer (R401, R402, R405). -/
def execSend (port : Nat) (ce tag room : Bool) (hdr data : Bytes) : State → Host.Outcome State Fault Refusal :=
  onDev fun m d => d.qhtIn port 3 tag hdr fun i d => d.dataIn m i port ce room 3 hdr data
/-- MESSAGE_VISIBLE: the message at next becomes visible, or is passed over (R403). -/
def execMessageVisible (conn : Nat) : State → Host.Outcome State Fault Refusal :=
  onDev fun m d => d.visible m conn

/-- Reads whose data is all there complete in the order of MSNs: each only when no read submitted before it still waits (R404). -/
def Dev.endReads (i : Nat) : Nat → Dev → Dev
  | 0, d => d
  | n + 1, d =>
    let x := d.conn i
    match x.msgs.find? fun y => y.type == 1 && y.msn.isSome with
    | none => d
    | some y =>
      if !y.ended then d
      else Dev.endReads i n ((d.setConn i { x with msgs := x.msgs.erase y, lastUse := d.now }).complete x.peer x.bulk y Status.ok.code)
/-- READ_RESP data is placed at the destination recorded for the request; the read is done when all of it is there, and completes in the
order of MSNs (R404). A response that fits no read under way is acknowledged by its TSN and not placed: a status for its MSN would
concern a message of the peer's own (log entry 54). -/
def Dev.respIn (d : Dev) (i : Nat) (ce : Bool) (h data : Bytes) : Dev :=
  let d := d.rxPacket i ce h
  let q := qinOf 2 h
  match (d.conn i).msgs.find? fun y => y.msn == some q.msn && y.type == 1 && !y.ended with
  | none => d
  | some y =>
    if !q.shape data ∨ q.total ≠ y.len ∨ y.placed.any (fun e => e.1 == q.off) then d
    else
      let d := d.poke (y.dest + q.off) data
      let placed := y.placed ++ [(q.off, data.length)]
      let z := { y with placed := placed, ended := decide (placed.foldl (fun n e => n + e.2) 0 = y.len) }
      let d := d.updConn i fun x =>
        let x := { x with msgs := x.msgs.map fun o => if o == y then z else o }
        if z.ended then x.dropPkts fun k => k.kind == 1 && k.msn == q.msn else x
      ((Dev.endReads i (d.conn i).msgs.length d).sendMore i).tryClose i
/-- READ_RESP (R404). -/
def execReadResp (port : Nat) (ce tag : Bool) (hdr data : Bytes) : State → Host.Outcome State Fault Refusal :=
  onDev fun _ d => d.qhtIn port 2 tag hdr fun i d => d.respIn i ce hdr data

/-! ## Acknowledgement at the sender (R406, R409 to R412) -/

/-- A packet is acknowledged: its path's count is cleared and its bytes leave the window (R410, R411). -/
def Conn.acked (x : Conn) (k : QPkt) : Conn :=
  let x := if k.queued then x
    else x.updPath k.path fun p => { p with
      timeouts := 0
      outstanding := p.outstanding - k.len
      acked := p.acked + k.len }
  { x with
    pkts := x.pkts.filter (· != k)
    msgs := x.msgs.map fun y =>
      if y.msn = some k.msn ∧ (y.type = 2) = (k.kind = 2) ∧ !y.acked.contains k.offset then { y with acked := y.acked ++ [k.offset] } else y }
/-- The windows after an ACK: halved on a CE mark, at most once per RTO; else grown by ADD_KIB for each window's worth of
bytes (R411). -/
def Dev.windows (d : Dev) (x : Conn) (ce : Nat) : Conn :=
  { x with paths := x.paths.zipIdx.map fun e =>
      let p := e.1
      if bitOf ce e.2 then
        let again := match p.halvedAt with
          | some t => decide (d.now < t + d.g F.TIM_FAB_RTO_US * 1000)
          | none => false
        if again then { p with acked := 0 }
        else { p with
          window := max (d.g F.HLF_CC_WIN_MIN_KIB) (p.window / 2)
          acked := 0
          halvedAt := some d.now }
      else if p.window * 1024 ≤ p.acked ∧ 0 < p.window then
        { p with
          window := min (d.g F.HLF_CC_WIN_MAX_KIB) (p.window + d.g F.HLF_CC_ADD_KIB)
          acked := p.acked - p.window * 1024 }
      else p }
/-- Whether MSN `m` lies below VIS_MSN. -/
def belowVis (vis m : Nat) : Bool := decide (0 < signed 32 (vis + 2 ^ 32 - m))
/-- What an ACK says of a message: the status with which it completes. One below VIS_MSN is done, a READ only when its data is placed;
a final status for it completes it (R404, R406). -/
def QMsg.fate (y : QMsg) (vis msn st : Nat) : Option Nat :=
  match y.msn with
  | none => none
  | some m =>
    if y.type = 2 then none
    else if y.type ≠ 1 ∧ belowVis vis m then some (if m = msn ∧ [0x40, 0x60, 0x70, 0xF0].contains st then st else Status.ok.code)
    else if m = msn ∧ !y.ended then
      if [0x40, 0x60, 0x70, 0xF0].contains st then some st
      else if st = 0x41 ∧ y.type ≠ 1 then some Status.ok.code
      else none
    else none
/-- A message that is answered RETRY_AFTER is sent again whole after RETRY_US, one that is answered BUSY with the packets that are not
acknowledged (R412, R414). -/
def QMsg.again (y : QMsg) (newly : List QPkt) (msn st till : Nat) : QMsg :=
  if y.msn ≠ some msn ∨ y.type = 2 ∨ y.ended ∨ (st ≠ 0x10 ∧ st ≠ 0x11) then y
  else { y with
    retryAt := some till
    acked := if st = 0x11 then [] else y.acked.filter fun o => !newly.any fun k => k.msn == msn && k.kind == y.type && k.offset == o }
/-- The messages after an ACK (R406, R412, R414). A READ_RESP is done when every packet of it is acknowledged. The packets of messages
that are complete, or that wait to be sent again, leave the windows of their paths. -/
def Dev.finishMsgs (d : Dev) (x : Conn) (newly : List QPkt) (vis msn st us : Nat) : Conn :=
  let stays (y : QMsg) : Bool :=
    if y.type = 2 then y.acked.length != ceilDiv y.len 4096 else (y.fate vis msn st).isNone
  let msgs := (x.msgs.filter stays).map fun y => y.again newly msn st (d.now + us * 1000)
  let x := { x with msgs := msgs, lastUse := if msgs.length < x.msgs.length then d.now else x.lastUse }
  x.dropPkts fun k => (k.kind < 2 || k.kind == 3) && !msgs.any fun y => y.msn == some k.msn && y.type == k.kind && y.retryAt.isNone
/-- The group of a beacon that this controller has sent and whose message an answer names (R51, R53). -/
def Dev.beaconGroup (d : Dev) (x : Conn) (msn : Nat) : Option Nat :=
  (x.msgs.find? fun y => y.msn == some msn && y.type == 3 && y.service == svcTime && leAt y.body 0 1 == 1).bind fun y =>
    d.groupOf (leAt y.body 4 4)
/-- A timekeeper whose beacon is rejected with STALE_GEN issues no more of them for the group (R60). -/
def Dev.beaconAnswer (d : Dev) (x : Conn) (msn st : Nat) : Dev :=
  if st ≠ Status.staleGen.code then d
  else match d.beaconGroup x msn with
    | some g => if d.isTk g then d.updGroup g fun y => { y with silenced := true } else d
    | none => d
/-- An ACK is taken in (R60, R406, R410 to R412). -/
def Dev.ackIn (d : Dev) (i : Nat) (h : Bytes) : Dev :=
  let x := d.conn i
  let d := d.beaconAnswer x (hf h 0x28 0 32) (hf h 0x28 32 16)
  let cum := (hf h 0x10 0 48 + 1) % 2 ^ 48
  let sack := hf h 0x18 0 64
  let got (k : QPkt) : Bool := decide (k.tsn < cum) || (cum ≤ k.tsn && k.tsn < cum + 64 && bitOf sack (k.tsn - cum))
  let newly := x.pkts.filter fun k => !k.queued && got k
  let x := newly.foldl Conn.acked x
  let x := d.windows x (hf h 0x20 32 16)
  let vis := hf h 0x20 0 32
  let msn := hf h 0x28 0 32
  let st := hf h 0x28 32 16
  let d := x.msgs.foldl (fun (d : Dev) y => match y.fate vis msn st with
    | some k => d.complete x.peer x.bulk y k
    | none => d) d
  let d := d.setConn i (d.finishMsgs x newly vis msn st (hf h 0x30 0 32))
  ((Dev.endReads i (d.conn i).msgs.length d).sendMore i).tryClose i
/-- ACK (R406, R408): it completes packets and messages at the sender; it carries no TSN and is not acknowledged. -/
def execAck (port : Nat) (ce tag : Bool) (hdr : Bytes) : State → Host.Outcome State Fault Refusal :=
  onDev fun _ d => d.qhtIn port 4 tag hdr fun i d =>
    (if ce then d.updConn i fun x => { x with ceMask := setBit x.ceMask (hf hdr 0 16 4) true } else d).ackIn i hdr

/-- RETRANSMISSION: a packet's timeout of RTO_US × 2^k, at most 64 × RTO_US, has passed (R409, R410). -/
def execRetransmission (conn tsn : Nat) : State → Host.Outcome State Fault Refusal :=
  onDev fun _ d => match (d.conn conn).pkts.find? fun k => k.tsn == tsn && !k.queued with
    | none => d
    | some k =>
      let d := d.reach (k.sent + k.rto * 1000 * min 64 (2 ^ k.tries))
      let d := d.updConn conn fun x => x.updPath k.path fun p => { p with timeouts := p.timeouts + 1 }
      let n := (((d.conn conn).paths[k.path]?).map (·.timeouts)).getD 0
      if k.limit ≤ n ∧ (((d.conn conn).paths[k.path]?).map (·.live)).getD false then d.retirePath conn k.path true
      else d.resend conn k
/-- PROBE_TIMER: every PROBE_MS a PROBE leaves on a retired path; a reply that did not come breaks the run of three (R410). -/
def execProbeTimer (conn path : Nat) : State → Host.Outcome State Fault Refusal :=
  onDev fun _ d =>
    let x := d.conn conn
    match x.paths[path]? with
    | none => d
    | some p =>
      if p.live ∨ (x.state ≠ .opened ∧ x.state ≠ .draining) then d
      else
        let d := d.reach p.probeAt
        let x := ({ x with tsn := x.tsn + 1 }).updPath path fun p => { p with
          replies := if p.asked then 0 else p.replies
          asked := true
          probeAt := d.now + d.g F.HLF_CONN_CFG_PROBE_MS * 1000000 }
        (d.setConn conn x).packet x path 9 [x.tsn - 1] []
/-- PROBE: it is answered with PROBE_REPLY, which names the sender's path (R410). -/
def execProbe (port : Nat) (ce tag : Bool) (hdr : Bytes) : State → Host.Outcome State Fault Refusal :=
  onDev fun _ d => d.qhtIn port 9 tag hdr fun i d =>
    let d := d.rxPacket i ce hdr
    let x := d.conn i
    (d.setConn i { x with tsn := x.tsn + 1 }).packet x (hf hdr 0 16 4) 10 [x.tsn] []
/-- PROBE_REPLY: after three in a row the path is LIVE again, with the window WIN_MIN (R410). -/
def execProbeReply (port : Nat) (ce tag : Bool) (hdr : Bytes) : State → Host.Outcome State Fault Refusal :=
  onDev fun _ d => d.qhtIn port 10 tag hdr fun i d =>
    let d := d.rxPacket i ce hdr
    let p := hf hdr 0 16 4
    let x := (d.conn i).updPath p fun q =>
      if q.live then q
      else if q.replies + 1 < 3 then { q with
        replies := q.replies + 1
        asked := false }
      else { q with
        live := true
        timeouts := 0
        window := d.g F.HLF_CC_WIN_MIN_KIB
        outstanding := 0
        acked := 0
        replies := 0
        asked := false }
    (d.setConn i { x with noPathSince := if x.paths.any (·.live) then none else x.noPathSince }).sendMore i
/-- BUSY_RETRY: RETRY_US has passed after a BUSY or a RETRY_AFTER; the message's packets that are not acknowledged, or all
of them, are sent again (R412, R414). -/
def execBusyRetry (conn msn : Nat) : State → Host.Outcome State Fault Refusal :=
  onDev fun _ d => match (d.conn conn).msgs.find? fun y => y.msn == some msn && y.type != 2 && y.retryAt.isSome with
    | none => d
    | some y =>
      let d := d.reach (y.retryAt.getD 0)
      let todo := (List.range (max 1 (ceilDiv y.wire 4096))).filter fun k =>
        !y.acked.contains (4096 * k) && !(d.conn conn).pkts.any fun p => p.msn == msn && p.kind == y.type && p.offset == 4096 * k
      let sentAll := max 1 (ceilDiv (min y.cut (if y.type = 1 then 1 else y.wire)) 4096)
      let again := todo.filter fun k => decide (k < sentAll)
      let d := d.updConn conn fun x => { x with
        msgs := x.msgs.map fun z => if z == y then { z with retryAt := none } else z
        pkts := x.pkts ++ again.map fun k =>
          { kind := y.type
            msn := msn
            offset := 4096 * k
            len := min 4096 (y.wire - 4096 * k)
            first := d.now
            tsn := 0
            queued := true } }
      d.sendMore conn

/-! ## Connection packets (R393 to R399, R504) -/

/-- The receiver holds a set key generation (R499, R504). -/
def Dev.holdsGen (d : Dev) (g : Nat) : Bool :=
  (d.sec.setKey.isSome && g == d.g F.SEC_KEYGEN_CUR) || (d.sec.prevKey.isSome && g == d.g F.SEC_KEYGEN_PREV)
/-- The addresses that a CONN_REQ or CONN_ACCEPT names (R394). -/
def peerAddrs (body : Bytes) : List Nat := (List.range (max 1 (hf body 0x10 0 4))).map fun i => leAt body (0x20 + 16 * i) 16
/-- The ephemeral public key of a CONN_REQ, CONN_ACCEPT or REKEY (R504). -/
def peerKey (body : Bytes) : Bytes := slice body 0xA8 96
/-- CONN_EPOCH of two EPOCH values: their XOR, or 1 (R394). -/
def epochOf (a b : Nat) : Nat := if a ^^^ b = 0 then 1 else a ^^^ b
/-- CONN_REJECT leaves, on path 0, with a reason: 1 LOST_RACE, 2 NO_ENTRY, 3 DENIED (R390). -/
def Dev.rejectConn (d : Dev) (h : Bytes) (reason : Nat) : Dev :=
  d.packet { peer := srcOf h, bulk := classOf h } 0 7 [reason, hf h 8 46 14] []
/-- CONN_ACCEPT leaves, with this side's values (R394). -/
def Dev.sendConnAccept (d : Dev) (i : Nat) : Dev :=
  let x := d.conn i
  d.packet x 0 6 (d.reqArgs i x) (d.reqBody x)
/-- A request is accepted in an entry: CONN_ACCEPT, and the connection is OPEN (R393, R394). -/
def Dev.acceptConn (d : Dev) (i : Nat) (h body : Bytes) : Dev :=
  let (x, d) := d.propose
    { peer := srcOf h
      bulk := classOf h
      peerEpoch := hf body 0 32 32
      peerBoot := hf body 8 0 64
      peerConn := hf body 0 0 14
      naddr := max 1 (hf body 0x10 0 4)
      addrs := peerAddrs body }
  let x := { x with
    epoch := epochOf x.myEpoch x.peerEpoch
    keyGen := leAt body 0xA0 4 }
  ((d.setConn i (d.keyed x false (peerKey body))).sendConnAccept i).openConn i
/-- A request for which the peer and class have no entry: one is taken, or NO_ENTRY is answered while the connection idle
longest drains (R397). -/
def Dev.acceptNew (d : Dev) (h body : Bytes) : Dev :=
  match NMap.freeFrom d.hall.conns 16384 0 with
  | some i => d.acceptConn i h body
  | none => d.evictConn.rejectConn h 2
/-- CONN_REQ (R393 to R396, R504). -/
def Dev.reqIn (d : Dev) (mac : Bool) (h body : Bytes) : Dev :=
  let boot := hf body 8 0 64
  let epoch := hf body 0 32 32
  if !d.enrolled ∨ !mac ∨ !d.holdsGen (leAt body 0xA0 4) then d.rejectConn h 3
  else match d.connOf (srcOf h) (classOf h) with
    | none => d.acceptNew h body
    | some i =>
      let x := d.conn i
      match x.state with
      | .connecting => if d.self < x.peer then d.rejectConn h 1 else d.acceptConn i h body
      | .opened | .draining =>
        if boot = x.peerBoot ∧ epoch = x.peerEpoch then d.sendConnAccept i
        else if boot < x.peerBoot then d.rejectConn h 3
        else if x.peerBoot < boot then (d.failConn i 4).acceptNew h body
        else d.rejectConn h 2
      | .failed => d
      | .closed => d.acceptNew h body
/-- CONN_REQ: answered with CONN_ACCEPT or CONN_REJECT (R394 to R396, R504). -/
def execConnReq (port : Nat) (mac : Bool) (hdr data : Bytes) : State → Host.Outcome State Fault Refusal :=
  onDev fun _ d => d.qhtHead port 5 hdr fun d => d.reqIn mac hdr data
/-- New keys and a new CONN_EPOCH, from the peer's EPOCH and ephemeral key: TSNs restart at 0 in both directions, and packets not acknowledged are sent again under
the new key (R399). -/
def Dev.newKeys (d : Dev) (i peerEpoch gen : Nat) (asked : Bool) (pub : Bytes) : Dev :=
  let x := (d.conn i).dropPkts (·.kind == 11)
  let d := d.setConn i { d.keyed { x with peerEpoch := peerEpoch } asked pub with
    epoch := epochOf x.myEpoch peerEpoch
    keyGen := gen
    rekeying := false
    tsn := 0
    cumTsn := 0
    rxTsn := []
    sinceAck := 0
    ackDue := none }
  (x.pkts.filter fun k => !k.queued).foldl (fun (d : Dev) k => d.resend i k) d
/-- A connection that this side asked for opens under the keys that the peer's ephemeral key gives (R393, R505). -/
def Dev.openKeyed (d : Dev) (i : Nat) (body : Bytes) : Dev := (d.updConn i fun x => d.keyed x true (peerKey body)).openConn i
/-- CONN_ACCEPT: the connection opens with its keys and epoch, or a REKEY ends (R393, R394, R399). -/
def execConnAccept (port : Nat) (mac : Bool) (hdr data : Bytes) : State → Host.Outcome State Fault Refusal :=
  onDev fun _ d => d.qhtHead port 6 hdr fun d =>
    let i := hf hdr 8 32 14
    let x := d.conn i
    let e := hf data 0 32 32
    if x.peer ≠ srcOf hdr ∨ x.bulk ≠ classOf hdr ∨ !(x.state == .connecting || (x.state == .opened && x.rekeying)) then d.sat F.HLF_CNT3_STRAY 1
    else if !mac then d.sat F.HLF_CNT1_AUTH_FAIL 1
    else if x.state = .connecting then
      (d.setConn i { x with
        peerEpoch := e
        peerBoot := hf data 8 0 64
        peerConn := hf data 0 0 14
        naddr := max 1 (hf data 0x10 0 4)
        addrs := peerAddrs data
        epoch := epochOf x.myEpoch e }).openKeyed i data
    else (d.newKeys i e x.keyGen true (peerKey data)).sendMore i
/-- CONN_REJECT: a connecting entry is CLOSED; LOST_RACE leaves it to the peer's own request, DENIED completes the messages
that wait with DENIED, NO_ENTRY leaves them waiting. An open connection whose REKEY is denied fails (R393, R395, R501). -/
def execConnReject (port : Nat) (hdr : Bytes) (reason : Nat) : State → Host.Outcome State Fault Refusal :=
  onDev fun _ d => d.qhtHead port 7 hdr fun d =>
    let i := hf hdr 8 32 14
    let x := d.conn i
    if x.peer ≠ srcOf hdr ∨ x.bulk ≠ classOf hdr then d.sat F.HLF_CNT3_STRAY 1
    else if x.state = .connecting then
      let d := d.dropConn i
      if reason = 3 then d.endWait x.peer x.bulk .denied else d
    else if x.state = .opened ∧ x.rekeying then d.failConn i 3
    else d.sat F.HLF_CNT3_STRAY 1
/-- CONN_REQ_RETRY: an unanswered CONN_REQ is repeated after 4 × RTO_US and 16 × RTO_US; the third one that stays
unanswered fails the entry (R393, R394, R398). -/
def execConnReqRetry (conn : Nat) : State → Host.Outcome State Fault Refusal :=
  onDev fun _ d =>
    let x := d.conn conn
    if x.state ≠ .connecting then d
    else
      let d := d.reach x.reqAt
      if 3 ≤ x.reqTries then d.failConn conn 3
      else (d.setConn conn { x with
        reqTries := x.reqTries + 1
        reqAt := d.now + (if x.reqTries = 1 then 16000 else 64000) * d.g F.TIM_FAB_RTO_US }).sendReq conn
/-- CLOSE: the connection drains, and is CLOSED once CLOSE is exchanged (R393). -/
def execClose (port : Nat) (ce tag : Bool) (hdr : Bytes) : State → Host.Outcome State Fault Refusal :=
  onDev fun _ d => d.qhtIn port 8 tag hdr fun i d =>
    ((d.rxPacket i ce hdr).updConn i fun x => { x with
      state := .draining
      closeGot := true }).tryClose i
/-- REKEY: fresh keys and a new epoch on the open connection, answered with CONN_ACCEPT; DENIED as a CONN_REQ is (R399,
R501, R504). -/
def execRekey (port : Nat) (ce tag mac : Bool) (hdr data : Bytes) : State → Host.Outcome State Fault Refusal :=
  onDev fun _ d => d.qhtIn port 11 tag hdr fun i d =>
    let d := d.rxPacket i ce hdr
    if !mac ∨ !d.enrolled ∨ !d.holdsGen (leAt data 0xA0 4) then d.rejectConn hdr 3
    else
      let (x, d) := d.propose (d.conn i)
      let e := hf data 0 32 32
      (((d.setConn i x).sendConnAccept i).newKeys i e (leAt data 0xA0 4) false (peerKey data)).sendMore i
/-- CONN_IDLE: an OPEN connection without unresolved messages for IDLE_MS drains (R397). -/
def execConnIdle (conn : Nat) : State → Host.Outcome State Fault Refusal :=
  onDev fun _ d =>
    let x := d.conn conn
    if x.state = .opened ∧ x.quiet then (d.reach (x.lastUse + d.g F.HLF_CONN_CFG_IDLE_MS * 1000000)).sendClose conn
    else d
/-- CONN_FAILED: a packet has stayed unacknowledged, or no path has been LIVE, for FAIL_MS (R398). -/
def execConnFailed (conn : Nat) : State → Host.Outcome State Fault Refusal :=
  onDev fun _ d =>
    let x := d.conn conn
    let ms := d.g F.HLF_CONN_CFG_FAIL_MS * 1000000
    if x.state ≠ .opened ∧ x.state ≠ .draining then d
    else
      let first := x.pkts.foldl (fun (b : Option Nat) k => match b with
        | some t => some (min t k.first)
        | none => some k.first) none
      match first, x.noPathSince with
      | some t, some u => if t ≤ u then (d.reach (t + ms)).failConn conn 1 else (d.reach (u + ms)).failConn conn 2
      | some t, none => (d.reach (t + ms)).failConn conn 1
      | none, some u => (d.reach (u + ms)).failConn conn 2
      | none, none => d
/-- CONN_FAILED_END: after 2 × FAIL_MS the entry is CLOSED (R393). -/
def execConnFailedEnd (conn : Nat) : State → Host.Outcome State Fault Refusal :=
  onDev fun _ d =>
    let x := d.conn conn
    if x.state = .failed then ((d.reach (x.failedAt + 2 * d.g F.HLF_CONN_CFG_FAIL_MS * 1000000)).dropConn conn).askConns else d

/-! ## On-demand paging (R413 to R415) -/

/-- The bytes of a page of a history buffer, with the tokens of a queued turn's prompt that are not flushed yet (R92, R340, R413). -/
def Dev.histPage (d : Dev) (region page : Nat) : Option (Nat × Bytes) :=
  (d.prk.revives.find? fun e => e.2.region == some region).bind fun e =>
    let x := d.sess e.1
    if x.d.histDurable = 0 then some (e.1, slice (x.hist.flatMap (leBytes 4)) (65536 * page) 65536)
    else (d.readObj x.d.histHandle).map fun o =>
      -- tokens that are durable come from the object, pending ones from what is held here (R92)
      (e.1, slice (o.data.take (4 * x.d.histDurable) ++ (x.hist.drop x.d.histDurable).flatMap (leBytes 4)) (65536 * page) 65536)
/-- Held packets of a message are placed once none of their pages is absent; where a page's fetch has failed the message is
resolved with FAULT (R414, R415). -/
def Dev.retryHeld (d : Dev) (i msn : Nat) : Dev :=
  match d.track i msn with
  | none => d
  | some t => match d.region t.region with
    | none => d
    | some r =>
      let a := t.addr % 2 ^ 48
      let range (e : Nat × Bytes) : Nat × Nat := if t.type = 1 then (a, t.total) else (a + e.1, e.2.length)
      if t.held.any (fun e => r.touches r.failed (range e).1 (range e).2) then
        (d.setTrack i msn { t with
          status := some .fault
          held := []
          heldUntil := none }).answer i msn .fault 0
      else
        let ready := t.held.filter fun e => !r.touches r.absent (range e).1 (range e).2
        let rest := t.held.filter fun e => r.touches r.absent (range e).1 (range e).2
        let t := { t with
          held := rest
          heldUntil := if rest.isEmpty then none else t.heldUntil
          status := if t.type = 1 ∧ !ready.isEmpty then some .ok else t.status }
        ready.foldl (fun (d : Dev) e => if t.type = 1 then d else d.place i msn e.1 e.2) (d.setTrack i msn t)
/-! ## RoCEv2 packets (R386, R387, R417, R419, R424) -/

/-- The queue pairs with one changed. -/
def Dev.setQp (d : Dev) (i : Nat) (x : Qp) : Dev := { d with hall := { d.hall with qps := NMap.put d.hall.qps i x } }
/-- A queue pair enters ERROR, which is posted and counted: cause 1 access, 2 retries exhausted (R419, R421). -/
def Dev.qpFail (d : Dev) (i cause : Nat) : Dev :=
  ((d.qpError i).sat F.RCE_CNT2_QP_ERR_EVENTS 1).post0 { typ := 0x1B, status := Status.fault.code, cause := cause, args := [i] }
/-- A RoCEv2 packet leaves, if the block is enabled. Kinds: 0 acknowledgement, 1 read response, 2 NAK of a sequence error, 3 RNR NAK,
4 NAK of a remote access error, 5 NAK of an invalid request, 6 CNP, 7 retransmission of the messages whose PSNs it lists. -/
def Dev.roceOut (d : Dev) (i kind : Nat) (args : List Nat) (data : Bytes) : Dev :=
  match NMap.get? d.hall.qps i with
  | none => d
  | some x =>
    if !d.on F.RCE_CTL_EN then d
    else
      let w := d.qpWire i x
      (d.wrap F.RCE_CNT0_PKTS_OUT (if kind = 7 then args.length else packets data.length)).sendFrame w (.roce i w kind args data)
/-- A request that a region does not allow gets a NAK, remote access error, and the queue pair enters ERROR (R419). -/
def Dev.roceDenied (d : Dev) (i psn : Nat) : Dev := ((d.sat F.RCE_CNT1_NAK_ACCESS 1).roceOut i 4 [psn] []).qpFail i 1
/-- A RoCEv2 READ is answered with its data (R404, R417). -/
def Dev.roceRead (m : Memory) (d : Dev) (q psn addr n : Nat) : Dev := d.roceOut q 1 [psn] (m.readN addr n)
/-- The RoCEv2 READs of a queue pair that waited for a page run, or fail with it (R414, R415). -/
def Dev.retryRoce (m : Memory) (d : Dev) (q region : Nat) : Dev :=
  match NMap.get? d.hall.qps q, d.region region with
  | some x, some r =>
    let mine := x.held.filter fun e => e.2.1 == region && !r.touches r.absent e.2.2.1 e.2.2.2.1
    let d := { d with hall := { d.hall with qps := NMap.put d.hall.qps q { x with
      held := x.held.filter fun e => !mine.contains e
      reads := x.reads - mine.length } } }
    mine.foldl (fun (d : Dev) e =>
      if r.touches r.failed e.2.2.1 e.2.2.2.1 then d.roceDenied q e.1 else d.roceRead m q e.1 e.2.2.1 e.2.2.2.1) d.giveBack
  | _, _ => d
/-- A page that can arrive: absent, and the lowest one or one that is fetched out of turn (R413, R414). -/
def Region.mayArrive (r : Region) (page : Nat) : Bool :=
  r.absent.contains page && (r.fetching.contains page || r.absent.all fun p => decide (page ≤ p))
/-- PAGE_FETCH: an absent page of a PAGED region arrives, and what waited for it is placed or run; or its fetch fails, which
ends the rebuild that it serves (R340, R413 to R415). -/
def execPageFetch (region page : Nat) (ok : Bool) : State → Host.Outcome State Fault Refusal :=
  onDev fun m d => match d.region region with
    | none => d
    | some r =>
      if !r.mayArrive page then d
      else
        let r := { r with
          absent := r.absent.filter (· != page)
          fetching := r.fetching.filter (· != page)
          failed := if ok then r.failed else r.failed ++ [page] }
        let d := { d with hall := { d.hall with regions := NMap.put d.hall.regions region r } }
        let src := d.histPage region page
        let bytes := (src.map (·.2)).getD []
        let d := match src with
          | some (slot, _) => d.countReads (d.sess slot).d.histHandle (65536 * page) (min 65536 (4 * (d.sess slot).d.histDurable - 65536 * page))
          | none => d
        let d := if ok then d.poke (r.base + 65536 * page) (bytes.take (r.length - 65536 * page)) else d
        let m := if ok then Memory.apply m d.wr else m
        let d := d.hall.conns.foldl (fun (d : Dev) (e : Nat × Conn) =>
          e.2.tracks.foldl (fun (d : Dev) (t : Nat × QTrack) =>
            if t.2.region = region ∧ !t.2.held.isEmpty then d.retryHeld e.1 t.1 else d) d) d
        let d := d.hall.qps.foldl (fun (d : Dev) (e : Nat × Qp) => if e.2.held.isEmpty then d else d.retryRoce m e.1 region) d
        if ok then d
        else match src with
          | some (slot, _) => d.reviveFailed slot 1
          | none => d
/-- The PSN up to which requests of a queue pair have been executed: RQ_PSN, or what it was before an RNR NAK called for a READ and what
followed it again (R414, R419). -/
def Qp.donePsn (x : Qp) : Nat :=
  match x.done with
  | some p => if 0 < signed 24 (p + 2 ^ 24 - x.rqPsn) then p else x.rqPsn
  | none => x.rqPsn
/-- PAGE_STALL: PAGE_STALL_US after the first hold, the held packets are dropped and the message is answered RETRY_AFTER; a
RoCEv2 READ is answered with an RNR NAK (R414). When the fetch will end is a free value. -/
def execPageStall (roce : Bool) (index seq : Nat) : State → Host.Outcome State Fault Refusal :=
  onDev fun _ d =>
    if roce then
      match NMap.get? d.hall.qps index with
      | none => d
      | some x => match x.held.find? fun e => e.1 == seq with
        | none => d
        | some e =>
          let d := d.reach e.2.2.2.2
          let (t, d) := d.draw
          let d := { d with hall := { d.hall with qps := NMap.put d.hall.qps index { x with
            held := x.held.erase e
            reads := x.reads - 1
            done := some (x.donePsn)
            rqPsn := e.1 } } }
          ((d.sat F.HLF_CNT2_RETRY_AFTER 1).sat F.RCE_CNT1_RNR 1).roceOut index 3 [e.1, t % 32] []
    else match d.track index seq with
      | none => d
      | some t => match t.heldUntil with
        | none => d
        | some u =>
          let d := d.reach u
          let (us, d) := d.draw
          (d.setTrack index seq { t with
            held := []
            heldUntil := none }).answer index seq .retryAfter (us % 2 ^ 32)

end Sys2Proof.Machine
end

