-- ==== Sys2Proof/Machine/Links.lean ====
section
/-! DEFINITION. RoCEv2 toward accelerators, fabric links, neighbour discovery, and time synchronisation (R62 to R65, R384 to
R386, R417 to R421, R620). -/
namespace Sys2Proof.Machine
open Sys2Proof

/-! ## RoCEv2 as responder (R381 to R383, R417, R419) -/

/-- A CE-marked packet has arrived: a CNP is sent, at most one per queue pair in CNP_GAP_US (R420). -/
def Dev.cnp (d : Dev) (i : Nat) (ce : Bool) : Dev :=
  match NMap.get? d.hall.qps i with
  | none => d
  | some x =>
    let soon := match x.cnpSentAt with
      | some t => decide (d.now < t + d.g F.RCE_CTL_CNP_GAP_US * 1000)
      | none => false
    if !ce || soon then d
    else ((d.setQp i { x with cnpSentAt := some d.now }).sat F.RCE_CNT2_CNP_SENT 1).roceOut i 6 [] []
/-- A request on a queue pair in RTS that takes `n` PSNs, for its own packets (`came`) or those of its response: a duplicate, one out of
sequence, or the one expected, for which RQ_PSN advances (R417, R419). -/
def Dev.roceIn (d : Dev) (i psn n came : Nat) (ce : Bool) (dup : Qp → Dev → Dev) (fresh : Qp → Dev → Dev) : Dev :=
  match NMap.get? d.hall.qps i with
  | none => d
  | some x =>
    if !d.on F.RCE_CTL_EN || x.state != .rts || d.gi F.HLF_PORT_ROLE x.port != 1 then d
    else
      let d := (d.wrap F.RCE_CNT0_PKTS_IN came).cnp i ce
      let x := NMap.getD d.hall.qps i x
      let dist := signed 24 (psn + 2 ^ 24 - x.rqPsn)
      if 0 < dist then (d.sat F.RCE_CNT1_NAK_SEQ 1).roceOut i 2 [x.rqPsn] []
      else if dist < 0 then dup x (d.sat F.RCE_CNT1_DUP 1)
      else
        let y := { x with rqPsn := (x.rqPsn + n) % 2 ^ 24 }
        fresh y (d.setQp i y)
/-- An acknowledgement of a request up to its last PSN. -/
def Dev.roceAcked (d : Dev) (i psn n : Nat) : Dev := d.roceOut i 0 [(psn + n - 1) % 2 ^ 24] []
/-- A request at a PSN had been executed before an RNR NAK called for it again: it is a duplicate (R414, R419). -/
def Qp.ran (x : Qp) (psn : Nat) : Bool :=
  match x.done with
  | some p => decide (signed 24 (psn + 2 ^ 24 - p) < 0)
  | none => false
/-- The region that a key admits to a queue pair for a range: its index is in use, its variant right, the range inside, its
partition the queue pair's; the region table is enabled (R381 to R383, R419, R422). -/
def Dev.roceRegion (d : Dev) (x : Qp) (key addr n : Nat) (wr : Bool) : Option (Nat × Region) :=
  match d.region (key % 65536) with
  | none => none
  | some r =>
    if d.on F.HLF_CTL_EN ∧ key = r.gen % 256 * 2 ^ 24 + key % 65536 ∧ r.roce ∧ (if wr then r.write else r.read) ∧ r.partition = x.partition ∧
        n ≤ 16777216 ∧ d.inside r true addr n then some (key % 65536, r)
    else none

/-- ROCE_WRITE: an RDMA WRITE request is placed, or gets a NAK; a duplicate is acknowledged and not placed again (R417,
R419). -/
def execRoceWrite (qp psn key addr : Nat) (_imm : Option Nat) (ce : Bool) (data : Bytes) : State → Host.Outcome State Fault Refusal :=
  onDev fun _ d =>
    let n := packets data.length
    d.roceIn qp psn n n ce (fun _ d => d.roceAcked qp psn n) fun x d =>
      if x.ran psn then (d.sat F.RCE_CNT1_DUP 1).roceAcked qp psn n
      else match d.roceRegion x key addr data.length true with
      | none => d.roceDenied qp psn
      | some _ => (d.poke (addr % 2 ^ 48) data).roceAcked qp psn n
/-- ROCE_READ: an RDMA READ request runs, is held for an absent page, or gets a NAK; a duplicate is executed again. At most
16 are outstanding (R414, R417, R419). -/
def execRoceRead (qp psn key addr len : Nat) (ce : Bool) : State → Host.Outcome State Fault Refusal :=
  onDev fun m d =>
    let n := packets len
    let run (x : Qp) (d : Dev) : Dev :=
      match d.roceRegion x key addr len false with
      | none => d.roceDenied qp psn
      | some (i, r) =>
        let a := addr % 2 ^ 48
        if r.touches r.failed a len then d.roceDenied qp psn
        else if r.touches r.absent a len then
          let d := d.holdOn i r a len
          d.setQp qp { x with
            reads := x.reads + 1
            held := x.held ++ [(psn, i, a, len, d.now + d.g F.TIM_FAB_PAGE_STALL_US * 1000)] }
        else d.roceRead m qp psn a len
    d.roceIn qp psn n 1 ce run fun x d =>
      if 16 ≤ x.reads then (d.setQp qp { x with rqPsn := psn }).roceOut qp 5 [psn] [] else run x d
/-- ROCE_SEND: a SEND, with or without immediate (op 0), is received and acknowledged; an atomic or any other operation that
is not supported (op above 0), or a message above 16 MiB, gets a NAK, invalid request (R417). -/
def execRoceSend (qp psn op : Nat) (_imm : Option Nat) (ce : Bool) (data : Bytes) : State → Host.Outcome State Fault Refusal :=
  onDev fun _ d =>
    let n := packets data.length
    d.roceIn qp psn n n ce (fun _ d => d.roceAcked qp psn n) fun x d =>
      if op = 0 ∧ data.length ≤ 16777216 then d.roceAcked qp psn n
      else (d.setQp qp { x with rqPsn := psn }).roceOut qp 5 [psn] []

/-! ## RoCEv2 as requester (R257, R417, R420, R421) -/

/-- Line rate of a port in Mb/s (R384). -/
def Dev.lineRate (d : Dev) (port : Nat) : Nat := if d.gi F.HLF_PORT_LINK port = 2 then 400000 else 800000
/-- The sending rate of a queue pair: line rate until a CNP cuts it (R420). -/
def Dev.rateOf (d : Dev) (x : Qp) : Nat := if x.rate = 0 then d.lineRate x.port else x.rate
/-- CNP: the sending rate falls by DEC_PCT percent, never below MIN_PCT percent of line rate (R420). -/
def execCnp (qp : Nat) : State → Host.Outcome State Fault Refusal :=
  onDev fun _ d => match NMap.get? d.hall.qps qp with
    | none => d
    | some x =>
      if !d.qpUp x then d
      else
        let least := d.lineRate x.port * d.g F.RCE_CC_MIN_PCT / 100
        (d.sat F.RCE_CNT2_CNP_RCVD 1).setQp qp { x with
          rate := max least (d.rateOf x * (100 - d.g F.RCE_CC_DEC_PCT) / 100)
          incAt := some (d.now + d.g F.RCE_CC_INC_US * 1000) }
/-- RATE_INCREASE: INC_US without a further CNP raises the rate by INC_MBPS, up to line rate (R420). -/
def execRateIncrease (qp : Nat) : State → Host.Outcome State Fault Refusal :=
  onDev fun _ d => match NMap.get? d.hall.qps qp with
    | none => d
    | some x => match x.incAt with
      | none => d
      | some t =>
        let d := d.reach t
        let line := d.lineRate x.port
        let r := min line (d.rateOf x + d.g F.RCE_CC_INC_MBPS)
        d.setQp qp { x with
          rate := r
          incAt := if r = line then none else some (t + d.g F.RCE_CC_INC_US * 1000) }
/-- Writes up to a PSN are acknowledged: the lists and masks of their members are delivered (R257, R309). -/
def Dev.qpAcked (d : Dev) (i : Nat) (x : Qp) (psn : Nat) : Dev :=
  let done := x.sent.filter fun e => decide (signed 24 (psn + 2 ^ 24 - e.1) ≥ 0)
  let rest := x.sent.filter fun e => !decide (signed 24 (psn + 2 ^ 24 - e.1) ≥ 0)
  let d := d.setQp i { x with
    sent := rest
    tries := 0
    ackAt := if rest.isEmpty then none else some (d.now + 4096 * 2 ^ x.timeout) }
  if done.isEmpty || !x.memberValid then d
  else d.updGroup x.group fun g => { g with
    acksWanted := g.acksWanted.filter fun w =>
      !done.any fun e => (e.2.1 == 1 && w == e.2.2) || (e.2.1 == 2 && w == 256 + e.2.2) }
/-- A retry of the requests that are not acknowledged, or ERROR when RETRY is exhausted (R421). -/
def Dev.qpRetry (d : Dev) (i : Nat) (x : Qp) : Dev :=
  if x.retry ≤ x.tries then d.qpFail i 2
  else ((d.sat F.RCE_CNT2_RETRY 1).setQp i { x with
    tries := x.tries + 1
    ackAt := some (d.now + 4096 * 2 ^ x.timeout) }).roceOut i 7 (x.sent.map (·.1)) []
/-- ROCE_ACK: 0 an acknowledgement, 1 a NAK of a sequence error at a PSN, 2 an RNR NAK, 3 a NAK of a remote error (R257,
R419, R421). -/
def execRoceAck (qp psn nak : Nat) : State → Host.Outcome State Fault Refusal :=
  onDev fun _ d => match NMap.get? d.hall.qps qp with
    | none => d
    | some x =>
      if !d.qpUp x then d
      else
        let d := d.wrap F.RCE_CNT0_PKTS_IN 1
        if nak = 0 then d.qpAcked qp x psn
        else
          let d := d.qpAcked qp x ((psn + 2 ^ 24 - 1) % 2 ^ 24)
          if nak = 3 then d.qpFail qp 1 else d.qpRetry qp { NMap.getD d.hall.qps qp x with tries := x.tries }
/-- ROCE_ACK_TIMEOUT: the local ACK timeout expires; the queue pair retries, or enters ERROR (R418, R421). -/
def execRoceAckTimeout (qp : Nat) : State → Host.Outcome State Fault Refusal :=
  onDev fun _ d => match NMap.get? d.hall.qps qp with
    | none => d
    | some x => match x.ackAt with
      | none => d
      | some t => if d.qpUp x then (d.reach t).qpRetry qp x else d

/-! ## Links (R384 to R387) -/

/-- Lanes of a port that are neither retired nor down (R384, R584). -/
def Dev.lanesOk (d : Dev) (p : Nat) : Nat := 15 - bits (d.g F.FLT_RET_LANES_LANES ||| d.flt.lanesDown) (4 * p) 4
/-- What a port trains to: 1 with all its lanes, 2 with lanes 0 and 1 or else 2 and 3, 0 without a whole pair (R384). -/
def linkOf (lanes : Nat) : Nat := if lanes = 15 then 1 else if lanes % 4 = 3 ∨ lanes / 4 = 3 then 2 else 0
/-- The paths of every connection that leave through a port are retired at once (R410). -/
def Dev.portDown (d : Dev) (p : Nat) : Dev :=
  d.hall.conns.foldl (fun (d : Dev) (e : Nat × Conn) =>
    (List.range e.2.paths.length).foldl (fun (d : Dev) k => if d.pathPort e.2 k = p then d.retirePath e.1 k true else d) d) d
/-- LINK_UP: link training completes at 800 or 400 Gb/s, as the port's lanes allow (R384, R423). -/
def execLinkUp (port : Nat) : State → Host.Outcome State Fault Refusal :=
  onDev fun _ d => (d.si F.HLF_PORT_LINK port (linkOf (d.lanesOk port))).si F.HLF_PORT_LANES_OK port (d.lanesOk port)
/-- LINK_DOWN: the port is down and its paths are retired at once (R384, R410). -/
def execLinkDown (port : Nat) : State → Host.Outcome State Fault Refusal :=
  onDev fun _ d => ((d.si F.HLF_PORT_LINK port 0).si F.HLF_PORT_LANES_OK port 0).portDown port
/-- NEIGHBOUR_SOLICITATION: one for the port's own address is answered with its MAC address (R386, R387). -/
def execNeighbourSolicitation (port hi lo : Nat) : State → Host.Outcome State Fault Refusal :=
  onDev fun _ d =>
    if (hi, lo) = (d.gi F.HLF_PORT_IP1_ADDR_HI port, d.gi F.HLF_PORT_IP0_ADDR_LO port) ∧ (hi, lo) ≠ (0, 0) then
      d.emit (.mgmt 3 (leBytes 1 port ++ leBytes 6 (Config.portMac port)))
    else d.dropFrame port
/-- PFC_PAUSE: transmission stops, or goes on with the frames that waited, on a priority that is under flow control (R386). -/
def execPfcPause (port prio : Nat) (pause : Bool) : State → Host.Outcome State Fault Refusal :=
  onDev fun _ d =>
    if bitOf (d.gi F.HLF_PORT_PFC_PRIOS port) prio then
      let d := { d with hall := { d.hall with paused := NMap.put d.hall.paused port (setBit (NMap.getD d.hall.paused port 0) prio pause) } }
      if pause then d
      else
        let mine (e : Nat × Nat × Out) : Bool := e.1 == port && e.2.1 == prio
        ({ d with stopped := d.stopped.filter fun e => !mine e } : Dev).emits ((d.stopped.filter mine).map fun e => e.2.2)
    else d
/-- RX_DROP: a frame that fails its FCS, or that the port does not take (one without the port's VLAN among them), is dropped and counted
(R386, R423). -/
def execRxDrop (port : Nat) (fcs : Bool) : State → Host.Outcome State Fault Refusal :=
  onDev fun _ d => if fcs then d.sati F.HLF_PORT_CNT_FCS_ERR port 1 else d.dropFrame port

/-! ## Time synchronisation (R62 to R65, R620) -/

/-- FREE_RUN is entered, and SYNC_LOST posted (R64, R65). -/
def Dev.freeRun (d : Dev) : Dev := (d.s F.TIM_STATUS_SYNC 0).post0 { typ := 0x17 }
/-- An offset of nanoseconds rounded to whole seconds. -/
def wholeSeconds (n : Int) : Int := (n + 500000000) / 1000000000 * 1000000000
/-- PTP_MESSAGE: a valid message of the domain on a selected port gives the offset from the master. The wall clock is
corrected by it, but for the phase of the second where the 1PPS input fixes it; 16 in a row within 1 µs, with no sync interval between
them that lacks its message, lock the clock (R62 to R64). -/
def execPtpMessage (port domain interval offset : Nat) : State → Host.Outcome State Fault Refusal :=
  onDev fun _ d =>
    if !d.on F.TIM_CTL_EN ∨ !bitOf (d.g F.TIM_CTL_PTP_PORTS) port ∨ domain ≠ d.g F.TIM_CTL_PTP_DOMAIN then d
    else
      let off := signed 32 offset
      let near := -1000 ≤ off ∧ off ≤ 1000
      let gap := decide (d.sync.lastPtp + 2 * interval ≤ d.now)
      let good := if !near then 0 else if gap then 1 else d.sync.good + 1
      let fix := if d.on F.TIM_CTL_PPS_EN && d.on F.TIM_STATUS_PPS_OK && d.sync.ppsUsed then wholeSeconds off else off
      let d := { d with sync := { d.sync with
        lastPtp := d.now
        interval := interval
        good := good } }
      let d := (d.s F.TIM_STATUS_OFFSET_NS offset).s F.TIM_WALL_NS (unsigned 64 ((d.wall : Int) - fix))
      let st := d.g F.TIM_STATUS_SYNC
      d.s F.TIM_STATUS_SYNC (if st = 2 then 2 else if 16 ≤ good then 2 else 1)
/-- PPS_PULSE: PPS_EN uses the input from the next pulse on (R69); a pulse of at least 100 ns, one second ± 100 ppm after the last, is valid; in use, it fixes the phase of the
second (R62, R620). -/
def execPpsPulse (wide : Bool) : State → Host.Outcome State Fault Refusal :=
  onDev fun _ d =>
    if !wide then d
    else
      let ok := match d.sync.ppsAt with
        | some t => decide (999900000 ≤ d.now - t ∧ d.now - t ≤ 1000100000)
        | none => true
      let d := ({ d with sync := { d.sync with ppsAt := some d.now } }).s F.TIM_STATUS_PPS_OK (b2n ok)
      if ok && d.on F.TIM_CTL_PPS_EN then
        { d with sync := { d.sync with ppsUsed := true } }.s F.TIM_WALL_NS (unsigned 64 (wholeSeconds d.wall))
      else d
/-- PPS_TIMEOUT: 1.1 s without a valid pulse clear PPS_OK (R69, R620). -/
def execPpsTimeout : State → Host.Outcome State Fault Refusal :=
  onDev fun _ d => match d.sync.ppsAt with
    | some t => if d.on F.TIM_STATUS_PPS_OK then (d.reach (t + 1100000000)).s F.TIM_STATUS_PPS_OK 0 else d
    | none => d
/-- HOLDOVER: 8 sync intervals without a valid message while LOCKED (R64); an early warning of checkpoints (R547). -/
def execHoldover : State → Host.Outcome State Fault Refusal :=
  onDev fun _ d =>
    if d.g F.TIM_STATUS_SYNC ≠ 2 then d
    else
      let d := d.reach (d.sync.lastPtp + 8 * d.sync.interval)
      (({ d with sync := { d.sync with
        holdSince := d.now
        good := 0 } }).s F.TIM_STATUS_SYNC 3).ckptWarn 5
/-- HOLDOVER_LIMIT: holdover has lasted LIMIT_S, and the clock runs free (R64, R65). -/
def execHoldoverLimit : State → Host.Outcome State Fault Refusal :=
  onDev fun _ d =>
    if d.g F.TIM_STATUS_SYNC = 3 then (d.reach (d.sync.holdSince + d.g F.TIM_HOLD_LIMIT_S * 1000000000)).freeRun else d

end Sys2Proof.Machine
end

