-- ==== Sys2Proof/Machine/Restore.lean ====
section
/-! DEFINITION. CKPT_RESTORE: the choice of a generation, the checks, the sessions of a shard, and how they become live
(R560 to R563). What the other listed controllers find and load is the hardware's, and comes with the command. -/
namespace Sys2Proof.Machine
open Sys2Proof

/-! ## Reading a shard (R306, R450 to R452, R556) -/

/-- The index that the bytes of a shard hold, and their length. -/
def SIndex.ofBytes (b : Bytes) : SIndex × Nat :=
  let dim := fieldAt b 0 0 16
  let deg := fieldAt b 0 16 8
  let n := fieldAt b 0x10 32 32
  let ns := fieldAt b 0x18 0 32
  let ne := fieldAt b 0x18 32 32
  let word (off k : Nat) : List Nat := (List.range k).map fun i => leAt b (off + 4 * i) 4
  let o1 := 32 + 4 * (2 * dim + ne)
  let rsz := 32 + 4 * deg
  let o2 := o1 + n * rsz
  let o3 := o2 + n * (dim / 8)
  let o4 := o3 + n * dim
  let nodes := (List.range n).foldl (fun (m : NMap SNode) i =>
    let r := slice b (o1 + i * rsz) rsz
    if fieldAt r 0x10 0 1 = 0 then m
    else NMap.put m i
      { key := leAt r 0 8
        tags := leAt r 8 8
        tomb := fieldAt r 0x10 1 1 == 1
        side := fieldAt r 0x10 2 1 == 1
        code := leAt b (o2 + i * (dim / 8)) (dim / 8)
        sq8 := (List.range dim).map fun j => signed 8 (leAt b (o3 + i * dim + j) 1)
        nbrs := (List.range (fieldAt r 0x10 8 7)).map fun j => leAt r (32 + 4 * j) 4 }) []
  ({ dim := dim
     degree := deg
     ip := fieldAt b 0 24 1 == 1
     nodesMax := fieldAt b 0 32 32
     sideMax := fieldAt b 8 0 32
     sideMerge := fieldAt b 8 32 32
     efBuild := fieldAt b 0x10 0 32
     centres := word 32 dim
     scales := word (32 + 4 * dim) dim
     entry := word (32 + 8 * dim) ne
     nodes := nodes
     side := word o4 ns }, o4 + 4 * ns)
/-- A kind of context by its code (R85). -/
def CtxKind.ofCode (n : Nat) : CtxKind :=
  match n with
  | 1 => .revive
  | 2 => .rebuild
  | 3 => .migrateOut
  | 4 => .migrateIn
  | _ => .turn
/-- The counts of a turn's context as its 64 bytes hold them (R85). Where its text goes is not among them: it goes nowhere
(log entry 51). -/
def Ctx.ofBytes (b : Bytes) (fn : Nat) : Ctx :=
  { sid := leAt b 0 8
    fn := fn
    hseq := fieldAt b 8 0 32
    kind := CtxKind.ofCode (fieldAt b 8 32 3)
    prio := fieldAt b 8 39 3
    keep := fieldAt b 8 43 1 == 1
    mapEpoch := fieldAt b 0x10 0 32
    ownerEpoch := fieldAt b 0x10 32 32
    group := fieldAt b 0x18 56 6
    baseCommitted := fieldAt b 0x20 0 23
    baseHist := fieldAt b 0x20 23 23
    promptLen := fieldAt b 0x28 0 23
    genTokens := fieldAt b 0x28 23 23
    rollbacks := fieldAt b 0x28 46 2
    maxNew := fieldAt b 0x30 0 23
    eq := fieldAt b 0x30 32 16
    charge := fieldAt b 0x38 24 32 }
/-- The undo entries of a grammar part, newest first: the cells before each token are those after it with the overwritten
ones put back, as long as the part holds them all (R306, R314; log entry 51). -/
def undosOf (strs : List Bytes) : Nat → Bytes → List Nat → List Undo
  | 0, _, _ => []
  | n + 1, b, after =>
    let sp := fieldAt b 0 20 13
    let old := (List.range (fieldAt b 8 32 8)).map fun i => (fieldAt b (16 + 8 * i) 0 12, fieldAt b (16 + 8 * i) 22 22)
    let cells := after.zipIdx.map fun c => ((old.find? fun e => e.1 == c.2).map (·.2)).getD c.1
    if cells.length < sp then []
    else
      let u : Undo :=
        { state := fieldAt b 0 0 20
          stack := (cells.take sp).reverse
          above := cells.drop sp
          cells := old
          tail := Config.matcherTail strs (fieldAt b 0 33 16)
          text := fieldAt b 8 0 32 }
      u :: undosOf strs n (b.drop 80) cells
/-- The grammar area that a grammar part holds, and its length (R306, R551). -/
def GArea.ofBytes (b : Bytes) (strs : List Bytes) : GArea × Nat :=
  let sp := fieldAt b 0 20 13
  let nu := fieldAt b 0 33 7
  let stack := ((List.range sp).map fun i => leAt b (64 + 4 * i) 4).reverse
  ({ state := fieldAt b 0 0 20
     stack := stack
     undo := undosOf strs nu (b.drop (64 + 4 * sp)) stack.reverse
     excl := (List.range 3).filterMap fun i =>
       if fieldAt b (8 + 8 * i) 23 1 = 1 then some (fieldAt b (8 + 8 * i) 0 23, fieldAt b (8 + 8 * i) 24 20) else none
     undoHead := fieldAt b 0 40 6 },
   64 + 4 * sp + 80 * nu)

/-- A session as a shard holds it. -/
structure Saved where
  desc : Desc := {}
  /-- State that MIGRATING stands for. -/
  before : SState := .waiting
  hist : List Nat := []
  hot : Bool := false
  cCut : Nat := 0
  ctx : Option Ctx := none
  area : Option GArea := none
  tail : Bytes := []
  /-- An image of the session's pages, as R352 lays one out. -/
  image : Bytes := []
  index : Option SIndex := none
  deriving DecidableEq, Repr

/-- Bytes of the HOT part of a session entry (R352, R556). -/
def Profile.hotBytes (p : Profile) (n : Nat) (mx4 : Bool) : Nat :=
  let size := imgBytes p mx4
  p.layers * (ceilDiv (n * size + 64 * ceilDiv n 64) 16384 * 16384) +
    (if p.selGroups = 0 then 0 else ceilDiv (p.layers * runsFor n * 36864) 16384 * 16384)
/-- The session entries of a shard's body (R556). -/
def Dev.savedOf (d : Dev) (mx4 : Bool) : Nat → Bytes → List Saved
  | 0, _ => []
  | k + 1, b =>
    let x := Desc.ofBytes (slice b 0x100 256)
    let p := NMap.getD d.att.profiles x.profile {}
    let c := fieldAt b 8 0 23
    let h := fieldAt b 8 23 23
    let hot := fieldAt b 0x10 0 1 == 1
    let strs := (NMap.getD d.tok.stops x.stopSet {}).strs
    let ga := GArea.ofBytes (b.drop 0x240) strs
    let gram := fieldAt b 0x10 2 1 == 1
    let o1 := ceilDiv (0x240 + (if gram then ga.2 else 0)) 16384 * 16384
    let o2 := o1 + ceilDiv (4 * h) 16384 * 16384
    let fid := mx4 && !p.splitKv
    let o3 := o2 + (if hot then p.hotBytes c fid else 0)
    let ix := SIndex.ofBytes (b.drop o3)
    let idx := fieldAt b 0x10 3 1 == 1
    let head := pack 32 [⟨0x10, 0, 23, c⟩, ⟨0x10, 23, 9, p.layers⟩, ⟨0x10, 32, 8, p.storeFmt⟩,
      ⟨0x10, 40, 8, if fid then 7 else p.storeFmt⟩, ⟨0x18, 0, 32, imgBytes p fid⟩]
    { desc := x
      hist := tokensOf (slice b o1 (4 * h))
      hot := hot
      cCut := c
      ctx := if fieldAt b 0x10 1 1 = 1 then some (Ctx.ofBytes (slice b 0x200 64) x.partition) else none
      area := if gram then some ga.1 else none
      image := if hot then padTo 16384 head ++ slice b o2 (o3 - o2) else []
      index := if idx then some ix.1 else none } ::
      Dev.savedOf d mx4 k (b.drop (o3 + (if idx then ceilDiv ix.2 16384 * 16384 else 0)))
/-- The sessions of a shard's bytes (R556). -/
def Dev.sessionsIn (d : Dev) (shard : Bytes) : List Saved :=
  d.savedOf (fieldAt shard 0x18 17 1 == 1) (fieldAt shard 0x18 32 32) (shard.drop 16384)
/-- What the cut kept beside the bytes, for a shard of this controller: the context whole, the area, the matcher. -/
def Saved.withCapture (x : Saved) (c : Capture) : Saved :=
  { x with
    before := c.sess.prevState
    ctx := c.context
    area := c.area
    tail := c.tail
    index := c.index.map (·.2) }

/-! ## The sessions become live (R562, R563) -/

/-- State of a HOT session after a restore: a turn that ran or was queued is queued again (R562). -/
def Saved.state (x : Saved) : SState :=
  let st : SState := if x.desc.state = .migrating then x.before else x.desc.state
  if x.desc.turnQueued ∨ st = .running ∨ st = .parking then .waiting else st
/-- Frames for a session's pages are reserved with PLACE's tests, its area is taken, its pages are written; none if there is
no room, or its profile is not the one it was taken with (R109, R562). -/
def Dev.warmUp (d : Dev) (slot : Nat) (x : Saved) : Option Dev :=
  let p := d.prof (d.sess slot)
  if !x.hot || p.layers = 0 then none
  else
    let items := d.needPages slot 0 x.cCut
    let area : Option Dev := if x.area.isSome then d.takeArea slot else some d
    match area with
    | none => none
    | some d =>
      if d.poolLacks slot items false ∨ (d.placeOf slot items.length true).isNone then none
      else match d.reservePages slot items true none with
        | .error _ => none
        | .ok d =>
          let d := d.fillFromImage slot x.image
          some (match x.area with
            | some a => d.setArea slot { a with
                maskSlot := (d.garea slot).maskSlot
                mask := none }
            | none => d)
/-- A turn of a restored session is queued again with its counts; it joins under R134 (R562). -/
def Dev.requeue (d : Dev) (slot : Nat) (c : Ctx) : Dev :=
  let c := { c with
    slot := slot
    phase := .queued
    batchSlot := none
    resvPages := 0
    kill := false
    redo := none
    cause := none }
  match d.newCtx (slotDie slot) c with
  | none => d
  | some (i, d) => d.updDesc slot fun y => { y with
      ctx := i
      ctxValid := true
      turnQueued := true }
/-- One descriptor more names a stop set (R295). -/
def Dev.countStops (d : Dev) (i : Nat) : Dev :=
  { d with tok := { d.tok with stops := NMap.upd d.tok.stops i fun x => { x with count := x.count + 1 } } }
/-- A session of a shard is restored in a FREE slot: HOT with its pages if there is room, else HISTORY with COMMITTED = 0
(R336, R562). The second part says whether a HOT session came back as HISTORY. -/
def Dev.restoreOne (d : Dev) (g : Nat) (x : Saved) : Dev × Bool :=
  let sid := x.desc.sid
  let home := d.isHome sid
  let die := slotDie (sidSlot sid)
  let slot? := if home then some (sidSlot sid)
    else match d.lowestSlot 2097152 (die * 2097152) with
      | some s => some s
      | none => d.lowestSlot 2097152 ((1 - die) * 2097152)
  match slot? with
  | none => (d, false)
  | some slot =>
    let n := x.hist.length
    let hist := if n = 0 then none else d.createHist (slotDie slot) 2 sid x.desc.partition (ceilDiv (4 * n) 16384)
    let (hd, d) := match hist with
      | some (hd, d) => (hd, d.writeObj hd 0 (x.hist.flatMap (leBytes 4)))
      | none => (0, d)
    let s : Session :=
      { hist := x.hist
        d := { x.desc with
          group := g
          state := .history
          tier := .history
          kill := false
          committed := x.cCut
          histLen := n
          histDurable := if hd = 0 then 0 else n
          ownerEpoch := x.desc.ownerEpoch + 1
          ownerCtrl := d.self
          lease := if home then .none else .held
          buddy := d.buddyOf
          ptRoot := 0
          histAddr := 0
          grmState := 0
          imageValid := false
          mirrorValid := false
          imageHandle := 0
          histHandle := hd
          ctx := 0
          ctxValid := false
          turnQueued := false
          siftIndex := 0
          stopSet := if (NMap.get? d.tok.stops x.desc.stopSet).isSome then x.desc.stopSet else 0
          idleSince := 0 } }
    let d := (d.setSess slot s).countStops s.d.stopSet
    let d := if home then { d with ses := { d.ses with gens := NMap.put d.ses.gens slot (sidGen sid + 1) } }
      else d.updOwn fun o => { o with
        guests := NMap.put o.guests sid slot
        ownLeases := NMap.put o.ownLeases slot { ts := d.now, expiry := d.expiryNs, renewAt := d.now + d.renewNs } }
    let d := { d with tok := { d.tok with tails := if x.tail.isEmpty then d.tok.tails else NMap.put d.tok.tails slot x.tail } }
    let d := match x.index with
      | some i =>
        if NMap.has d.sft.idx (indexKey x.desc.siftIndex) then d
        else
          (d.setIndex x.desc.siftIndex { i with
            gen := x.desc.siftIndex / 2 ^ 16
            partition := x.desc.partition
            fn := x.desc.partition
            eq := 0xFFFF
            bind := sid }).updDesc slot fun y => { y with siftIndex := x.desc.siftIndex }
      | none => d
    let (d, lost) := match d.warmUp slot x with
      | some e => (e.setState slot x.state .hot, false)
      | none => ((d.updDesc slot fun y => { y with committed := 0 }).setState slot .history .history, x.hot)
    let d := match x.ctx with
      | some c => if x.desc.turnQueued ∨ x.desc.state == SState.running then d.requeue slot c else d
      | none => d
    let entry : DirEntry :=
      { sid := sid
        ownerEpoch := x.desc.ownerEpoch + 1
        ownerCtrl := d.self
        actingHome := if home then 0 else d.self
        buddy := d.buddyOf
        tier := (d.sess slot).d.tier.code }
    (d.writeDir sid (some entry) none, lost)

/-! ## CKPT_RESTORE (R560, R561) -/

/-- The manifests of a group that this controller holds, its own or as the deputy's mirror, newest first (R560). -/
def Dev.manifests (d : Dev) (gid : Nat) : List Manifest :=
  let own := (d.ckp.valid.flatMap (·.2)).filter fun x => x.id / 2 ^ 32 == gid
  let mirrors := (d.ckp.mirrors.filter fun x => x.isManifest && x.manifest / 2 ^ 32 == gid && x.sealed).map fun x => Manifest.ofBytes x.data
  let more := mirrors.filter fun x => !own.any fun y => y.id == x.id && y.digestOk
  sortBy (fun x => [-(x.id : Int)]) (own.filter (fun x => x.digestOk || !mirrors.any fun y => y.id == x.id && y.digestOk) ++
    more.filter fun x => !own.any fun y => y.id == x.id && !x.digestOk)
/-- A shard's header is wanted from here: of this controller, or of a lost controller whose buddy this is (R561, R562). -/
def Dev.loadsHere (d : Dev) (s : ShardInfo) : Bool :=
  s.ctrl == d.self || (d.own.lostCtrls.contains s.ctrl && s.buddy == d.self)
/-- The bytes of a shard that is loaded here: the object of this controller, the mirror held for a lost one (R561, R562). -/
def Dev.shardHere (d : Dev) (x : Manifest) (s : ShardInfo) : Option Bytes :=
  if s.ctrl = d.self then
    (d.ckp.shards.find? fun h => h.manifest == x.id && h.ctrl == d.self && h.die == s.die && h.durable).bind fun h =>
      (d.readObj h.handle).bind fun o => if o.lacks 0 o.length || h.damaged then none else some o.data
  else (d.ckp.mirrors.find? fun h => h.manifest == x.id && h.sender == s.ctrl && h.die == s.die && !h.isManifest && h.sealed).map (·.data)
/-- The object of a shard that is loaded here, its own or the mirror of a lost controller's. -/
def Dev.shardObj (d : Dev) (x : Manifest) (s : ShardInfo) : Option Nat :=
  if s.ctrl = d.self then ((d.ckp.shards.find? fun h => h.manifest == x.id && h.ctrl == d.self && h.die == s.die).map (·.handle))
  else (d.ckp.mirrors.find? fun h => h.manifest == x.id && h.sender == s.ctrl && h.die == s.die && !h.isManifest).map (·.handle)
/-- The shards that are loaded here are read: their headers, or all of them (R365, R561, R562). -/
def Dev.readShards (d : Dev) (x : Manifest) (whole : Bool) : Dev :=
  (x.shards.filter d.loadsHere).foldl (fun (d : Dev) s => match d.shardObj x s with
    | none => d
    | some h => d.countReads h 0 (if whole then ((d.obj h).map (·.length)).getD 0 else 16384)) d
/-- An entry of the list: CTRL, DIE, REASON, ROW (R560). -/
def offender (ctrl die reason row : Nat) : Bytes := pack 16 [⟨0, 0, 16, ctrl⟩, ⟨0, 16, 1, die⟩, ⟨0, 20, 4, reason⟩, ⟨8, 0, 48, row⟩]
/-- What another controller reported of a shard: CTRL in bits 15:0, DIE in 16, REASON in 23:20, place in the list of
generations in 27:24; and the row found. -/
def reportOf (bad : List (Nat × Nat)) (place : Nat) (s : ShardInfo) : Option (Nat × Nat) :=
  (bad.find? fun e => e.1 % 65536 == s.ctrl && bits e.1 16 1 == s.die && bits e.1 24 4 == place && bits e.1 20 4 != 0).map fun e =>
    (bits e.1 20 4, e.2)
/-- The shards of a generation whose headers do not agree with the manifest (R561): reason and row found. A shard object of
this controller that is missing or DAMAGED is taken from the buddy's mirror, if the buddy has one (`mirrors`: its dies). -/
def Dev.headerFaults (d : Dev) (x : Manifest) (place : Nat) (bad : List (Nat × Nat)) (mirrors : List Nat) : List (ShardInfo × Nat × Nat) :=
  x.shards.filterMap fun s =>
    if d.loadsHere s then
      match d.shardHere x s with
      | none => if s.ctrl = d.self ∧ s.buddy ≠ 0 ∧ mirrors.contains s.die then none else some (s, 1, 0)
      | some b =>
        if fieldAt b 8 0 64 ≠ x.id then some (s, 3, fieldAt b 0x10 0 48)
        else if fieldAt b 0x10 0 48 ≠ x.row then some (s, 2, fieldAt b 0x10 0 48)
        else none
    else (reportOf bad place s).map fun e => (s, e.1, e.2)
/-- The generation that a request names, with its place in the list (R560). -/
def Dev.pickGen (d : Dev) (ms : List Manifest) (manifest gen : Nat) (bad : List (Nat × Nat)) (mirrors : List Nat) : Option (Manifest × Nat) :=
  let all := ms.zipIdx
  if manifest ≠ 0 then all.find? fun e => e.1.id == manifest
  else if gen = 0xFF then all.find? fun e => (d.headerFaults e.1 e.2 bad mirrors).isEmpty
  else if gen ≤ 2 then all[gen]? else none
/-- The list of offenders is written, or BAD_PARAM with the count where it does not fit (R561). -/
def Dev.listFaults (d : Dev) (st : Status) (fn outAddr outLen : Nat) (xs : List (ShardInfo × Nat × Nat)) : Res :=
  let d := d.sat F.CKP_CNT1_MISMATCH 1
  if outLen < 16 * xs.length then { dev := d, st := .badParam, result := leBytes 4 xs.length }
  else
    { dev := d.emit (.host fn outAddr (xs.flatMap fun e => offender e.1.ctrl e.1.die e.2.1 e.2.2))
      st := st
      result := leBytes 4 xs.length }
/-- The sessions of this controller's part of a generation (R562). -/
def Dev.savedHere (d : Dev) (x : Manifest) : List Saved :=
  (x.shards.filter d.loadsHere).flatMap fun s =>
    let bytes := match d.shardHere x s with
      | some b => b
      | none =>
        -- the mirror at the buddy holds the same bytes as the shard did (R558)
        ((d.ckp.shards.find? fun h => h.manifest == x.id && h.ctrl == d.self && h.die == s.die).bind fun h =>
          (d.readObj h.handle).map (·.data)).getD []
    (d.sessionsIn bytes).map fun e =>
      if s.ctrl = d.self then
        match (d.ckp.shards.flatMap (·.caps)).find? fun c => c.sid == e.desc.sid with
        | some c => e.withCapture c
        | none => e
      else e
/-- Loading has ended everywhere: the held sessions become live, the group waits for beacon n + 1 (R563). -/
def Dev.liveAgain (d : Dev) (g : Nat) (x : Manifest) (saved : List Saved) : Dev × Nat :=
  let (d, lost) := saved.foldl (fun (a : Dev × Nat) e =>
    let r := a.1.restoreOne g e
    (r.1, a.2 + b2n r.2)) (d, 0)
  let d := ((d.si F.TIM_ROW_ROW g x.row).si F.TIM_ROW_VOIDS g 0).setPhase g .waitBeacon
  let d := d.updGroup g fun y => { y with
    batch := []
    nextBatch := []
    needResync := true
    readySent := true }
  let d := d.writeList g (x.row + 1) []
  let d := { d with ckp := { d.ckp with restored := if d.ckp.restored.contains g then d.ckp.restored else d.ckp.restored ++ [g] } }
  let d := if d.isTk g then
      d.issueBeacon g
        { row := x.row + 1
          tkEpoch := d.tkEpoch g
          groupId := d.gid g
          resync := true }
    else d
  (d.sat F.CKP_CNT1_RESTORES 1, lost)
/-- CKPT_RESTORE (R560 to R563). Operands beyond the request: what the other controllers found — not idle, header faults,
body faults — and how many sessions they restored, and came back as HISTORY; the dies of this controller's damaged shards for
which the buddy has a mirror. -/
def execCkptRestore (h : Hdr) (req : Bytes) (outAddr outLen gen : Nat) (busy : Bool) (bad fails : List (Nat × Nat))
    (mirrors : List Nat) (others lostOthers : Nat) : State → Host.Outcome State Fault Refusal :=
  onDev fun _ d =>
    let gid := leAt req 0 4
    let ok := req.length == 16 && leAt req 4 4 == 0
    d.command h 0x0802 (fromZero h) ok true fun d => d.needs [F.CKP_CTL_EN, F.HMP_CTL_EN] fun d =>
      match d.pickGen (d.manifests gid) (leAt req 8 8) gen bad mirrors with
      | none => d.res .badParam
      | some (x, place) =>
        if !x.digestOk then d.res .digestFail
        else match d.groupOf gid with
          | none => d.res .busy
          | some g =>
            let taken := d.ses.tab.any fun e => e.2.d.group == g && e.2.d.state != .free
            if (d.phase g ≠ 0 ∧ d.phase g ≠ 4) ∨ taken ∨ busy then d.res .busy
            else
              let faults := d.headerFaults x place bad mirrors
              let d := d.readShards x faults.isEmpty
              if !faults.isEmpty then d.listFaults .shardRowMismatch h.fn outAddr outLen faults
              else
                let body := x.shards.filterMap fun s =>
                  if d.loadsHere s then
                    match d.shardHere x s with
                    | some b => if padTo 48 (Config.sha384 (b.drop 16384)) == s.digest then none else some (s, 4, x.row)
                    | none => none
                  else (reportOf fails place s).map fun e => (s, 4, e.2)
                if !body.isEmpty then d.listFaults .digestFail h.fn outAddr outLen body
                else
                  let saved := d.savedHere x
                  if saved.any fun e => d.isHome e.desc.sid && NMap.has d.ses.tab (sidSlot e.desc.sid) then d.res .busy
                  else
                    let (d, lost) := d.liveAgain g x saved
                    let (n, d) := (saved.length + others, d)
                    { dev := d
                      st := if lost + lostOthers = 0 then .ok else .partialDone
                      result := leBytes 4 n }

end Sys2Proof.Machine
end

