-- ==== Sys2Proof/Machine/Secure.lean ====
section
/-! DEFINITION. Identity, attestation, enrolment, wrapped packages and scrubs (R491 to R511). -/
namespace Sys2Proof.Machine
open Sys2Proof

/-! ## Measurements and the ATTEST report (R495 to R497) -/

/-- The fields of the register at an offset, in their places: its word as the values in effect make it (R596). -/
def Dev.word (d : Dev) (fn off : Nat) : Nat :=
  (fieldsAt off).foldl (fun n e => n + d.gf e.1 fn e.2 * 2 ^ e.1.lo) 0
/-- The option bytes in effect (R573, R593). -/
def Dev.options (d : Dev) : Bytes := (List.range 8).flatMap fun i => leBytes 8 (d.gi F.RST_OPT_IMAGE_BYTES i)
/-- The 16-byte set id (R499, R511). -/
def Dev.setId (d : Dev) : Bytes := leBytes 8 (d.g F.SEC_SET_ID0_LO) ++ leBytes 8 (d.g F.SEC_SET_ID1_HI)
/-- SVNs of layers 1 and 2 with their minimums, 8 bytes (R495, R511). -/
def Dev.svn (d : Dev) : Bytes := leBytes 8 (d.word 0 F.SEC_SVN_L1.addr)

/-- An entry of the report: kind, slot, owning partition, key generation of a wrapped package, digest (R497). -/
def reportEntry (kind slot part : Nat) (wrap : Option Nat) (digest : Bytes) : Bytes :=
  pack 16 [⟨0, 0, 8, kind⟩, ⟨0, 16, 16, slot⟩, ⟨0, 32, 5, part⟩, ⟨0, 37, 1, b2n wrap.isSome⟩, ⟨8, 0, 32, wrap.getD 0⟩] ++
    padTo 48 digest
/-- Entries of a kind in slot order: 1 profiles, 2 weaves, 3 tokenizers, 4 the grammars that `mine` holds of (R497). -/
def Dev.entries (d : Dev) (mine : Nat → Bool) (kind : Nat) : List Bytes :=
  if kind = 1 then d.att.profiles.map fun e => reportEntry 1 e.1 0 (NMap.get? d.sec.wrapped e.1) e.2.digest
  else if kind = 2 then d.att.weaves.map fun e => reportEntry 2 e.1 0 none e.2.imageDigest
  else if kind = 3 then d.tok.tkz.map fun e => reportEntry 3 e.1 0 none e.2.digest
  else (d.tok.grams.filter fun e => mine e.2.partition).map fun e => reportEntry 4 e.1 e.2.partition none e.2.digest
/-- SHA-384 over the entries of a kind, partition 0's view (R495). -/
def Dev.listDigest (d : Dev) (kind : Nat) : Bytes := padTo 48 (Config.sha384 ((d.entries (fun _ => true) kind).flatMap id))
/-- The words of ISO_MODE and of the ISO_PART registers of every partition (R495). -/
def Dev.isoWords (d : Dev) : Bytes :=
  leBytes 8 (d.word 0 F.ISO_MODE_MODE.addr) ++
    (List.range 32).flatMap fun p =>
      [F.ISO_PART_STATE, F.ISO_PART_ENG_ENG_W, F.ISO_PART_PAGES_UNITS_W, F.ISO_PART_LIM_SESSIONS,
        F.ISO_PART_LIM2_GRAMMARS].flatMap fun f => leBytes 8 (d.word 0 (f.addr + f.stride * p))
/-- The measurement of an index; none above 12 (R495). -/
def Dev.measure (d : Dev) (i : Nat) : Option Bytes :=
  if i = 1 then some (padTo 8 (Config.measurement 1))
  else if i = 5 then some (padTo 48 (Config.sha384 d.options))
  else if i = 6 then some d.svn
  else if 2 ≤ i ∧ i ≤ 4 then some (padTo 48 (Config.measurement i))
  else if 7 ≤ i ∧ i ≤ 10 then some (d.listDigest (i - 6))
  else if i = 11 then
    some (d.setId ++ leBytes 4 (d.g F.SEC_KEYGEN_CUR) ++ padTo 48 ((d.sec.authority.map Config.sha384).getD []))
  else if i = 12 then some (padTo 48 (Config.sha384 d.isoWords))
  else none

/-- The report for a partition up to its signature (R497). -/
def Dev.report (d : Dev) (p : Nat) (nonce : Bytes) : Bytes :=
  let es := [1, 2, 3, 4].flatMap (d.entries fun q => p == 0 || q == p)
  pack 0x18
      [⟨0, 0, 32, 0x51415452⟩, ⟨0, 32, 16, 1⟩, ⟨8, 0, 5, p⟩, ⟨8, 5, 1, d.g F.ISO_MODE_MODE⟩,
       ⟨8, 6, 1, d.g F.ISO_MODE_STRICT_ACTIVE⟩, ⟨8, 32, 32, es.length⟩, ⟨0x10, 0, 64, d.wall⟩] ++
    padTo 32 nonce ++ d.svn ++ ([2, 3, 4, 5].flatMap fun i => (d.measure i).getD []) ++ d.setId ++
    pack 16 [⟨0, 0, 32, d.g F.SEC_KEYGEN_CUR⟩, ⟨0, 32, 32, d.g F.SEC_BOOT_COUNT⟩] ++ es.flatMap id
/-- A signature r ‖ s by the attestation key, 96 bytes, over the SHA-384 of a message (R494, R497). -/
def signed384 (m : Bytes) : Bytes := padTo 96 (Config.akSign (Config.sha384 m))

/-- ATTEST: the signed report, with the certificate chain if CHAIN is set, goes to the host buffer (R496, R497). -/
def Dev.attest (d : Dev) (h : Hdr) (nonce : Bytes) (addr len : Nat) (chain : Bool) : Res :=
  let r := d.report h.fn nonce
  let all := r ++ signed384 r ++ (if chain then Config.certChain else [])
  if len < all.length then { dev := d, st := .badParam, result := leBytes 4 all.length }
  else if !h.dma then d.faultRes 1
  else { dev := (d.sat F.SEC_CNT_ATTESTS 1).emit (.host h.fn addr all), result := leBytes 4 all.length }
/-- ATTEST. -/
def execAttest (h : Hdr) (nonce : Bytes) (addr len : Nat) (chain : Bool) : State → Host.Outcome State Fault Refusal :=
  onDev fun _ d =>
    d.command h 0x0701 (h.fn == 0 || d.on F.SEC_CTL_TENANT_ATTEST) (nonce.length == 32) false fun d =>
      d.attest h nonce addr len chain

/-! ## Device sets and enrolment (R498 to R501) -/

/-- SEC_STATUS and SEC_SET_ID follow the enrolment (R511). -/
def Dev.showEnrol (d : Dev) : Dev :=
  (d.s F.SEC_STATUS_ENROLLED (b2n (d.sec.authority.isSome && d.sec.setKey.isSome))).s F.SEC_STATUS_PREV_HELD
    (b2n d.sec.prevKey.isSome)
/-- Connections authenticated under a dropped generation start REKEY under the current one (R501). -/
def Dev.rekeyDropped (d : Dev) (dropped : List Nat) : Dev :=
  (d.hall.conns.filter fun e => e.2.state == .opened && dropped.contains e.2.keyGen).foldl (fun d e => d.startRekey e.1) d
/-- Set key generations that are held (R499, R504). -/
def Dev.heldGens (d : Dev) : List Nat :=
  (if d.sec.setKey.isSome then [d.g F.SEC_KEYGEN_CUR] else []) ++ (if d.sec.prevKey.isSome then [d.g F.SEC_KEYGEN_PREV] else [])
/-- Set keys and their generations change: SEC_KEYGEN and SEC_STATUS follow, and connections under a generation that is no
longer held start REKEY (R499, R501). -/
def Dev.setKeys (d : Dev) (cur : Option Bytes) (curGen : Nat) (prev : Option Bytes) (prevGen : Nat) : Dev :=
  let before := d.heldGens
  let d := { d with sec := { d.sec with
    setKey := cur
    prevKey := prev } }
  let d := ((d.s F.SEC_KEYGEN_CUR curGen).s F.SEC_KEYGEN_PREV prevGen).showEnrol
  d.rekeyDropped (before.filter fun g => !d.heldGens.contains g)
/-- Every held set key is dropped (R499). -/
def Dev.dropKeys (d : Dev) : Dev := d.setKeys none 0 none 0

/-- A refused enrolment is counted; nothing else changes (R498, R511). -/
def Dev.enrolFails (d : Dev) (st : Status) : Res := (d.sat F.SEC_CNT_ENROL_FAIL 1).res st
/-- The rest of an enrolment body, which the authority signs: OP, ENROL_SEQ, the DeviceID digest, the operation's fields
(R498). -/
def enrolBody (op seq : Nat) (digest fields : Bytes) : Bytes := leBytes 1 op ++ leBytes 4 seq ++ digest ++ fields
/-- The checks of KEY_ENROL in their order, and the operation where they pass (R498). `key` is the authority key of the
body of OP 0. -/
def Dev.enrol (d : Dev) (op seq : Nat) (digest fields sig : Bytes) (key : Option Bytes) (ok : Bool) (run : Dev → Option Dev) : Res :=
  let signer := match d.sec.authority with
    | some k => some k
    | none => key
  let body := enrolBody op seq digest fields
  if !ok || digest != Config.deviceIdDigest || digest.length != 48 || sig.length != 96 then d.enrolFails .badParam
  else if !(signer.any fun k => Config.ecdsaVerify k (Config.sha384 body) sig) then d.enrolFails .digestFail
  else if seq ≤ d.g F.SEC_ENROL_SEQ then d.enrolFails .staleGen
  else match run d with
    | some d => (d.s F.SEC_ENROL_SEQ seq).res .ok
    | none => d.enrolFails .digestFail

/-- KEY_ENROL OP 0: the authority key and the set id are bound or replaced, and every set key is dropped (R499). -/
def Dev.bindAuthority (d : Dev) (key setId : Bytes) : Dev :=
  let d := { d with sec := { d.sec with authority := some key } }
  ((d.s F.SEC_SET_ID0_LO (leAt setId 0 8)).s F.SEC_SET_ID1_HI (leAt setId 8 8)).dropKeys
/-- The set key of generation `g` unwrapped: KEK from the ECDH secret, nonce 0, the set id and `g` as associated data
(R500). -/
def Dev.unwrapKey (d : Dev) (gen : Nat) (eph wrapped : Bytes) : Option Bytes :=
  match Config.ecdhOpen eph with
  | none => none
  | some z =>
    let info := [0x51, 0x4C, 0x4E, 0x20, 0x73, 0x65, 0x74, 0x20, 0x6B, 0x65, 0x79] ++ leBytes 4 gen
    Config.gcmOpen ((Config.hkdf z d.setId info).take 32) (List.replicate 12 0) (d.setId ++ leBytes 4 gen) wrapped
/-- KEY_ENROL OP 1: generation `g` becomes the current one, the current one the previous (R499, R500). -/
def Dev.installKey (d : Dev) (gen : Nat) (eph wrapped : Bytes) : Option Dev :=
  (d.unwrapKey gen eph wrapped).map fun sk => d.setKeys (some sk) gen d.sec.setKey (d.g F.SEC_KEYGEN_CUR)
/-- KEY_ENROL OP 2: the previous generation is dropped (R499). -/
def Dev.retireKey (d : Dev) : Dev := d.setKeys d.sec.setKey (d.g F.SEC_KEYGEN_CUR) none 0
/-- KEY_ENROL OP 3: authority, set id and every set key are dropped (R499). -/
def Dev.clearEnrol (d : Dev) : Dev :=
  let d := { d with sec := { d.sec with authority := none } }
  ((d.s F.SEC_SET_ID0_LO 0).s F.SEC_SET_ID1_HI 0).dropKeys

/-- BIND_AUTHORITY. -/
def execBindAuthority (h : Hdr) (seq : Nat) (digest key setId sig : Bytes) : State → Host.Outcome State Fault Refusal :=
  onDev fun _ d =>
    d.command h 0x0702 (fromZero h) true true fun d => d.needs [] fun d =>
      d.enrol 0 seq digest (key ++ setId) sig (some key) (key.length == 96 && setId.length == 16) fun d =>
        some (d.bindAuthority key setId)
/-- INSTALL: the SEAL engines unwrap the key, so the security block must be enabled (R511). -/
def execInstall (h : Hdr) (seq : Nat) (digest : Bytes) (gen : Nat) (eph wrapped sig : Bytes) :
    State → Host.Outcome State Fault Refusal :=
  onDev fun _ d =>
    d.command h 0x0702 (fromZero h) true true fun d => d.needs [F.SEC_CTL_EN] fun d =>
      d.enrol 1 seq digest (leBytes 4 gen ++ eph ++ wrapped) sig none
        (eph.length == 96 && wrapped.length == 48 && decide (d.g F.SEC_KEYGEN_CUR < gen)) fun d => d.installKey gen eph wrapped
/-- RETIRE. -/
def execRetire (h : Hdr) (seq : Nat) (digest sig : Bytes) : State → Host.Outcome State Fault Refusal :=
  onDev fun _ d =>
    d.command h 0x0702 (fromZero h) true true fun d => d.needs [] fun d =>
      d.enrol 2 seq digest [] sig none true fun d => some d.retireKey
/-- CLEAR. -/
def execClear (h : Hdr) (seq : Nat) (digest sig : Bytes) : State → Host.Outcome State Fault Refusal :=
  onDev fun _ d =>
    d.command h 0x0702 (fromZero h) true true fun d => d.needs [] fun d =>
      d.enrol 3 seq digest [] sig none true fun d => some d.clearEnrol

/-! ## Wrapped packages (R502, R503) -/

/-- SEC_STAGE.STAGED follows the staged packages (R511). -/
def Dev.showStaged (d : Dev) : Dev := d.s F.SEC_STAGE_STAGED d.sec.staged.length
/-- The header of a wrapped package is well formed and consistent with its length (R502, R503). -/
def wrapOk (pkg : Bytes) (len : Nat) : Bool :=
  128 ≤ len && pkg.length == len && leAt pkg 0 4 == 0x51575250 && leAt pkg 4 2 == 1 && fieldAt pkg 0x18 32 8 == 1 &&
    128 ≤ leAt pkg 0x70 8 && leAt pkg 0x70 8 ≤ 2 ^ 36 && len == 128 + leAt pkg 0x70 8 + 16
/-- The set key of a held generation (R499). -/
def Dev.heldKey (d : Dev) (gen : Nat) : Option Bytes :=
  if d.sec.setKey.isSome ∧ gen = d.g F.SEC_KEYGEN_CUR then d.sec.setKey
  else if d.sec.prevKey.isSome ∧ gen = d.g F.SEC_KEYGEN_PREV then d.sec.prevKey
  else none
/-- The body of a wrapped package opened: the package key under the set key, then the body under the package key (R502). -/
def openPackage (sk pkg : Bytes) : Option Bytes :=
  match Config.gcmOpen sk (slice pkg 0x20 12) (slice pkg 0 0x20) (slice pkg 0x30 48) with
  | none => none
  | some pk => Config.gcmOpen pk (slice pkg 0x60 12) (slice pkg 0 0x80) (pkg.drop 128)
/-- Handles of staged packages are numbered from 1. -/
def Dev.stage (d : Dev) (body : Bytes) (gen : Nat) : Res :=
  let hd := d.sec.nextHandle % 2 ^ 32
  let x : Staged :=
    { handle := hd
      body := body
      keyGen := gen
      deadline := d.now + d.g F.SEC_STAGE_HOLD_S * 1000000000 }
  let d := { d with sec := { d.sec with
    staged := d.sec.staged ++ [x]
    nextHandle := d.sec.nextHandle + 1 } }
  { dev := d.showStaged, result := leBytes 4 hd }
/-- WEIGHTS_UNWRAP, its refusals in the order of R503. -/
def Dev.unwrap (d : Dev) (len : Nat) (pkg : Bytes) : Res :=
  let gen := leAt pkg 0x18 4
  if !wrapOk pkg len then d.res .badParam
  else match (if slice pkg 8 16 = d.setId then d.heldKey gen else none) with
    | none => d.res .denied
    | some sk =>
      match openPackage sk pkg with
      | none => (d.sat F.SEC_CNT_UNWRAP_FAIL 1).res .digestFail
      | some body =>
        let used := d.sec.staged.foldl (fun a x => a + x.body.length) 0
        if 4 ≤ d.sec.staged.length ∨ d.g F.SEC_STAGE_GIB * 2 ^ 30 < used + body.length then d.res .noSpace
        else d.stage body gen
/-- WEIGHTS_UNWRAP: the package as read from host memory. -/
def execWeightsUnwrap (h : Hdr) (_addr len : Nat) (pkg : Bytes) : State → Host.Outcome State Fault Refusal :=
  onDev fun _ d =>
    d.command h 0x0703 (fromZero h) true true fun d => d.needs [F.SEC_CTL_EN] fun d => d.unwrap len pkg
/-- STAGE_HOLD: a package that no LOAD_PROFILE has consumed within HOLD_S is released and scrubbed (R503). -/
def execStageHold (handle : Nat) : State → Host.Outcome State Fault Refusal :=
  onDev fun _ d => match d.sec.staged.find? (·.handle == handle) with
    | none => d
    | some x =>
      let d := d.reach x.deadline
      ({ d with sec := { d.sec with staged := d.sec.staged.filter (·.handle != handle) } }).showStaged

/-! ## Scrubs (R510) -/

/-- A scrub of a mode may run: DEVICE and SANITIZE need every tenant FREE and no session, SANITIZE a disabled hamper too. -/
def Dev.scrubOk (d : Dev) (mode : Nat) : Bool :=
  d.sec.scrub.isNone &&
    (mode == 0 || ((List.range 32).all (fun p => p == 0 || d.gi F.ISO_PART_STATE p == 0) && d.ses.tab.isEmpty)) &&
    (mode != 2 || !d.running F.HMP_CTL_EN)
/-- Every media key generation advances (R507, R510). -/
def Dev.newMediaKeys (d : Dev) : Dev :=
  (List.range 32).foldl (fun d p => d.si F.SEC_MKGEN_GEN p (nextKeyGen (d.gi F.SEC_MKGEN_GEN p))) d
/-- SCRUB is accepted; SANITIZE first advances every media key generation. -/
def execScrub (h : Hdr) (mode : Nat) : State → Host.Outcome State Fault Refusal :=
  onDev fun _ d =>
    d.command h 0x0704 (fromZero h) (mode ≤ 2) false fun d => d.needs [F.SEC_CTL_EN] fun d =>
      if !d.scrubOk mode then d.res .busy
      else
        let d := if mode = 2 then d.newMediaKeys else d
        let d := { d with sec := { d.sec with scrub := some mode } }
        ((d.s F.SEC_SCRUB_BUSY 1).s F.SEC_SCRUB_MODE mode).res .ok

/-- A local offset lies in the page region of its die and in no frame that is not FREE (R510). -/
def Dev.freeByte (d : Dev) (a : Nat) : Bool :=
  let die := a / 2 ^ 47
  let blk := a % 2 ^ 47 / 2 ^ 24
  decide (d.gi F.PGS_REGION_BASE die ≤ blk ∧ blk < d.gi F.PGS_REGION_BASE die + d.pageBins die) &&
    NMap.get? d.pgs.bins (die * 2 ^ 19 + (blk - d.gi F.PGS_REGION_BASE die)) != some fixedClass &&
    !d.pgs.frames.any fun e =>
      let lo := d.frameAddr e.1
      decide (lo ≤ a ∧ a < lo + classBytes (NMap.getD d.pgs.bins (pageBin e.1) 0))
/-- A local offset lies in the control region, the profile region or the weave region of its die (R510, R624). -/
def Dev.keptByte (d : Dev) (a : Nat) : Bool :=
  let die := a / 2 ^ 47
  let blk := a % 2 ^ 47 / 2 ^ 24
  let live := blk - d.retiredIn die 0 blk
  decide (live < 256) || decide (1376 ≤ live ∧ live < 1376 + 64 * d.g F.ATT_PRF_REGION_GIB + 128)
/-- A half after SANITIZE: no object, nothing mapped, every block erased once more; retired luns, wear and lifetime counters
stay (R510). -/
def Half.sanitized (x : Half) : Half :=
  { retired := x.retired
    blocks := NMap.mapV x.blocks fun b k =>
      if k.state = .bad then k
      else
        { erases := k.erases
          stream := if isRoot b then 4 else 0
          state := if k.state = .flush then .flush else if isRoot b then .opened else .erased }
    eraseBase := x.eraseBase + 1
    unc := x.unc
    temps := x.temps
    maxTemp := x.maxTemp
    corrected := x.corrected
    uncorr := x.uncorr
    buddyRepairs := x.buddyRepairs
    rdRefresh := x.rdRefresh
    retRefresh := x.retRefresh
    flushes := x.flushes
    onMs := x.onMs
    tempMs := x.tempMs
    hostPages := x.hostPages
    nandPages := x.nandPages
    hostAt := x.hostAt
    nandAt := x.nandAt
    uncAt := x.uncAt
    repairAt := x.repairAt
    refreshAt := x.refreshAt }
/-- SCRUB_DONE: the scrub under way completes, and is posted; a scrub that met a fault reports FAULT (R510, R535). -/
def execScrubDone (ok : Bool) : State → Host.Outcome State Fault Refusal :=
  onDev fun m d => match d.sec.scrub with
    | none => d
    | some mode =>
      let d := d.zero m (if mode = 0 then d.freeByte else fun a => !d.keptByte a)
      let d := if mode = 2 then { d with halves := NMap.mapV d.halves fun _ x => x.sanitized } else d
      let d := { d with sec := { d.sec with scrub := none } }
      let more := !d.iso.destroying.isEmpty
      let d := (d.s F.SEC_SCRUB_BUSY (b2n more)).s F.SEC_SCRUB_MODE (if more then 3 else 0)
      d.post0 { typ := 0x0F, status := (if ok then Status.ok else Status.fault).code, args := [mode] }

/-! ## SPDM (R493 to R495) -/

/-- The responder answers: MCTP from step 2 of start-up, DOE once the endpoint does, after step 4; neither while the
controller is held in reset nor in phase FAILED (R494, R566, R572, R620). -/
def Dev.spdmOn (d : Dev) (doe : Bool) : Bool :=
  !d.rst.held && d.bootPhase != 4 && (d.bootPhase != 0 || (if doe then 5 else 2) ≤ d.g F.RST_STATE_STEP)
/-- A response of SPDM; its codes are those of the DMTF standard (log entry 52). -/
def Dev.spdm (d : Dev) (code p1 p2 ver : Nat) (body : Bytes) : Dev :=
  d.emit (.mgmt 0 ([BitVec.ofNat 8 ver, BitVec.ofNat 8 code, BitVec.ofNat 8 p1, BitVec.ofNat 8 p2] ++ body))
/-- The error UnsupportedRequest. -/
def Dev.spdmError (d : Dev) (ver req : Nat) : Dev := d.spdm 0x7F 0x07 req ver []
/-- Versions 1.2 and 1.3. -/
def spdmVersion (ver : Nat) : Bool := ver == 0x12 || ver == 0x13
/-- A request is answered by `f`, or with UnsupportedRequest where it lies outside the table of R494. -/
def spdmRow (doe : Bool) (ver req : Nat) (ok : Bool) (f : Dev → Dev) : State → Host.Outcome State Fault Refusal :=
  onDev fun _ d => if !d.spdmOn doe then d else if !spdmVersion ver || !ok then d.spdmError ver req else f d
/-- A long response is kept for CHUNK_GET, and announced as such, where the requester takes less at a time (R494). -/
def Dev.spdmLong (d : Dev) (code p1 p2 ver room : Nat) (body : Bytes) : Dev :=
  if 4 + body.length ≤ room then d.spdm code p1 p2 ver body
  else
    let all := [BitVec.ofNat 8 ver, BitVec.ofNat 8 code, BitVec.ofNat 8 p1, BitVec.ofNat 8 p2] ++ body
    ({ d with sec := { d.sec with spdmLarge := all } }).spdm 0x7F 0x0F 0 ver [1]

/-- GET_VERSION: versions 1.2 and 1.3. -/
def execGetVersion (doe : Bool) : State → Host.Outcome State Fault Refusal :=
  onDev fun _ d => if d.spdmOn doe then d.spdm 0x04 0 0 0x10 ([0, 2] ++ leBytes 2 0x1200 ++ leBytes 2 0x1300) else d
/-- GET_CAPABILITIES: CERT_CAP, CHAL_CAP, MEAS_CAP with signature, CHUNK_CAP. -/
def execGetCapabilities (doe : Bool) (ver : Nat) : State → Host.Outcome State Fault Refusal :=
  spdmRow doe ver 0xE1 true fun d => d.spdm 0x61 0 0 ver (leBytes 4 0 ++ leBytes 4 0x20016)
/-- NEGOTIATE_ALGORITHMS: ECDSA P-384, SHA-384, measurement hash SHA-384; a request without them is not supported. -/
def execNegotiateAlgorithms (doe : Bool) (ver asym hash : Nat) : State → Host.Outcome State Fault Refusal :=
  spdmRow doe ver 0xE3 (bitOf asym 7 && bitOf hash 1) fun d => d.spdm 0x63 0 0 ver (leBytes 4 4 ++ leBytes 4 0x80 ++ leBytes 4 2)
/-- GET_DIGESTS: the digest of the chain in slot 0, the one slot that is filled. -/
def execGetDigests (doe : Bool) (ver : Nat) : State → Host.Outcome State Fault Refusal :=
  spdmRow doe ver 0x81 true fun d => d.spdm 0x01 0 1 ver (padTo 48 (Config.sha384 Config.certChain))
/-- GET_CERTIFICATE: a part of the chain in slot 0, and how much remains. -/
def execGetCertificate (doe : Bool) (ver slot off len room : Nat) : State → Host.Outcome State Fault Refusal :=
  spdmRow doe ver 0x82 (slot == 0 && decide (off < Config.certChain.length)) fun d =>
    let part := slice Config.certChain off len
    d.spdmLong 0x02 0 0 ver room (leBytes 2 part.length ++ leBytes 2 (Config.certChain.length - off - part.length) ++ part)
/-- CHALLENGE: chain digest, nonce, a summary of the measurements if asked for, signed by the attestation key. -/
def execChallenge (doe : Bool) (ver slot : Nat) (summary : Bool) (nonce : Bytes) (room : Nat) :
    State → Host.Outcome State Fault Refusal :=
  spdmRow doe ver 0x83 (slot == 0 && nonce.length == 32) fun d =>
    let k := d.free
    let (_, d) := d.draw
    let all := (List.range 12).flatMap fun i => (d.measure (i + 1)).getD []
    let body := padTo 48 (Config.sha384 Config.certChain) ++ leBytes 32 (Config.freeNat k) ++
      (if summary then padTo 48 (Config.sha384 all) else []) ++ leBytes 2 0
    d.spdmLong 0x03 0 1 ver room (body ++ signed384 (nonce ++ body))
/-- GET_MEASUREMENTS: how many there are (0), one of them, or all of them (255); signed by the attestation key if asked for. -/
def execGetMeasurements (doe : Bool) (ver index : Nat) (sign : Bool) (nonce : Bytes) (room : Nat) :
    State → Host.Outcome State Fault Refusal :=
  spdmRow doe ver 0xE0 ((index ≤ 12 || index == 255) && (!sign || nonce.length == 32)) fun d =>
    let which := if index = 255 then (List.range 12).map (· + 1) else if index = 0 then [] else [index]
    let block (i : Nat) : Bytes :=
      let v := (d.measure i).getD []
      leBytes 1 i ++ leBytes 1 1 ++ leBytes 2 v.length ++ v
    let k := d.free
    let (_, d) := d.draw
    let body := leBytes 1 which.length ++ which.flatMap block ++ leBytes 32 (Config.freeNat k) ++ leBytes 2 0
    d.spdmLong 0x60 (if index = 0 then 12 else 0) 0 ver room (body ++ (if sign then signed384 (nonce ++ body) else []))
/-- CHUNK_GET: a chunk of the long response that is kept. -/
def execChunkGet (doe : Bool) (ver seq off len : Nat) : State → Host.Outcome State Fault Refusal :=
  onDev fun _ d =>
    if !d.spdmOn doe then d
    else if !spdmVersion ver || decide (d.sec.spdmLarge.length ≤ off) then d.spdmError ver 0x86
    else
      let part := slice d.sec.spdmLarge off len
      d.spdm 0x06 (b2n (decide (d.sec.spdmLarge.length ≤ off + len))) 1 ver (leBytes 2 seq ++ leBytes 2 0 ++ leBytes 4 part.length ++ part)
/-- UNSUPPORTED_REQUEST: any request outside the table. -/
def execUnsupportedRequest (doe : Bool) (ver req : Nat) : State → Host.Outcome State Fault Refusal :=
  onDev fun _ d => if d.spdmOn doe then d.spdmError ver req else d

end Sys2Proof.Machine
end

