-- ==== Sys2Proof/Machine/Queues.lean ====
section
/-! DEFINITION. Sequence queries, unassigned opcodes, interrupts and function-level reset (R523, R526 to R530, R537,
R538). -/
namespace Sys2Proof.Machine
open Sys2Proof

/-! ## SYNC_QUERY (R530) -/

/-- A ring's state entry: 32 bytes (R530). -/
def Dev.ringEntry (d : Dev) (fn r : Nat) : Bytes :=
  pack 32
    [⟨0, 0, 8, 1⟩, ⟨0, 8, 1, d.gf F.CMD_RQ_CFG_EN fn r⟩, ⟨0, 9, 2, d.gf F.CMD_RQ_STATUS_STATE fn r⟩, ⟨0, 16, 16, r⟩,
     ⟨0, 32, 32, d.gf F.CMD_HSEQ_NEXT fn r⟩, ⟨8, 0, 32, d.gf F.CMD_DSEQ_LAST fn r⟩, ⟨8, 32, 32, d.gf F.CMD_HSEQ_LOG_LO fn r⟩,
     ⟨0x10, 0, 32, d.gf F.CMD_RQ_STATUS_TAKEN fn r⟩, ⟨0x10, 32, 32, (d.ring fn r).replies⟩]
/-- Events of the backlog that wait for a queue (R534). -/
def Dev.heldFor (d : Dev) (fn q : Nat) : Nat :=
  ((d.held fn).filter fun h => h.queue == some q || (h.queue == none && d.defaultQueue fn == some q)).length
/-- A queue's state entry: 32 bytes (R530). -/
def Dev.queueEntry (d : Dev) (fn q : Nat) : Bytes :=
  pack 32
    [⟨0, 0, 8, 2⟩, ⟨0, 8, 1, d.gf F.CMD_EQ_CFG_EN fn q⟩, ⟨0, 9, 2, d.gf F.CMD_EQ_STATUS_STATE fn q⟩, ⟨0, 16, 16, q⟩,
     ⟨8, 0, 32, d.gf F.CMD_EQ_STATUS_ESEQ fn q⟩, ⟨8, 32, 32, (d.queue fn q).written⟩, ⟨0x10, 0, 32, d.heldFor fn q⟩,
     ⟨0x10, 32, 32, d.gf F.CMD_EQ_STATUS_LOST fn q⟩]
/-- The results of SYNC_QUERY: BOOT, and NEXT_HSEQ, LAST_DSEQ and LOG_LO of a ring as they stand, ENTRIES (R524, R530). -/
def Dev.syncResult (d : Dev) (fn r n : Nat) : Bytes :=
  leBytes 8 (d.g F.SEC_BOOT_COUNT) ++ leBytes 4 (d.gf F.CMD_HSEQ_NEXT fn r) ++ leBytes 4 (d.gf F.CMD_DSEQ_LAST fn r) ++
    leBytes 4 (d.gf F.CMD_HSEQ_LOG_LO fn r) ++ leBytes 4 n
/-- A reply of SYNC_QUERY about a ring, with its ENTRIES. -/
def Dev.syncRes (d : Dev) (st : Status) (fn r n : Nat) : Res := { dev := d, st := st, result := d.syncResult fn r n }
/-- A SYNC_QUERY entry is taken and executed whatever its HSEQ: in sequence as an ordinary command, otherwise as a bypass,
neither logged nor counted (R530). -/
def Dev.syncCommand (d : Dev) (h : Hdr) (params : Bool) (run : Dev → Res) : Dev :=
  if !d.takes h || (d.ring h.fn h.ring).busy.isSome then d
  else
    let d := d.take h
    d.executeAs h 0x0903 (d.seqDiff h == 0) true params false run
/-- RING names a ring of the function, or all of them (R524, R540). -/
def Dev.syncRing (d : Dev) (h : Hdr) (ring : Nat) : Bool := ring == 0xFF || decide (ring < d.gf F.CMD_LIMITS_RINGS_MAX h.fn 0)

/-- SYNC_QUERY mode QUERY: the state of a ring, or of every ring and queue, goes to the host buffer (R530). -/
def execSyncQuery (h : Hdr) (outAddr outLen ring : Nat) : State → Host.Outcome State Fault Refusal :=
  onDev fun _ d =>
    d.syncCommand h (d.syncRing h ring) fun d =>
      let es :=
        if ring = 0xFF then
          (List.range (d.gf F.CMD_LIMITS_RINGS_MAX h.fn 0)).flatMap (d.ringEntry h.fn) ++
            (List.range (d.gf F.CMD_LIMITS_EQS_MAX h.fn 0)).flatMap (d.queueEntry h.fn)
        else d.ringEntry h.fn ring
      let about := if ring = 0xFF then h.ring else ring
      let n := es.length / 32
      if outLen < es.length then d.syncRes .badParam h.fn about n
      else if !h.dma then d.faultRes 1
      else (d.emit (.host h.fn outAddr es)).syncRes .ok h.fn about n

/-- Logged replies of a ring from HSEQ `lo` up to NEXT_HSEQ − 1, in order (R530). -/
def Dev.loggedFrom (d : Dev) (fn r lo : Nat) : List Reply :=
  (d.ring fn r).log.filter fun x => decide (0 ≤ signed 32 (beyond x.hseq lo))
/-- `lo` names a logged HSEQ or NEXT_HSEQ itself: it is not below LOG_LO (R530). -/
def Dev.logHolds (d : Dev) (fn r lo : Nat) : Bool := decide (0 ≤ signed 32 (beyond lo (d.gf F.CMD_HSEQ_LOG_LO fn r)))
/-- SYNC_QUERY mode REPLAY: the logged replies of a ring from FROM onward are written again (R530). -/
def execSyncReplay (h : Hdr) (outAddr frm outLen ring : Nat) : State → Host.Outcome State Fault Refusal :=
  onDev fun _ d =>
    d.syncCommand h (ring != 0xFF && d.syncRing h ring) fun d =>
      if d.gf F.CMD_RQ_CFG_EN h.fn ring = 0 ∨ !d.logHolds h.fn ring frm then d.syncRes .badParam h.fn ring 0
      else if outLen < 32 then d.syncRes .badParam h.fn ring 1
      else if !h.dma then d.faultRes 1
      else
        let d := (d.loggedFrom h.fn ring frm).foldl (fun (d : Dev) (x : Reply) =>
          (d.satf F.CMD_CNT_REPLAYS h.fn 0 1).sendReply h.fn ring { x with replay := true }) d
        (d.emit (.host h.fn outAddr (d.ringEntry h.fn ring))).syncRes .ok h.fn ring 1

/-- A ring's NEXT_HSEQ is set, its LAST_DSEQ is 0, and its log is empty (R527, R530). -/
def Dev.syncReset (d : Dev) (fn r frm : Nat) : Dev :=
  let d := ((d.sf F.CMD_HSEQ_NEXT fn r frm).sf F.CMD_HSEQ_LOG_LO fn r frm).sf F.CMD_DSEQ_LAST fn r 0
  d.setRing fn r { d.ring fn r with log := [] }
/-- SYNC_QUERY mode RESET (R530). -/
def execSyncReset (h : Hdr) (frm ring : Nat) : State → Host.Outcome State Fault Refusal :=
  onDev fun _ d =>
    d.syncCommand h (ring != 0xFF && d.syncRing h ring) fun d =>
      if d.ringRuns h.fn ring then d.syncRes .busy h.fn ring 0
      else (d.syncReset h.fn ring frm).syncRes .ok h.fn ring 0

/-! ## Unassigned opcodes (R523) -/

/-- The assigned opcodes (R524). -/
def assigned (op : Nat) : Bool :=
  let n := op % 256
  1 ≤ n &&
    (match op / 256 with
     | 1 => n ≤ 4 | 2 => n ≤ 3 | 3 => n ≤ 4 | 4 => n ≤ 4 | 5 => n ≤ 4 | 6 => n ≤ 4 | 7 => n ≤ 4 | 8 => n ≤ 4 | 9 => n ≤ 5
     | _ => false)
/-- UNASSIGNED_OPCODE: the entry is taken under the sequence rules and answered UNKNOWN_OP (R523, R526). -/
def execUnassignedOpcode (h : Hdr) (op : Nat) : State → Host.Outcome State Fault Refusal :=
  onDev fun _ d =>
    if assigned op || !d.takes h then d
    else
      let d := d.take h
      let k := d.seqDiff h
      if k = 0 then
        (((d.sf F.CMD_HSEQ_NEXT h.fn h.ring ((h.hseq + 1) % 2 ^ 32)).res .unknownOp)).decideAs h.fn h.ring h.hseq op true
      else if -256 ≤ k ∧ k ≤ -1 then d.replay h op
      else d.seqGap h op

/-! ## Interrupts (R537) -/

/-- INTERRUPT_MODERATION: MOD_US has passed since the first entry of an armed ring or queue: its message is sent, and it is
disarmed. -/
def execInterruptModeration (fn : Nat) (isRing : Bool) (index : Nat) : State → Host.Outcome State Fault Refusal :=
  onUnit (fn < 32) fun _ d =>
    if isRing then
      let x := d.ring fn index
      match x.arm.due with
      | some t =>
        let a : Arm := { x.arm with
          armed := false
          due := none }
        ((d.reach t).setRing fn index { x with arm := a }).msix fn (d.gf F.CMD_RQ_CFG_VECTOR fn index)
      | none => d
    else
      let x := d.queue fn index
      match x.arm.due with
      | some t =>
        let a : Arm := { x.arm with
          armed := false
          due := none }
        ((d.reach t).setQueue fn index { x with arm := a }).msix fn (d.gf F.CMD_EQ_CFG_VECTOR fn index)
      | none => d
/-- VECTOR_UNMASK: a vector is unmasked, and its pending message is sent. -/
def execVectorUnmask (fn vec : Nat) : State → Host.Outcome State Fault Refusal :=
  onUnit (fn < 32) fun _ d =>
    if d.gf F.CMD_LIMITS_VECTORS fn 0 ≤ vec then d
    else
      let seen := d.cmd.pendingVec.contains (fn, vec)
      let d := { d with cmd := { d.cmd with
        unmasked := if d.cmd.unmasked.contains (fn, vec) then d.cmd.unmasked else d.cmd.unmasked ++ [(fn, vec)]
        pendingVec := d.cmd.pendingVec.filter (· != (fn, vec)) } }
      if seen then d.emit (.msix fn vec) else d

/-! ## Function-level reset (R538, R566) -/

/-- Register fields of a ring that a function-level reset clears: all but its sequence state. -/
def ringFields : List Fld :=
  [F.CMD_RQ_BASE_ADDR, F.CMD_RP_BASE_ADDR, F.CMD_RQ_CFG_EN, F.CMD_RQ_CFG_RQ_LOG2, F.CMD_RQ_CFG_RP_LOG2, F.CMD_RQ_CFG_VECTOR,
   F.CMD_RQ_CFG_MOD_COUNT, F.CMD_RQ_CFG_MOD_US, F.CMD_RQ_DB_TAIL, F.CMD_RP_DB_HEAD, F.CMD_RQ_STATUS_TAKEN,
   F.CMD_RQ_STATUS_STATE, F.CMD_RQ_STATUS_STALLED]
/-- Register fields of an event queue that a function-level reset clears. -/
def queueFields : List Fld :=
  [F.CMD_EQ_BASE_ADDR, F.CMD_EQ_CFG_EN, F.CMD_EQ_CFG_LOG2, F.CMD_EQ_CFG_VECTOR, F.CMD_EQ_CFG_MOD_COUNT, F.CMD_EQ_CFG_MOD_US,
   F.CMD_EQ_DB_HEAD, F.CMD_EQ_STATUS_STATE, F.CMD_EQ_STATUS_LOST]
/-- A ring under a function-level reset: the command executing goes on, its log and numbers stay, entries not yet taken
are discarded, replies not yet written are not written. -/
def Dev.resetRing (d : Dev) (fn r : Nat) : Dev :=
  let d := ringFields.foldl (fun d f => d.clr f fn r) d
  let x := d.ring fn r
  d.setRing fn r
    { log := x.log
      busy := x.busy
      muted := x.busy.isSome }
/-- A queue under a function-level reset: LAST_ESEQ and the backlog stay. -/
def Dev.resetQueue (d : Dev) (fn q : Nat) : Dev :=
  let d := queueFields.foldl (fun d f => d.clr f fn q) d
  let x := d.queue fn q
  d.setQueue fn q
    { firstLost := x.firstLost
      lostNow := x.lostNow }
/-- Rings and queues of one function are reset; its MSI-X vectors are masked again (R538; log entry 53). -/
def Dev.resetOne (d : Dev) (fn : Nat) : Dev :=
  let rings := (NMap.keys d.cmd.rings).filter fun k => k / 64 == fn
  let queues := (NMap.keys d.cmd.queues).filter fun k => k / 1024 == fn
  let limR := List.range (d.gf F.CMD_LIMITS_RINGS_MAX fn 0)
  let d := limR.foldl (fun d r =>
    if rings.contains (ringKey fn r) || d.gf F.CMD_RQ_CFG_EN fn r == 1 || ringFields.any fun f => NMap.has d.regs (f.key fn r)
    then d.resetRing fn r else d) d
  let limQ := List.range (d.gf F.CMD_LIMITS_EQS_MAX fn 0)
  let d := limQ.foldl (fun d q =>
    if queues.contains (queueKey fn q) || queueFields.any fun f => NMap.has d.regs (f.key fn q)
    then d.resetQueue fn q else d) d
  { d with cmd := { d.cmd with
    unmasked := d.cmd.unmasked.filter (·.1 != fn)
    pendingVec := d.cmd.pendingVec.filter (·.1 != fn) } }
/-- A function-level reset: that of the PF treats the rings of every VF as under their own reset (R538). -/
def Dev.flr (d : Dev) (fn : Nat) : Dev :=
  if fn = 0 then (List.range 32).foldl (fun d k => d.resetOne k) d else d.resetOne fn
/-- FUNCTION_LEVEL_RESET. -/
def execFunctionLevelReset (fn : Nat) : State → Host.Outcome State Fault Refusal :=
  onUnit (fn < 32) fun _ d => d.flr fn
/-- PERST, hot reset and link-down act as a function-level reset of the PF and of every VF (R566). -/
def execPerst : State → Host.Outcome State Fault Refusal := onDev fun _ d => d.flr 0

end Sys2Proof.Machine
end

