-- ==== Sys2Proof/Machine/Reset.lean ====
section
/-! DEFINITION. How the hamper is left at a stop, by the power-loss flush or by a clean stop, and what a device reset
clears and keeps (R356, R373, R566 to R570). -/
namespace Sys2Proof.Machine
open Sys2Proof

/-! ## What a stop writes through the ordinary streams (R355, R360, R375, R568) -/

/-- A page of the buffer is programmed on the next blocks of its stream and mapped (R356, R360). -/
def Half.settlePage (x : Half) (now : Nat) (m : Media) (b : HBuf) : Half :=
  let stream := streamOf (x.tagOf b).kind
  if stream = 0 then
    match x.pickPair with
    | none => x
    | some (b1, b2) => (((x.openFor b1 0).openFor b2 0).programBuf b1 b2 now m b).turned 0 (lunOf b2)
  else match x.pick stream 1 none with
    | none => x
    | some k => ((x.openFor k stream).programBuf k k now m b).turned stream (lunOf k)
/-- A dirty segment is written twice, on luns of different channels (R355). -/
def Half.settleSeg (x : Half) (now : Nat) (m : Media) (seg : Nat) : Half :=
  match x.pickPair with
  | none => x
  | some (b1, b2) =>
    let (p, x) := x.programTwice b1 b2 now m (mapTag seg) (fun _ => x.segPage seg) fun _ => x.segData seg
    ({ x with
      dirty := x.dirty.erase seg
      segAt := NMap.put x.segAt seg p }).touchDir seg
/-- The write buffer and every dirty segment go out through the ordinary streams, word lines are closed, and a root is written (R356, R375,
R568). -/
def Half.settle (x : Half) (now : Nat) (m : Media) : Half :=
  let x := (x.buffer.filter (·.done.isEmpty)).foldl (fun x b => x.settlePage now m b) x
  let x := x.dirty.foldl (fun x s => x.settleSeg now m s) x
  (((x.padStream 0 now).padStream 1 now).padStream 2 now).writeRoot now m

/-! ## What a stop loses (R356, R373, R375) -/

/-- Objects lose pages that waited and were not admitted: what they hold ends before the first, and they are not complete; one whose record
waited is damaged. The restore writes their records back (R348, R373; log entry 79). -/
def Half.lose (x : Half) (lost : List HBuf) : Half :=
  { x with
    marked := (x.marked ++ lost.flatMap fun b => if b.system then b.recs else [b.index]).dedup
    objs := NMap.mapV x.objs fun i o =>
      let o := if o.valid && lost.any (fun b => b.system && b.recs.contains i) then { o with damaged := true } else o
      match (lost.filter fun b => !b.system && b.index == i).map fun b => pageIn o.extents b.lpn with
      | [] => o
      | p :: ps =>
        { o with
          data := o.data.take (16384 * ps.foldl min p)
          complete := false } }

/-! ## The power-loss flush (R360, R363, R373) -/

/-- The FLUSH blocks of a half: the last block of each plane. -/
def flushBlocks : List Nat := (List.range 1024).map fun k => 2484 * k + 2483
/-- The first FLUSH block of a live lun that has room for a page in SLC mode, 512 pages: one that the half began with, or one that took
the place of one gone BAD (R360). -/
def Half.flushBlock (x : Half) : Option Nat :=
  (flushBlocks ++ x.blocks.map (·.1)).find? fun b => (x.block b).state == .flush && !x.retired.contains (lunOf b) && decide ((x.block b).nextPage < 512)
/-- A page is programmed with its tag in a FLUSH block; a block counts one cycle when it is first programmed (R354, R363, R373). -/
def Half.flushPage (x : Half) (m : Media) (t : HTag) (page : NPage) (data : Bytes) : Half :=
  match x.flushBlock with
  | none => x
  | some b =>
    let k := x.block b
    let t := { t with
      seq := x.seq
      keyGen := m.gen t.partition }
    { x.setBlock b { k with
        nextPage := k.nextPage + 1
        erases := if k.nextPage = 0 then k.erases + 1 else k.erases } with
      tags := NMap.put x.tags (b * blockPages + k.nextPage) t
      cells := NMap.put x.cells (b * blockPages + k.nextPage) (m.cell t data)
      pages := NMap.put x.pages (b * blockPages + k.nextPage) page
      seq := x.seq + 1
      nandPages := x.nandPages + 1 }
/-- Phases 0 to 3 of the flush in a half: what waits is not admitted, but for what stays in a block reset; the dirty segments and directory
pages, then the buffer, go to FLUSH blocks with their tags (R373). -/
def Half.flush (x : Half) (m : Media) (stays : HBuf → Bool) : Half :=
  let x := { x with queued := x.queued.filter stays }.lose (x.queued.filter fun b => !stays b)
  let x := x.dirty.foldl (fun x s => x.flushPage m (mapTag s) (x.segPage s) (x.segData s)) x
  let x := x.dirtyDir.foldl (fun x i => x.flushPage m (mapTag (dirLpn i)) (x.dirPage i 0) (x.dirData i 0)) x
  let x := x.buffer.foldl (fun x b => x.flushPage m (x.tagOf b) (x.pageOfBuf b) (x.pageData b)) x
  { x with
    flushed := x.flushed ++ x.buffer.map fun b => { b with done := [] }
    buffer := [] }
/-- Phase 4 of the flush in a half: the flush record, written twice: the FLUSH blocks used, the last SEQ of each half, and a CRC-32C
(R373; log entry 20). -/
def Half.flushRecord (x : Half) (m : Media) (seqs : List Nat) : Half :=
  let used := (x.blocks.filter fun e => e.2.state == .flush && e.2.nextPage != 0).map (·.1)
  let body := leBytes 4 used.length ++ used.flatMap (leBytes 4) ++ seqs.flatMap (leBytes 8)
  let data := body ++ leBytes 4 (crc32c body)
  { (x.flushPage m { kind := 7 } .flushRecord data).flushPage m { kind := 7 } .flushRecord data with
    flushRec := true
    flushes := x.flushes + 1 }
/-- The halves that are in service run the flush (R373). -/
def Dev.flushHalves (d : Dev) (stays : HBuf → Bool) : Dev :=
  let halves := NMap.mapV d.halves fun h x => if x.restored then x.flush (d.media h) stays else x
  let seqs := [0, 1].map fun h => (NMap.getD halves h {}).seq - 1
  { d with halves := NMap.mapV halves fun h x => if x.restored then x.flushRecord (d.media h) seqs else x }
/-- A half whose module lost power before its flush record: what was in HBM is lost (R374, R375). -/
def Half.crash (x : Half) : Half :=
  { x with
    queued := []
    buffer := []
    dirty := []
    dirtyDir := [] }
/-- Both halves, where restored, run the flush; its duration is a free value within the limit of R373 (log entry 2). -/
def Dev.flushNow (d : Dev) : Dev :=
  let (v, d) := d.draw
  let ran := d.halves.any fun e => e.2.restored
  let d := d.flushHalves fun _ => false
  { d with pwr := if ran then { d.pwr with flushMs := v % 213 + 1 } else d.pwr }
/-- A half stops cleanly through the power-loss flush: its programs are stopped by its temperature (R370, R568; log entry 82). -/
def Half.tooHot (x : Half) : Bool := x.restored && x.thermal == 2
/-- Clean stop: buffer and map of both halves go out through the ordinary streams, and a clean root is written; a half at STOP_C programs
nothing but FLUSH blocks (R370, R568; log entry 82). -/
def Dev.cleanStop (d : Dev) : Dev :=
  let halves := NMap.mapV d.halves fun h x =>
    if !x.restored then x
    else if x.tooHot then x.flush (d.media h) fun _ => false
    else ({ x with queued := [] }.lose x.queued).settle d.now (d.media h)
  let seqs := [0, 1].map fun h => (NMap.getD halves h {}).seq - 1
  { d with
    halves := NMap.mapV halves fun h x => if x.tooHot then { x.flushRecord (d.media h) seqs with flushes := x.flushes } else x
    rst := { d.rst with unclean := if d.halves.all fun e => e.2.restored then false else d.rst.unclean } }

/-! ## Device reset (R566 to R570) -/

/-- The counts that HMP_CNT0 and HMP_D_ERR show begin again from 0; the lifetime counts of HEALTH_READ stay (R371, R575). -/
def Half.recount (x : Half) : Half :=
  { x with
    hostAt := x.hostPages
    nandAt := x.nandPages
    uncAt := x.uncorr
    repairAt := x.buddyRepairs
    refreshAt := x.rdRefresh + x.retRefresh }
/-- A half after a device reset: map, objects and durable data stay; what is in HBM, and times counted by TIM_MONO, do not. A block that
was filled before the reset keeps its age, of which the time without a clock is not known (R366, R567; log entry 61). -/
def Half.afterReset (x : Half) (now : Nat) : Half :=
  { x with
    objs := NMap.mapV x.objs fun _ o => { o with reads := 0 }
    blocks := NMap.mapV x.blocks fun _ k => { k with filledAt := k.filledAt - now }
    buffer := []
    queued := []
    rootAt := 0
    unc := []
    scanDue := none
    repairs := []
    restored := false }.recount
/-- Fields whose value comes from the boot store (R498, R567). -/
def bootFields : List Fld :=
  [F.SEC_STATUS_ENROLLED, F.SEC_STATUS_PREV_HELD, F.SEC_SET_ID0_LO, F.SEC_SET_ID1_HI, F.SEC_KEYGEN_CUR, F.SEC_KEYGEN_PREV,
   F.SEC_SVN_MIN_L1, F.SEC_SVN_MIN_L2, F.SEC_ENROL_SEQ, F.SEC_BOOT_COUNT]
/-- The first copy of the option bytes that verifies, else the defaults, and whether neither did (R573). -/
def optionsOf (a b : Bytes) : Bytes × Bool :=
  let ok (o : Bytes) : Bool := o.length == 64 && leAt o 0 2 == 0x4F51 && leAt o 60 4 == leAt (leBytes 4 (crc32c (o.take 60))) 0 4
  if ok a then (a, false) else if ok b then (b, false) else (optDefault, true)
/-- The records of the boot store begin the new log (R592; log entry 62). -/
def renumber (rs : List FaultRec) : List FaultRec := rs.zipIdx.map fun e => { e.1 with index := e.2 }
/-- Kind of start-up: COLD as the option bytes name the self-test, or WARM (R568, R571). -/
def Dev.startOf (d : Dev) (warm : Bool) : Nat :=
  if warm then 2 else bits (leAt (optionsOf d.rst.optA d.rst.optB).1 7 1) 0 1
/-- A device reset with its cause: R567 says what it clears and keeps; start-up begins at step 1. -/
def Dev.deviceReset (d : Dev) (m : Memory) (cause detail : Nat) (warm test : Bool) : Dev :=
  let sync := d.g F.TIM_STATUS_SYNC
  let wall := if sync ≤ 1 then 0 else d.wall
  let log := renumber d.flt.bootLog
  let n := log.length
  let count := (d.g F.SEC_BOOT_COUNT + 1) % 2 ^ 64
  let mkgen (f : Dev) (p : Nat) : Dev := f.si F.SEC_MKGEN_GEN p (d.gi F.SEC_MKGEN_GEN p)
  let e : Dev :=
    { prk := { mirrors := NMap.mapV d.prk.mirrors fun _ x => { x with sealing := none } }
      halves := NMap.mapV d.halves fun _ x => x.afterReset d.now
      sec :=
        { authority := d.sec.authority
          setKey := d.sec.setKey
          prevKey := d.sec.prevKey }
      ckp :=
        { valid := d.ckp.valid
          lastGen := d.ckp.lastGen
          shards := d.ckp.shards
          mirrors := d.ckp.mirrors }
      flt :=
        { records := log
          bootLog := log
          retired := d.flt.retired }
      rst :=
        { startKind := d.startOf warm
          unclean := d.rst.unclean
          wantTest := test
          optA := d.rst.optA
          optB := d.rst.optB
          images := d.rst.images
          held := d.rst.held
          pinHeld := d.rst.pinHeld }
      pwr := { d.pwr with
        clamped := false
        loopMhz := 1800
        clampMhz := 1800 }
      out := d.out
      free := d.free }
  let e := bootFields.foldl (fun (f : Dev) x => f.s x (d.g x)) e
  let e := (List.range 32).foldl mkgen e
  let e := ((e.s F.SEC_BOOT_COUNT count).s F.RST_CAUSE_CAUSE cause).s F.RST_CAUSE_DETAIL detail
  let e := (e.s F.RST_CAUSE_BOOT count).s F.RST_CAUSE_TIME_NS wall
  let e := if n = 0 then e else (e.s F.FLT_STATUS_RECORDS n).s F.FLT_STATUS_LAST (n - 1)
  e.zero m fun _ => true

end Sys2Proof.Machine
end

