-- ==== Sys2Proof/Machine/Units.lean ====
section
/-! DEFINITION. Faults of units: thresholds, retirement, saved tasks that are lost, transient and fatal faults, watchdogs (R77, R232, R276,
R579 to R590). -/
namespace Sys2Proof.Machine
open Sys2Proof

/-! ## Fatal faults (R566, R588) -/

/-- A fatal fault: a record with ACTION 4, the flush of R373, and a device reset with cause FATAL (R566, R588). -/
def Dev.fatal (d : Dev) (m : Memory) (kind idx loc : Nat) : Dev :=
  let d := d.faultRecord
    { cls := 4
      action := 4
      kind := kind
      unit := idx
      loc := loc
      attempts := d.g F.FLT_CTL_RETRIES + 1
      status := Status.fault.code }
  d.flushNow.deviceReset m 6 kind false false

/-! ## Turns and saved tasks that a fault ends (R96, R276, R584) -/

/-- A turn ends with FAULT_UNIT: at the boundary while it is in a row, else at once (R96, R584). -/
def Dev.failTurn (d : Dev) (slot : Nat) : Dev :=
  match d.turnCtx slot with
  | none => d
  | some i =>
    let x := d.sess slot
    let d := (d.latch i 0x20).dropPushes slot
    if !x.inRow then d.finishTurn slot i x.d.lastRow
    else if x.voided.isSome then d
    else (((d.updSess slot fun x => { x with voided := some 0x20 }).nullWork slot .unitFault).voidRanges slot).flushAll x.d.group
/-- Saved tasks of an engine are lost: their sessions' tiles are answered UNIT_FAULT and their turns end, their skipped steps count as
having signalled, and their groups' next stakes become ready on the engine (R157, R231, R271, R276). -/
def Dev.loseSaved (d : Dev) (e : Nat) (hit : Task → Bool) : Dev :=
  let x := d.engine e
  let lost := (x.saved ++ x.saving.toList ++ x.restoring.toList).filter hit
  if lost.isEmpty then d
  else
    let d := d.setEngine e { x with
      saved := x.saved.filter fun t => !hit t
      saving := x.saving.filter fun t => !hit t
      restoring := x.restoring.filter fun t => !hit t }
    (lost.foldl (fun (d : Dev) t =>
      let ss := (d.engSessions t.group e t.stake).filter fun s => (d.sess s).inRow
      match d.weaveOf t.group with
      | none => d
      | some v =>
        let d := (ss.foldl (fun (d : Dev) s => d.failTurn s) d).signalRest v e t
        if t.stake + 1 < v.stakes ∧ d.phase t.group = 1 then d.readyTask t.group e (t.stake + 1) else d) d).dispatch e
/-- The save areas in which a local offset lies: engine and level. A save set's frames are dealt to the engine slots in their order, 33 to
each (R277; log entry 78). -/
def Dev.areasAt (d : Dev) (loc : Nat) : List (Nat × Nat) :=
  d.att.saveSets.filterMap fun s =>
    (s.2.findIdx? fun id => let a := d.frameAddr id; decide (a ≤ loc ∧ loc < a + classBytes 15)).map fun j =>
      (32 * (s.1 / 8) + j / 33, s.1 % 8)
/-- Sessions of the tasks that are saved where a local offset lies (R276). -/
def Dev.struck (d : Dev) (loc : Nat) : List Nat :=
  (d.areasAt loc).flatMap fun a => let x := d.engine a.1
    ((x.saved ++ x.saving.toList ++ x.restoring.toList).filter fun t => t.level == some a.2).flatMap fun t =>
      d.engSessions t.group a.1 t.stake
/-- An uncorrected error strikes the save areas at a local offset (R276). -/
def Dev.strikeSaves (d : Dev) (loc : Nat) : Dev :=
  (d.areasAt loc).foldl (fun (d : Dev) a => d.loseSaved a.1 fun t => t.level == some a.2) d

/-! ## Retirement (R239, R584, R586, R589) -/

/-- Row of the block that holds a unit (R574, R583). -/
def unitBlock (kind : Nat) : Nat :=
  match kind with
  | 1 => 2 | 2 => 1 | 3 => 5 | 4 => 6 | 6 => 8 | 7 => 3 | 8 => 4 | 9 => 1 | 10 => 10 | _ => 12
/-- A unit that the block has (R583). -/
def unitFitted (kind idx : Nat) : Bool :=
  match kind with
  | 11 => idx < 8 | 12 => idx == 0 | 13 => idx == 0 | 14 => idx == 0
  | _ => idx < unitCount kind
/-- A register of retired units gains one. -/
def Dev.setRet (d : Dev) (f : Fld) (i : Nat) : Dev := d.s f (setBit (d.g f) i true)
/-- Live units of a kind among those with indices `[lo, lo + n)`. -/
def Dev.liveUnits (d : Dev) (kind lo n : Nat) : Nat := ((List.range n).filter fun i => !d.unitRetired kind (lo + i)).length
/-- A unit may not be retired: the last live MOVE engine of its die, and the last live SEAL engine (R584). -/
def Dev.lastLive (d : Dev) (kind idx : Nat) : Bool :=
  (kind == 9 && d.liveUnits 9 (idx / 16 * 16) 16 ≤ 1) || (kind == 10 && d.liveUnits 10 0 4 ≤ 1)
/-- A fabric port takes what its lanes allow, and its paths retire if that is nothing (R384, R410). -/
def Dev.fitPort (d : Dev) (p : Nat) : Dev :=
  if d.gi F.HLF_PORT_LINK p = 0 then d
  else
    let d := (d.si F.HLF_PORT_LINK p (linkOf (d.lanesOk p))).si F.HLF_PORT_LANES_OK p (d.lanesOk p)
    if d.gi F.HLF_PORT_LINK p = 0 then d.portDown p else d
/-- Blocks of fixed regions, frame records and pool that lie in set `j` of a die and in no set retired before (R111, R586,
R624). -/
def Dev.fixedInSet (d : Dev) (die j : Nat) : Nat :=
  let base := d.gi F.PGS_REGION_BASE die
  let bins := d.gi F.PGS_REGION_BINS die
  if bitOf (d.retSets die) j then 0
  else blocksOfSet 0 base j + blocksOfSet (base + d.pageBins die) (bins - d.pageBins die) j
/-- `n` empty bins of a die are taken for fixed regions (R586); none if too few are empty. -/
def Dev.takeBins (d : Dev) (die : Nat) : Nat → Option Dev
  | 0 => some d
  | n + 1 => match d.lowestEmpty die (d.pageBins die) 0 with
    | none => none
    | some b => Dev.takeBins { d with pgs := { d.pgs with bins := NMap.put d.pgs.bins b fixedClass } } die n
/-- A set of a die is retired: fixed regions in it are relocated ahead of any frame, then frames leave it as their sessions
allow; none if a fixed region cannot be relocated (R586). -/
def Dev.retireSet (d : Dev) (m : Memory) (die j : Nat) : Option Dev :=
  if bitOf (d.retSets die) j then some d
  else
    let need := d.fixedInSet die j
    let d := d.setRet (if die = 0 then F.FLT_RET_SET_W_SETS else F.FLT_RET_SET_E_SETS) j
    (d.takeBins die need).map fun d => d.evacuate m 64 0
/-- A unit leaves service in the registers of its kind (R584); none where R586 forbids it. -/
def Dev.takeOut (d : Dev) (m : Memory) (kind idx : Nat) : Option Dev :=
  let live (d : Dev) (f : Fld) : Dev := d.s f (d.g f - 1)
  match kind with
  | 1 => some (live (((d.loseSaved idx fun _ => true).setRet F.ATT_RETIRED_MASK idx).si F.ATT_ENG_STATUS_STATE idx 3)
      F.ATT_STATUS_LIVE)
  | 2 => d.retireSet m (idx / 512) (idx % 64)
  | 4 => some ((d.setRet F.FLT_RET_LANES_LANES idx).fitPort (idx / 4))
  | 6 => some (live (d.setRet F.FLT_RET_ENG_SIFT idx) F.SFT_STATUS_LIVE)
  | 7 => some (live (d.setRet F.FLT_RET_ENG_TOKEN idx) F.TOK_STATUS_LIVE)
  | 8 => some (live (d.setRet F.FLT_RET_ENG_MASK idx) F.GRM_STATUS_LIVE)
  | 9 => some (d.setRet F.FLT_RET_ENG_MOVE idx)
  | 10 => some (live (d.setRet F.FLT_RET_MISC_SEAL idx) F.SEC_STATUS_LIVE_SEAL)
  | _ => some d
/-- A unit is retired (R584, R589); a retirement that is forbidden is fatal (R588). -/
def Dev.retireNow (d : Dev) (m : Memory) (kind idx : Nat) : Dev :=
  if d.unitRetired kind idx then d
  else if kind = 3 then d.retireLun (idx / 256) (idx % 256) true
  else if d.lastLive kind idx then d.fatal m kind idx 0
  else match d.takeOut m kind idx with
    | some e => e.noteRetired kind idx
    | none => d.fatal m kind idx 0
/-- A retirement falls due: inside a block under reset it waits for the end of the reset (R578). -/
def Dev.retireUnit (d : Dev) (m : Memory) (kind idx : Nat) : Dev :=
  if d.rst.blocks.any fun b => b.row == unitBlock kind then
    let key := unitKey kind idx
    if d.flt.pendRetire.contains key then d else { d with flt := { d.flt with pendRetire := d.flt.pendRetire ++ [key] } }
  else d.retireNow m kind idx
/-- Retirements that waited for the reset of a block are applied (R578). -/
def Dev.applyRetire (d : Dev) (m : Memory) (row : Nat) : Dev :=
  let mine (k : Nat) : Bool := unitBlock (k / 65536) == row
  let due := d.flt.pendRetire.filter mine
  due.foldl (fun (d : Dev) k => d.retireNow m (k / 65536) (k % 65536))
    { d with flt := { d.flt with pendRetire := d.flt.pendRetire.filter fun k => !mine k } }

/-! ## Thresholds (R581, R582) -/

/-- Half of a threshold, rounded up, has been reached. -/
def halfway (n limit : Nat) : Bool := ceilDiv limit 2 ≤ n
/-- Counters of a unit stand at or above half a threshold. -/
def Dev.unitWarm (d : Dev) (kind idx : Nat) : Bool :=
  halfway (d.corrWin kind idx) (d.gi F.FLT_THRESH_CORR kind) || halfway (d.transWin kind idx) (d.gi F.FLT_THRESH_TRANS kind)
/-- After an event of a unit: a first crossing of half a threshold is recorded and warned of, a threshold reached retires the
unit (R547, R581). -/
def Dev.checkUnit (d : Dev) (m : Memory) (kind idx cls : Nat) : Dev :=
  if !threshKinds.contains kind || d.unitRetired kind idx then d
  else
    let key := unitKey kind idx
    let d := if d.unitWarm kind idx && !d.flt.warned.contains key then
        ({ d with flt := { d.flt with warned := d.flt.warned ++ [key] } }.faultRecord
          { cls := cls
            kind := kind
            unit := idx
            attempts := 1 }).ckptWarn 4
      else d
    if d.gi F.FLT_THRESH_CORR kind ≤ d.corrWin kind idx ∨ d.gi F.FLT_THRESH_TRANS kind ≤ d.transWin kind idx then
      d.retireUnit m kind idx
    else d
/-- CORRECTED_ERROR: `n` events that ECC, LDPC or FEC corrected are counted, those of a NAND die as corrected codewords of its half too, and
nothing else comes of them (R371, R579). -/
def execCorrectedError (kind idx n : Nat) : State → Host.Outcome State Fault Refusal :=
  onUnit (unitFitted kind idx) fun m d =>
    if unitCount kind = 0 then d
    else
      let d := if kind = 1 then d.sati F.ATT_ENG_FAULT_CORRECTED idx n
        else if kind = 3 then d.updHalf (idx / 256) fun x => { x with corrected := x.corrected + n }
        else d
      (d.countUnit kind idx n 0).checkUnit m kind idx 0
/-- FAULT_WINDOW: an hour ends, and the oldest bucket of every unit leaves the window (R581). -/
def execFaultWindow : State → Host.Outcome State Fault Refusal :=
  onDev fun _ d =>
    let t := d.flt.hourAt + 3600 * 1000000000
    let d := d.reach t
    let keep := d.g F.FLT_CTL_WINDOW_H
    let buckets := (NMap.mapV d.flt.buckets fun _ bs => ({} :: bs).take keep).filter fun e =>
      e.2.any fun b => b.corr != 0 || b.trans != 0
    let d := { d with flt := { d.flt with hourAt := t, buckets := buckets } }
    { d with flt := { d.flt with warned := d.flt.warned.filter fun k => d.unitWarm (k / 65536) (k % 65536) } }

/-! ## Attention engines (R232, R585) -/

/-- A row is voided for a session by a unit fault; in the last of RETRIES + 1 such rows running its turn ends with FAULT_UNIT
and its tiles of the row get UNIT_FAULT (R585). -/
def Dev.unitVoid (d : Dev) (slot : Nat) : Dev :=
  let x := d.sess slot
  if !x.inRow || x.voided.isSome then d
  else
    let runs := NMap.getD d.flt.voidRuns slot 0 / 2 + 1
    let d := { d with flt := { d.flt with voidRuns := NMap.put d.flt.voidRuns slot (2 * runs + 1) } }
    let last := d.g F.FLT_CTL_RETRIES + 1 ≤ runs
    let d := match d.turnCtx slot with
      | some i => if last then d.latch i 0x20 else d
      | none => d
    (((d.updSess slot fun x => { x with voided := some (if last then 0x20 else 0x11) }).nullWork slot
      (if last then .unitFault else .voided)).voidRanges slot).flushAll x.d.group
/-- An engine fault: the engine resets itself and drops its task, whose skipped steps count as having signalled; the sessions with spans
in the task have the row voided, and the group's next stake becomes ready on the engine as after a completed task (R231, R271, R585). -/
def Dev.engineFault (d : Dev) (m : Memory) (e loc : Nat) (stalled : Bool) : Dev :=
  let x := d.engine e
  let task := (x.running.orElse fun _ => x.saving).orElse fun _ => x.restoring
  let hit := match task with
    | some t => (d.engSessions t.group e t.stake).filter fun s => (d.sess s).inRow && (d.sess s).voided.isNone
    | none => []
  let rest := task.bind fun t => (d.weaveOf t.group).map fun v => (v, t)
  let d := hit.foldl (fun (d : Dev) s => d.unitVoid s) d
  let d := (match rest with
    | some (v, t) => d.signalRest v e t
    | none => d).setEngine e
    { ready := x.ready
      saved := x.saved }
  let d := if stalled then (if d.gi F.ATT_ENG_STATUS_STATE e = 3 then d else d.si F.ATT_ENG_STATUS_STATE e 2)
    else d.sati F.ATT_ENG_FAULT_UNCORRECTED e 1
  let d := d.countUnit 1 e 0 1
  let d := d.faultRecord
    { cls := 1
      action := 1
      kind := 1
      unit := e
      attempts := 1
      loc := loc
      session := ((hit.head?).map fun s => (d.sess s).d.sid).getD 0
      affected := hit.length
      row := (task.map fun t => d.row t.group).getD 0 }
  let d := d.checkUnit m 1 e 1
  let d := match rest with
    | some (v, t) => if t.stake + 1 < v.stakes ∧ d.phase t.group = 1 then d.readyTask t.group e (t.stake + 1) else d
    | none => d
  d.dispatch e
/-- ENGINE_FAULT: an uncorrected scratchpad or array error of an engine (R585). -/
def execEngineFault (e loc : Nat) : State → Host.Outcome State Fault Refusal :=
  onUnit (e < 64) fun m d => d.engineFault m e loc false
/-- The stall of an engine counts: it has a step of its stake to issue, and does not wait for a tile from the fabric (R232);
none counts while it saves, restores or holds a task saved (R274). No step here
waits for its stake to close: EMIT holds the last tile of a stake back, and the INGEST credits return with the close (R156, R230; log
entry 35). -/
def Dev.stalls (d : Dev) (e : Nat) : Bool :=
  let x := d.engine e
  match if x.saved.isEmpty && x.saving.isNone && x.restoring.isNone then x.running else none with
  | none => false
  | some t => match d.weaveOf t.group with
    | none => false
    | some v => match d.firstInst v e t with
      | none => false
      | some _ => (d.tileWait v e t).isNone
/-- STALL_WATCHDOG: TIM_WDOG has expired for an engine: it is marked stalled, and its stall is a transient fault (R232,
R585). -/
def execStallWatchdog (e : Nat) : State → Host.Outcome State Fault Refusal :=
  onUnit (e < 64) fun m d =>
    if d.stalls e then (d.sati F.ATT_ENG_STATUS_STALLS e 1).engineFault m e 0 true else d

/-! ## Transient and uncured faults of the other units (R580, R584, R586, R588) -/

/-- A frame of a session cannot be read: the session goes to HISTORY at the next boundary, with its history read from the
hamper; its turn ends with FAULT_UNIT, a revive fails (R586). -/
def Dev.dataLost (d : Dev) (m : Memory) (slot : Nat) : Dev :=
  let d := if (d.sess slot).d.state = .reviving then d.reviveFailed slot 1 else d
  let x := (d.sess slot).d
  if (x.state = .open ∨ x.state = .waiting ∨ x.state = .running ∨ x.state = .parking) ∧ !(d.sess slot).pt.isEmpty then
    let d := (d.abandonPark slot 4).failTurn slot
    match d.beginPark m slot 1 {} x.partition 0xFFFF 0 with
    | some d => d
    | none => ((d.updSess slot fun x => { x with pendHistory := true }).setPark slot
        { target := 1
          fn := x.partition
          eq := 0xFFFF }).checkPark slot
  else d
/-- Sessions that reference the frame at a local offset. -/
def Dev.sharers (d : Dev) (loc : Nat) : List Nat :=
  (d.ses.tab.filter fun e => e.2.pt.any fun p =>
    let a := d.frameAddr p.2.pageId
    decide (a ≤ loc ∧ loc < a + classBytes p.2.cls)).map (·.1)
/-- A hamper write fault that retries have not cured abandons the parks and the moves to HISTORY of its half that wait for their data to be
durable (R332, R336). -/
def Dev.writeFault (d : Dev) (h : Nat) : Dev :=
  (d.prk.parks.filter fun e => slotDie e.1 == h && e.2.target ≤ 1 && !e.2.durable).foldl (fun (d : Dev) e => d.abandonPark e.1 4) d
/-- An uncured fault of a NAND die: at a programmed page, the page is uncorrectable (R364); else the die has stopped answering, which also
fails the writes under way, and is retired, with every die of its channel where the fault names no page at all (R332, R368; log entry
82). -/
def Dev.dieFault (d : Dev) (m : Memory) (idx loc : Nat) : Dev :=
  let h := idx / 256
  let lun := idx % 256
  if loc / blockPages / lunBlocks = lun ∧ NMap.has (d.half h).tags loc then d.badPage h loc (loc / blockPages)
  else
    let luns := if loc = 0xFFFFFFFF then (List.range 16).map (16 * (lun / 16) + ·) else [lun]
    luns.foldl (fun (d : Dev) l => d.retireUnit m 3 (256 * h + l)) (d.writeFault h)
/-- What an uncured fault of a unit ends: data of a pseudo-channel is lost, with the tasks saved there, a NAND page or die fails, a lane goes
down, the command of an engine of kinds 6 to 10 ends with FAULT (R584). -/
def Dev.uncured (d : Dev) (m : Memory) (kind idx loc fn ring : Nat) : Dev :=
  match kind with
  | 2 => (d.sharers loc).foldl (fun (d : Dev) s => d.dataLost m s) (d.strikeSaves loc)
  | 3 => d.dieFault m idx loc
  | 4 => { d with flt := { d.flt with lanesDown := setBit d.flt.lanesDown idx true } }.fitPort (idx / 4)
  | 6 | 7 | 8 | 9 | 10 => (d.faultRes 2).answer fn ring
  | _ => d
/-- TRANSIENT_FAULT: an operation of a unit has failed `failed` times; up to RETRIES failures are cured by the next attempt,
RETRIES + 1 are an uncured fault (R579, R580). The event names where, and the command that the unit served. An attention
engine's is handled under R585; one of a unit that cannot be retired is fatal if uncured (R588). -/
def execTransientFault (kind idx failed loc fn ring : Nat) : State → Host.Outcome State Fault Refusal :=
  onUnit (unitFitted kind idx && fn < 32) fun m d =>
    let retries := d.g F.FLT_CTL_RETRIES
    let n := min failed (retries + 1)
    if n = 0 then d
    else if kind = 1 then d.engineFault m idx loc false
    else
      let cured := decide (n ≤ retries)
      if !cured && 11 ≤ kind then d.fatal m kind idx loc
      else
        let hit := if kind = 2 ∧ !cured then d.sharers loc ++ d.struck loc else []
        let served := 6 ≤ kind && kind ≤ 10 && (d.ring fn ring).busy.isSome
        let d := if unitCount kind = 0 then d else d.countUnit kind idx 0 n
        let d := d.faultRecord
          { cls := if cured then 1 else 2
            action := if cured then 1 else 2
            kind := kind
            unit := idx
            attempts := min 16 (if cured then n + 1 else n)
            loc := loc
            session := ((hit.head?).map fun s => (d.sess s).d.sid).getD 0
            affected := if cured then 0 else hit.length + b2n served
            status := if cured then 0 else Status.fault.code }
        (if cured then d else d.uncured m kind idx loc fn ring).checkUnit m kind idx 1
/-- CORE_WATCHDOG: a control core's watchdog expires: the commands that it held complete with FAULT, and its work resumes; one
that expires RETRIES + 1 times within the window causes a device reset (R590). -/
def execCoreWatchdog (core : Nat) (held : List (Nat × Nat)) : State → Host.Outcome State Fault Refusal :=
  onUnit (core < 8) fun m d =>
    let busy := held.dedup.filter fun e => (d.ring e.1 e.2).busy.isSome
    let d := busy.foldl (fun (d : Dev) e => (d.faultRes 2).answer e.1 e.2) d
    let d := d.countUnit 11 core 0 1
    let last := decide (d.g F.FLT_CTL_RETRIES + 1 ≤ d.transWin 11 core)
    let d := d.faultRecord
      { cls := if last then 4 else if busy.isEmpty then 1 else 2
        action := if last then 4 else if busy.isEmpty then 1 else 2
        kind := 11
        unit := core
        attempts := 1
        affected := busy.length
        status := if busy.isEmpty then 0 else Status.fault.code }
    if last then d.flushNow.deviceReset m 5 core false false else d

/-! ## Lost descriptors (R77, R587) -/

/-- A descriptor is lost: its slot is quarantined, its requests end with FAULT_UNIT, a park, a revive, a rebuild and an offer among them
(R77; log entry 40), and the buddy is asked for the newest mirror of the session; a lost guest is dropped (R587). -/
def Dev.loseDesc (d : Dev) (slot : Nat) : Dev :=
  let x := d.sess slot
  let guest := sidHome x.d.sid != d.self
  let d := d.faultRecord
    { cls := 2
      action := 5
      kind := 15
      unit := slot
      attempts := 2
      loc := slot
      session := x.d.sid
      affected := 1
      status := Status.fault.code }
  let q := if d.flt.quarantined.contains slot then d.flt.quarantined else d.flt.quarantined ++ [slot]
  let d := { d with flt := { d.flt with quarantined := q } }
  let d := d.abandonPark slot 4
  let d := match d.revive slot with
    | some r =>
      let c := d.ctx r.ctx
      d.post c.fn c.eq { typ := 0x05, subject := x.d.sid, status := Status.fault.code, cause := 2, hseq := c.hseq,
                         args := [x.d.tier.code, x.d.state.code, x.d.lastRow] }
    | none => d
  let d := (((d.endOut x.d.sid).abandonTier slot).failTurn slot).updSess slot fun x => { x with lost := true }
  if guest then
    let d := match d.turnCtx slot with
      | some i => (d.nullWork slot .staleGen).finishTurn slot i x.d.lastRow
      | none => d
    let d := (d.dropTable slot).releaseArea slot
    { d with
      ses := { d.ses with tab := NMap.del d.ses.tab slot }
      tok := { d.tok with areas := NMap.del d.tok.areas slot, tails := NMap.del d.tok.tails slot }
      own := { d.own with guests := NMap.del d.own.guests x.d.sid, ownLeases := NMap.del d.own.ownLeases slot } }
  else
    let d := { d with flt := { d.flt with asked := d.flt.asked ++ [slot] } }
    d.sendBulk d.myBuddy 5 (mirrorMsg 9 0 x.d.partition 0 0 x.d.sid 0 0 0 [])
/-- DESCRIPTOR_FETCH: a fetch from HBM completes; one that fails its CHECK is retried once, and a second failure loses the
descriptor (R77). -/
def execDescriptorFetch (slot : Nat) (ok : Bool) : State → Host.Outcome State Fault Refusal :=
  onUnit (slot < 4194304) fun _ d =>
    if !NMap.has d.ses.tab slot || (d.sess slot).lost || (d.lines (slotDie slot)).any fun l => l.slot == slot then d
    else
      let tried := d.ses.fetches.any fun f => f.slot == slot
      let rest := d.ses.fetches.filter fun f => f.slot != slot
      if ok then { d with ses := { d.ses with fetches := rest } }.cacheIn slot false
      else if !tried then { d with ses := { d.ses with fetches := rest ++ [{ slot := slot, tries := 1 }] } }
      else { d with ses := { d.ses with fetches := rest } }.loseDesc slot
/-- DESC_REPLY: the buddy answers GET_DESC. With a descriptor, the session is reinstated in PARKED when the mirror holds a
complete image and in HISTORY otherwise, at OWNER_EPOCH + 1; without one nothing more is done, nor for a session that has been closed
meanwhile (R29, R31, R335, R587). -/
def execDescReply (src sid status : Nat) (body : Bytes) : State → Host.Outcome State Fault Refusal :=
  onDev fun _ d => d.onHall src 5 sid fun d =>
    let slot := sidSlot sid
    if !d.flt.asked.contains slot || sidHome sid != d.self || src != d.myBuddy then d
    else
      let d := { d with flt := { d.flt with asked := d.flt.asked.filter (· != slot) } }
      if status ≠ 0 ∨ body.length ≠ 256 ∨ (d.sess slot).d.state = .closed then d
      else
        let y := Desc.ofBytes body
        let old := d.sess slot
        let parked := y.imageValid && y.mirrorValid
        let d := if y.imageValid && !parked then d.askRelease y.imageHandle else d
        let d := if NMap.has d.ses.tab slot then (d.dropTable slot).releaseArea slot else d
        let ends := { y with
          state := if parked then SState.parked else SState.history
          tier := if parked then Tier.parked else Tier.history
          committed := if parked then y.committed else 0
          histLen := y.histDurable
          histAddr := 0
          ptRoot := 0
          grmState := 0
          imageValid := parked
          imageMx4 := parked && y.imageMx4
          mirrorValid := parked
          imageHandle := if parked then y.imageHandle else 0
          ctx := 0
          ctxValid := false
          turnQueued := false
          ownerEpoch := y.ownerEpoch + 1
          ownerCtrl := d.self }
        let d := d.setSess slot { d := ends, hist := old.hist.take y.histDurable, mirrored := true }
        d.postBoth y.partition { typ := 0x1D, subject := y.sid, args := [y.ownerEpoch + 1, d.self] }

end Sys2Proof.Machine
end

