-- ==== Sys2Proof/Machine/Blocks.lean ====
section
/-! DEFINITION. Block reset: the drain, the work that fails, the registers that return to their reset value (R13, R16, R574 to
R578). -/
namespace Sys2Proof.Machine
open Sys2Proof

/-! ## Registers of a block (R16, R575) -/

/-- Status, counters and state that only the controller sets: fields of class C that a block reset returns to their reset value
(R575). Those that a command sets, that name retired units, or that describe a structure that a block reset leaves untouched
are not among them. -/
def volatileC : List Fld :=
  [F.TIM_STATUS_SYNC, F.TIM_STATUS_PPS_OK, F.TIM_STATUS_OFFSET_NS, F.TIM_WALL_NS, F.TIM_ROW_PHASE, F.TIM_ROW_VOIDS,
   F.TIM_STAKE_CLOSED, F.TIM_STAKE_ANY_CLOSED, F.TIM_STAKE_LAGGING, F.TIM_GRP_CNT_STALE_DB, F.TIM_GRP_CNT_BAD_DB,
   F.TIM_GRP_CNT_STAKE_TO, F.TIM_GRP_CNT_VOIDED] ++
  [F.PGS_CNT_DEFER, F.PGS_CNT_HELD, F.PGS_CNT_COW, F.PGS_CNT_MOVES] ++
  [F.ATT_CNT0_TILES_IN, F.ATT_CNT0_TILES_OUT, F.ATT_CNT1_NULL, F.ATT_CNT1_DISCARD, F.ATT_CNT1_DUP, F.ATT_CNT1_LATE,
   F.ATT_LOAD_ARRAY_BUSY, F.ATT_LOAD_ROW_CC, F.ATT_ENG_STATUS_STATE, F.ATT_ENG_STATUS_WEAVE_SLOT, F.ATT_ENG_STATUS_STALLS,
   F.ATT_ENG_FAULT_CORRECTED, F.ATT_ENG_FAULT_UNCORRECTED, F.ATT_WV_STATUS_PORT_FB, F.ATT_PREEMPT_CNT_CHEAP,
   F.ATT_PREEMPT_CNT_FULL, F.ATT_PREEMPT_CNT_YIELD, F.ATT_PREEMPT_CNT_RESTORE, F.ATT_GRP_PCNT_STALLED, F.ATT_GRP_PCNT_DUP,
   F.ATT_GRP_PCNT_REJECTED] ++
  [F.TOK_CACHE_HIT, F.TOK_CACHE_MISS, F.TOK_CNT0_DETOK, F.TOK_CNT0_PROMPT_KIB, F.TOK_CNT1_STOPS, F.TOK_CNT1_REJECTED,
   F.TOK_CNT1_STRAY, F.TOK_CNT1_TEXT_OVF, F.GRM_CNT0_DEAD_END, F.GRM_CNT0_ROLLBACK, F.GRM_CNT0_FORCED, F.GRM_CNT0_OUT_OF_MASK,
   F.GRM_CNT1_MASKS, F.GRM_CNT1_FRESH, F.GRM_CNT1_CACHE_MISS] ++
  [F.PRK_FAB_RHO_W, F.PRK_FAB_RHO_E, F.PRK_CNT0_PARKS, F.PRK_CNT0_HISTORY, F.PRK_CNT0_REVIVES, F.PRK_CNT0_REBUILDS,
   F.PRK_CNT1_OVERRIDDEN, F.PRK_CNT1_ABANDONED, F.PRK_CNT1_MIRROR_FAIL, F.PRK_CNT1_REVIVE_FAIL, F.HMP_STATUS_STATE_W,
   F.HMP_STATUS_STATE_E, F.HMP_STATUS_LAST_OFF, F.HMP_FLUSH_LAST_MS, F.HMP_FLUSH_MARGIN_MS, F.HMP_FLUSH_COUNT,
   F.HMP_CNT0_HOST_GIB, F.HMP_CNT0_NAND_GIB] ++
  [F.HLF_CNT0_PKTS_IN, F.HLF_CNT0_PKTS_OUT, F.HLF_CNT1_RETX, F.HLF_CNT1_AUTH_FAIL, F.HLF_CNT1_DUP, F.HLF_CNT1_STALE,
   F.HLF_CNT2_PATHS_RETIRED, F.HLF_CNT2_PAGE_STALL, F.HLF_CNT2_RETRY_AFTER, F.HLF_CNT2_BUSY, F.HLF_CNT3_CONN_FAILED,
   F.HLF_CNT3_STRAY, F.HLF_CNT3_OVERRUN, F.HLF_CNT3_BAD_HDR, F.HLF_PORT_LINK, F.HLF_PORT_LANES_OK, F.HLF_PORT_CNT_RX_DROP,
   F.HLF_PORT_CNT_FCS_ERR, F.RCE_CNT0_PKTS_IN, F.RCE_CNT0_PKTS_OUT, F.RCE_CNT1_DUP, F.RCE_CNT1_NAK_ACCESS, F.RCE_CNT1_NAK_SEQ,
   F.RCE_CNT1_RNR, F.RCE_CNT2_CNP_SENT, F.RCE_CNT2_CNP_RCVD, F.RCE_CNT2_RETRY, F.RCE_CNT2_QP_ERR_EVENTS] ++
  [F.SFT_CNT0_QUERIES, F.SFT_CNT0_INSERTS, F.SFT_CNT1_PARTIAL, F.SFT_CNT1_WIDENED, F.SFT_CNT1_MERGES, F.SFT_CNT1_DELETES,
   F.SFT_CNT2_PROBES, F.SFT_CNT2_SEL_WAITS, F.SHP_CNT_SHAPED, F.SHP_CNT_BUDGET_ENDS, F.SHP_CNT_CHARGED_M, F.ISO_SHED_ST_STAGE,
   F.ISO_SHED_ST_LEVELS, F.ISO_SHED_ST_CHANGES, F.ISO_PART_CNT_QUOTA, F.ISO_PART_CNT_THERMAL, F.ISO_PART_CNT_ISO_GROUP,
   F.SEC_SCRUB_BUSY, F.SEC_SCRUB_MODE, F.SEC_SCRUB_PCT, F.SEC_CNT_ATTESTS, F.SEC_CNT_UNWRAP_FAIL, F.SEC_CNT_ENROL_FAIL,
   F.SEC_CNT_TAG_MISS, F.CKP_CNT_DONE, F.CKP_CNT_FAILED, F.CKP_CNT_AUTO, F.CKP_CNT_SKIPPED, F.CKP_CNT1_RESTORES,
   F.CKP_CNT1_MISMATCH, F.CKP_CNT1_WAITS]
/-- A field of a block that its reset returns to the reset value: the enable field, every S and L field, and the C fields that
only the controller sets (R575). -/
def Fld.clears (f : Fld) (ens : List Fld) : Bool :=
  (match enableOf f.addr with
   | some en => ens.contains en
   | none => false) &&
  (ens.contains f || f.cls == .s || f.cls == .l || volatileC.contains f)
/-- A key is that of an instance of a field. -/
def Fld.owns (f : Fld) (key : Nat) : Bool := key % 64 == f.lo && (f.instAt (key / 64 % 2 ^ 26)).isSome
/-- The registers of the blocks of a row after its reset; retired engines stay retired (R16, R575, R589). -/
def Dev.clearRegs (d : Dev) (row : Nat) : Dev :=
  let ens := rowEnables row
  let fs := F.all.filter fun f => f.clears ens
  let d := { d with
    regs := d.regs.filter fun e => !fs.any fun f => f.owns e.1
    rst := { d.rst with stopping := d.rst.stopping.filter fun a => !ens.any fun en => en.addr == a } }
  let d := ens.foldl (fun (d : Dev) en => d.discardS en) d
  if row ≠ 2 then d
  else ((List.range 64).filter fun e => d.unitRetired 1 e).foldl (fun (d : Dev) e => d.si F.ATT_ENG_STATUS_STATE e 3) d

/-! ## Work in flight (R574) -/

/-- Sessions or commands that a reset of a block would fail now (R576, R591). -/
def Dev.inFlight (d : Dev) (row : Nat) : Nat :=
  match row with
  | 0 => (d.groups.filter fun e => d.phase e.1 != 0 && d.phase e.1 != 4).length
  | 1 => d.pgs.moves.length + d.pgs.copies.length
  | 2 => (d.ses.tab.filter fun e => e.2.inRow && e.2.voided.isNone && d.att.engines.any fun x =>
      (x.2.running.toList ++ x.2.saved).any fun t => t.group == e.2.d.group).length
  | 5 => d.prk.parks.length
  | 6 => (d.hall.conns.filter fun e => e.2.state == .opened && !e.2.msgs.isEmpty).length
  | 7 => (d.hall.qps.filter fun e => !e.2.sent.isEmpty || e.2.reads != 0).length
  | 8 => (d.sft.idx.filter fun e => e.2.merging.isSome).length
  | 10 => b2n d.sec.scrub.isSome
  | 11 => d.ckp.prog.length
  | _ => 0
/-- A group returns to IDLE, keeping configuration and row; the row in progress commits nothing (R574, R625). Turns whose end has been
decided, a cancellation among them, end here: the group has no boundary at which they could (R95, R103, R104). -/
def Dev.idleGroup (d : Dev) (g : Nat) : Dev :=
  let d := (d.inGroup g).foldl (fun (d : Dev) s =>
    if (d.sess s).inRow then
      let d := d.nullWork s .voided
      (if (d.pushOf s).isSome then d.unsign s else d.discardRow s).updSess s fun x => { x with
        inRow := false
        heldOut := false
        voided := none }
    else d) d
  let again (d : Dev) (e : BatchEntry) : Dev := match d.turnCtx e.slot with
    | some i => if e.role = .chunk ∨ e.role = .chunkLast then d.updCtx i fun c => { c with redo := some (e.pos + e.npos) } else d
    | none => d
  let d := (d.group g).batch.foldl again d
  let d := d.dropTasks g
  let d := { d with att := { d.att with work := d.att.work.filter fun w => w.group != g } }
  let d := d.updGroup g fun x =>
    { ctrls := x.ctrls
      leaving := x.leaving
      members := x.members
      cleared := x.cleared
      bound := x.bound
      nextBinding := x.nextBinding
      wins := x.wins
      batches := x.batches }
  let d := (((d.setPhase g .idle).rowRead g).letGo g).applyPend g
  let d := (d.ended g).foldl (fun (d : Dev) e =>
    let c := d.ctx e.2
    let d := if c.kill ∧ !c.keep then d.toBase e.1 e.2 else d
    (d.leaveRows e.1 e.2).finishTurn e.1 e.2 (d.sess e.1).d.lastRow) d
  if !d.noGroupRuns then d
  else
    let d := { d with ses := { d.ses with tab := NMap.mapV d.ses.tab fun _ (x : Session) =>
      if x.d.state = SState.closed then { x with reclaimed := true } else x } }
    (NMap.keys d.ses.tab).foldl (fun (d : Dev) s => d.tryFree s) d.reclaimFrames.reclaimBlocks
/-- The time block's work: groups return to IDLE, synchronisation to FREE_RUN. -/
def Dev.failTime (d : Dev) : Dev :=
  let d := (NMap.keys d.groups).foldl (fun (d : Dev) g => d.idleGroup g) d
  let d := if d.g F.TIM_STATUS_SYNC = 0 then d else d.freeRun
  { d with sync := {} }
/-- The page store's work: moves are abandoned with their copies on the reclaim list, copy-on-write copies too. -/
def Dev.failMoves (d : Dev) : Dev :=
  let drop (d : Dev) (v : Move) : Dev :=
    (d.setFrame v.src { d.frame v.src with moving := false }).setFrame v.dst { d.frame v.dst with
      refcount := 0
      fstate := 3
      moving := false
      ownerValid := false }
  let d := d.pgs.moves.foldl drop d
  { d with pgs := { d.pgs with moves := [], copies := [] } }
/-- The attention block's work: the rows of the sessions are voided under R585; tasks, staging and queues are lost. -/
def Dev.failAttention (d : Dev) : Dev :=
  let d := (NMap.keys d.ses.tab).foldl (fun (d : Dev) s => d.unitVoid s) d
  { d with att := { d.att with
    engines := []
    work := []
    lateQ := []
    heldTiles := []
    emitQ := []
    partials := []
    counters := []
    present := []
    staging := []
    dpath := []
    heldPush := []
    pushes := d.att.pushes.map fun p => { p with waiting := [] } } }
/-- The park and hamper blocks' work: phases 1 to 4 of R373, parks abandoned with cause 4, checkpoints that write failed; what
waits for the buffer stays where it is a session's history (log entry 63). -/
def Dev.failHamper (d : Dev) : Dev :=
  let d := (NMap.keys d.prk.parks).foldl (fun (d : Dev) s => d.abandonPark s 4) d
  let d := d.flushHalves fun b => b.history || b.system
  { d with halves := NMap.mapV d.halves fun _ x =>
    (if x.restored then { x with
      scanDue := none
      restored := false } else x).recount }
/-- The hall block's work: connections enter FAILED (R398); the cause that the event gives is a free value (log entry 2). -/
def Dev.failHall (d : Dev) : Dev :=
  ((d.hall.conns.filter fun e => e.2.state != .closed && e.2.state != .failed).map (·.1)).foldl (fun (d : Dev) i =>
    let (v, d) := d.draw
    d.failConn i (v % 256)) d
/-- The RoCEv2 block's work: queue pairs in RTS enter ERROR (R419); the cause that the event gives is a free value. -/
def Dev.failPairs (d : Dev) : Dev :=
  ((d.hall.qps.filter fun e => e.2.state == .rts).map (·.1)).foldl (fun (d : Dev) i =>
    let (v, d) := d.draw
    d.qpFail i (v % 256)) d
/-- A scrub under way fails; the zeroing of destroyed partitions stays and starts again on re-enable. -/
def Dev.failScrub (d : Dev) : Dev :=
  match d.sec.scrub with
  | none => d
  | some mode => { d with sec := { d.sec with scrub := none } }.post0
      { typ := 0x0F, status := Status.fault.code, args := [mode] }
/-- Checkpoints in progress fail with cause 5 (R559). -/
def Dev.failCkpts (d : Dev) : Dev :=
  (NMap.keys d.ckp.prog).foldl (fun (d : Dev) g =>
    if ((d.prog g).map (·.timekeeper)).getD false then d.failCkpt g 5 else d.dropProg g .fault 5) d
/-- What becomes of the work in flight in a block that is reset (R574). -/
def Dev.failWork (d : Dev) (row : Nat) : Dev :=
  match row with
  | 0 => d.failTime
  | 1 => d.failMoves
  | 2 => d.failAttention
  | 3 => { d with tok := { d.tok with promptBytes := 0 } }
  | 5 => d.failHamper.failCkpts
  | 6 => d.failHall
  | 7 => d.failPairs
  | 8 => { d with sft := { d.sft with idx := NMap.mapV d.sft.idx fun _ x => { x with merging := none, mergeDue := false } } }
  | 9 => { d with iso := { d.iso with slotLent := [], lastBorrower := [] } }
  | 10 => d.failScrub
  | 11 => d.failCkpts
  | _ => d
/-- `e` in place of `d`, but without the replies, records and events that `e` has given (R577). -/
def Dev.quietly (d e : Dev) : Dev :=
  let cmdReg (k : Nat) : Bool := let off := k / 64 % 2 ^ 26; decide (0x400000 ≤ off ∧ off < 0x800000)
  { e with
    regs := (d.regs.filter fun x => cmdReg x.1).foldl (fun m x => NMap.put m x.1 x.2) (e.regs.filter fun x => !cmdReg x.1)
    cmd := d.cmd
    out := d.out }

/-! ## The reset (R575 to R578) -/

/-- RST_BLK.RESETTING follows the resets in progress. -/
def Dev.showResets (d : Dev) : Dev :=
  d.s F.RST_BLK_RESETTING (d.rst.blocks.foldl (fun a b => setBit a b.row true) 0)
/-- The blocks of a row are reset: the work left in them fails and is counted in a record with ACTION 2, their registers return
to the values of R575, and retirements that waited are applied. -/
def Dev.resetBlock (d : Dev) (m : Memory) (row : Nat) (quiet : Bool) : Dev :=
  let n := d.inFlight row
  let e := d.failWork row
  let e := (if quiet then d.quietly e else e).clearRegs row
  let e := if n = 0 then e else e.faultRecord
    { cls := 2
      action := 2
      attempts := 1
      affected := n
      status := Status.fault.code
      block := row }
  e.applyRetire m row
/-- A reset that waited completes, and its command is answered OK (R576). -/
def Dev.finishReset (d : Dev) (m : Memory) (b : BlkReset) : Dev :=
  let d := { d with rst := { d.rst with blocks := d.rst.blocks.filter fun x => x.row != b.row } }
  ((d.resetBlock m b.row false).showResets.res .ok).answer b.fn b.ring
/-- Every block of a row is idle. -/
def Dev.rowIdle (d : Dev) (row : Nat) : Bool := (rowEnables row).all fun en => d.idle en
/-- A BLOCK_RESET that has passed its checks (R576 to R578). -/
def Dev.blockReset (d : Dev) (m : Memory) (h : Hdr) (row : Nat) (asserted : Bool) : Res :=
  if d.bootPhase ≠ 3 then
    if asserted then (d.resetBlock m row true).res .ok else d.res .badParam
  else if d.rst.blocks.any fun b => b.row == row then d.res .busy
  else
    let gs := (NMap.keys d.groups).filter fun g => d.phase g == 2
    if gs.isEmpty ∧ d.rowIdle row then (d.resetBlock m row false).res .ok
    else
      let b : BlkReset := { row := row, fn := h.fn, ring := h.ring, groups := gs }
      let d := { d with rst := { d.rst with blocks := d.rst.blocks ++ [b] } }.showResets
      { dev := if gs.isEmpty then d.startDrain row else d
        later := true }
/-- BLOCK_RESET: in SERVICE it drains and resets one row of the block table; in the other phases it needs IDLE_ASSERTED and
resets at once (R574, R576, R577; log entry 64). -/
def execBlockReset (h : Hdr) (block : Nat) (asserted : Bool) : State → Host.Outcome State Fault Refusal :=
  onDev fun m d => d.command h 0x0901 (fromZero h) (block < 12) false fun d => d.blockReset m h block asserted
/-- BLOCK_IDLE_TIMEOUT: BLK_IDLE_MS has passed, and the block is reset with the work that has not drained (R576). -/
def execBlockIdleTimeout (row : Nat) : State → Host.Outcome State Fault Refusal :=
  onUnit (row < 12) fun m d => match d.rst.blocks.find? fun b => b.row == row && b.groups.isEmpty with
    | none => d
    | some b => (d.reach b.deadline).finishReset m b

end Sys2Proof.Machine
end

