-- ==== Sys2Proof/Machine/Start.lean ====
section
/-! DEFINITION. DEVICE_RESET, the steps of start-up, the hamper restore, the reset pin, firmware update, the fault report and the
health record (R371, R375, R568, R570 to R573, R592, R610, R616). -/
namespace Sys2Proof.Machine
open Sys2Proof

/-! ## DEVICE_RESET (R568) -/

/-- DEVICE_RESET: the reply is written first; then the hamper stops cleanly and the device resets, COLD, WARM or TEST (R566,
R568). -/
def execDeviceReset (h : Hdr) (kind : Nat) : State → Host.Outcome State Fault Refusal :=
  onDev fun m d =>
    let run (d : Dev) : Res := d.needs [] fun d => d.res .ok
    let e := d.command h 0x0902 (fromZero h) (kind ≤ 2) false run
    if d.takes h ∧ d.seqDiff h = 0 ∧ ((d.take h).checked h (fromZero h) (kind ≤ 2) false run).st = .ok then
      e.cleanStop.deviceReset m 4 kind (kind == 1) (kind == 2)
    else e

/-! ## Start-up (R571 to R573) -/

/-- Step of start-up under way. -/
def Dev.bootStep (d : Dev) : Nat := d.g F.RST_STATE_STEP
/-- The option bytes that this start-up uses, and whether both copies failed (R573). -/
def Dev.optionsNow (d : Dev) : Bytes × Bool := optionsOf d.rst.optA d.rst.optB
/-- Check of layer 1 of a slot: 0 passed, 1 signature, 2 SVN below the fused minimum (R491, R572). -/
def Dev.checkL1 (d : Dev) (i : Nat) : Nat :=
  let x : BootImage := NMap.getD d.rst.images i {}
  if !x.sig1 then 1 else if x.svn1 < d.g F.SEC_SVN_MIN_L1 then 2 else 0
/-- Check of layer 2 of a slot: 0 passed, 3 signature, 4 SVN below the recorded minimum (R491, R572). -/
def Dev.checkL2 (d : Dev) (i : Nat) : Nat :=
  let x : BootImage := NMap.getD d.rst.images i {}
  if !x.sig2 then 3 else if x.svn2 < d.g F.SEC_SVN_MIN_L2 then 4 else 0
/-- Start-up stops in phase FAILED (R572). -/
def Dev.bootFails (d : Dev) (detail : Nat) : Dev := (d.s F.RST_STATE_PHASE 4).s F.RST_STATE_DETAIL detail
/-- The other slot is booted (R573). -/
def Dev.fallBack (d : Dev) (i : Nat) : Dev := { d.s F.RST_STATE_SLOT i with rst := { d.rst with fellBack := true } }
/-- Start-up goes on to the next step. -/
def Dev.nextStep (d : Dev) : Dev := d.s F.RST_STATE_STEP (d.bootStep + 1)
/-- Step 1: layer 0 checks layer 1 of the slot that the option bytes choose, else of the other (R491, R573). -/
def Dev.boot1 (d : Dev) : Dev :=
  let b := leAt d.optionsNow.1 3 1
  let c := d.checkL1 (bits b 0 1)
  if c = 0 then (d.s F.RST_STATE_SLOT (bits b 0 1)).nextStep
  else if bitOf b 1 ∧ d.checkL1 (1 - bits b 0 1) = 0 then (d.fallBack (1 - bits b 0 1)).nextStep
  else d.bootFails c
/-- The option bytes take effect, and the booted images show their security versions (R511, R573). -/
def Dev.useOptions (d : Dev) : Dev :=
  let o := d.optionsNow.1
  let x : BootImage := NMap.getD d.rst.images (d.g F.RST_STATE_SLOT) {}
  let d := (List.range 8).foldl (fun (d : Dev) i => d.si F.RST_OPT_IMAGE_BYTES i (leAt o (8 * i) 8)) d
  ((d.s F.FLT_CTL_RETRIES (bits (leAt o 8 1) 0 4)).s F.SEC_SVN_L1 x.svn1).s F.SEC_SVN_L2 x.svn2
/-- Step 2: layer 1 reads the option bytes and checks layer 2 of its slot, else boots the other slot (R491, R573). -/
def Dev.boot2 (d : Dev) : Dev :=
  let i := d.g F.RST_STATE_SLOT
  let c := d.checkL2 i
  if c = 0 then d.useOptions.nextStep
  else if bitOf (leAt d.optionsNow.1 3 1) 1 ∧ !d.rst.fellBack ∧ d.checkL1 (1 - i) = 0 ∧ d.checkL2 (1 - i) = 0 then
    (d.fallBack (1 - i)).useOptions.nextStep
  else d.bootFails c
/-- A unit that the boot store lists as retired is taken out again; dies of NAND stay in the half's own list (R589). -/
def Dev.reapply (d : Dev) (m : Memory) (key : Nat) : Dev :=
  let kind := key / 65536
  let idx := key % 65536
  if kind = 3 ∨ d.unitRetired kind idx then d else (d.takeOut m kind idx).getD d
/-- A unit has failed the self-test: it is retired, or the fault is fatal and start-up begins again (R571, R588). -/
def Dev.testFails (d : Dev) (m : Memory) (kind idx : Nat) : Dev :=
  if d.bootStep ≠ 3 ∨ !unitFitted kind idx then d
  else if unitCount kind = 0 then d.fatal m kind idx 0
  else d.retireNow m kind idx
/-- Step 3: retired units are applied from the boot store, and units that fail the self-test are handled (R571, R589). -/
def Dev.boot3 (d : Dev) (m : Memory) (fails : List (Nat × Nat)) : Dev :=
  let d := d.flt.retired.foldl (fun (d : Dev) k => d.reapply m k) d
  let d := fails.foldl (fun (d : Dev) e => d.testFails m e.1 e.2) d
  if d.bootStep = 3 then d.nextStep else d
/-- Step 5: the fixed regions are laid out, and the halves begin to restore their maps (R375, R571, R624). -/
def Dev.boot5 (d : Dev) : Dev := (((d.layOut).setHstate 0 .recovering).setHstate 1 .recovering).nextStep
/-- Step 8: the phase is set (R572). -/
def Dev.boot8 (d : Dev) : Dev :=
  let cause := d.g F.RST_CAUSE_CAUSE
  let p := if d.rst.wantTest then 1
    else if cause = 5 ∨ cause = 6 ∨ d.rst.fellBack ∨ d.optionsNow.2 then 2
    else 3
  d.s F.RST_STATE_PHASE p
/-- START_UP: the step under way completes; the event names the units that fail the self-test of step 3. Step 6 completes once
both halves have restored their maps (R571). -/
def execStartUp (fails : List (Nat × Nat)) : State → Host.Outcome State Fault Refusal :=
  onDev fun m d =>
    if d.bootPhase ≠ 0 then d
    else match d.bootStep with
      | 1 => { d with pwr := { d.pwr with railTries := 0 } }.boot1
      | 2 => d.boot2
      | 3 => d.boot3 m fails
      | 4 => d.nextStep
      | 5 => d.boot5
      | 6 => if d.halves.all fun e => e.2.restored then d.nextStep else d
      | 7 => (d.s F.CLK_STATUS_REF_LOCK 1).nextStep
      | 8 => d.boot8
      | _ => d

/-- HMP_STATUS.LAST_OFF of a half (R375): 0 first start, 1 clean, 2 flushed, 3 unclean. -/
def Half.lastOff (x : Half) (unclean : Bool) : Nat :=
  if x.flushRec then 2 else if x.roots = 0 then 0 else if unclean then 3 else 1

/-! ## The restore of the map (R353 to R355, R375) -/

/-- What a programmed page says, if it can be read. -/
def Half.pageAt (x : Half) (ppa : Nat) : Option NPage := if x.unread.contains ppa then none else NMap.get? x.pages ppa
/-- SEQ of a programmed page. -/
def Half.seqAt (x : Half) (ppa : Nat) : Nat := (NMap.getD x.tags ppa {}).seq
/-- A page with a number in its tag, of a kind, at a PPA (R354). -/
def Half.mapPage (x : Half) (n ppa : Nat) : Option NPage :=
  if (NMap.getD x.tags ppa {}).kind = 0 ∧ (NMap.getD x.tags ppa {}).lpn = n then x.pageAt ppa else none
/-- The newest root record that can be read: its directory pages and open blocks (R375 step 1). -/
def Half.newestRoot (x : Half) : Option (NMap (Nat × Nat) × List Nat) :=
  let rs := (x.pages.filter fun e => isRoot (e.1 / blockPages)).filterMap fun e => match x.pageAt e.1 with
    | some (.root dirs opened) => some (x.seqAt e.1, dirs, opened)
    | _ => none
  (rs.foldl (fun (best : Option (Nat × NMap (Nat × Nat) × List Nat)) r => match best with
    | none => some r
    | some b => if b.1 < r.1 then some r else some b) none).map (·.2)
/-- The entries of a map segment, from the first copy that can be read (R355, R375). -/
def Half.readSeg (x : Half) (seg : Nat) (p : Nat × Nat) : List (Nat × Nat) :=
  match x.mapPage seg p.1, x.mapPage seg p.2 with
  | some (.segment es), _ => es
  | _, some (.segment es) => es
  | _, _ => []
/-- A segment is loaded into the map: its entries take the place of those of its LPNs (R375 step 1). -/
def Half.loadSeg (x : Half) (seg : Nat) (p : Nat × Nat) : Half :=
  { x with
    map := (x.readSeg seg p).foldl (fun m e => NMap.put m e.1 e.2) (x.map.filter fun e => e.1 / 4096 != seg)
    segAt := NMap.put x.segAt seg p }
/-- The segments that a copy of a directory page names. -/
def Half.readDir (x : Half) (i ppa : Nat) : List (Nat × Nat) :=
  match x.mapPage (dirLpn i) ppa with
  | some (.directory es) => es
  | _ => []
/-- The segments of a directory page are loaded, each from either copy (R375 step 1). -/
def Half.loadDir (x : Half) (i : Nat) (p : Nat × Nat) : Half :=
  let a := x.readDir i p.1
  let b := x.readDir i p.2
  ((a ++ b).map (·.1)).dedup.foldl (fun x seg =>
    x.loadSeg seg (((a.find? (·.1 == seg)).map (·.2)).getD noPpa.1, ((b.find? (·.1 == seg)).map (·.2)).getD noPpa.2)) x
/-- The newest root's directory and all segments are loaded (R375 step 1). -/
def Half.loadRoot (x : Half) : Half :=
  let dirs := (x.newestRoot.map (·.1)).getD []
  dirs.foldl (fun x e => x.loadDir e.1 e.2) { x with
    map := []
    segAt := []
    dirAt := dirs
    dirty := []
    dirtyDir := [] }
/-- A segment that stands once on NAND is to be written again as a pair (R355). -/
def Half.againSeg (x : Half) (seg : Nat) : Half := { x with dirty := x.dirty.filter (· != seg) ++ [seg] }
/-- A page found at a stop's end is installed, if it is newer than what the map has of its LPN or number: an object page or a system page of
objects, a segment, or the segments of a directory page (R375 steps 2 and 3). -/
def Half.installFound (x : Half) (ppa : Nat) : Half :=
  let t := NMap.getD x.tags ppa {}
  let newer (old : Option Nat) (p : Nat) : Bool := old.all fun o => x.seqAt o < x.seqAt p
  match x.pageAt ppa with
  | some (.segment _) => if newer ((NMap.get? x.segAt t.lpn).map (·.1)) ppa then (x.loadSeg t.lpn (ppa, noPpa.2)).againSeg t.lpn else x
  | some (.directory es) => es.foldl (fun (x : Half) e =>
      if newer ((NMap.get? x.segAt e.1).map (·.1)) e.2 && (x.mapPage e.1 e.2).isSome then (x.loadSeg e.1 (e.2, noPpa.2)).againSeg e.1 else x) x
  | some (.root _ _) => x
  | some .flushRecord => x
  | some _ => if newer (NMap.get? x.map t.lpn) ppa then ({ x with map := NMap.put x.map t.lpn ppa }).touch t.lpn else x
  | none => x
/-- Programmed pages of some blocks, in ascending SEQ (R375 step 3). -/
def Half.inOrder (x : Half) (p : Nat → Bool) : List Nat :=
  NMap.vals ((x.tags.filter fun e => p (e.1 / blockPages)).foldl (fun (m : NMap Nat) e => NMap.put m e.2.seq e.1) [])
/-- The FLUSH blocks. -/
def Half.inFlush (x : Half) (b : Nat) : Bool := (x.block b).state == .flush
/-- A flush record newer than the root: the flushed directory pages and segments are installed, then the flushed pages (R375 step 2). -/
def Half.installFlushed (x : Half) : Half :=
  let ps := x.inOrder x.inFlush
  let isDir (p : Nat) : Bool := decide (dirLpn 0 ≤ (NMap.getD x.tags p {}).lpn) && (NMap.getD x.tags p {}).kind == 0
  (ps.filter fun p => !isDir p).foldl Half.installFound ((ps.filter isDir).foldl Half.installFound x)
/-- Without a flush record: the open blocks that the root names and every FLUSH block are scanned (R375 step 3). -/
def Half.scan (x : Half) : Half :=
  let opened := (x.newestRoot.map (·.2)).getD []
  (x.inOrder fun b => opened.contains b || x.inFlush b).foldl Half.installFound x

/-! ## Objects after an unclean stop (R348, R375 step 3; log entry 79) -/

/-- The page of an object at a place, if the map has it and it is the object's own. -/
def Half.objPage (x : Half) (i : Nat) (o : HObj) (k : Nat) : Option Bytes :=
  ((lpnAt o.extents k).bind (NMap.get? x.map)).bind fun ppa =>
    let t := NMap.getD x.tags ppa {}
    match x.pageAt ppa with
    | some (.data bs) => if t.index = i ∧ t.gen = o.gen then some (padTo 16384 bs) else none
    | _ => none
/-- An object as its record and the pages found give it: DAMAGED where a page or its further extents are missing, and not COMPLETE where
its LENGTH is not covered (R375 step 3). -/
def Half.regain (x : Half) (i : Nat) (o : HObj) : HObj :=
  let more := if o.extents.length ≤ 3 then some []
    else match (NMap.get? x.map (extLpn i)).bind x.pageAt with
      | some (.extents es) => some es
      | _ => none
  let o := { o with extents := o.extents.take 3 ++ more.getD [] }
  let ps := (List.range (ceilDiv o.length 16384)).map (x.objPage i o)
  let lost := (ps.zipIdx.filter fun e => e.1.isNone).map (·.2)
  { o with
    data := (ps.flatMap fun p => p.getD (padTo 16384 [])).take o.length
    holes := lost
    damaged := o.damaged || more.isNone || !lost.isEmpty
    complete := o.complete && more.isSome && lost.isEmpty }
/-- The records that the pages found hold (R348). -/
def Half.recordsFound (x : Half) : NMap HObj :=
  x.map.foldl (fun m e => match x.pageAt e.2 with
    | some (.records rs) => rs.foldl (fun m r => NMap.put m r.1 r.2) m
    | _ => m) []
/-- A page of an object whose record was not recovered: the object stands as DAMAGED, with the pages found of it. -/
def Half.orphan (x : Half) (m : NMap HObj) (e : Nat × Nat) : NMap HObj :=
  let t := NMap.getD x.tags e.2 {}
  let o := NMap.getD m t.index { gen := 0 }
  match x.pageAt e.2 with
  | some (.data _) =>
    if t.gen < o.gen ∨ (t.gen = o.gen ∧ o.valid ∧ !(o.damaged && o.sid == 0 && o.length == 0)) then m
    else
      let old := if t.gen = o.gen then o.extents else []
      NMap.put m t.index
        { gen := t.gen
          kind := t.kind
          valid := true
          damaged := true
          partition := t.partition
          pages := old.length + 1
          extents := old ++ [(e.1, 1)] }
  | _ => m
/-- The objects of a half after an unclean stop, and what follows from them: the map keeps the pages of valid objects and of records, the
second copies of system pages are found by their SEQ, the LPNs that no object holds are free (R348, R375 step 3). -/
def Half.regainAll (x : Half) : Half :=
  let recs := NMap.mapV x.recordsFound fun i o => if o.valid then x.regain i o else o
  let objs := x.map.foldl x.orphan recs
  let owned (l : Nat) : Bool := objs.any fun e => e.2.valid && e.2.extents.any fun r => r.1 ≤ l && l < r.1 + r.2
  let map := x.map.filter fun e => decide (0xF0000000 ≤ e.1) || owned e.1
  let twinOf (l p : Nat) : Option Nat := ((x.tags.filter fun e => e.2.kind == 6 && e.2.lpn == l && e.1 != p &&
    (e.2.seq + 1 == x.seqAt p || e.2.seq == x.seqAt p + 1) && !x.unread.contains e.1).map (·.1)).head?
  let system := map.filter fun e => 0xF0000000 ≤ e.1
  let x := { x with
    objs := objs
    map := map
    twins := system.foldl (fun (m : NMap Nat) e => match twinOf e.1 e.2 with
      | some p => NMap.put m e.1 p
      | none => m) []
    freeExt := (objs.filter (·.2.valid)).foldl (fun f e => e.2.extents.foldl (fun f r => cutFree f r.1 r.2) f) [(0, 0xF0000000)]
    marked := (objs.filter fun e => e.2.damaged).map (·.1) }
  system.foldl (fun x e => if NMap.has x.twins e.1 then x else x.queueSystem e.1 []) x

/-- The FLUSH blocks are erased again, the cycle having been counted when they were programmed, and a plane whose FLUSH block is BAD has
another (R360, R363, R375 step 4). -/
def Half.clearFlush (x : Half) : Half :=
  let used (b : Nat) : Bool := (x.block b).state == .flush && (x.block b).nextPage != 0
  let planes := ((x.blocks.filter (·.2.state == .bad)).map (·.1 / 2484)).dedup
  planes.foldl Half.keepFlush { x with
    blocks := NMap.mapV x.blocks fun _ k => if k.state = .flush then { k with nextPage := 0 } else k
    tags := x.tags.filter fun e => !used (e.1 / blockPages)
    cells := x.cells.filter fun e => !used (e.1 / blockPages)
    pages := x.pages.filter fun e => !used (e.1 / blockPages) }
/-- A half has its map again: the root, its directory and segments, then what the flush wrote or the scan finds, are loaded; flushed pages
and segments go to the ordinary streams, the FLUSH blocks are erased, a new root is written (R375 steps 1 to 4). Records that the stop
changed are written back (R348). -/
def Half.restore (x : Half) (now period : Nat) (m : Media) (unclean : Bool) : Half :=
  let x := if x.flushRec then x.loadRoot.installFlushed
    else if unclean then x.loadRoot.scan.regainAll
    else x.loadRoot
  let x := (({ x with buffer := x.flushed ++ x.buffer, flushed := [], flushRec := false }).settle now m).clearFlush
  { x.marked.foldl (fun (x : Half) i => if NMap.has x.objs i then x.putObj i (x.obj i) else x) x with
    marked := []
    restored := true
    scanDue := some (now + period) }
/-- HAMPER_RESTORE: a half that is RECOVERING completes its restore and reports READY, or the state that its space gives; in
start-up this is step 6, later it follows the re-enable after a block reset. At STOP_C it waits, since step 4 programs pages (R369, R370,
R375, R574). LAST_OFF shows the worse of the two halves (log entry 82). -/
def execHamperRestore (half : Nat) : State → Host.Outcome State Fault Refusal :=
  onUnit (half < 2) fun _ d =>
    let x := d.half half
    let may := if d.bootPhase = 0 then d.bootStep == 6 || d.bootStep == 7 else d.on F.HMP_CTL_EN
    if d.hstate half ≠ 1 ∨ !may ∨ x.thermal = 2 then d
    else
      let off := x.lastOff d.rst.unclean
      let off := if (d.half (1 - half)).restored then max off (d.g F.HMP_STATUS_LAST_OFF) else off
      let d := d.s F.HMP_STATUS_LAST_OFF off
      let d := d.setHalf half (x.restore d.now d.scanPeriod (d.media half) d.rst.unclean)
      let d := if x.flushes = 0 then d
        else ((d.s F.HMP_FLUSH_LAST_MS d.pwr.flushMs).s F.HMP_FLUSH_MARGIN_MS (250 - d.pwr.flushMs)).s F.HMP_FLUSH_COUNT
          (min (2 ^ 32 - 1) x.flushes)
      let d := if d.halves.all fun e => e.2.restored then { d with rst := { d.rst with unclean := false } } else d
      ((d.setHstate half (d.spaceState half)).checkSpare half).admitAll

/-! ## The reset pin (R610) -/

/-- RST_N has been low for 1 µs: in ON the hamper is flushed and the controller is reset and held with cause PIN (R566,
R610). -/
def execRstN : State → Host.Outcome State Fault Refusal :=
  onModule fun m d =>
    if d.rst.pinHeld then d
    else
      let d := if d.pwr.pstate = 2 ∧ !d.rst.held then d.flushNow.deviceReset m 3 0 false false else d
      { d with rst := { d.rst with
        pinHeld := true
        held := true } }

/-! ## PLDM firmware update (R572, R573) -/

/-- PLDM_FIRMWARE_UPDATE: a component changes both copies of the option bytes, or a firmware slot; the next device reset takes
it. Answered over I3C from step 2 of start-up, and in FAILED (R572, R573, R620). -/
def execPldmFirmwareUpdate (image : Bool) (slot : Nat) (opts : Bytes) (svn1 svn2 : Nat) (sig1 sig2 : Bool) :
    State → Host.Outcome State Fault Refusal :=
  onDev fun _ d =>
    if d.bootPhase = 0 ∧ d.bootStep < 2 then d
    else if image then
      let x : BootImage := { svn1 := svn1, svn2 := svn2, sig1 := sig1, sig2 := sig2 }
      { d with rst := { d.rst with images := NMap.put d.rst.images slot x } }
    else if opts.length ≠ 64 then d
    else { d with rst := { d.rst with
      optA := opts
      optB := opts } }

/-! ## FAULT_REPORT and HEALTH_READ (R371, R592, R616) -/

/-- FAULT_REPORT: the records kept from an index onward that fit the buffer; COUNT gives how many (R592). -/
def execFaultReport (h : Hdr) (addr len frm : Nat) : State → Host.Outcome State Fault Refusal :=
  onDev fun _ d =>
    d.command h 0x0904 (fromZero h) true true fun d =>
      let rs := (d.flt.records.filter fun r => frm ≤ r.index).take (len / 64)
      { dev := if rs.isEmpty then d else d.emit (.host h.fn addr (rs.flatMap FaultRec.bytes))
        result := leBytes 4 rs.length }

/-- Hottest of some sensors (R615). -/
def Pwr.hottest (x : Pwr) (lo n : Nat) : Nat := ((List.range n).map fun i => NMap.getD x.temps (lo + i) 0).foldl max 0
/-- The core clock in effect: the lower of the throttle loop's and the clamp's (R613). -/
def Pwr.coreMhz (x : Pwr) : Nat := min x.loopMhz x.clampMhz
/-- The 128 bytes of a record whose CHECK stands at 0x78. -/
def withCheck (body : Bytes) : Bytes := body ++ leBytes 4 (crc32c body) ++ [0, 0, 0, 0]
/-- A counter that saturates at its width. -/
def satTo (w n : Nat) : Nat := min (2 ^ w - 1) n
/-- The module record (R616). -/
def Dev.moduleRecord (d : Dev) : Bytes :=
  let p := d.pwr
  withCheck (pack 0x78
    [⟨0, 0, 8, 1⟩, ⟨0, 8, 3, p.pstate⟩, ⟨0, 11, 2, p.bank⟩, ⟨0, 16, 12, p.coreMhz⟩, ⟨8, 0, 16, p.vinMv⟩, ⟨8, 16, 16, p.iin⟩,
     ⟨8, 32, 16, p.pAvg⟩, ⟨8, 48, 16, p.pPeak⟩, ⟨0x10, 0, 8, p.hottest 0 1⟩, ⟨0x10, 8, 8, p.hottest 1 1⟩,
     ⟨0x10, 16, 8, p.hottest 2 16⟩, ⟨0x10, 24, 8, p.hottest 82 8⟩, ⟨0x10, 32, 8, p.hottest 90 1⟩, ⟨0x10, 40, 8, p.hottest 91 1⟩,
     ⟨0x10, 48, 8, p.hottest 92 1⟩, ⟨0x10, 56, 8, p.tjMaxEver⟩, ⟨0x18, 0, 32, p.bankUf⟩, ⟨0x18, 32, 16, p.bankMv⟩,
     ⟨0x20, 0, 32, satTo 32 p.throttleMs⟩, ⟨0x20, 32, 32, satTo 32 p.clamps⟩, ⟨0x28, 0, 16, satTo 16 p.pfPfw⟩,
     ⟨0x28, 16, 16, satTo 16 p.pfRail⟩, ⟨0x28, 32, 16, satTo 16 p.trips⟩, ⟨0x30, 0, 32, satTo 32 (p.onMs / 3600000)⟩,
     ⟨0x30, 32, 32, satTo 32 p.clkLowMs⟩, ⟨0x70, 0, 64, d.wall⟩])
/-- The record of a half (R371). -/
def Dev.hamperRecord (d : Dev) (h : Nat) : Bytes :=
  let x := d.half h
  let hours := (List.range 11).map fun i => (⟨0x40 + 4 * i, 0, 32, satTo 32 (NMap.getD x.tempMs i 0 / 3600000)⟩ : Put)
  withCheck (pack 0x78
    ([⟨0, 0, 8, 1⟩, ⟨0, 8, 1, h⟩, ⟨0, 9, 3, d.hstate h⟩, ⟨0, 16, 16, x.spareLeft⟩, ⟨0, 32, 16, satTo 16 (d.wearUsed h)⟩,
      ⟨0, 48, 8, x.maxTemp⟩, ⟨8, 0, 32, satTo 32 x.wear.1⟩, ⟨8, 32, 32, satTo 32 x.wear.2.1⟩, ⟨0x10, 0, 32, x.grownBad⟩,
      ⟨0x10, 32, 16, x.retired.length⟩, ⟨0x10, 48, 16, satTo 16 x.flushes⟩, ⟨0x18, 0, 64, satTo 64 x.corrected⟩,
      ⟨0x20, 0, 32, satTo 32 x.uncorr⟩, ⟨0x20, 32, 32, satTo 32 x.buddyRepairs⟩, ⟨0x28, 0, 32, satTo 32 x.rdRefresh⟩,
      ⟨0x28, 32, 32, satTo 32 x.retRefresh⟩, ⟨0x30, 0, 64, satTo 64 x.hostPages⟩, ⟨0x38, 0, 64, satTo 64 x.nandPages⟩] ++
     hours ++ [⟨0x6C, 0, 32, satTo 32 (x.onMs / 3600000)⟩, ⟨0x70, 0, 64, d.wall⟩]))
/-- HEALTH_READ: the module record and those of the halves, west first, as far as the buffer reaches; the highest power is
counted anew (R371, R616; log entry 66). -/
def execHealthRead (h : Hdr) (addr len : Nat) : State → Host.Outcome State Fault Refusal :=
  onDev fun _ d =>
    d.command h 0x0905 (fromZero h) true true fun d =>
      let body := (d.moduleRecord ++ d.hamperRecord 0 ++ d.hamperRecord 1).take len
      { dev := { d with pwr := { d.pwr with pPeak := 0 } }.emit (.host h.fn addr body)
        result := leBytes 4 body.length }

end Sys2Proof.Machine
end

