-- ==== Sys2Proof/Machine/Power.lean ====
section
/-! DEFINITION. The module's supervisor: power states, hold-up bank, rails, sensors, throttling, thermal trips, ALERT_N (R488,
R602 to R618). -/
namespace Sys2Proof.Machine
open Sys2Proof

/-! ## Power states (R606 to R610) -/

/-- Step 6 of start-up has ended (R571, R606). -/
def Dev.afterStep6 (d : Dev) : Bool :=
  (1 ≤ d.bootPhase && d.bootPhase ≤ 3) || (d.bootPhase == 0 && 7 ≤ d.bootStep)
/-- The supervisor takes a power state; the controller is held in all but ON. -/
def Dev.setPower (d : Dev) (p : Nat) : Dev :=
  { d with
    pwr := { d.pwr with pstate := p }
    rst := { d.rst with held := p != 2 || d.rst.pinHeld } }
/-- The bank is charged, and neither its state nor the reset pin nor a trip forbids it: the module enters ON, and the
controller starts with the cause of its power-up (R566, R606, R607, R609). -/
def Dev.powerUp (d : Dev) (m : Memory) : Dev :=
  if d.pwr.bank = 2 ∨ d.pwr.bankMv < 52000 ∨ d.rst.pinHeld ∨ d.pwr.tripped.isSome ∨ d.pwr.railFailed then d
  else
    let flushed := d.halves.any fun e => e.2.flushRec
    let d := { d with pwr := { d.pwr with charging := false } }.setPower 2
    if flushed then d.deviceReset m 2 d.pwr.flushMs false false
    else d.deviceReset m 1 (b2n d.rst.unclean) false false
/-- POWER_ON: the input rises through 40 V and the bank is charged, the controller in reset (R606, R607). -/
def execPowerOn : State → Host.Outcome State Fault Refusal :=
  onModule fun _ d =>
    if d.pwr.pstate ≠ 0 then d
    else { d with pwr := { d.pwr with
      charging := true
      railTries := 0
      railFailed := false } }.setPower 1
/-- BANK_CHARGED: the bank reaches 52 V. A charge from 30 V gives the capacitance as 3.0 A × t / 22 V from the time in µs, and
the bank's state from its energy, C × 902 J per farad; any other start keeps the last state (R604, R605). -/
def execBankCharged (measured : Bool) (us : Nat) : State → Host.Outcome State Fault Refusal :=
  onModule fun m d =>
    if d.pwr.pstate ≠ 1 ∨ !d.pwr.charging then d
    else
      let joule := 3 * us * 902
      let p := if measured then
          { d.pwr with
            bankUf := (3 * us + 11) / 22
            bank := if 64000000 * 22 ≤ joule then 0 else if 16000000 * 22 ≤ joule then 1 else 2 }
        else d.pwr
      { d with pwr := { p with bankMv := 52000 } }.powerUp m
/-- RAIL_TIMEOUT: a rail has not come up within 10 ms: all rails go off, and one retry follows (R607). -/
def execRailTimeout : State → Host.Outcome State Fault Refusal :=
  onModule fun _ d =>
    if d.pwr.pstate ≠ 2 ∨ d.bootPhase ≠ 0 ∨ d.bootStep ≠ 1 ∨ d.rst.held then d
    else
      let n := d.pwr.railTries + 1
      { d with pwr := { d.pwr with
        railTries := n
        railFailed := decide (2 ≤ n) } }.setPower 1
/-- RAIL_RETRY: one second after the first failure the sequence is tried once more (R607). -/
def execRailRetry : State → Host.Outcome State Fault Refusal :=
  onModule fun m d => if d.pwr.pstate = 1 ∧ d.pwr.railTries = 1 ∧ !d.pwr.charging then d.powerUp m else d
/-- POWER_FAIL: PFW_N or the rail. In ON after step 6 the flush begins; before it the rails go off without a flush; charging
stops; in FLUSH and HOLD nothing changes (R372, R374, R608). -/
def execPowerFail (rail : Bool) : State → Host.Outcome State Fault Refusal :=
  onModule fun _ d =>
    let count (d : Dev) : Dev := { d with pwr := if rail then { d.pwr with pfRail := satAdd 16 d.pwr.pfRail 1 }
      else { d.pwr with pfPfw := satAdd 16 d.pwr.pfPfw 1 } }
    match d.pwr.pstate with
    | 1 => { count d with pwr := { (count d).pwr with charging := false } }
    | 2 =>
      let d := count d
      if d.afterStep6 && !d.rst.held then
        let d := { d with pwr := { d.pwr with restored := false } }
        ((d.setHstate 0 .flushing).setHstate 1 .flushing).setPower 3
      else d.setPower 0
    | _ => d
/-- FLUSH_COMPLETE: phase 5 of the flush ends after some milliseconds: the record is written, and the module is in HOLD; with
the input restored meanwhile it recharges and restarts (R373, R374, R606, R609). -/
def execFlushComplete (ms : Nat) : State → Host.Outcome State Fault Refusal :=
  onModule fun _ d =>
    if d.pwr.pstate ≠ 3 then d
    else
      let d := d.flushHalves fun _ => false
      let d := { d with
        halves := NMap.mapV d.halves fun _ x => { x with restored := false }
        pwr := { d.pwr with flushMs := ms } }
      if d.pwr.restored then { d with pwr := { d.pwr with restored := false, charging := true } }.setPower 1 else d.setPower 4
/-- POWER_RESTORED: the input is good for 100 ms: a flush completes first; in HOLD the bank is recharged; charging that a
power-fail stopped goes on (R609). -/
def execPowerRestored : State → Host.Outcome State Fault Refusal :=
  onModule fun _ d =>
    match d.pwr.pstate with
    | 1 => { d with pwr := { d.pwr with charging := d.pwr.charging || d.pwr.railTries == 0 } }
    | 3 => { d with pwr := { d.pwr with restored := true } }
    | 4 => { d with pwr := { d.pwr with charging := true } }.setPower 1
    | _ => d
/-- BELOW_MODULE_MINIMUM: the hold-up bus falls below 30 V: the module is OFF; a flush that has not written its record, or a
hamper in use, is lost (R374, R606). -/
def execBelowModuleMinimum : State → Host.Outcome State Fault Refusal :=
  onModule fun _ d =>
    let inUse := d.pwr.pstate == 3 || (d.pwr.pstate == 2 && !d.rst.held && d.afterStep6)
    let lost := inUse && d.halves.any fun e => e.2.restored
    let d := { d with
      halves := if inUse then NMap.mapV d.halves fun _ x => if x.restored then { x.crash with restored := false } else x
        else d.halves
      rst := { d.rst with unclean := d.rst.unclean || lost }
      pwr := { d.pwr with
        charging := false
        restored := false
        bankMv := min d.pwr.bankMv 29999 } }
    d.setPower 0
/-- RST_N_RELEASE: the controller starts at step 1, or the module enters ON if its bank is charged (R606, R610). -/
def execRstNRelease : State → Host.Outcome State Fault Refusal :=
  onModule fun m d =>
    let d := { d with rst := { d.rst with pinHeld := false } }
    match d.pwr.pstate with
    | 1 => d.powerUp m
    | 2 => { d with rst := { d.rst with held := d.pwr.tripped.isSome } }
    | _ => d

/-! ## Throttling (R488, R611 to R613) -/

/-- Module power limit in W: POWER_CAP of the option bytes in effect, its default before they are read (R573, R603). -/
def Dev.capWatts (d : Dev) : Nat :=
  let v := bits (d.gi F.RST_OPT_IMAGE_BYTES 1) 16 8
  if v = 0 then 1750 else 10 * v
/-- Throttle point of a sensor; none for the others (R615). -/
def throttleAt (i : Nat) : Option Nat :=
  if i < 18 then some 95 else if 82 ≤ i ∧ i < 90 then some 115 else if i = 90 then some 42 else none
/-- Trip point of a sensor; none for NAND packages (R615). -/
def tripAt (i : Nat) : Option Nat :=
  if i < 2 then some 110 else if i < 18 then some 105 else if 82 ≤ i ∧ i < 90 then some 130 else if i = 90 then some 50
  else if i = 91 then some 65 else if i = 92 then some 70 else none
/-- The throttle condition with its hysteresis: 5 °C below each limit and 95 % of the cap (R612). -/
def Dev.throttled (d : Dev) : Bool :=
  let slack := if d.iso.throttle then 5 else 0
  let pct := if d.iso.throttle then 95 else 100
  decide (pct * d.capWatts < 100 * d.pwr.pAvg) || d.pwr.temps.any fun e => match throttleAt e.1 with
    | some t => if d.iso.throttle then decide (t < e.2 + slack) else decide (t ≤ e.2)
    | none => false
/-- Levels shed at a stage: those whose rank is below it; level 7 never (R488). -/
def Dev.levelsAt (d : Dev) (stage : Nat) : Nat :=
  (List.range 7).foldl (fun a l => setBit a l (decide (bits (d.g F.ISO_SHED_RANKS) (3 * l) 3 < stage))) 0
/-- The shed stage changes: every partition is told, and a stage that is high enough warns the checkpoints (R487, R488, R547). -/
def Dev.setStage (d : Dev) (stage : Nat) : Dev :=
  let levels := d.levelsAt stage
  let d := ((d.s F.ISO_SHED_ST_STAGE stage).s F.ISO_SHED_ST_LEVELS levels).sat F.ISO_SHED_ST_CHANGES 1
  let d := d.postAll { typ := 0x30, args := [stage, levels] }
  if d.g F.CKP_TRIG_SHED_STAGE ≤ stage ∧ d.iso.throttle then d.ckptWarn 1 else d
/-- When the next step of the stage or the clock falls due: STEP_MS while the condition holds, 4 × STEP_MS while it is clear
(R488, R613). -/
def Dev.nextStepAt (d : Dev) : Nat := d.now + (if d.iso.throttle then 1 else 4) * d.g F.ISO_SHED_STEP_MS * 1000000
/-- The throttle loop's timer starts anew. -/
def Dev.armShed (d : Dev) : Dev := { d with iso := { d.iso with nextShed := d.nextStepAt } }
/-- CLK_STATUS.CORE_MHZ shows the clock in effect (R613). -/
def Dev.showClock (d : Dev) : Dev := d.s F.CLK_STATUS_CORE_MHZ d.pwr.coreMhz
/-- SHED_STEP: the shed stage rises while the throttle condition holds, and falls while it is clear and the clock is back at
1,800 MHz (R488, R613). -/
def execShedStep : State → Host.Outcome State Fault Refusal :=
  onDev fun _ d =>
    let stage := d.g F.ISO_SHED_ST_STAGE
    if d.iso.throttle ∧ stage < 7 then ((d.reach d.iso.nextShed).setStage (stage + 1)).armShed
    else if !d.iso.throttle ∧ 0 < stage ∧ d.pwr.loopMhz = 1800 then ((d.reach d.iso.nextShed).setStage (stage - 1)).armShed
    else d
/-- CLOCK_STEP: at shed stage 7 the core clock falls by 100 MHz down to 900 MHz while the condition holds, and rises again
while it is clear (R613). -/
def execClockStep : State → Host.Outcome State Fault Refusal :=
  onDev fun _ d =>
    let go (mhz : Nat) : Dev :=
      let d := d.reach d.iso.nextShed
      ({ d with pwr := { d.pwr with loopMhz := mhz } }.showClock).armShed
    if d.iso.throttle ∧ d.g F.ISO_SHED_ST_STAGE = 7 ∧ 900 < d.pwr.loopMhz then go (max 900 (d.pwr.loopMhz - 100))
    else if !d.iso.throttle ∧ d.pwr.loopMhz < 1800 then go (min 1800 (d.pwr.loopMhz + 100))
    else d
/-- POWER_CLAMP: input power has exceeded 2,000 W for 50 µs, or the cap for 10 ms: the clock is 900 MHz at once (R611). -/
def execPowerClamp (watts : Nat) : State → Host.Outcome State Fault Refusal :=
  onDev fun _ d =>
    if watts ≤ 2000 ∧ watts ≤ d.capWatts then d
    else { d with pwr := { d.pwr with
      clamped := true
      clampMhz := 900
      clamps := satAdd 32 d.pwr.clamps 1
      pPeak := max d.pwr.pPeak watts } }.showClock

/-! ## Sensors (R612, R615, R616) -/

/-- The readings of a sample: temperatures, and consecutive samples at or above the trip points (R615). -/
def Pwr.sample (x : Pwr) (temps : List (Nat × Nat)) : Pwr :=
  temps.foldl (fun (x : Pwr) e =>
    let high := match tripAt e.1 with
      | some t => decide (t ≤ e.2)
      | none => false
    { x with
      temps := NMap.put x.temps e.1 e.2
      overs := if high then NMap.put x.overs e.1 (NMap.getD x.overs e.1 0 + 1) else NMap.del x.overs e.1
      tjMaxEver := if e.1 < 2 then max x.tjMaxEver e.2 else x.tjMaxEver }) x
/-- Bin of a temperature in TEMP_HOURS: below 40 °C, nine of 5 °C, from 85 °C (R371). -/
def tempBin (c : Nat) : Nat := if c < 40 then 0 else if 85 ≤ c then 10 else (c - 40) / 5 + 1
/-- A millisecond of operation of a half (R371). -/
def Half.millisecond (x : Half) : Half :=
  let b := tempBin ((NMap.vals x.temps).foldl max 0)
  { x with
    onMs := x.onMs + 1
    tempMs := NMap.put x.tempMs b (NMap.getD x.tempMs b 0 + 1) }
/-- Every sensor stands at least 10 °C below its trip point (R615). -/
def Pwr.cool (x : Pwr) : Bool := x.temps.all fun e => match tripAt e.1 with
  | some t => e.2 + 10 ≤ t
  | none => true
/-- SENSOR_SAMPLE: a 1 ms sample of temperatures, input power, voltage and current, and bank voltage. In ON the throttle
condition and the clamp follow it; a tripped module that has cooled restarts (R611, R612, R615). -/
def execSensorSample (temps : List (Nat × Nat)) (avg peak vin iin bankMv : Nat) : State → Host.Outcome State Fault Refusal :=
  onModule fun m d =>
    let p := d.pwr.sample temps
    let d := { d with pwr := { p with
      pAvg := avg
      pPeak := max p.pPeak peak
      vinMv := vin
      iin := iin
      bankMv := bankMv } }
    let d : Dev := if d.pwr.tripped.isSome ∧ d.pwr.cool then
        let d : Dev := { d with pwr := { d.pwr with tripped := none } }
        if d.pwr.pstate = 2 then { d with rst := { d.rst with held := d.rst.pinHeld } } else d.powerUp m
      else d
    if d.pwr.pstate ≠ 2 then d
    else
      let d := { d with
        halves := NMap.mapV d.halves fun _ x => x.millisecond
        pwr := { d.pwr with
          onMs := d.pwr.onMs + 1
          clkLowMs := satAdd 32 d.pwr.clkLowMs (b2n (d.pwr.coreMhz < 1800)) } }
      if d.rst.held then d
      else
        let t := d.throttled
        let changed := t != d.iso.throttle
        let d := { d with
          iso := { d.iso with throttle := t }
          pwr := { d.pwr with
            throttleMs := satAdd 32 d.pwr.throttleMs (b2n t)
            clamped := d.pwr.clamped && decide (d.capWatts ≤ avg)
            clampMhz := if d.pwr.clamped then d.pwr.clampMhz else min 1800 (d.pwr.clampMhz + 100) } }
        (if changed then d.armShed else d).showClock
/-- THERMAL_TRIP: a sensor has been at or above its trip point for two samples: the hamper is flushed, the device resets with
cause THERMAL_TRIP and stays in reset until every sensor has cooled (R566, R615). -/
def execThermalTrip (sensor : Nat) : State → Host.Outcome State Fault Refusal :=
  onModule fun m d =>
    if d.pwr.pstate ≠ 2 ∨ d.rst.held ∨ NMap.getD d.pwr.overs sensor 0 < 2 then d
    else
      let d := d.flushNow.deviceReset m 7 sensor false false
      { d with
        pwr := { d.pwr with
          trips := satAdd 16 d.pwr.trips 1
          tripped := some sensor }
        rst := { d.rst with held := true } }

/-- ALERT_N is asserted (R605, R607, R618). -/
def Dev.alertN (d : Dev) : Bool :=
  decide (0 < d.g F.ISO_SHED_ST_STAGE) || d.halves.any (fun e => e.2.thermal != 0) || d.pwr.bank != 0 || d.bootPhase == 2 ||
    d.bootPhase == 4 || d.pwr.pstate == 3 || d.pwr.pstate == 4 || decide (d.pwr.vinMv < 40000 ∨ 59500 < d.pwr.vinMv) ||
    d.pwr.railTries != 0

end Sys2Proof.Machine
end

