-- ==== Sys2Proof/Machine/RegRead.lean ====
section
/-! DEFINITION. What a register read returns: a pure function of the block (R8, R12, R14, R484, R489, R541, R596 to R600). -/
namespace Sys2Proof.Machine
open Sys2Proof

/-! ## Grants (R597) -/

/-- The partition of a window owns an instance of a register: its own partition's, its grammar's, the selected node it owns. -/
def Dev.ownsInst (d : Dev) (f : Fld) (fn i : Nat) : Bool :=
  if f.addr / 2 ^ 22 = 0x3400000 / 2 ^ 22 then
    (if f.addr < 0x3400800 then
      d.gf F.SHP_NODE_SEL_KIND fn 0 == 0 && (d.node 0 (d.gf F.SHP_NODE_SEL_INDEX fn 0)).owner == fn
    else i == fn)
  else if f.addr = F.GRM_G_STATUS_VALID.addr ∨ f.addr = F.GRM_G_ID_DIGEST.addr then
    (NMap.get? d.tok.grams i).any fun g => g.partition == fn
  else i == fn
/-- The window of a function admits a read of an instance (R597). -/
def Dev.mayRead (d : Dev) (f : Fld) (fn i : Nat) : Bool :=
  if fn = 0 then true
  else match f.grant with
    | .none => false
    | .view | .fn | .fnWrite => true
    | .group => d.ses.tab.any fun e => e.2.d.group == i && e.2.d.partition == fn && e.2.d.tier != .gone
    | .owned => d.ownsInst f fn i
    | .ownWrite => true

/-! ## Values that are not stored as they are read -/

/-- The IDLE field of each block, with its enable field. -/
def idleFields : List (Fld × Fld) :=
  [(F.PGS_STATUS_IDLE, F.PGS_CTL_EN), (F.ATT_STATUS_IDLE, F.ATT_CTL_EN), (F.TOK_STATUS_IDLE, F.TOK_CTL_EN),
   (F.GRM_STATUS_IDLE, F.GRM_CTL_EN), (F.PRK_STATUS_IDLE, F.PRK_CTL_EN), (F.HMP_STATUS_IDLE, F.HMP_CTL_EN),
   (F.HLF_STATUS_IDLE, F.HLF_CTL_EN), (F.RCE_STATUS_IDLE, F.RCE_CTL_EN), (F.SFT_STATUS_IDLE, F.SFT_CTL_EN),
   (F.SHP_STATUS_IDLE, F.SHP_CTL_EN), (F.SEC_STATUS_IDLE, F.SEC_CTL_EN), (F.CMD_STATUS_IDLE, F.CMD_CTL_EN),
   (F.CKP_STATUS_IDLE, F.CKP_CTL_EN)]
/-- An IDLE field: the idle condition of R574; in a tenant window 0 while the block is enabled (R13, R484). -/
def Dev.showIdle (d : Dev) (en : Fld) (fn : Nat) : Nat := b2n (d.idle en && (fn == 0 || !d.on en))
/-- Save sets of a die: bit p for level p, and the units they hold (R277, R280). -/
def Dev.saveView (d : Dev) (die : Nat) : Nat × Nat :=
  let mine := d.att.saveSets.filter fun e => e.1 / 8 == die
  (mine.foldl (fun a e => setBit a (e.1 % 8) true) 0,
   mine.foldl (fun a e => a + (e.2.map fun id => classUnits (NMap.getD d.pgs.bins (pageBin id) 0)).foldl (· + ·) 0) 0)
/-- Outbound units of a die that a window sees (R135, R484). -/
def Dev.outView (d : Dev) (fn die : Nat) : Nat :=
  if fn = 0 then d.outbound die
  else d.ses.tab.foldl (fun a e =>
    if e.2.d.state = .parking ∧ e.2.d.partition = fn then a + d.unitsOn e.2 die else a) 0
/-- PGS_FREE.FREE_UNITS of a window (R141, R484). -/
def Dev.freeView (d : Dev) (fn die : Nat) : Nat :=
  let all := if d.dieLaidOut die then d.freeUnits die else 0
  let own := d.unitLimit fn die - d.useUnits fn die
  if fn = 0 then all else if d.strict then own else min own all
/-- A unit in FLT_UNIT_CNT: STATE 2 EVACUATING, else 1 RETIRED, or 0 live (R586, R594). -/
def Dev.unitState (d : Dev) (kind idx : Nat) : Nat :=
  if !d.unitRetired kind idx then 0
  else if kind = 2 ∧ d.pgs.frames.any (fun e => pageDie e.1 == idx / 512 &&
      (d.gi F.PGS_REGION_BASE (pageDie e.1) + e.1 / 2 ^ 12 % 2 ^ 19) % 64 == idx % 64) then 2
  else 1
/-- The node that a window selects (R489). -/
def Dev.selNode (d : Dev) (fn : Nat) : Nat × SNodeShape :=
  let kind := d.gf F.SHP_NODE_SEL_KIND fn 0
  let x := d.node kind (d.gf F.SHP_NODE_SEL_INDEX fn 0)
  (kind, if x.shape then x.refill d.now else x)
/-- Fields of the selected shaping node (R489). -/
def Dev.showNode (d : Dev) (f : Fld) (fn : Nat) : Option Nat :=
  let (kind, x) := d.selNode fn
  if f = F.SHP_NODE_CFG_VALID then some (b2n x.valid)
  else if f = F.SHP_NODE_CFG_SHAPE then some (b2n x.shape)
  else if f = F.SHP_NODE_CFG_RATE then some x.rate
  else if f = F.SHP_NODE_CFG_OWNER then some (if kind = 0 then x.owner else 0)
  else if f = F.SHP_NODE_CFG_BUDGET_ON then some (b2n (kind == 0 && x.budgetOn))
  else if f = F.SHP_NODE_LVL_BURST then some (if x.valid then x.burst else 0)
  else if f = F.SHP_NODE_LEVEL_LEVEL then some (x.level % 2 ^ 48).toNat
  else if f = F.SHP_NODE_BUD_BUDGET then some (if kind = 0 then (x.budget % 2 ^ 64).toNat else 0)
  else if f = F.SHP_NODE_SVC_PART_MASK then some (if kind = 0 then 0 else x.partMask)
  else if f = F.SHP_NODE_SVC_PROMPT_W then some (if kind = 1 then x.promptW else 0)
  else if f = F.SHP_NODE_SVC_REBUILD_W then some (if kind = 1 then x.rebuildW else 0)
  else if f = F.SHP_NODE_OVH_OVERHEAD then some (if kind = 1 then x.overhead else 0)
  else none
/-- MiB, rounded up. -/
def mib (n : Nat) : Nat := ceilDiv n (2 ^ 20)
/-- Fields of the hamper (R376, R377); a half whose map is not restored shows no space of its own (R375). -/
def Dev.showHamper (d : Dev) (f : Fld) (i : Nat) : Option Nat :=
  let x := d.half i
  if f = F.HMP_DIRTY_DELTA_MIB then some (mib d.mapDelta)
  else if f = F.HMP_DIRTY_BUF_MIB then some (mib d.bufBytes)
  else if f = F.HMP_CNT0_HOST_GIB then some (d.halves.foldl (fun a e => a + (e.2.hostPages - e.2.hostAt)) 0 / 65536)
  else if f = F.HMP_CNT0_NAND_GIB then some (d.halves.foldl (fun a e => a + (e.2.nandPages - e.2.nandAt)) 0 / 65536)
  else if f = F.HMP_D_SPACE_FREE_PAGES then some (if x.restored then satTo 32 (d.freePages i) else 0)
  else if f = F.HMP_D_BLOCKS_ERASED then some (if x.restored then x.erased else 0)
  else if f = F.HMP_D_BLOCKS_GROWN_BAD then some x.grownBad
  else if f = F.HMP_D_BLOCKS_RETIRED_LUNS then some x.retired.length
  else if f = F.HMP_D_WEAR_AVG_PE then some (satTo 16 x.wear.1)
  else if f = F.HMP_D_WEAR_MAX_PE then some (satTo 16 x.wear.2.1)
  else if f = F.HMP_D_WEAR_MIN_PE then some (satTo 16 x.wear.2.2)
  else if f = F.HMP_D_WEAR_WEAR_USED then some (satTo 16 (d.wearUsed i))
  else if f = F.HMP_D_ERR_UNCORR then some (satTo 16 (x.uncorr - x.uncAt))
  else if f = F.HMP_D_ERR_BUDDY_REPAIR then some (satTo 16 (x.buddyRepairs - x.repairAt))
  else if f = F.HMP_D_ERR_REFRESH then some (satTo 16 (x.rdRefresh + x.retRefresh - x.refreshAt))
  else if f = F.HMP_D_ERR_SPARE_LEFT then some x.spareLeft
  else if f = F.HMP_D_TEMP_NOW_C then some ((x.temps.map (·.2)).foldl max 0)
  else if f = F.HMP_D_TEMP_MAX_C then some x.maxTemp
  else none
/-- Sessions in a state. -/
def Dev.inState (d : Dev) (st : SState) : Nat := NMap.cnt d.ses.tab fun _ x => x.d.state == st
/-- Fields of the page store, attention, token, grammar and park blocks; a region that start-up has not laid out reads as at
reset (R570, R624). -/
def Dev.showWork (d : Dev) (f : Fld) (fn i : Nat) : Option Nat :=
  if f = F.PGS_FREE_EMPTY_BINS then some (if fn = 0 ∧ d.dieLaidOut i then d.emptyBins i else 0)
  else if f = F.PGS_FREE_FREE_UNITS then some (d.freeView fn i)
  else if f = F.PGS_OUTBOUND_UNITS then some (d.outView fn i)
  else if f = F.PGS_PTFREE_BLOCKS then some (if d.dieLaidOut i then d.poolFree i else 0)
  else if f = F.ATT_SYNC_VAL_VALUE then some (NMap.getD d.att.counters (d.g F.ATT_SYNC_SEL_ID) 0)
  else if f = F.ATT_SAVE_W_LEVELS then some (d.saveView 0).1
  else if f = F.ATT_SAVE_W_UNITS then some (d.saveView 0).2
  else if f = F.ATT_SAVE_E_LEVELS then some (d.saveView 1).1
  else if f = F.ATT_SAVE_E_UNITS then some (d.saveView 1).2
  else if f = F.ATT_GRP_PCNT_OPEN then some ((d.att.pushes.filter fun p => p.group == i).length)
  else if f = F.TOK_STORE_FREE_KIB then some ((storeBytes - d.storeUsed) / 1024)
  else if f = F.TOK_STORE_STOP_SETS then some d.tok.stops.length
  else if f = F.TOK_CNT0_PROMPT_KIB then some (d.tok.promptBytes / 1024)
  else if f = F.GRM_FREE_FREE_MIB then some (if d.dieLaidOut 0 then d.grmFree / 2 ^ 20 else 0)
  else if f = F.GRM_FREE_GRAMMARS then some d.tok.grams.length
  else if f = F.GRM_GRP_MASK_FREE then some (d.gi F.GRM_GRP_MASK_SLOTS i - (d.maskSlots i).length)
  else if f.addr = F.GRM_G_STATUS_VALID.addr ∨ f.addr = F.GRM_G_ID_DIGEST.addr then some ((d.showGrammar i).gi f i)
  else if f = F.PRK_STATUS_PARKING then some (d.inState .parking)
  else if f = F.PRK_STATUS_REVIVING then some (d.inState .reviving)
  else if f = F.PRK_LOAD_QW_W then some (satTo 16 (d.qWrite 0 / 2 ^ 20))
  else if f = F.PRK_LOAD_QR_W then some (satTo 16 (d.qRead 0 / 2 ^ 20))
  else if f = F.PRK_LOAD_QW_E then some (satTo 16 (d.qWrite 1 / 2 ^ 20))
  else if f = F.PRK_LOAD_QR_E then some (satTo 16 (d.qRead 1 / 2 ^ 20))
  else if f = F.PRK_FAB_RHO_W then some (d.fabLoad 0)
  else if f = F.PRK_FAB_RHO_E then some (d.fabLoad 1)
  else if f = F.PRK_PINNED_COUNT then some (d.pinned i)
  else none
/-- The limit fields of partition 0: the device's capacities, less what STRICT reserves to tenants: engines, units, batch slots and pool
blocks (R32, R480, R481, R490; log entry 81). -/
def Dev.showZero (d : Dev) (f : Fld) (i : Nat) : Option Nat :=
  let less := d.leftOver
  if i ≠ 0 then none
  else if f = F.ISO_PART_SLOTS then some (d.partSlots 0)
  else if f = F.ISO_PART_ENG_ENG_W then some (less (d.liveEngines 0).length (·.engW))
  else if f = F.ISO_PART_ENG_ENG_E then some (less (d.liveEngines 1).length (·.engE))
  else if f = F.ISO_PART_PAGES_UNITS_W then some (less (d.dieUnits 0) (·.unitsW))
  else if f = F.ISO_PART_PAGES_UNITS_E then some (less (d.dieUnits 1) (·.unitsE))
  else if f = F.ISO_PART_LIM_SESSIONS then some 4194304
  else if f = F.ISO_PART_LIM_CONTEXTS then some 262144
  else if f = F.ISO_PART_LIM_BATCH then some (less 32768 (·.batch))
  else if f = F.ISO_PART_LIM2_GRAMMARS then some 1024
  else if f = F.ISO_PART_LIM2_INDEXES then some 65535
  else if f = F.ISO_PART_LIM2_PT_BLOCKS then
    some (less (min (d.gi F.PGS_PTPOOL_BLOCKS 0) (d.gi F.PGS_PTPOOL_BLOCKS 1)) (·.ptBlocks))
  else none
/-- Fields of the fabric, search, partition, security, command, reset and fault blocks. -/
def Dev.showRest (d : Dev) (f : Fld) (fn i : Nat) : Option Nat :=
  let q : Qp := NMap.getD d.hall.qps (d.gf F.RCE_QP_SEL_INDEX fn 0) {}
  let qps (st : QpState) : Nat := NMap.cnt d.hall.qps fun _ x => x.state == st
  let kind := d.gf F.FLT_UNIT_SEL_KIND fn 0
  let unit := d.gf F.FLT_UNIT_SEL_INDEX fn 0
  if f = F.HLF_STATUS_CONNS then some (NMap.cnt d.hall.conns fun _ x => x.state != .closed)
  else if f = F.HLF_STATUS_REGIONS then some (NMap.cnt d.hall.regions fun _ x => x.valid)
  else if f = F.HLF_PORT_MAC_MAC then some (Config.portMac i)
  else if f = F.RCE_STATUS_QPS then some (qps .rts)
  else if f = F.RCE_STATUS_QP_ERR then some (qps .error)
  else if f = F.RCE_QP_STATE_STATE then some (match q.state with | .reset => 0 | .rts => 1 | .error => 2)
  else if f = F.RCE_QP_STATE_SQ_PSN then some q.sqPsn
  else if f = F.RCE_QP_STATE_RQ_PSN then some q.rqPsn
  else if f = F.RCE_QP_STATE_PORT then some q.port
  else if f = F.SFT_FREE_MIB_W then some (if d.dieLaidOut 0 then d.sftFree 0 / 2 ^ 20 else 0)
  else if f = F.SFT_FREE_MIB_E then some (if d.dieLaidOut 1 then d.sftFree 1 / 2 ^ 20 else 0)
  else if f = F.SFT_CNT2_INDEXES then some d.sft.idx.length
  else if f = F.ISO_PART_USE_SESSIONS then some (d.useSessions i)
  else if f = F.ISO_PART_USE_BATCH then some (d.useBatch i)
  else if f = F.ISO_PART_USE_UNITS_K then some (ceilDiv (d.useUnits i 0 + d.useUnits i 1) 1000)
  else if f = F.SEC_SCRUB_PCT then
    some (if d.sec.scrub.isSome then Config.shown f.addr f.lo d.now % 101 else d.gf f fn i)
  else if f = F.CMD_CTL_EN then some (d.g f)
  else if f = F.CMD_CTL_SYS_EQ then some (if fn = 0 then d.g f else 0xFFFF)
  else if f = F.CMD_STATUS_RINGS then
    some ((List.range (d.gf F.CMD_LIMITS_RINGS_MAX fn 0)).filter fun r => d.gf F.CMD_RQ_CFG_EN fn r == 1).length
  else if f = F.CMD_STATUS_EQS then
    some ((List.range (d.gf F.CMD_LIMITS_EQS_MAX fn 0)).filter fun e => d.gf F.CMD_EQ_CFG_EN fn e == 1).length
  else if f = F.CMD_EQ_STATUS_BACKLOG then some (satTo 16 (d.heldFor fn i))
  else if f = F.RST_BLK_IDLE then some ((List.range 12).foldl (fun a r => setBit a r (d.rowIdle r)) 0)
  else if f = F.FLT_UNIT_CNT_CORR_WIN then some (if kind = 15 then 0 else satTo 24 (d.corrWin kind unit))
  else if f = F.FLT_UNIT_CNT_TRANS_WIN then some (if kind = 15 then 0 else satTo 16 (d.transWin kind unit))
  else if f = F.FLT_UNIT_CNT_STATE then some (if kind = 15 then 0 else d.unitState kind unit)
  else none
/-- Identity fields of a window (R600). -/
def Dev.showId (d : Dev) (f : Fld) (fn : Nat) : Option Nat :=
  if 0x48 ≤ f.addr ∨ f.addr = 0 ∨ f.addr = F.ID_CAP0_PORTS.addr ∨ f = F.ID_MAC_COUNT ∨ f = F.ID_FUNC_WIN_LOG2 then none
  else if f = F.ID_FUNC_FUNCTION ∨ f = F.ID_FUNC_PARTITION then some fn
  else if f = F.ID_FUNC_IS_VF then some (b2n (fn != 0))
  else if f = F.ID_FUNC_TOTAL_VFS then some (bits (d.gi F.RST_OPT_IMAGE_BYTES 0) 32 5)
  else if f = F.ID_MAC_BASE then some Config.macBase
  else some (Config.identity f.addr f.lo (fn != 0))

/-! ## The read (R8, R14, R596 to R599) -/

/-- The value of a field's instance in the window of a function: shadowed fields read the most recent value written (R14). -/
def Dev.readField (d : Dev) (fn : Nat) (f : Fld) (i : Nat) : Nat :=
  let own := (((d.showNode f fn).or (d.showHamper f i)).or (d.showWork f fn i)).or ((d.showZero f i).or ((d.showRest f fn i).or (d.showId f fn)))
  let v := match idleFields.find? fun e => e.1 == f with
    | some e => d.showIdle e.2 fn
    | none => own.getD (if f.cls = .s then d.latest f fn i else d.gf f fn i)
  v % 2 ^ f.w
/-- A register of a window as it is read whole; an offset without a register, and one not granted, reads 0 (R596, R597). -/
def Dev.readReg (d : Dev) (fn off : Nat) : Nat :=
  (fieldsAt off).foldl (fun a e =>
    if d.instLimit e.1 fn ≤ e.2 ∨ !d.mayRead e.1 fn e.2 then a else a + d.readField fn e.1 e.2 * 2 ^ e.1.lo) 0
/-- What a read of a window returns: an access of 32 bits reads all ones (R8, R599). -/
def State.read (s : State) (fn off : Nat) (wide : Bool) : Nat := if wide then s.dev.readReg fn off else 0xFFFFFFFF

end Sys2Proof.Machine
end

