-- ==== Sys2Proof/Machine/RegRows.lean ====
section
/-! DEFINITION. Register writes: field classes, the actions that writes start, enable and stop of blocks, rings and queues, and the
doorbells of VCP (R8, R12 to R19, R61, R141, R515, R516, R534, R537, R541 to R543, R572, R574, R582, R624). -/
namespace Sys2Proof.Machine
open Sys2Proof

/-! ## One field (R12 to R18) -/

/-- What the value of a field changes at once beside the field: a shorter window discards old buckets, a higher ceiling lets
pages into the write buffer, and PPS_EN cleared gives up the 1PPS input (R69, R357, R582). -/
def Dev.wrote (d : Dev) (f : Fld) : Dev :=
  if f = F.FLT_CTL_WINDOW_H then
    { d with flt := { d.flt with buckets := NMap.mapV d.flt.buckets fun _ bs => bs.take (d.g F.FLT_CTL_WINDOW_H) } }
  else if f = F.TIM_CTL_PPS_EN then
    { d with sync := { d.sync with ppsUsed := d.sync.ppsUsed && d.on F.TIM_CTL_PPS_EN } }
  else if f = F.HMP_DIRTY_CEIL_DELTA_MIB ∨ f = F.HMP_DIRTY_CEIL_BUF_MIB then d.admitAll
  else d

/-- The outcome of a write of one field by its class: the block, and the action that the write starts. `ok` says whether the
value is in range (R12 to R18). -/
def Dev.writeField (d : Dev) (fn off : Nat) (f : Fld) (i v whole : Nat) (ok : Bool) : Dev × Option Act :=
  let keeps := v == d.readField fn f i
  if (f.cls = .c ∨ f.cls = .k) ∧ keeps then (d, none)
  else if !ok then (d.reject fn off .badParam, none)
  else if f.cls = .c then (d.reject fn off .denied, none)
  else if f.cls = .k ∧ !enableFields.contains f ∧ d.fieldRuns f fn i then (d.reject fn off .busy, none)
  else if f.addr = F.PGS_PTPOOL_BLOCKS.addr ∧ d.pagesInUse i then (d.reject fn off .busy, none)
  else match d.actOf f fn i v whole with
    | some a => (d, some a)
    | none =>
      if actionOnly f then (d, none)
      else if f.cls = .s ∧ d.fieldRuns f fn i then ({ d with pendS := d.pendS ++ [(f.key fn i, normal f v)] }, none)
      else
        let d := { d with pendS := d.pendS.filter fun e => e.1 != f.key fn i }
        let d := if f.cls = .s then d.seeNow (· == f.key fn i) else d
        ((d.sf f fn i (normal f v)).wrote f, none)

/-- A write of PGS_REGION: both fields are checked together (R141). -/
def Dev.writeRegion (d : Dev) (fn off i whole : Nat) : Dev :=
  let bins := bits whole 0 19
  let base := bits whole 24 19
  if bins = d.gi F.PGS_REGION_BINS i ∧ base = d.gi F.PGS_REGION_BASE i then d
  else if Config.dieBins < bins then d.reject fn off .badParam
  else if d.running F.PGS_CTL_EN || d.pagesInUse i then d.reject fn off .busy
  else if bins ≠ 0 ∧ !d.laidOut i bins base (d.gi F.PGS_PTPOOL_BLOCKS i) then d.reject fn off .badParam
  else (d.si F.PGS_REGION_BINS i bins).si F.PGS_REGION_BASE i base

/-! ## One register (R8, R17, R19, R541, R596, R597) -/

/-- The block with the fields of a write that `ok` holds of, each at the value written, the others at the values in effect: what
stated relations between fields are checked against (R18, R67; log entry 10). -/
def Dev.trial (d : Dev) (fn whole : Nat) (ok : Fld × Nat → Bool) (fs : List (Fld × Nat)) : Dev :=
  fs.foldl (fun (d : Dev) (e : Fld × Nat) =>
    if e.1.cls = .c ∨ !ok e then d else d.sf e.1 fn e.2 (bits whole e.1.lo e.1.w)) d
/-- The fields of a write whose value is in range: the timers of R67 against the values in effect, any other field against the values
that the same write gives the others of its register (R18, R67; log entry 10). -/
def Dev.inRange (d : Dev) (fn whole : Nat) (fs : List (Fld × Nat)) (e : Fld × Nat) : Bool :=
  let ok (t : Dev) (e : Fld × Nat) : Bool := t.rangeOk e.1 fn e.2 (bits whole e.1.lo e.1.w)
  if e.1.addr = F.TIM_DPATH_STAKE_US.addr ∨ e.1.addr = F.TIM_LEASE_RENEW_MS.addr then ok d e
  else
    let t0 := d.trial fn whole (fun _ => true) fs
    ok t0 e && ok (d.trial fn whole (ok t0) fs) e
/-- A write of the fields of one register, in field order: the block, and the actions that it starts. Each field that is discarded
makes a record, a count and an event of its own (DESIGN CHOICE: R17 does not say whether one write counts once; log entry 10). -/
def Dev.writeFields (d : Dev) (fn off whole : Nat) (ok : Fld × Nat → Bool) : List (Fld × Nat) → Dev × List Act
  | [] => (d, [])
  | (f, i) :: fs =>
    let (d, a) := d.writeField fn off f i (bits whole f.lo f.w) whole (ok (f, i))
    let (d, as) := Dev.writeFields d fn off whole ok fs
    (d, a.toList ++ as)
/-- A tenant may select only subscribers that its partition owns (R489). -/
def Dev.maySelect (d : Dev) (fn off whole : Nat) : Bool :=
  fn == 0 || off != F.SHP_NODE_SEL_KIND.addr ||
    (bits whole 0 2 == 0 && (d.node 0 (bits whole 2 16)).valid && (d.node 0 (bits whole 2 16)).owner == fn)
/-- Some fields of a register are written by a function. -/
def Dev.writeSome (d : Dev) (fn off whole : Nat) : List (Fld × Nat) → Dev × List Act
  | [] => (d.reject fn off .badParam, [])
  | (f, i) :: fs =>
    if d.instLimit f fn ≤ i then (d.reject fn off .denied, [])
    else if fn ≠ 0 ∧ f.grant ≠ .fnWrite ∧ f.grant ≠ .ownWrite then (d.reject fn off .denied, [])
    else if !d.maySelect fn off whole then (d.reject fn off .denied, [])
    else if f.addr = F.PGS_REGION_BINS.addr then (d.writeRegion fn off i whole, [])
    else d.writeFields fn off whole (d.inRange fn whole ((f, i) :: fs)) ((f, i) :: fs)
/-- A register write reaches the window of a function. -/
def Dev.writeReg (d : Dev) (fn off whole : Nat) (wide : Bool) : Dev × List Act :=
  if !wide then (d.reject fn off .badParam, []) else d.writeSome fn off whole (fieldsAt off)

/-! ## Enable fields and regions (R13, R141, R574, R624) -/

/-- A write of 1 to an enable field: BUSY while the block stops or a prerequisite is off. The hamper restores its maps again after
a reset of its block (R375), and groups may become ready (R625). -/
def Dev.enableBlock (d : Dev) (fn off : Nat) (en : Fld) : Dev :=
  if d.on en then d
  else if d.stopping en || (prereqs en).any (fun p => !d.on p) then d.reject fn off .busy
  else if en = F.PGS_CTL_EN ∧ !(d.dieLaidOut 0 && d.dieLaidOut 1) then d.reject fn off .badParam
  else
    let d := d.s en 1
    let d := { d with rst := { d.rst with stopping := d.rst.stopping.filter (· != en.addr) } }
    if en = F.HMP_CTL_EN then
      [0, 1].foldl (fun (d : Dev) h => if (d.half h).restored then d else d.setHstate h .recovering) d
    else if en = F.TIM_CTL_EN then d.checkReadyAll
    else d
/-- A write of 0 to an enable field starts the block's stop sequence (R13). -/
def Dev.stopBlock (d : Dev) (en : Fld) : Dev :=
  if !d.on en then d
  else
    let d := d.s en 0
    { d with rst := { d.rst with stopping := d.rst.stopping.filter (· != en.addr) ++ [en.addr] } }
/-- Something resident keeps the regions where they are (R624). -/
def Dev.resident (d : Dev) : Bool :=
  !d.att.profiles.isEmpty || !d.att.weaves.isEmpty || !d.tok.grams.isEmpty || d.tok.tkz.any (fun e => !e.2.onChip) ||
    !d.sft.idx.isEmpty || !d.sec.staged.isEmpty || d.pagesInUse 0 || d.pagesInUse 1
/-- A write that changes a region size lays both dies out afresh (R624). -/
def Dev.relayout (d : Dev) (fn off : Nat) (f : Fld) (v : Nat) : Dev :=
  if d.resident then d.reject fn off .busy
  else
    let e := (d.s f v).layOut
    if e.pageBins 0 = 0 ∨ e.pageBins 1 = 0 then d.reject fn off .badParam else e

/-! ## Rings and queues (R515, R516, R534, R537, R542, R543) -/

/-- A ring whose entries cannot be read enters ERROR, which clears EN (R513, R542). -/
def Dev.ringError (d : Dev) (fn r : Nat) : Dev := (d.sf F.CMD_RQ_STATUS_STATE fn r 3).sf F.CMD_RQ_CFG_EN fn r 0
/-- A write of TAIL: BUSY while EN is 0, BAD_PARAM beyond the ring's size (R515). `io` says whether the entries can be read. -/
def Dev.tailWrite (d : Dev) (fn r v : Nat) (io : Bool) : Dev :=
  let off := F.CMD_RQ_DB_TAIL.off r
  let n := beyond v (d.gf F.CMD_RQ_STATUS_TAKEN fn r)
  if d.gf F.CMD_RQ_CFG_EN fn r ≠ 1 then d.reject fn off .busy
  else if 2 ^ d.gf F.CMD_RQ_CFG_RQ_LOG2 fn r < n then d.reject fn off .badParam
  else
    let d := d.sf F.CMD_RQ_DB_TAIL fn r v
    if io ∨ n = 0 then d else d.ringError fn r
/-- A write of a reply ring's HEAD: replies that waited are written, and the interrupt is armed (R516, R537). -/
def Dev.replyHead (d : Dev) (fn r v : Nat) (arm : Bool) : Dev :=
  let d := d.sf F.CMD_RP_DB_HEAD fn r v
  let x := d.ring fn r
  let d := if arm then
      d.setRing fn r { x with arm := x.arm.set d.now (d.gf F.CMD_RQ_CFG_MOD_COUNT fn r) (d.gf F.CMD_RQ_CFG_MOD_US fn r) }
    else d
  let d := d.modRing fn r
  let d := if d.ringWrites fn r then d.flushReplies fn r (d.ring fn r).waiting else d
  d.sf F.CMD_RQ_STATUS_STALLED fn r (b2n (d.ringWrites fn r && !d.ringRoom fn r))
/-- A write of an event queue's HEAD: held events are written, and the interrupt is armed (R534, R537). -/
def Dev.eventHead (d : Dev) (fn q v : Nat) (arm : Bool) : Dev :=
  let d := d.sf F.CMD_EQ_DB_HEAD fn q v
  let x := d.queue fn q
  let d := if arm then
      d.setQueue fn q { x with arm := x.arm.set d.now (d.gf F.CMD_EQ_CFG_MOD_COUNT fn q) (d.gf F.CMD_EQ_CFG_MOD_US fn q) }
    else d
  (d.modQueue fn q).drain fn q
/-- A ring is enabled: its counts restart, and taking begins; BUSY while it stops (R13, R515, R542). `io` says whether its reply
ring can be written. -/
def Dev.ringOn (d : Dev) (fn r : Nat) (io : Bool) : Dev :=
  if d.gf F.CMD_RQ_STATUS_STATE fn r = 2 then d.reject fn (F.CMD_RQ_CFG_EN.off r) .busy
  else
    let d := ((d.sf F.CMD_RQ_CFG_EN fn r 1).sf F.CMD_RQ_STATUS_STATE fn r 1).sf F.CMD_RQ_STATUS_STALLED fn r 0
    let d := ((d.sf F.CMD_RQ_DB_TAIL fn r 0).sf F.CMD_RQ_STATUS_TAKEN fn r 0).sf F.CMD_RP_DB_HEAD fn r 0
    let x := d.ring fn r
    let a : Arm := { x.arm with
      stamps := []
      due := none }
    d.setRing fn r { x with
      replies := 0
      waiting := []
      muted := x.busy.isSome
      noWrite := !io
      arm := a }
/-- A ring is disabled: taking stops, and the command being executed completes; its reply is logged and not written (R538,
R542). -/
def Dev.ringOff (d : Dev) (fn r : Nat) : Dev :=
  let x := d.ring fn r
  let d := (d.sf F.CMD_RQ_CFG_EN fn r 0).sf F.CMD_RQ_STATUS_STATE fn r (if x.busy.isSome then 2 else 0)
  (d.sf F.CMD_RQ_STATUS_STALLED fn r 0).setRing fn r { x with waiting := [] }
/-- An event queue is enabled: its counts restart, and held events are written first (R515, R534, R543). -/
def Dev.queueOn (d : Dev) (fn q : Nat) (io : Bool) : Dev :=
  let d := ((d.sf F.CMD_EQ_CFG_EN fn q 1).sf F.CMD_EQ_STATUS_STATE fn q 1).sf F.CMD_EQ_DB_HEAD fn q 0
  let x := d.queue fn q
  let a : Arm := { x.arm with
    stamps := []
    due := none }
  (d.setQueue fn q { x with
    written := 0
    noWrite := !io
    arm := a }).drain fn q
/-- An event queue is disabled: new events go to the backlog (R543). -/
def Dev.queueOff (d : Dev) (fn q : Nat) : Dev := (d.sf F.CMD_EQ_CFG_EN fn q 0).sf F.CMD_EQ_STATUS_STATE fn q 0
/-- Partition 0's default queue is named: held events go to it ahead of new ones (R533, R541). -/
def Dev.nameQueue (d : Dev) (v : Nat) : Dev :=
  let d := d.s F.CMD_CTL_SYS_EQ v
  if v = 0xFFFF then d else d.drain 0 v

/-! ## Actions -/

/-- The action that a write starts. -/
def Dev.act (d : Dev) (fn off : Nat) (io : Bool) : Act → Dev
  | .enable en => d.enableBlock fn off en
  | .stop en => d.stopBlock en
  | .relayout f v => d.relayout fn off f v
  | .restart g => if d.phase g = 4 then d.restartGroup g else d.reject fn off .badParam
  | .go => if d.bootPhase = 1 ∨ d.bootPhase = 2 then d.s F.RST_STATE_PHASE 3 else d.reject fn off .badParam
  | .tail fn r v => d.tailWrite fn r v io
  | .rpHead fn r v arm => d.replyHead fn r v arm
  | .eqHead fn q v arm => d.eventHead fn q v arm
  | .ringOn fn r => d.ringOn fn r io
  | .ringOff fn r => d.ringOff fn r
  | .queueOn fn q => d.queueOn fn q io
  | .queueOff fn q => d.queueOff fn q
  | .sysEq v => d.nameQueue v
/-- The actions of a write, in field order. -/
def Dev.acts (x : Dev × List Act) (fn off : Nat) (io : Bool) : Dev :=
  x.2.foldl (fun (d : Dev) a => d.act fn off io a) x.1
/-- The PCIe endpoint takes register writes: from the end of step 4 of start-up, and not in FAILED (R566, R572). -/
def Dev.mapped (d : Dev) : Bool := d.bootPhase != 4 && (d.bootPhase != 0 || 4 < d.g F.RST_STATE_STEP)
/-- One field of a register is written, the others left as they are. -/
def Dev.writeOne (d : Dev) (fn : Nat) (f : Fld) (i whole : Nat) (io : Bool) : Dev :=
  if !d.mapped then d else Dev.acts (d.writeSome fn (f.off i) whole [(f, i)]) fn (f.off i) io

/-! ## The rows -/

/-- REGISTER_WRITE: a function writes a register of its window, 64 or 32 bits wide; `io` says whether a ring or queue that the
write starts can be reached by DMA (R8, R12 to R19, R513). -/
def execRegisterWrite (fn off whole : Nat) (wide io : Bool) : State → Host.Outcome State Fault Refusal :=
  onUnit (fn < 32) fun _ d => if !d.mapped then d else Dev.acts (d.writeReg fn off whole wide) fn off io
/-- The enable field of an index. -/
def enableAt (i : Nat) : Fld := enableFields.getD i F.TIM_CTL_EN
/-- BLOCK_ENABLE: 1 is written to a block's enable field (R13, R574). -/
def execBlockEnable (fn block : Nat) : State → Host.Outcome State Fault Refusal :=
  onUnit (fn < 32 && block < 14) fun _ d => d.writeOne fn (enableAt block) 0 1 true
/-- BLOCK_STOP: 0 is written to a block's enable field (R13). -/
def execBlockStop (fn block : Nat) : State → Host.Outcome State Fault Refusal :=
  onUnit (fn < 32 && block < 14) fun _ d => d.writeOne fn (enableAt block) 0 0 true
/-- BLOCK_IDLE: a block that stops is idle, and reports so; a reset that waited for it goes on (R13, R576). -/
def execBlockIdle (block : Nat) : State → Host.Outcome State Fault Refusal :=
  onUnit (block < 14) fun m d =>
    let en := enableAt block
    if !d.rst.stopping.contains en.addr || !d.idle en then d
    else
      let d := { d with rst := { d.rst with stopping := d.rst.stopping.filter (· != en.addr) } }
      let due := d.rst.blocks.filter fun b => b.groups.isEmpty && (rowEnables b.row).contains en && d.rowIdle b.row
      due.foldl (fun (d : Dev) b => d.finishReset m b) d
/-- REGION_RELAYOUT: a size of an HBM region is written (R624). -/
def execRegionRelayout (fn field gib : Nat) : State → Host.Outcome State Fault Refusal :=
  onUnit (fn < 32 && field < 5) fun _ d =>
    let f := regionFields.getD field F.ATT_PRF_REGION_GIB
    d.writeOne fn f 0 (gib * 2 ^ f.lo) true
/-- GROUP_RESTART: 1 is written to TIM_GRP_CTL.RESTART (R61, R70). -/
def execGroupRestart (fn g : Nat) : State → Host.Outcome State Fault Refusal :=
  onUnit (fn < 32 && g < 64) fun _ d => d.writeOne fn F.TIM_GRP_CTL_RESTART g 1 true
/-- GO: 1 is written to RST_CTL.GO (R572). -/
def execGo (fn : Nat) : State → Host.Outcome State Fault Refusal :=
  onUnit (fn < 32) fun _ d => d.writeOne fn F.RST_CTL_GO 0 1 true
/-- COMMAND_DOORBELL: TAIL of a command ring is written (R515). -/
def execCommandDoorbell (fn ring tail : Nat) (io : Bool) : State → Host.Outcome State Fault Refusal :=
  onUnit (fn < 32 && ring < 64) fun _ d => d.writeOne fn F.CMD_RQ_DB_TAIL ring tail io
/-- REPLY_HEAD_WRITE: HEAD of a reply ring is written, with ARM (R516, R537). -/
def execReplyHeadWrite (fn ring head : Nat) (arm : Bool) : State → Host.Outcome State Fault Refusal :=
  onUnit (fn < 32 && ring < 64) fun _ d => d.writeOne fn F.CMD_RP_DB_HEAD ring (head % 2 ^ 32 + b2n arm * 2 ^ 32) true
/-- EVENT_HEAD_WRITE: HEAD of an event queue is written, with ARM (R534, R537). -/
def execEventHeadWrite (fn queue head : Nat) (arm : Bool) : State → Host.Outcome State Fault Refusal :=
  onUnit (fn < 32 && queue < 1024) fun _ d => d.writeOne fn F.CMD_EQ_DB_HEAD queue (head % 2 ^ 32 + b2n arm * 2 ^ 32) true
/-- RING_ENABLE: 1 is written to CMD_RQ_CFG.EN (R515, R542). -/
def execRingEnable (fn ring : Nat) (io : Bool) : State → Host.Outcome State Fault Refusal :=
  onUnit (fn < 32 && ring < 64) fun _ d => d.writeOne fn F.CMD_RQ_CFG_EN ring 1 io
/-- RING_DISABLE: 0 is written to CMD_RQ_CFG.EN (R542). -/
def execRingDisable (fn ring : Nat) : State → Host.Outcome State Fault Refusal :=
  onUnit (fn < 32 && ring < 64) fun _ d => d.writeOne fn F.CMD_RQ_CFG_EN ring 0 true
/-- EVENT_QUEUE_ENABLE: 1 is written to CMD_EQ_CFG.EN (R543). -/
def execEventQueueEnable (fn queue : Nat) (io : Bool) : State → Host.Outcome State Fault Refusal :=
  onUnit (fn < 32 && queue < 1024) fun _ d => d.writeOne fn F.CMD_EQ_CFG_EN queue 1 io
/-- EVENT_QUEUE_DISABLE: 0 is written to CMD_EQ_CFG.EN (R543). -/
def execEventQueueDisable (fn queue : Nat) : State → Host.Outcome State Fault Refusal :=
  onUnit (fn < 32 && queue < 1024) fun _ d => d.writeOne fn F.CMD_EQ_CFG_EN queue 0 true

end Sys2Proof.Machine
end

