-- ==== Sys2Proof/Machine/Dispatch.lean ====
section
/-! DEFINITION. The dispatch: one arm per command, each one direct call of its meaning. -/
namespace Sys2Proof.Machine
open Sys2Proof

/-- The effect of a command on everything but the queue of waiting commands. -/
def exec (i : Instr) (s : State) : Host.Outcome State Fault Refusal :=
  match i with
  | .registerWrite fn off whole wide io => Sys2Proof.Machine.execRegisterWrite fn off whole wide io s
  | .blockEnable fn block => Sys2Proof.Machine.execBlockEnable fn block s
  | .blockStop fn block => Sys2Proof.Machine.execBlockStop fn block s
  | .blockIdle block => Sys2Proof.Machine.execBlockIdle block s
  | .regionRelayout fn field gib => Sys2Proof.Machine.execRegionRelayout fn field gib s
  | .groupRestart fn g => Sys2Proof.Machine.execGroupRestart fn g s
  | .go fn => Sys2Proof.Machine.execGo fn s
  | .commandDoorbell fn ring tail io => Sys2Proof.Machine.execCommandDoorbell fn ring tail io s
  | .replyHeadWrite fn ring head arm => Sys2Proof.Machine.execReplyHeadWrite fn ring head arm s
  | .eventHeadWrite fn queue head arm => Sys2Proof.Machine.execEventHeadWrite fn queue head arm s
  | .ringEnable fn ring io => Sys2Proof.Machine.execRingEnable fn ring io s
  | .ringDisable fn ring => Sys2Proof.Machine.execRingDisable fn ring s
  | .eventQueueEnable fn queue io => Sys2Proof.Machine.execEventQueueEnable fn queue io s
  | .eventQueueDisable fn queue => Sys2Proof.Machine.execEventQueueDisable fn queue s
  | .interruptModeration fn isRing index => Sys2Proof.Machine.execInterruptModeration fn isRing index s
  | .sessionOpen h src len sub srv prof prio tkz port g compat cls select => Sys2Proof.Machine.execSessionOpen h src len sub srv prof prio tkz port g compat cls select s
  | .sessionClose h sid => Sys2Proof.Machine.execSessionClose h sid s
  | .turnBegin h sid isText ids text textAddr textLen maxNew push fallback compat cls setPrio setRet select batch batchSize prio => Sys2Proof.Machine.execTurnBegin h sid isText ids text textAddr textLen maxNew push fallback compat cls setPrio setRet select batch batchSize prio s
  | .turnCancel h sid turn keep => Sys2Proof.Machine.execTurnCancel h sid turn keep s
  | .loadProfile h staged handle len slot pkg => Sys2Proof.Machine.execLoadProfile h staged handle len slot pkg s
  | .loadWeave h len thr hb g img => Sys2Proof.Machine.execLoadWeave h len thr hb g img s
  | .unload h kind slot => Sys2Proof.Machine.execUnload h kind slot s
  | .loadTokenizer h slot pkg => Sys2Proof.Machine.execLoadTokenizer h slot pkg s
  | .loadGrammar h sid img pol n => Sys2Proof.Machine.execLoadGrammar h sid img pol n s
  | .bindGrammar h sid unbind grammar pol n => Sys2Proof.Machine.execBindGrammar h sid unbind grammar pol n s
  | .setStops h sid count data => Sys2Proof.Machine.execSetStops h sid count data s
  | .park h sid holder target => Sys2Proof.Machine.execPark h sid holder target s
  | .revive h sid mode => Sys2Proof.Machine.execRevive h sid mode s
  | .hintPlace h sid posLo posHi dflt layerLo layerHi code => Sys2Proof.Machine.execHintPlace h sid posLo posHi dflt layerLo layerHi code s
  | .setParkPolicy h sid hint fidelity => Sys2Proof.Machine.execSetParkPolicy h sid hint fidelity s
  | .siftInsert h handle replace key tags vec param bind nodesMax sideMax sideMerge dim efBuild degree metric fmt => Sys2Proof.Machine.execSiftInsert h handle replace key tags vec param bind nodesMax sideMax sideMerge dim efBuild degree metric fmt s
  | .siftDelete h handle drop key => Sys2Proof.Machine.execSiftDelete h handle drop key s
  | .siftQuery h handle widen vec res all any k ef maxProbes rerank widenProbes fmt => Sys2Proof.Machine.execSiftQuery h handle widen vec res all any k ef maxProbes rerank widenProbes fmt s
  | .siftMerge h handle => Sys2Proof.Machine.execSiftMerge h handle s
  | .mergeDone handle => Sys2Proof.Machine.execMergeDone handle s
  | .partCreate h p upd w0 w1 w2 w3 w4 => Sys2Proof.Machine.execPartCreate h p upd w0 w1 w2 w3 w4 s
  | .partDestroy h p => Sys2Proof.Machine.execPartDestroy h p s
  | .partDestroyed p => Sys2Proof.Machine.execPartDestroyed p s
  | .shaperSet h kind levelMode budgetOp owner index promptW rebuildW overhead rate partMask valid shape budgetOn burst budget => Sys2Proof.Machine.execShaperSet h kind levelMode budgetOp owner index promptW rebuildW overhead rate partMask valid shape budgetOn burst budget s
  | .isoModeSet h mode frameExp => Sys2Proof.Machine.execIsoModeSet h mode frameExp s
  | .attest h nonce addr len chain => Sys2Proof.Machine.execAttest h nonce addr len chain s
  | .bindAuthority h seq digest key setId sig => Sys2Proof.Machine.execBindAuthority h seq digest key setId sig s
  | .install h seq digest gen eph wrapped sig => Sys2Proof.Machine.execInstall h seq digest gen eph wrapped sig s
  | .retire h seq digest sig => Sys2Proof.Machine.execRetire h seq digest sig s
  | .clear h seq digest sig => Sys2Proof.Machine.execClear h seq digest sig s
  | .weightsUnwrap h addr len pkg => Sys2Proof.Machine.execWeightsUnwrap h addr len pkg s
  | .scrub h mode => Sys2Proof.Machine.execScrub h mode s
  | .scrubDone ok => Sys2Proof.Machine.execScrubDone ok s
  | .ckptBegin h req => Sys2Proof.Machine.execCkptBegin h req s
  | .ckptRestore h req outAddr outLen gen busy bad fails mirrors others lostOthers => Sys2Proof.Machine.execCkptRestore h req outAddr outLen gen busy bad fails mirrors others lostOthers s
  | .composeMap h outAddr outLen img => Sys2Proof.Machine.execComposeMap h outAddr outLen img s
  | .ownerQuery h sid addr desc => Sys2Proof.Machine.execOwnerQuery h sid addr desc s
  | .blockReset h block asserted => Sys2Proof.Machine.execBlockReset h block asserted s
  | .blockIdleTimeout row => Sys2Proof.Machine.execBlockIdleTimeout row s
  | .deviceReset h kind => Sys2Proof.Machine.execDeviceReset h kind s
  | .syncQuery h outAddr outLen ring => Sys2Proof.Machine.execSyncQuery h outAddr outLen ring s
  | .syncReplay h outAddr frm outLen ring => Sys2Proof.Machine.execSyncReplay h outAddr frm outLen ring s
  | .syncReset h frm ring => Sys2Proof.Machine.execSyncReset h frm ring s
  | .faultReport h addr len frm => Sys2Proof.Machine.execFaultReport h addr len frm s
  | .healthRead h addr len => Sys2Proof.Machine.execHealthRead h addr len s
  | .functionLevelReset fn => Sys2Proof.Machine.execFunctionLevelReset fn s
  | .perst => Sys2Proof.Machine.execPerst s
  | .stakeDoorbell g member word => Sys2Proof.Machine.execStakeDoorbell g member word s
  | .stakeTimeout g => Sys2Proof.Machine.execStakeTimeout g s
  | .rowTimeout g => Sys2Proof.Machine.execRowTimeout g s
  | .rowBoundary g => Sys2Proof.Machine.execRowBoundary g s
  | .boundaryReportSend g => Sys2Proof.Machine.execBoundaryReportSend g s
  | .boundaryReport src gid row epoch mapEpoch status void cutOk cutFail owns restart => Sys2Proof.Machine.execBoundaryReport src gid row epoch mapEpoch status void cutOk cutFail owns restart s
  | .memberLost g => Sys2Proof.Machine.execMemberLost g s
  | .beacon src gid row epoch mapEpoch void resync cut reconf memberLost voidMap => Sys2Proof.Machine.execBeacon src gid row epoch mapEpoch void resync cut reconf memberLost voidMap s
  | .rowBegin g => Sys2Proof.Machine.execRowBegin g s
  | .beaconQuery src gid row epoch mapEpoch => Sys2Proof.Machine.execBeaconQuery src gid row epoch mapEpoch s
  | .mapReady src gid row epoch mapEpoch => Sys2Proof.Machine.execMapReady src gid row epoch mapEpoch s
  | .beaconLimit g => Sys2Proof.Machine.execBeaconLimit g s
  | .takeover g => Sys2Proof.Machine.execTakeover g s
  | .queryTile g m qp imm bytes => Sys2Proof.Machine.execQueryTile g m qp imm bytes s
  | .tokenList g member row entries => Sys2Proof.Machine.execTokenList g member row entries s
  | .pushTile g die qp imm bytes => Sys2Proof.Machine.execPushTile g die qp imm bytes s
  | .rangePartial src tile => Sys2Proof.Machine.execRangePartial src tile s
  | .stepFire engine station => Sys2Proof.Machine.execStepFire engine station s
  | .selection sid stake => Sys2Proof.Machine.execSelection sid stake s
  | .cowCopy slot layer page => Sys2Proof.Machine.execCowCopy slot layer page s
  | .descriptorFetch slot ok => Sys2Proof.Machine.execDescriptorFetch slot ok s
  | .stallWatchdog e => Sys2Proof.Machine.execStallWatchdog e s
  | .taskComplete engine => Sys2Proof.Machine.execTaskComplete engine s
  | .preemptionWait engine => Sys2Proof.Machine.execPreemptionWait engine s
  | .yield engine => Sys2Proof.Machine.execYield engine s
  | .save engine => Sys2Proof.Machine.execSave engine s
  | .restore engine => Sys2Proof.Machine.execRestore engine s
  | .idleToPark sid => Sys2Proof.Machine.execIdleToPark sid s
  | .parkDurable sid => Sys2Proof.Machine.execParkDurable sid s
  | .mirrorTimeout sid => Sys2Proof.Machine.execMirrorTimeout sid s
  | .reviveComplete sid data => Sys2Proof.Machine.execReviveComplete sid data s
  | .rebuildTimeout sid => Sys2Proof.Machine.execRebuildTimeout sid s
  | .warmCopy sid ok data => Sys2Proof.Machine.execWarmCopy sid ok data s
  | .spillScan => Sys2Proof.Machine.execSpillScan s
  | .mirrorOpen src sid partition obj length epoch => Sys2Proof.Machine.execMirrorOpen src sid partition obj length epoch s
  | .mirrorData src sid obj offset data => Sys2Proof.Machine.execMirrorData src sid obj offset data s
  | .mirrorSeal src sid obj digest => Sys2Proof.Machine.execMirrorSeal src sid obj digest s
  | .mirrorDesc src sid partition epoch desc => Sys2Proof.Machine.execMirrorDesc src sid partition epoch desc s
  | .mirrorRelease src sid obj => Sys2Proof.Machine.execMirrorRelease src sid obj s
  | .mirrorAck src sid obj status length => Sys2Proof.Machine.execMirrorAck src sid obj status length s
  | .mirrorRead src sid obj offset length => Sys2Proof.Machine.execMirrorRead src sid obj offset length s
  | .mirrorReadData src sid obj offset status data => Sys2Proof.Machine.execMirrorReadData src sid obj offset status data s
  | .getDesc src sid => Sys2Proof.Machine.execGetDesc src sid s
  | .descReply src sid status body => Sys2Proof.Machine.execDescReply src sid status body s
  | .objectRelease half index => Sys2Proof.Machine.execObjectRelease half index s
  | .garbageCollection half victim dst more => Sys2Proof.Machine.execGarbageCollection half victim dst more s
  | .refresh half block dst reads bits => Sys2Proof.Machine.execRefresh half block dst reads bits s
  | .retentionScan half bits hard => Sys2Proof.Machine.execRetentionScan half bits hard s
  | .rootWrite half => Sys2Proof.Machine.execRootWrite half s
  | .mapSegmentWrite half b1 b2 => Sys2Proof.Machine.execMapSegmentWrite half b1 b2 s
  | .uncorrectablePage half ppa dst => Sys2Proof.Machine.execUncorrectablePage half ppa dst s
  | .programFailure half block dst => Sys2Proof.Machine.execProgramFailure half block dst s
  | .eraseFailure half block => Sys2Proof.Machine.execEraseFailure half block s
  | .hamperThermal half pkg temp => Sys2Proof.Machine.execHamperThermal half pkg temp s
  | .powerFail rail => Sys2Proof.Machine.execPowerFail rail s
  | .powerRestored => Sys2Proof.Machine.execPowerRestored s
  | .hamperRestore half => Sys2Proof.Machine.execHamperRestore half s
  | .messageSend peer bulk => Sys2Proof.Machine.execMessageSend peer bulk s
  | .write port ce tag room hdr data => Sys2Proof.Machine.execWrite port ce tag room hdr data s
  | .readReq port ce tag room hdr => Sys2Proof.Machine.execReadReq port ce tag room hdr s
  | .readResp port ce tag hdr data => Sys2Proof.Machine.execReadResp port ce tag hdr data s
  | .send port ce tag room hdr data => Sys2Proof.Machine.execSend port ce tag room hdr data s
  | .ack port ce tag hdr => Sys2Proof.Machine.execAck port ce tag hdr s
  | .messageVisible conn => Sys2Proof.Machine.execMessageVisible conn s
  | .ackTimer conn => Sys2Proof.Machine.execAckTimer conn s
  | .retransmission conn tsn => Sys2Proof.Machine.execRetransmission conn tsn s
  | .probeTimer conn path => Sys2Proof.Machine.execProbeTimer conn path s
  | .probe port ce tag hdr => Sys2Proof.Machine.execProbe port ce tag hdr s
  | .probeReply port ce tag hdr => Sys2Proof.Machine.execProbeReply port ce tag hdr s
  | .busyRetry conn msn => Sys2Proof.Machine.execBusyRetry conn msn s
  | .connReq port mac hdr data => Sys2Proof.Machine.execConnReq port mac hdr data s
  | .connAccept port mac hdr data => Sys2Proof.Machine.execConnAccept port mac hdr data s
  | .connReject port hdr reason => Sys2Proof.Machine.execConnReject port hdr reason s
  | .connReqRetry conn => Sys2Proof.Machine.execConnReqRetry conn s
  | .close port ce tag hdr => Sys2Proof.Machine.execClose port ce tag hdr s
  | .rekey port ce tag mac hdr data => Sys2Proof.Machine.execRekey port ce tag mac hdr data s
  | .connIdle conn => Sys2Proof.Machine.execConnIdle conn s
  | .connFailed conn => Sys2Proof.Machine.execConnFailed conn s
  | .connFailedEnd conn => Sys2Proof.Machine.execConnFailedEnd conn s
  | .pageFetch region page ok => Sys2Proof.Machine.execPageFetch region page ok s
  | .pageStall roce index seq => Sys2Proof.Machine.execPageStall roce index seq s
  | .roceWrite qp psn key addr imm ce data => Sys2Proof.Machine.execRoceWrite qp psn key addr imm ce data s
  | .roceRead qp psn key addr len ce => Sys2Proof.Machine.execRoceRead qp psn key addr len ce s
  | .roceSend qp psn op imm ce data => Sys2Proof.Machine.execRoceSend qp psn op imm ce data s
  | .cnp qp => Sys2Proof.Machine.execCnp qp s
  | .rateIncrease qp => Sys2Proof.Machine.execRateIncrease qp s
  | .roceAckTimeout qp => Sys2Proof.Machine.execRoceAckTimeout qp s
  | .linkUp port => Sys2Proof.Machine.execLinkUp port s
  | .linkDown port => Sys2Proof.Machine.execLinkDown port s
  | .neighbourSolicitation port hi lo => Sys2Proof.Machine.execNeighbourSolicitation port hi lo s
  | .ptpMessage port domain interval offset => Sys2Proof.Machine.execPtpMessage port domain interval offset s
  | .ppsPulse wide => Sys2Proof.Machine.execPpsPulse wide s
  | .holdover => Sys2Proof.Machine.execHoldover s
  | .holdoverLimit => Sys2Proof.Machine.execHoldoverLimit s
  | .renewTimer sid => Sys2Proof.Machine.execRenewTimer sid s
  | .renew src sid epoch renewMs expiryMs => Sys2Proof.Machine.execRenew src sid epoch renewMs expiryMs s
  | .renewAck src sid epoch status renewMs expiryMs => Sys2Proof.Machine.execRenewAck src sid epoch status renewMs expiryMs s
  | .fence sid => Sys2Proof.Machine.execFence sid s
  | .leaseReclaim sid => Sys2Proof.Machine.execLeaseReclaim sid s
  | .offer src sid epoch target => Sys2Proof.Machine.execOffer src sid epoch target s
  | .offerAck src sid status => Sys2Proof.Machine.execOfferAck src sid status s
  | .propose src sid epoch desc want image => Sys2Proof.Machine.execPropose src sid epoch desc want image s
  | .accept src sid epoch addr region gen => Sys2Proof.Machine.execAccept src sid epoch addr region gen s
  | .refuse src sid => Sys2Proof.Machine.execRefuse src sid s
  | .commit src sid epoch => Sys2Proof.Machine.execCommit src sid epoch s
  | .committed src sid epoch status => Sys2Proof.Machine.execCommitted src sid epoch status s
  | .notice src sid epoch target => Sys2Proof.Machine.execNotice src sid epoch target s
  | .offerDeadline sid => Sys2Proof.Machine.execOfferDeadline sid s
  | .abort src sid => Sys2Proof.Machine.execAbort src sid s
  | .commitResend sid => Sys2Proof.Machine.execCommitResend sid s
  | .handoffLost sid => Sys2Proof.Machine.execHandoffLost sid s
  | .reclaimed src sid epoch => Sys2Proof.Machine.execReclaimed src sid epoch s
  | .stateSync src sid epoch state tier histLen tokens => Sys2Proof.Machine.execStateSync src sid epoch state tier histLen tokens s
  | .syncAck src sid epoch status histLen => Sys2Proof.Machine.execSyncAck src sid epoch status histLen s
  | .redirect src sid epoch target => Sys2Proof.Machine.execRedirect src sid epoch target s
  | .dirPut src sid epoch owner acting buddy tier => Sys2Proof.Machine.execDirPut src sid epoch owner acting buddy tier s
  | .dirDel src sid => Sys2Proof.Machine.execDirDel src sid s
  | .dirAck src sid status => Sys2Proof.Machine.execDirAck src sid status s
  | .dirGet src sid => Sys2Proof.Machine.execDirGet src sid s
  | .dirReply src sid status epoch owner acting => Sys2Proof.Machine.execDirReply src sid status epoch owner acting s
  | .drainWindow => Sys2Proof.Machine.execDrainWindow s
  | .partitionExpiry p => Sys2Proof.Machine.execPartitionExpiry p s
  | .shedStep => Sys2Proof.Machine.execShedStep s
  | .clockStep => Sys2Proof.Machine.execClockStep s
  | .powerClamp watts => Sys2Proof.Machine.execPowerClamp watts s
  | .frameBoundary res quiet wants => Sys2Proof.Machine.execFrameBoundary res quiet wants s
  | .sensorSample temps avg peak vin iin bankMv => Sys2Proof.Machine.execSensorSample temps avg peak vin iin bankMv s
  | .thermalTrip sensor => Sys2Proof.Machine.execThermalTrip sensor s
  | .stageHold handle => Sys2Proof.Machine.execStageHold handle s
  | .getVersion doe => Sys2Proof.Machine.execGetVersion doe s
  | .getCapabilities doe ver => Sys2Proof.Machine.execGetCapabilities doe ver s
  | .negotiateAlgorithms doe ver asym hash => Sys2Proof.Machine.execNegotiateAlgorithms doe ver asym hash s
  | .getDigests doe ver => Sys2Proof.Machine.execGetDigests doe ver s
  | .getCertificate doe ver slot off len room => Sys2Proof.Machine.execGetCertificate doe ver slot off len room s
  | .challenge doe ver slot summary nonce room => Sys2Proof.Machine.execChallenge doe ver slot summary nonce room s
  | .getMeasurements doe ver index sign nonce room => Sys2Proof.Machine.execGetMeasurements doe ver index sign nonce room s
  | .chunkGet doe ver seq off len => Sys2Proof.Machine.execChunkGet doe ver seq off len s
  | .pldmFirmwareUpdate image slot opts svn1 svn2 sig1 sig2 => Sys2Proof.Machine.execPldmFirmwareUpdate image slot opts svn1 svn2 sig1 sig2 s
  | .powerOn => Sys2Proof.Machine.execPowerOn s
  | .bankCharged measured us => Sys2Proof.Machine.execBankCharged measured us s
  | .railTimeout => Sys2Proof.Machine.execRailTimeout s
  | .rstN => Sys2Proof.Machine.execRstN s
  | .startUp fails => Sys2Proof.Machine.execStartUp fails s
  | .coreWatchdog core held => Sys2Proof.Machine.execCoreWatchdog core held s
  | .correctedError kind idx n => Sys2Proof.Machine.execCorrectedError kind idx n s
  | .transientFault kind idx failed loc fn ring => Sys2Proof.Machine.execTransientFault kind idx failed loc fn ring s
  | .engineFault e loc => Sys2Proof.Machine.execEngineFault e loc s
  | .faultWindow => Sys2Proof.Machine.execFaultWindow s
  | .ckptPeriod g => Sys2Proof.Machine.execCkptPeriod g s
  | .ckptRequest src gid => Sys2Proof.Machine.execCkptRequest src gid s
  | .beginFwd src gid req => Sys2Proof.Machine.execBeginFwd src gid req s
  | .beginReply src gid status manifest cutRow => Sys2Proof.Machine.execBeginReply src gid status manifest cutRow s
  | .prepare src gid manifest cutRow flags => Sys2Proof.Machine.execPrepare src gid manifest cutRow flags s
  | .prepared src gid manifest status => Sys2Proof.Machine.execPrepared src gid manifest status s
  | .shardOpen src gid manifest flags length => Sys2Proof.Machine.execShardOpen src gid manifest flags length s
  | .shardData src manifest flags offset data => Sys2Proof.Machine.execShardData src manifest flags offset data s
  | .shardSeal src gid manifest flags digest => Sys2Proof.Machine.execShardSeal src gid manifest flags digest s
  | .ckptAck src gid manifest flags status => Sys2Proof.Machine.execCkptAck src gid manifest flags status s
  | .shardDurable g => Sys2Proof.Machine.execShardDurable g s
  | .shardDone src gid manifest entries => Sys2Proof.Machine.execShardDone src gid manifest entries s
  | .manifestDurable g => Sys2Proof.Machine.execManifestDurable g s
  | .commitGen src gid manifest cutRow => Sys2Proof.Machine.execCommitGen src gid manifest cutRow s
  | .ckptAbort src gid manifest cause => Sys2Proof.Machine.execCkptAbort src gid manifest cause s
  | .shardRelease src manifest => Sys2Proof.Machine.execShardRelease src manifest s
  | .ckptBarrierTimeout g => Sys2Proof.Machine.execCkptBarrierTimeout g s
  | .ckptWriteTimeout g => Sys2Proof.Machine.execCkptWriteTimeout g s
  | .flushComplete ms => Sys2Proof.Machine.execFlushComplete ms s
  | .belowModuleMinimum => Sys2Proof.Machine.execBelowModuleMinimum s
  | .rstNRelease => Sys2Proof.Machine.execRstNRelease s
  | .railRetry => Sys2Proof.Machine.execRailRetry s
  | .ppsTimeout => Sys2Proof.Machine.execPpsTimeout s
  | .roceAck qp psn nak => Sys2Proof.Machine.execRoceAck qp psn nak s
  | .pfcPause port prio pause => Sys2Proof.Machine.execPfcPause port prio pause s
  | .rxDrop port fcs => Sys2Proof.Machine.execRxDrop port fcs s
  | .forwardingExpiry sid => Sys2Proof.Machine.execForwardingExpiry sid s
  | .vectorUnmask fn vec => Sys2Proof.Machine.execVectorUnmask fn vec s
  | .unassignedOpcode h op => Sys2Proof.Machine.execUnassignedOpcode h op s
  | .unsupportedRequest doe ver req => Sys2Proof.Machine.execUnsupportedRequest doe ver req s
  | .warmHolding src sid release length partition => Sys2Proof.Machine.execWarmHolding src sid release length partition s
  | .nandProgramDone half blocks lpns => Sys2Proof.Machine.execNandProgramDone half blocks lpns s

end Sys2Proof.Machine
end

