-- ==== Sys2Proof/Machine/Step.lean ====
section
/-! DEFINITION. One step: the command at the front of the queue, or one nanosecond of the clocks. -/
namespace Sys2Proof.Machine
open Sys2Proof

/-- The command at the front of the queue acts on the state with the queue's rest; with no command waiting, one
nanosecond passes (log entry 4). -/
def step (s : State) : Host.Outcome State Fault Refusal :=
  match s.pending with
  | [] => onDev (fun _ d => d.tick) s
  | c :: cs => exec c { s with pending := cs }

/-- The state with the command that a word spells put at the front of its queue. -/
def State.withFetchWord (s : State) (nbits w : Nat) : State :=
  match decodeTableWord nbits w with
  | some c => { s with pending := c :: s.pending }
  | none => s

end Sys2Proof.Machine
end

