-- ==== Sys2Proof/Safety.lean ====
section
/-! DEFINITION. The terms in which claims are made: the invariant that every step keeps, the state in which a command's own rules
run, and the state after its reply. -/
namespace Sys2Proof
open Machine

/-- The partition's header and the opcode of a command of the protocol (R519, R524). -/
def Instr.entry : Instr → Option (Hdr × Nat)
  | .sessionOpen h _ _ _ _ _ _ _ _ _ _ _ _ => some (h, 0x0101)
  | .sessionClose h _ => some (h, 0x0102)
  | .turnBegin h _ _ _ _ _ _ _ _ _ _ _ _ _ _ _ _ _ => some (h, 0x0103)
  | .turnCancel h _ _ _ => some (h, 0x0104)
  | .loadProfile h _ _ _ _ _ => some (h, 0x0201)
  | .loadWeave h _ _ _ _ _ => some (h, 0x0202)
  | .unload h _ _ => some (h, 0x0203)
  | .loadTokenizer h _ _ => some (h, 0x0301)
  | .loadGrammar h _ _ _ _ => some (h, 0x0302)
  | .bindGrammar h _ _ _ _ _ => some (h, 0x0303)
  | .setStops h _ _ _ => some (h, 0x0304)
  | .park h _ _ _ => some (h, 0x0401)
  | .revive h _ _ => some (h, 0x0402)
  | .hintPlace h _ _ _ _ _ _ _ => some (h, 0x0403)
  | .setParkPolicy h _ _ _ => some (h, 0x0404)
  | .siftInsert h _ _ _ _ _ _ _ _ _ _ _ _ _ _ _ => some (h, 0x0501)
  | .siftDelete h _ _ _ => some (h, 0x0502)
  | .siftQuery h _ _ _ _ _ _ _ _ _ _ _ _ => some (h, 0x0503)
  | .siftMerge h _ => some (h, 0x0504)
  | .partCreate h _ _ _ _ _ _ _ => some (h, 0x0601)
  | .partDestroy h _ => some (h, 0x0602)
  | .shaperSet h _ _ _ _ _ _ _ _ _ _ _ _ _ _ _ => some (h, 0x0603)
  | .isoModeSet h _ _ => some (h, 0x0604)
  | .attest h _ _ _ _ => some (h, 0x0701)
  | .bindAuthority h _ _ _ _ _ => some (h, 0x0702)
  | .install h _ _ _ _ _ _ => some (h, 0x0702)
  | .retire h _ _ _ => some (h, 0x0702)
  | .clear h _ _ _ => some (h, 0x0702)
  | .weightsUnwrap h _ _ _ => some (h, 0x0703)
  | .scrub h _ => some (h, 0x0704)
  | .ckptBegin h _ => some (h, 0x0801)
  | .ckptRestore h _ _ _ _ _ _ _ _ _ _ => some (h, 0x0802)
  | .composeMap h _ _ _ => some (h, 0x0803)
  | .ownerQuery h _ _ _ => some (h, 0x0804)
  | .blockReset h _ _ => some (h, 0x0901)
  | .deviceReset h _ => some (h, 0x0902)
  | .syncQuery h _ _ _ => some (h, 0x0903)
  | .syncReplay h _ _ _ _ => some (h, 0x0903)
  | .syncReset h _ _ => some (h, 0x0903)
  | .faultReport h _ _ _ => some (h, 0x0904)
  | .healthRead h _ _ => some (h, 0x0905)
  | .unassignedOpcode h op => if assigned op then none else some (h, op)
  | _ => none

/-- The events and pins of the module, which act while the controller is held too (R373, R602 to R618). -/
def Instr.supervised : Instr → Bool
  | .powerOn | .bankCharged _ _ | .railTimeout | .railRetry | .powerFail _ | .flushComplete _ | .powerRestored |
    .belowModuleMinimum | .rstN | .rstNRelease | .sensorSample _ _ _ _ _ _ | .thermalTrip _ => true
  | _ => false

/-- The units that an event or a register write names are units that the block has. -/
def Instr.fitted : Instr → Bool
  | .registerWrite fn _ _ _ _ => decide (fn < 32)
  | .blockEnable fn block => fn < 32 && block < 14
  | .blockStop fn block => fn < 32 && block < 14
  | .blockIdle block => decide (block < 14)
  | .regionRelayout fn field _ => fn < 32 && field < 5
  | .groupRestart fn g => fn < 32 && g < 64
  | .go fn => decide (fn < 32)
  | .commandDoorbell fn ring _ _ => fn < 32 && ring < 64
  | .replyHeadWrite fn ring _ _ => fn < 32 && ring < 64
  | .eventHeadWrite fn queue _ _ => fn < 32 && queue < 1024
  | .ringEnable fn ring _ => fn < 32 && ring < 64
  | .ringDisable fn ring => fn < 32 && ring < 64
  | .eventQueueEnable fn queue _ => fn < 32 && queue < 1024
  | .eventQueueDisable fn queue => fn < 32 && queue < 1024
  | .interruptModeration fn _ _ => decide (fn < 32)
  | .partDestroyed p => 1 ≤ p && p < 32
  | .blockIdleTimeout row => decide (row < 12)
  | .functionLevelReset fn => decide (fn < 32)
  | .stakeDoorbell g _ _ => decide (g < 64)
  | .stakeTimeout g => decide (g < 64)
  | .rowTimeout g => decide (g < 64)
  | .rowBoundary g => decide (g < 64)
  | .boundaryReportSend g => decide (g < 64)
  | .memberLost g => decide (g < 64)
  | .rowBegin g => decide (g < 64)
  | .beaconLimit g => decide (g < 64)
  | .takeover g => decide (g < 64)
  | .queryTile g _ _ _ _ => decide (g < 64)
  | .tokenList g _ _ _ => decide (g < 64)
  | .pushTile g die _ _ _ => g < 64 && die < 2
  | .stepFire engine station => engine < 64 && station < 6
  | .descriptorFetch slot _ => decide (slot < 4194304)
  | .stallWatchdog e => decide (e < 64)
  | .taskComplete engine => decide (engine < 64)
  | .preemptionWait engine => decide (engine < 64)
  | .yield engine => decide (engine < 64)
  | .save engine => decide (engine < 64)
  | .restore engine => decide (engine < 64)
  | .objectRelease half _ => decide (half < 2)
  | .garbageCollection half _ _ _ => decide (half < 2)
  | .refresh half _ _ _ _ => decide (half < 2)
  | .retentionScan half _ _ => decide (half < 2)
  | .rootWrite half => decide (half < 2)
  | .mapSegmentWrite half _ _ => decide (half < 2)
  | .uncorrectablePage half _ _ => decide (half < 2)
  | .programFailure half block _ => half < 2 && block < 256 * lunBlocks
  | .eraseFailure half block => half < 2 && block < 256 * lunBlocks
  | .hamperThermal half pkg _ => half < 2 && pkg < 32
  | .hamperRestore half => decide (half < 2)
  | .partitionExpiry p => 1 ≤ p && p < 32
  | .coreWatchdog core _ => decide (core < 8)
  | .correctedError kind idx _ => unitFitted kind idx
  | .transientFault kind idx _ _ fn _ => unitFitted kind idx && fn < 32
  | .engineFault e _ => decide (e < 64)
  | .ckptPeriod g => decide (g < 64)
  | .shardDurable g => decide (g < 64)
  | .manifestDurable g => decide (g < 64)
  | .ckptBarrierTimeout g => decide (g < 64)
  | .ckptWriteTimeout g => decide (g < 64)
  | .vectorUnmask fn _ => decide (fn < 32)
  | .nandProgramDone half _ _ => decide (half < 2)
  | _ => true

/-- The opcodes that partition 0 alone may issue (R524). -/
def systemOps : List Nat :=
  [0x0201, 0x0202, 0x0301, 0x0601, 0x0602, 0x0603, 0x0604, 0x0702, 0x0703, 0x0704, 0x0801, 0x0802, 0x0803, 0x0901, 0x0902,
    0x0904, 0x0905]

end Sys2Proof

namespace Sys2Proof.Machine
open Sys2Proof

/-- The HBM is in its canonical form, and no HBM write of a step is left over. -/
def State.safe (s : State) : Bool := Memory.wf s.hbm && s.dev.wr.isEmpty

/-- The controller runs: it is not held in reset, without power or in the power-loss flush (R373, R606, R610). -/
def State.runs (s : State) : Bool := !s.dev.rst.held

/-- The block without its registers, its rings and queues, and what it has sent. -/
def Dev.rest (d : Dev) : Dev :=
  { d with
    regs := []
    cmd := {}
    out := [] }

/-- The block in which the rules of a taken entry run: TAKEN and NEXT_HSEQ have advanced, and the time of the partition's last
command is noted (R468, R515, R526). -/
def Dev.entered (d : Dev) (h : Hdr) : Dev :=
  let d := (d.take h).sf F.CMD_HSEQ_NEXT h.fn h.ring ((h.hseq + 1) % 2 ^ 32)
  { d with iso := { d.iso with lastCmd := NMap.put d.iso.lastCmd h.fn d.now } }

/-- The block in which an entry in sequence is checked: the entered one, but for a partition that expires now, whose last command stays the
earlier one (R468). -/
def Dev.judged (d : Dev) (h : Hdr) : Dev :=
  if (d.take h).expires h.fn then (d.take h).sf F.CMD_HSEQ_NEXT h.fn h.ring ((h.hseq + 1) % 2 ^ 32) else d.entered h

/-- The entry is the next of its ring and in sequence, its header passes the checks of R523, and the host memory that the command
uses (`data`) can be reached; a tenant's partition is ACTIVE and not at its expiry, and the phase is neither TEST nor RECOVERY (R464,
R468, R513, R515, R523, R526, R572). -/
def Dev.fits (d : Dev) (h : Hdr) (data : Bool) : Bool :=
  !(d.take h).expires h.fn && d.takes h && (d.take h).seqDiff h == 0 && h.clean && (!data || h.dma) && (d.entered h).eqOk h &&
    (h.fn == 0 || ((d.entered h).bootPhase != 1 && (d.entered h).bootPhase != 2 && (d.entered h).gi F.ISO_PART_STATE h.fn == 1))
/-- The same once start-up is over (R572). -/
def Dev.ready (d : Dev) (h : Hdr) (data : Bool) : Bool := d.fits h data && (d.entered h).bootPhase != 0

/-- The block after the reply to an entry executed in sequence has been decided (R521, R526 to R528). -/
def Dev.answered (d : Dev) (h : Hdr) (op : Nat) (st : Status) (result : Bytes) : Dev :=
  ({ dev := d, st := st, result := result } : Res).decideAs h.fn h.ring h.hseq op true

/-- A command that names a session reaches it here: its slot is held, its descriptor is not lost and its cache line carries its partition, and the epochs that the entry
carries are accepted (R75, R77, R445). -/
def Dev.serves (d : Dev) (h : Hdr) (sid slot : Nat) : Bool :=
  let e := (d.readLine slot).2
  d.slotOf sid == some slot && (d.readLine slot).1 && !(e.sess slot).lost &&
    e.epochs slot (if h.mapEpoch = 0 then e.own.current else h.mapEpoch) h.ownerEpoch == .accept
/-- The block in which the rules of a command that reaches a session run: entered, and the descriptor's line used (R81, R508). -/
def Dev.asked (d : Dev) (h : Hdr) (slot : Nat) : Dev := ((d.entered h).readLine slot).2

/-- A QHT packet is for this controller: the port is a hall port of a running fabric block, and the header's version, type and
destination are right (R385, R389, R401). -/
def Dev.hallTakes (d : Dev) (port typ : Nat) (h : Bytes) : Bool :=
  d.on F.HLF_CTL_EN && d.gi F.HLF_PORT_ROLE port == 2 && hf h 0 0 4 == 1 && hf h 0 4 4 == typ &&
    hf h 8 16 16 == (d.wrap F.HLF_CNT0_PKTS_IN 1).self
/-- It belongs to connection `i`, whose state, epoch and peer the header names, and its tag verifies (R401). -/
def Dev.hallIn (d : Dev) (port typ : Nat) (tag : Bool) (h : Bytes) (i : Nat) : Bool :=
  d.hallTakes port typ h && hf h 8 32 14 == i && ((d.wrap F.HLF_CNT0_PKTS_IN 1).conn i).named h && tag
/-- The block in which a packet of a connection is handled: it is counted (R422). -/
def Dev.arrived (d : Dev) : Dev := d.wrap F.HLF_CNT0_PKTS_IN 1

/-- A field whose write only stores the value: it starts no action and has no check beside its class and range. -/
def Fld.plain (f : Fld) : Bool :=
  !enableFields.contains f && !regionFields.contains f && !actionOnly f &&
    !([F.CMD_RQ_DB_TAIL, F.CMD_RP_DB_HEAD, F.CMD_EQ_DB_HEAD, F.CMD_RQ_CFG_EN, F.CMD_EQ_CFG_EN, F.CMD_CTL_SYS_EQ,
        F.FLT_CTL_WINDOW_H, F.HMP_DIRTY_CEIL_DELTA_MIB, F.HMP_DIRTY_CEIL_BUF_MIB] : List Fld).contains f &&
    !([F.PGS_REGION_BINS.addr, F.PGS_PTPOOL_BLOCKS.addr, F.SHP_NODE_SEL_KIND.addr] : List Nat).contains f.addr

/-- A register of one field that software of the physical function reaches: the field and its instance (R8, R596). -/
def Dev.sole (d : Dev) (off : Nat) (f : Fld) (i : Nat) : Bool :=
  d.mapped && fieldsAt off == [(f, i)] && decide (i < d.instLimit f 0)

end Sys2Proof.Machine
end

