-- ==== Sys2Proof/Certificates/Slice0/Obligations.lean ====
section
/-! DEFINITION. The statements about the model: the general rules first, then, family by family, where each command completes and
with what. -/
open Sys2Proof Sys2Proof.Machine

/-- A step takes the command at the front of the queue and runs its meaning on the state with the rest of the queue. (The queue
is how the model receives what the spec has coming from outside.) -/
def Obligations.StepRunsTheFrontCommand : Prop :=
  ∀ (c : Instr) (cs : List Instr) (s : State), s.pending = c :: cs → step s = exec c { s with pending := cs }

/-- The model's choice (log entry 4): with no command waiting, one nanosecond passes for the clocks of R63 while the controller
runs. -/
def Obligations.EmptyQueueTicks : Prop :=
  ∀ s : State, s.pending = [] → s.safe = true →
    (s.runs = true → step s = .next
      { s with dev := (s.dev.s F.TIM_MONO_NS ((s.dev.now + 1) % 2 ^ 64)).s F.TIM_WALL_NS ((s.dev.wall + 1) % 2 ^ 64) }) ∧
    (s.runs = false → step s = .next s)

/-- What State.reset holds (R572 and the reset columns of the register tables). The values of fields to which the spec gives no
reset value, the default block states and the boot store are the model's choices (log entries 2, 6, 20). -/
def Obligations.ResetState : Prop :=
  State.reset.safe = true ∧ State.reset.pending = [] ∧ State.reset.dev.bootPhase = 0 ∧
  enableFields.all (fun en => !State.reset.dev.on en) = true ∧ State.reset.dev.ses.tab = [] ∧
  ∀ (f : Fld) (fn i : Nat), f ∈ F.all → State.reset.dev.gf f fn i = f.resetAt fn i

/-- The invariant State.safe: the HBM is a list of rising, fitted addresses that lists no zero, so that equal contents are
equal data, and every HBM write of a step has been made when the step ends. Every step from every such state keeps it. -/
def Obligations.EveryStepKeepsSafe : Prop :=
  ∀ s t : State, s.safe = true → step s = .next t → t.safe = true

/-- No command of the table is refused or stops: each answers a next state with the queue as it was, whatever the state. An
event of a unit that is not fitted does not occur on the hardware: it changes nothing (the model's choice, log entry 9). -/
def Obligations.EveryCommandAnswers : Prop :=
  ∀ (c : Instr) (s : State),
    (∃ d : Dev, exec c s = .next (s.put d) ∧ (s.put d).pending = s.pending) ∧
    (c.fitted = false → exec c s = .next (s.put s.dev))

/-- A controller that is held in reset, without power or in the power-loss flush does nothing (R373, R606, R610): only the
events of the module's supply, reset pin and sensors act. -/
def Obligations.HeldControllerWaits : Prop :=
  ∀ (c : Instr) (s : State), c.supervised = false → c.fitted = true → s.runs = false → s.safe = true → exec c s = .next s

/-- The sequence rules come before every other check (R523): an entry that is out of sequence executes nothing. Between 1 and
256 below NEXT_HSEQ it is a replay, otherwise it is answered SEQ_GAP (R526); an entry that a disabled, stalled or stopped
ring does not take waits (R515). SYNC_QUERY bypasses the sequence (R530). -/
def Obligations.EntriesOutOfTurn : Prop :=
  ∀ (c : Instr) (h : Hdr) (op : Nat) (s : State), c.entry = some (h, op) → op ≠ 0x0903 → s.runs = true → s.safe = true →
    (s.dev.takes h = false → exec c s = .next s) ∧
    (s.dev.takes h = true →
      let d := s.dev.take h
      let k := d.seqDiff h
      let x := if -256 ≤ k ∧ k ≤ -1 then d.replay h op else d.seqGap h op
      k ≠ 0 → x.rest = s.dev.rest ∧ exec c s = .next (s.put x))

/-- Of an entry in sequence, the issuer is checked before anything else (R523): the opcodes of R524 whose Issuer column is 0,
every tenant command in TEST or RECOVERY (R572), and every command of a partition that is not ACTIVE (R464) or that expires at
this moment (R468) are DENIED. -/
def Obligations.TenantsAreDenied : Prop :=
  ∀ (c : Instr) (h : Hdr) (op : Nat) (s : State),
    c.entry = some (h, op) → op ≠ 0x0903 → assigned op = true → s.runs = true → s.dev.takes h = true →
    (s.dev.take h).seqDiff h = 0 → h.fn ≠ 0 →
    let e := s.dev.judged h
    ((s.dev.take h).expires h.fn = true ∨ op ∈ systemOps ∨ e.bootPhase = 1 ∨ e.bootPhase = 2 ∨ e.gi F.ISO_PART_STATE h.fn ≠ 1) →
    exec c s = .next (s.put (e.answered h op .denied []))

/-- The header's check of R523: an entry with a reserved bit set, or with an EQ beyond the function's limit, is answered
BAD_PARAM unless its issuer is refused first. -/
def Obligations.HeadersAreChecked : Prop :=
  ∀ (c : Instr) (h : Hdr) (op : Nat) (s : State),
    c.entry = some (h, op) → op ≠ 0x0903 → assigned op = true → s.runs = true → s.dev.takes h = true →
    (s.dev.take h).seqDiff h = 0 →
    let e := s.dev.judged h
    (h.clean = false ∨ e.eqOk h = false) →
    exec c s = .next (s.put (e.answered h op .denied [])) ∨ exec c s = .next (s.put (e.answered h op .badParam []))

/-- While a block's enable field is 0, a command whose execution needs the block returns BUSY (R13). Which command needs which
block is the model's reading (log entry 67). -/
def Obligations.BlocksOffAreBusy : Prop :=
  (∀ (s : State) (h : Hdr) (sid target : Nat) (holder : WarmHolder),
    s.runs = true → s.dev.ready h false = true → s.dev.mayUse h.fn sid true = true → target ≤ 2 →
    let e := s.dev.entered h
    e.parkOn = false →
    exec (.park h sid holder target) s = .next (s.put (e.answered h 0x0401 .busy []))) ∧
  (∀ (s : State) (h : Hdr) (sid mode : Nat),
    s.runs = true → s.dev.ready h false = true → s.dev.mayUse h.fn sid true = true → mode ≤ 2 →
    let e := s.dev.entered h
    e.parkOn = false →
    exec (.revive h sid mode) s = .next (s.put (e.answered h 0x0402 .busy []))) ∧
  (∀ (s : State) (h : Hdr) (sid pol n : Nat) (img : Bytes),
    s.runs = true → s.dev.ready h true = true → (if sid = 0 then h.fn = 0 else s.dev.mayUse h.fn sid false = true ∧ pol ≤ 2 ∧
      1 ≤ n ∧ n ≤ 64) →
    let e := s.dev.entered h
    e.on F.GRM_CTL_EN = false → (e.rst.blocks.any fun b => b.row == 4) = false →
    exec (.loadGrammar h sid img pol n) s = .next (s.put (e.answered h 0x0302 .busy []))) ∧
  (∀ (s : State) (h : Hdr) (handle : Nat) (drop : Bool) (key : Nat),
    s.runs = true → s.dev.ready h false = true → s.dev.mayIndex h.fn handle drop = true →
    let e := s.dev.entered h
    e.on F.SFT_CTL_EN = false → (e.rst.blocks.any fun b => b.row == 8) = false →
    exec (.siftDelete h handle drop key) s = .next (s.put (e.answered h 0x0502 .busy []))) ∧
  (∀ (s : State) (h : Hdr) (handle : Nat),
    s.runs = true → s.dev.ready h false = true → s.dev.mayIndex h.fn handle false = true →
    let e := s.dev.entered h
    e.on F.SFT_CTL_EN = false → (e.rst.blocks.any fun b => b.row == 8) = false →
    exec (.siftMerge h handle) s = .next (s.put (e.answered h 0x0504 .busy []))) ∧
  (∀ (s : State) (h : Hdr) (mode : Nat),
    s.runs = true → s.dev.ready h false = true → h.fn = 0 → mode ≤ 2 →
    let e := s.dev.entered h
    e.on F.SEC_CTL_EN = false →
    exec (.scrub h mode) s = .next (s.put (e.answered h 0x0704 .busy []))) ∧
  (∀ (s : State) (h : Hdr) (addr len : Nat) (pkg : Bytes),
    s.runs = true → s.dev.ready h true = true → h.fn = 0 →
    let e := s.dev.entered h
    e.on F.SEC_CTL_EN = false →
    exec (.weightsUnwrap h addr len pkg) s = .next (s.put (e.answered h 0x0703 .busy []))) ∧
  (∀ (s : State) (h : Hdr) (req : Bytes),
    s.runs = true → s.dev.ready h true = true → h.fn = 0 → req.length = 32 → fieldAt req 0 35 29 = 0 → fieldAt req 8 48 16 = 0
      → leAt req 0x10 16 = 0 →
    let e := s.dev.entered h
    (e.on F.CKP_CTL_EN && e.on F.HMP_CTL_EN) = false →
    exec (.ckptBegin h req) s = .next (s.put (e.answered h 0x0801 .busy [])))

/-- The HBM's own law: a write of bytes at an address is what a later read of each byte gives, every other byte is as before,
and the canonical form is kept. -/
def Obligations.HbmReadsBack : Prop :=
  ∀ (m : Memory) (a i : Nat) (bs : Bytes), Memory.wf m = true →
    Memory.wf (Memory.writeAll m a bs) = true ∧
    Memory.read (Memory.writeAll m a bs) i =
      if h : a ≤ i ∧ i - a < bs.length ∧ inHbm i = true then bs[i - a]'h.2.1 else Memory.read m i

/-- Every register field has one home: storing a value in one changes what that field reads, in its width, and nothing else. -/
def Obligations.FieldsReadBack : Prop :=
  ∀ (d : Dev) (f g : Fld) (fn i fn' j v : Nat),
    (d.sf f fn i v).gf g fn' j = (if g.key fn' j = f.key fn i then v % 2 ^ f.w else d.gf g fn' j) ∧
    (d.sf f fn i v).rest = d.rest

/-- The commands that report: outside the registers, the rings and queues, what is sent, the time of the partition's last
command and the peak power that HEALTH_READ clears, they leave everything as it was. -/
def Obligations.ReportsChangeNothingElse : Prop :=
  ∀ (h : Hdr) (c : Instr) (s t : State), s.safe = true →
    ((∃ addr len frm, c = .faultReport h addr len frm) ∨ (∃ addr len, c = .healthRead h addr len) ∨
      (∃ sid addr desc, c = .ownerQuery h sid addr desc) ∨ (∃ nonce addr len chain, c = .attest h nonce addr len chain) ∨
      (∃ outAddr outLen ring, c = .syncQuery h outAddr outLen ring)) →
    exec c s = .next t →
    let d := s.dev
    let e := t.dev
    t.hbm = s.hbm ∧ e.ses = d.ses ∧ e.groups = d.groups ∧ e.pgs = d.pgs ∧ e.att = d.att ∧ e.tok = d.tok ∧ e.prk = d.prk ∧
      e.halves = d.halves ∧ e.hall = d.hall ∧ e.own = d.own ∧ e.sft = d.sft ∧ e.sec = d.sec ∧ e.ckp = d.ckp ∧ e.flt = d.flt ∧
      e.rst = d.rst ∧ e.sync = d.sync ∧ e.pendS = d.pendS

/-- R395: both controllers sent CONN_REQ for the same class. The higher id answers with CONN_ACCEPT (acceptConn, which sends it
and opens the entry), the lower with CONN_REJECT of reason 1, LOST_RACE, and that rejection ends the higher id's own request.
-/
def Obligations.CrossingRequests : Prop :=
  (∀ (s : State) (port : Nat) (mac : Bool) (hdr data : Bytes) (i : Nat),
    s.runs = true → s.dev.hallTakes port 5 hdr = true →
    let d := s.dev.wrap F.HLF_CNT0_PKTS_IN 1
    d.enrolled = true → mac = true → d.holdsGen (leAt data 0xA0 4) = true → d.connOf (srcOf hdr) (classOf hdr) = some i →
    let x := d.conn i
    x.state = .connecting → x.peer < d.self →
    exec (.connReq port mac hdr data) s = .next (s.put (d.acceptConn i hdr data))) ∧
  (∀ (s : State) (port : Nat) (mac : Bool) (hdr data : Bytes) (i : Nat),
    s.runs = true → s.dev.hallTakes port 5 hdr = true →
    let d := s.dev.wrap F.HLF_CNT0_PKTS_IN 1
    d.enrolled = true → mac = true → d.holdsGen (leAt data 0xA0 4) = true → d.connOf (srcOf hdr) (classOf hdr) = some i →
    let x := d.conn i
    x.state = .connecting → d.self < x.peer →
    exec (.connReq port mac hdr data) s = .next (s.put (d.rejectConn hdr 1))) ∧
  (∀ (s : State) (port : Nat) (hdr : Bytes) (reason : Nat),
    s.runs = true → s.dev.hallTakes port 7 hdr = true →
    let d := s.dev.wrap F.HLF_CNT0_PKTS_IN 1
    let i := hf hdr 8 32 14
    let x := d.conn i
    x.peer = srcOf hdr → x.bulk = classOf hdr → x.state = .connecting → reason = 1 →
    exec (.connReject port hdr reason) s = .next (s.put (d.dropConn i)))

/-- R396: a CONN_REQ with a BOOT above the one recorded means that the peer has restarted; one with a BOOT below it is answered
CONN_REJECT DENIED (reason 3). -/
def Obligations.RestartedPeers : Prop :=
  (∀ (s : State) (port : Nat) (mac : Bool) (hdr data : Bytes) (i : Nat),
    s.runs = true → s.dev.hallTakes port 5 hdr = true →
    let d := s.dev.wrap F.HLF_CNT0_PKTS_IN 1
    d.enrolled = true → mac = true → d.holdsGen (leAt data 0xA0 4) = true → d.connOf (srcOf hdr) (classOf hdr) = some i →
    let x := d.conn i
    (x.state = .opened ∨ x.state = .draining) → x.peerBoot < hf data 8 0 64 →
    exec (.connReq port mac hdr data) s = .next (s.put ((d.failConn i 4).acceptNew hdr data))) ∧
  (∀ (s : State) (port : Nat) (mac : Bool) (hdr data : Bytes) (i : Nat),
    s.runs = true → s.dev.hallTakes port 5 hdr = true →
    let d := s.dev.wrap F.HLF_CNT0_PKTS_IN 1
    d.enrolled = true → mac = true → d.holdsGen (leAt data 0xA0 4) = true → d.connOf (srcOf hdr) (classOf hdr) = some i →
    let x := d.conn i
    (x.state = .opened ∨ x.state = .draining) → hf data 8 0 64 < x.peerBoot →
    exec (.connReq port mac hdr data) s = .next (s.put (d.rejectConn hdr 3)))

/-- What a write does to a field of each class, for registers of one field whose write starts no action of its own (R12, R14,
R17, R18): live, shadowed, locked and command-only fields, of blocks that run and that do not. The controller answers a next
state in every case. -/
def Obligations.RegisterWriteByClass : Prop :=
  -- live
  (∀ (s : State) (off v : Nat) (io : Bool) (f : Fld) (i : Nat),
    s.runs = true → s.dev.sole off f i = true → f.plain = true → f.lo = 0 → v < 2 ^ f.w → f.cls = .l → s.dev.pendS = [] →
      s.dev.inRange 0 v [(f, i)] (f, i) = true →
    exec (.registerWrite 0 off v true io) s = .next (s.put (s.dev.sf f 0 i (normal f v)))) ∧
  -- shadowed, the block running
  (∀ (s : State) (off v : Nat) (io : Bool) (f : Fld) (i : Nat),
    s.runs = true → s.dev.sole off f i = true → f.plain = true → f.lo = 0 → v < 2 ^ f.w → f.cls = .s → s.dev.fieldRuns f 0 i =
      true → s.dev.inRange 0 v [(f, i)] (f, i) = true →
    exec (.registerWrite 0 off v true io) s = .next (s.put ({ s.dev with pendS := s.dev.pendS ++ [(f.key 0 i, normal f v)] }))) ∧
  -- shadowed or locked, the block not running
  (∀ (s : State) (off v : Nat) (io : Bool) (f : Fld) (i : Nat),
    s.runs = true → s.dev.sole off f i = true → f.plain = true → f.lo = 0 → v < 2 ^ f.w → (f.cls = .s ∨ f.cls = .k) → v ≠
      s.dev.readField 0 f i → s.dev.fieldRuns f 0 i = false → s.dev.pendS = [] → s.dev.inRange 0 v [(f, i)] (f, i) = true →
    let d := if f.cls = .s then s.dev.seeNow (· == f.key 0 i) else s.dev
    exec (.registerWrite 0 off v true io) s = .next (s.put (d.sf f 0 i (normal f v)))) ∧
  -- locked, the block running
  (∀ (s : State) (off v : Nat) (io : Bool) (f : Fld) (i : Nat),
    s.runs = true → s.dev.sole off f i = true → f.plain = true → f.lo = 0 → v < 2 ^ f.w → f.cls = .k → v ≠ s.dev.readField 0 f
      i → s.dev.fieldRuns f 0 i = true → s.dev.inRange 0 v [(f, i)] (f, i) = true →
    exec (.registerWrite 0 off v true io) s = .next (s.put (s.dev.reject 0 off .busy))) ∧
  -- command only
  (∀ (s : State) (off v : Nat) (io : Bool) (f : Fld) (i : Nat),
    s.runs = true → s.dev.sole off f i = true → f.plain = true → f.lo = 0 → v < 2 ^ f.w → f.cls = .c → v ≠ s.dev.readField 0 f
      i → s.dev.inRange 0 v [(f, i)] (f, i) = true →
    exec (.registerWrite 0 off v true io) s = .next (s.put (s.dev.reject 0 off .denied))) ∧
  -- out of range
  (∀ (s : State) (off v : Nat) (io : Bool) (f : Fld) (i : Nat),
    s.runs = true → s.dev.sole off f i = true → f.plain = true → f.lo = 0 → v < 2 ^ f.w → v ≠ s.dev.readField 0 f
      i → s.dev.inRange 0 v [(f, i)] (f, i) = false →
    exec (.registerWrite 0 off v true io) s = .next (s.put (s.dev.reject 0 off .badParam))) ∧
  -- narrower than 64 bits
  (∀ (s : State) (fn off whole : Nat) (io : Bool),
    s.runs = true → s.dev.mapped = true → fn < 32 →
    exec (.registerWrite fn off whole false io) s = .next (s.put (s.dev.reject fn off .badParam)))

/-- R19: a tenant function's write of a field that its window does not grant is discarded and recorded with DENIED. The first
clause is any such register; the others are the rows that write one field of partition 0's own. -/
def Obligations.TenantWritesNotGranted : Prop :=
  (∀ (s : State) (fn off whole : Nat) (io : Bool) (f : Fld) (i : Nat) (fs : List (Fld × Nat)),
    s.runs = true → s.dev.mapped = true → 0 < fn → fn < 32 → fieldsAt off = (f, i) :: fs → f.grant ≠ .fnWrite → f.grant ≠
      .ownWrite →
    exec (.registerWrite fn off whole true io) s = .next (s.put (s.dev.reject fn off .denied))) ∧
  (∀ (s : State) (fn block : Nat),
    s.runs = true → s.dev.mapped = true → 0 < fn → fn < 32 → block < 14 →
    exec (.blockEnable fn block) s = .next (s.put (s.dev.reject fn ((enableAt block).off 0) .denied))) ∧
  (∀ (s : State) (fn block : Nat),
    s.runs = true → s.dev.mapped = true → 0 < fn → fn < 32 → block < 14 →
    exec (.blockStop fn block) s = .next (s.put (s.dev.reject fn ((enableAt block).off 0) .denied))) ∧
  (∀ (s : State) (fn field gib : Nat),
    s.runs = true → s.dev.mapped = true → 0 < fn → fn < 32 → field < 5 →
    exec (.regionRelayout fn field gib) s = .next (s.put (s.dev.reject fn ((regionFields.getD field F.ATT_PRF_REGION_GIB).off
      0) .denied))) ∧
  (∀ (s : State) (fn g : Nat),
    s.runs = true → s.dev.mapped = true → 0 < fn → fn < 32 → g < 64 →
    exec (.groupRestart fn g) s = .next (s.put (s.dev.reject fn (F.TIM_GRP_CTL_RESTART.off g) .denied))) ∧
  (∀ (s : State) (fn : Nat),
    s.runs = true → s.dev.mapped = true → 0 < fn → fn < 32 →
    exec (.go fn) s = .next (s.put (s.dev.reject fn (F.RST_CTL_GO.off 0) .denied)))

/-- A write of 1 to an enable field of a block that has stopped sets the field, a write of 0 starts the stop sequence, and a
stopping block that meets its idle condition becomes idle (R13, R574). Enabling the hamper lets halves that are not restored
recover (R375), and enabling TIM checks which groups are ready (R625). -/
def Obligations.BlocksEnableAndStop : Prop :=
  (∀ (s : State) (block : Nat),
    s.runs = true → s.dev.mapped = true → block < 14 →
    let en := enableAt block
    s.dev.on en = false → s.dev.stopping en = false → (prereqs en).all (fun p => s.dev.on p) = true → (en = F.PGS_CTL_EN →
      (s.dev.dieLaidOut 0 && s.dev.dieLaidOut 1) = true) →
    let d := s.dev.s en 1
    let d := { d with rst := { d.rst with stopping := d.rst.stopping.filter (· != en.addr) } }
    exec (.blockEnable 0 block) s = .next (s.put (if en = F.HMP_CTL_EN then [0, 1].foldl (fun (d : Dev) h => if (d.half
      h).restored then d else d.setHstate h .recovering) d else if en = F.TIM_CTL_EN then d.checkReadyAll else d))) ∧
  (∀ (s : State) (block : Nat),
    s.runs = true → s.dev.mapped = true → block < 14 →
    let en := enableAt block
    s.dev.on en = true →
    let d := s.dev.s en 0
    exec (.blockStop 0 block) s = .next (s.put
      ({ d with rst := { d.rst with stopping := d.rst.stopping.filter (· != en.addr) ++ [en.addr] } }))) ∧
  (∀ (s : State) (block : Nat),
    s.runs = true → block < 14 →
    let en := enableAt block
    s.dev.rst.stopping.contains en.addr = true → s.dev.idle en = true →
    let d := { s.dev with rst := { s.dev.rst with stopping := s.dev.rst.stopping.filter (· != en.addr) } }
    let due := d.rst.blocks.filter fun b => b.groups.isEmpty && (rowEnables b.row).contains en && d.rowIdle b.row
    exec (.blockIdle block) s = .next (s.put (due.foldl (fun (d : Dev) b => d.finishReset s.hbm b) d)))

/-- A change of a region size with nothing resident lays both dies out afresh (R624); RESTART of a STALLED group returns it to
WAIT_BEACON and sends a report with RESTART (R61); GO leads from TEST or RECOVERY to SERVICE (R572). -/
def Obligations.ControlRegisterCommands : Prop :=
  (∀ (s : State) (field gib : Nat),
    s.runs = true → s.dev.mapped = true → field < 5 →
    let f := regionFields.getD field F.ATT_PRF_REGION_GIB
    gib < 2 ^ f.w → s.dev.instLimit f 0 = 1 → s.dev.inRange 0 (gib * 2 ^ f.lo) [(f, 0)] (f, 0) = true → gib ≠ s.dev.readField 0
      f 0 → s.dev.fieldRuns f 0 0 = false → s.dev.resident = false →
    let e := (s.dev.s f gib).layOut
    e.pageBins 0 ≠ 0 → e.pageBins 1 ≠ 0 →
    exec (.regionRelayout 0 field gib) s = .next (s.put (e))) ∧
  (∀ (s : State) (g : Nat),
    s.runs = true → s.dev.mapped = true → g < 64 → s.dev.phase g = 4 →
    exec (.groupRestart 0 g) s = .next (s.put (s.dev.restartGroup g))) ∧
  (∀ (s : State),
    s.runs = true → (s.dev.bootPhase = 1 ∨ s.dev.bootPhase = 2) →
    exec (.go 0) s = .next (s.put (s.dev.s F.RST_STATE_PHASE 3)))

/-- The four register writes that run a command ring (R515, R516, R537, R542): the doorbell, the head of the reply ring, and
both writes of EN. -/
def Obligations.RingCommands : Prop :=
  (∀ (s : State) (fn ring tail : Nat),
    s.runs = true → s.dev.mapped = true → fn < 32 → ring < s.dev.gf F.CMD_LIMITS_RINGS_MAX fn 0 → ring < 64 → tail < 2 ^ 32 →
      s.dev.gf F.CMD_RQ_CFG_EN fn ring = 1 → (tail + 2 ^ 32 - s.dev.gf F.CMD_RQ_STATUS_TAKEN fn ring) % 2 ^ 32 ≤ 2 ^ s.dev.gf
      F.CMD_RQ_CFG_RQ_LOG2 fn ring →
    exec (.commandDoorbell fn ring tail true) s = .next (s.put (s.dev.sf F.CMD_RQ_DB_TAIL fn ring tail))) ∧
  (∀ (s : State) (fn ring head : Nat) (arm : Bool),
    s.runs = true → s.dev.mapped = true → fn < 32 → ring < s.dev.gf F.CMD_LIMITS_RINGS_MAX fn 0 → ring < 64 → head < 2 ^ 32 →
    let d := s.dev.sf F.CMD_RP_DB_HEAD fn ring head
    let x := d.ring fn ring
    let armed := x.arm.set d.now (d.gf F.CMD_RQ_CFG_MOD_COUNT fn ring) (d.gf F.CMD_RQ_CFG_MOD_US fn ring)
    let d := (if arm then d.setRing fn ring { x with arm := armed } else d).modRing fn ring
    let d := if d.ringWrites fn ring then d.flushReplies fn ring (d.ring fn ring).waiting else d
    exec (.replyHeadWrite fn ring head arm) s = .next (s.put (d.sf F.CMD_RQ_STATUS_STALLED fn ring (b2n (d.ringWrites fn ring
      && !d.ringRoom fn ring))))) ∧
  (∀ (s : State) (fn ring : Nat) (io : Bool),
    s.runs = true → s.dev.mapped = true → fn < 32 → ring < s.dev.gf F.CMD_LIMITS_RINGS_MAX fn 0 → ring < 64 → s.dev.gf
      F.CMD_RQ_CFG_EN fn ring ≠ 1 → s.dev.gf F.CMD_RQ_STATUS_STATE fn ring ≠ 2 →
    let d := ((s.dev.sf F.CMD_RQ_CFG_EN fn ring 1).sf F.CMD_RQ_STATUS_STATE fn ring 1).sf F.CMD_RQ_STATUS_STALLED fn ring 0
    let d := ((d.sf F.CMD_RQ_DB_TAIL fn ring 0).sf F.CMD_RQ_STATUS_TAKEN fn ring 0).sf F.CMD_RP_DB_HEAD fn ring 0
    let x := d.ring fn ring
    let y := { x with replies := 0, waiting := [], muted := x.busy.isSome, noWrite := !io }
    exec (.ringEnable fn ring io) s = .next (s.put (d.setRing fn ring
      { y with arm := { x.arm with stamps := [], due := none } }))) ∧
  (∀ (s : State) (fn ring : Nat),
    s.runs = true → s.dev.mapped = true → fn < 32 → ring < s.dev.gf F.CMD_LIMITS_RINGS_MAX fn 0 → ring < 64 → s.dev.gf
      F.CMD_RQ_CFG_EN fn ring = 1 →
    let x := s.dev.ring fn ring
    let d := (s.dev.sf F.CMD_RQ_CFG_EN fn ring 0).sf F.CMD_RQ_STATUS_STATE fn ring (if x.busy.isSome then 2 else 0)
    exec (.ringDisable fn ring) s = .next (s.put ((d.sf F.CMD_RQ_STATUS_STALLED fn ring 0).setRing fn ring
      { x with waiting := [] })))

/-- The register writes that run an event queue, and what MSI-X interrupts do (R534, R537, R543). That vectors start masked and
that FLR masks them again is the model's choice (log entry 53). -/
def Obligations.EventQueueCommands : Prop :=
  (∀ (s : State) (fn queue head : Nat) (arm : Bool),
    s.runs = true → s.dev.mapped = true → fn < 32 → queue < s.dev.gf F.CMD_LIMITS_EQS_MAX fn 0 → queue < 1024 → head < 2 ^ 32 →
    let d := s.dev.sf F.CMD_EQ_DB_HEAD fn queue head
    let x := d.queue fn queue
    let armed := x.arm.set d.now (d.gf F.CMD_EQ_CFG_MOD_COUNT fn queue) (d.gf F.CMD_EQ_CFG_MOD_US fn queue)
    let d := if arm then d.setQueue fn queue { x with arm := armed } else d
    exec (.eventHeadWrite fn queue head arm) s = .next (s.put ((d.modQueue fn queue).drain fn queue))) ∧
  (∀ (s : State) (fn queue : Nat) (io : Bool),
    s.runs = true → s.dev.mapped = true → fn < 32 → queue < s.dev.gf F.CMD_LIMITS_EQS_MAX fn 0 → queue < 1024 → s.dev.gf
      F.CMD_EQ_CFG_EN fn queue ≠ 1 →
    let d := ((s.dev.sf F.CMD_EQ_CFG_EN fn queue 1).sf F.CMD_EQ_STATUS_STATE fn queue 1).sf F.CMD_EQ_DB_HEAD fn queue 0
    let x := d.queue fn queue
    let y := { x with written := 0, noWrite := !io }
    exec (.eventQueueEnable fn queue io) s = .next (s.put ((d.setQueue fn queue
      { y with arm := { x.arm with stamps := [], due := none } }).drain fn queue))) ∧
  (∀ (s : State) (fn queue : Nat),
    s.runs = true → s.dev.mapped = true → fn < 32 → queue < s.dev.gf F.CMD_LIMITS_EQS_MAX fn 0 → queue < 1024 → s.dev.gf
      F.CMD_EQ_CFG_EN fn queue = 1 →
    exec (.eventQueueDisable fn queue) s = .next (s.put ((s.dev.sf F.CMD_EQ_CFG_EN fn queue 0).sf F.CMD_EQ_STATUS_STATE fn
      queue 0))) ∧
  (∀ (s : State) (fn : Nat) (isRing : Bool) (index t : Nat),
    s.runs = true → fn < 32 → isRing = true → (s.dev.ring fn index).arm.due = some t →
    let x := s.dev.ring fn index
    let d := (s.dev.reach t).setRing fn index { x with arm := { x.arm with armed := false, due := none } }
    exec (.interruptModeration fn isRing index) s = .next (s.put (d.msix fn (s.dev.gf F.CMD_RQ_CFG_VECTOR fn index)))) ∧
  (∀ (s : State) (fn : Nat) (isRing : Bool) (index t : Nat),
    s.runs = true → fn < 32 → isRing = false → (s.dev.queue fn index).arm.due = some t →
    let x := s.dev.queue fn index
    let d := (s.dev.reach t).setQueue fn index { x with arm := { x.arm with armed := false, due := none } }
    exec (.interruptModeration fn isRing index) s = .next (s.put (d.msix fn (s.dev.gf F.CMD_EQ_CFG_VECTOR fn index)))) ∧
  (∀ (s : State) (fn vec : Nat),
    s.runs = true → fn < 32 → vec < s.dev.gf F.CMD_LIMITS_VECTORS fn 0 → s.dev.cmd.unmasked.contains (fn, vec) = false →
    let cmd := { s.dev.cmd with unmasked := s.dev.cmd.unmasked ++ [(fn, vec)] }
    let d := { s.dev with cmd := { cmd with pendingVec := s.dev.cmd.pendingVec.filter (· != (fn, vec)) } }
    exec (.vectorUnmask fn vec) s = .next (s.put (if s.dev.cmd.pendingVec.contains (fn, vec) then d.emit (.msix fn vec) else
      d)))

/-- SESSION_OPEN and SESSION_CLOSE complete (R33, R35, R71, R87, R102): the descriptor that an open makes, field by field, the
id that it answers, and the three ways in which a close is carried out; and DESCRIPTOR_FETCH completes (R77, R81), whether the
fetch succeeds, fails once or fails again. -/
def Obligations.SessionCommandsComplete : Prop :=
  (∀ (s : State) (h : Hdr) (src len sub srv prof prio tkz port g : Nat) (compat cls select : Bool) (p : Profile) (t : Tokenizer)
    (slot : Nat),
    s.runs = true → s.dev.ready h false = true → src = 0 → g < 64 → levelOf compat cls prio < 8 →
    let e := s.dev.entered h
    NMap.get? e.att.profiles prof = some p → NMap.get? e.tok.tkz tkz = some t → p.endToken < t.vocab → (select && p.selGroups
      == 0) = false → e.levelOk h.fn (levelOf compat cls prio) = true → e.nodesOk h.fn sub srv port = true → overLimit h.fn
      (e.useSessions h.fn) 1 (e.limits h.fn).sessions = false → e.openSlot (e.openDie p.cls) = some slot →
    let x : Desc := {
        sid := mkSid e.self (e.nextGen slot) slot, state := .open, partition := h.fn, prio := levelOf compat cls prio,
        profile := prof, group := g, select := select, buddy := e.myBuddy, ownerEpoch := 1, ownerCtrl := e.self,
        subscriber := sub, service := srv, port := port, tokenizer := tkz, opened := e.wall }
    exec (.sessionOpen h src len sub srv prof prio tkz port g compat cls select) s = .next (s.put ((((e.setSess slot
      { d := x }).setState slot .open .hot).cacheIn slot false |>.writeBack slot |>.refresh slot).answered h 0x0101 .ok (leBytes 8 x.sid)))) ∧
  (∀ (s : State) (h : Hdr) (sid slot : Nat),
    s.runs = true → s.dev.ready h false = true → s.dev.mayUse h.fn sid true = true →
    let e := s.dev.asked h slot
    (s.dev.entered h).serves h sid slot = true → (e.sess slot).d.state ∉ [SState.closed, .migrating] →
    exec (.sessionClose h sid) s = .next (s.put (((e.closePark slot).closeSession slot).answered h 0x0102 .ok []))) ∧
  (∀ (s : State) (h : Hdr) (sid slot : Nat),
    s.runs = true → s.dev.ready h false = true → s.dev.mayUse h.fn sid true = true →
    let e := s.dev.asked h slot
    (s.dev.entered h).serves h sid slot = true → (e.sess slot).d.state = .migrating →
    exec (.sessionClose h sid) s = .next (s.put (e.answered h 0x0102 .busy []))) ∧
  (∀ (s : State) (h : Hdr) (sid slot : Nat),
    s.runs = true → s.dev.ready h false = true → s.dev.mayUse h.fn sid true = true →
    let e := s.dev.asked h slot
    (s.dev.entered h).serves h sid slot = true → (e.sess slot).d.state = .closed →
    exec (.sessionClose h sid) s = .next (s.put ((e).answered h 0x0102 .dup []))) ∧
  (∀ (s : State) (slot : Nat) (ok : Bool),
    s.runs = true → slot < 4194304 → NMap.has s.dev.ses.tab slot = true → (s.dev.sess slot).lost = false →
      ((s.dev.lines (slotDie slot)).any fun l => l.slot == slot) = false →
    let tried := s.dev.ses.fetches.any fun f => f.slot == slot
    let rest := s.dev.ses.fetches.filter fun f => f.slot != slot
    let d : Dev := { s.dev with ses := { s.dev.ses with fetches := rest } }
    let again : Dev := { s.dev with ses := { s.dev.ses with fetches := rest ++ [{ slot := slot, tries := 1 }] } }
    exec (.descriptorFetch slot ok) s = .next (s.put (if ok then d.cacheIn slot false else if tried then d.loseDesc slot
      else again)))

/-- TURN_BEGIN queues a turn and TURN_CANCEL ends it (R92, R93, R99). For a prompt of text the tokenizer's ids are queued and
its bytes counted (R317). -/
def Obligations.TurnCommandsComplete : Prop :=
  (∀ (s : State) (h : Hdr) (sid : Nat) (isText : Bool) (ids : List Nat) (text : Bytes) (textAddr textLen maxNew : Nat) (push
    fallback compat cls setPrio setRet select : Bool) (batch batchSize prio slot i : Nat) (c : Dev),
    s.runs = true → s.dev.ready h (if isText then !text.isEmpty else !ids.isEmpty) = true → s.dev.mayUse h.fn sid false = true
      → (!setPrio || compat || prio < 8) = true →
    let e := s.dev.asked h slot
    (s.dev.entered h).serves h sid slot = true → (isText = true → e.on F.TOK_CTL_EN = true) →
    let x := (e.sess slot).d
    let t : TurnBegin := {
        prompt := if isText then (e.tkzOf slot).encode text else ids, textAddr := textAddr, textLen := textLen,
        maxNew := maxNew, push := push, fallback := fallback,
        prio := if compat || setPrio then some (levelOf compat cls prio) else none,
        select := if setRet then some select else none, batch := batch, batchSize := batchSize }
    (x.state = .open ∨ x.state = .waiting) → x.tier = .hot → e.isWarm slot = false → (x.turnQueued || x.ctxValid) = false → (e.own.moves.any fun y =>
      y.1 == x.sid) = false → e.budgetOut slot = false → ((compat || setPrio) && !e.levelOk h.fn (levelOf compat cls prio)) =
      false → e.turnOk slot t = true → overLimit x.partition (e.useContexts x.partition) 1 (e.limits x.partition).contexts =
      false → e.newCtx (slotDie slot) {
        sid := x.sid, slot := slot, fn := h.fn, hseq := h.hseq, prio := x.prio, mapEpoch := e.own.current,
        ownerEpoch := x.ownerEpoch, group := x.group } = some (i, c) →
    let d := c.queueTurn h slot i t
    let d := if (e.sess slot).coldest = .hot then d else d.tellRanges slot 3
    let count (d : Dev) : Dev := { d with tok := { d.tok with promptBytes := d.tok.promptBytes + text.length } }
    let d := if isText then (count d).vocabCache (d.tkzOf slot).onChip else d
    exec (.turnBegin h sid isText ids text textAddr textLen maxNew push fallback compat cls setPrio setRet select batch
      batchSize prio) s = .next (s.put (d.answered h 0x0103 .ok (leBytes 4 ((x.turnId + 1) % 2 ^ 32) ++ leBytes 4 (x.histLen +
      t.prompt.length) ++ leBytes 4 t.prompt.length)))) ∧
  (∀ (s : State) (h : Hdr) (sid turn : Nat) (keep : Bool) (slot i : Nat),
    s.runs = true → s.dev.ready h false = true → s.dev.mayUse h.fn sid false = true →
    let e := s.dev.asked h slot
    (s.dev.entered h).serves h sid slot = true → (e.sess slot).d.state ∉ [SState.closed, .migrating] → e.turnCtx slot = some i → turn = (e.sess
      slot).d.turnId → e.justEnded slot turn = false → (e.ctx i).kill = false →
    let d := (e.cancelTurn slot i keep 5).cancelRanges slot
    exec (.turnCancel h sid turn keep) s = .next (s.put ((if d.noGroupRuns then d.reclaimFrames.reclaimBlocks else d).answered
      h 0x0104 .ok []))) ∧
  (∀ (s : State) (h : Hdr) (sid turn : Nat) (keep : Bool) (slot i : Nat),
    s.runs = true → s.dev.ready h false = true → s.dev.mayUse h.fn sid false = true →
    let e := s.dev.asked h slot
    (s.dev.entered h).serves h sid slot = true → (e.sess slot).d.state ∉ [SState.closed, .migrating] → e.turnCtx slot = some i → turn = (e.sess
      slot).d.turnId → e.justEnded slot turn = false → (e.ctx i).kill = true →
    exec (.turnCancel h sid turn keep) s = .next (s.put ((e).answered h 0x0104 .dup [])))

/-- HINT_PLACE and SET_PARK_POLICY complete (R126, R127, R329). -/
def Obligations.HintAndPolicyComplete : Prop :=
  (∀ (s : State) (h : Hdr) (sid posLo posHi : Nat) (dflt : Bool) (layerLo layerHi code slot : Nat),
    s.runs = true → s.dev.ready h false = true → s.dev.mayUse h.fn sid false = true → code ≤ 3 → posLo < posHi → layerLo ≤
      layerHi →
    let e := s.dev.asked h slot
    (s.dev.entered h).serves h sid slot = true → (e.sess slot).d.state ≠ .closed →
    let p : PlaceHint := { layerLo := layerLo, layerHi := layerHi, posLo := posLo, posHi := posHi, code := code, dflt := dflt, seq := e.ses.accepts + 1 }
    let e : Dev := { e with ses := { e.ses with accepts := e.ses.accepts + 1 } }
    let d := e.updSess slot fun x => { x with hints := x.hints ++ [p] }
    exec (.hintPlace h sid posLo posHi dflt layerLo layerHi code) s = .next (s.put ((if d.noGroupRuns then d.applyHints slot
      else d).answered h 0x0403 .ok []))) ∧
  (∀ (s : State) (h : Hdr) (sid hint fidelity slot : Nat),
    s.runs = true → s.dev.ready h false = true → s.dev.mayUse h.fn sid true = true → hint ≤ 3 → fidelity ≤ 1 →
    let e := s.dev.asked h slot
    (s.dev.entered h).serves h sid slot = true →
    let x := e.sess slot
    x.d.state ∉ [SState.closed, .migrating] → (hint ≠ 0 → bitOf (e.gi F.PRK_POLICY_HINTS_OK x.d.partition) (hint - 1) = true) →
      (fidelity = 1 → e.gi F.PRK_POLICY_MX4_OK x.d.partition ≠ 0) → (hint = 1 → x.hintNext = 1 ∨ e.pinned x.d.partition + 1 ≤
      e.gi F.PRK_POLICY_PIN_MAX x.d.partition) →
    let d := e.updSess slot fun x => { x with pendHint := some hint, pendMx4 := some (fidelity == 1) }
    exec (.setParkPolicy h sid hint fidelity) s = .next (s.put ((if d.noGroupRuns then d.applyPolicy slot else d).answered h
      0x0404 .ok [])))

/-- LOAD_PROFILE and LOAD_WEAVE complete (R242, R245, R503). The order in which counters are given out is the model's (R234
says only that a binding holds them). -/
def Obligations.ProfileAndWeaveLoad : Prop :=
  (∀ (s : State) (h : Hdr) (staged : Bool) (handle len slot : Nat) (pkg : Bytes),
    s.runs = true → s.dev.ready h true = true → staged = false → h.fn = 0 → slot < 64 →
    let e := s.dev.entered h
    e.on F.SEC_CTL_REQUIRE_WRAPPED = false → pkg.length = len → profileOk pkg = true → NMap.has e.att.profiles slot = false →
      e.prfUsed + (profileOf pkg).paramLen ≤ e.g F.ATT_PRF_REGION_GIB * 2 ^ 30 →
    let d := { e with att := { e.att with profiles := NMap.put e.att.profiles slot (profileOf pkg) } }
    let d := { d with sec := { d.sec with wrapped := NMap.del d.sec.wrapped slot } }
    exec (.loadProfile h staged handle len slot pkg) s = .next (s.put ((d.showProfile slot).answered h 0x0201 .ok (profileOf
      pkg).digest))) ∧
  (∀ (s : State) (h : Hdr) (staged : Bool) (handle len slot : Nat) (pkg : Bytes) (x : Staged),
    s.runs = true → s.dev.ready h false = true → staged = true → h.fn = 0 → slot < 64 →
    let e := s.dev.entered h
    e.sec.staged.find? (·.handle == handle) = some x → profileOk x.body = true → NMap.has e.att.profiles slot = false →
      e.prfUsed + (profileOf x.body).paramLen ≤ e.g F.ATT_PRF_REGION_GIB * 2 ^ 30 →
    let left := e.sec.staged.filter (·.handle != handle)
    let d := ({ e with sec := { e.sec with staged := left } }).s F.SEC_STAGE_STAGED left.length
    let d := { d with att := { d.att with profiles := NMap.put d.att.profiles slot (profileOf x.body) } }
    let d := { d with sec := { d.sec with wrapped := NMap.put d.sec.wrapped slot x.keyGen } }
    exec (.loadProfile h staged handle len slot pkg) s = .next (s.put ((d.showProfile slot).answered h 0x0201 .ok (profileOf
      x.body).digest))) ∧
  (∀ (s : State) (h : Hdr) (len : Nat) (thr hb : Bool) (g : Nat) (img : Bytes) (i pi : Nat) (p : Profile) (rw re : List (Nat ×
    Nat)),
    s.runs = true → s.dev.ready h true = true → h.fn = 0 → g < 64 →
    let e := s.dev.entered h
    e.weaveCheck img len g = none → e.att.profiles.find? (fun y => y.2.digest == slice img 0x20 48) = some (pi, p) →
    let w := weaveOf img pi
    e.att.weaves.any (fun y => y.2.imageDigest == w.imageDigest) = false → NMap.freeFrom e.att.weaves 128 0 = some i →
    let c := e.updGroup g fun x => { x with nextBinding := none }
    takeRuns (c.counterFree 0) w.counterNeed = some rw → takeRuns (c.counterFree 1) w.counterNeed = some re →
    let d := ({ c with att := { c.att with weaves := NMap.put c.att.weaves i w } }).showWeave i true
    let b : Binding := { slot := i, throughput := thr, hostBatch := hb, runsW := rw, runsE := re }
    let d := (d.updGroup g fun x => { x with nextBinding := some (some b) }).showBound g
    let d := if d.phase g = 0 ∨ d.phase g = 4 then d.takeBinding g b else d.showSync
    exec (.loadWeave h len thr hb g img) s = .next (s.put (({ dev := d, small := i, result := w.imageDigest } : Res).decideAs
      h.fn h.ring h.hseq 0x0202 true)))

/-- UNLOAD completes for each of its four kinds (R243, R282, R299). -/
def Obligations.UnloadComplete : Prop :=
  (∀ (s : State) (h : Hdr) (kind slot : Nat),
    s.runs = true → s.dev.ready h false = true → kind = 1 → h.fn = 0 → slot < 64 →
    let e := s.dev.entered h
    NMap.has e.att.profiles slot = true → e.att.weaves.any (fun y => y.2.profile == slot) = false →
    exec (.unload h kind slot) s = .next (s.put ((({ e with
        att := { e.att with profiles := NMap.del e.att.profiles slot },
        sec := { e.sec with wrapped := NMap.del e.sec.wrapped slot } }).showProfile slot).answered h 0x0203 .ok []))) ∧
  (∀ (s : State) (h : Hdr) (kind slot : Nat),
    s.runs = true → s.dev.ready h false = true → kind = 2 → h.fn = 0 → slot < 128 →
    let e := s.dev.entered h
    NMap.has e.att.weaves slot = true → e.weaveGone slot = false →
    let next (x : Group) : Bool := match x.nextBinding with
      | some (some b) => b.slot == slot
      | _ => false
    let gs := (e.groups.filter fun y => y.2.bound.any (·.slot == slot) || next y.2).map (·.1)
    gs.any e.groupBusy = false →
    let d := gs.foldl (fun (d : Dev) g => d.unbind g slot) (e.showWeave slot false)
    exec (.unload h kind slot) s = .next (s.put ((d.dropWeaves.showSync).answered h 0x0203 .ok []))) ∧
  (∀ (s : State) (h : Hdr) (kind slot : Nat) (t : Tokenizer),
    s.runs = true → s.dev.ready h false = true → kind = 3 → h.fn = 0 → slot < 64 →
    let e := s.dev.entered h
    NMap.get? e.tok.tkz slot = some t → e.ses.tab.any (fun y => y.2.d.tokenizer == slot) = false → e.tok.grams.any (fun y =>
      y.2.tokDigest == t.digest) = false →
    exec (.unload h kind slot) s = .next (s.put ((({ e with tok := { e.tok with tkz := NMap.del e.tok.tkz slot } }).showTkz
      slot).answered h 0x0203 .ok []))) ∧
  (∀ (s : State) (h : Hdr) (kind slot : Nat) (g : Grammar),
    s.runs = true → s.dev.ready h false = true → kind = 4 → slot < 1024 → (h.fn = 0 ∨ NMap.get? s.dev.tok.grams slot = some g ∧
      g.partition = h.fn) →
    let e := s.dev.entered h
    NMap.has e.tok.grams slot = true → e.ses.tab.any (fun y => y.2.d.grammarBound && y.2.d.grammarId == slot) = false →
    exec (.unload h kind slot) s = .next (s.put
      ((({ e with tok := { e.tok with grams := NMap.del e.tok.grams slot } }).showGrammar slot).answered h 0x0203 .ok [])))

/-- LOAD_TOKENIZER, SET_STOPS, LOAD_GRAMMAR and BIND_GRAMMAR complete (R282, R286, R295, R299, R304, R305). -/
def Obligations.TokenizerStopsAndGrammarsComplete : Prop :=
  (∀ (s : State) (h : Hdr) (slot : Nat) (pkg : Bytes) (chip : Bool),
    s.runs = true → s.dev.ready h true = true → h.fn = 0 → slot < 64 →
    let e := s.dev.entered h
    NMap.has e.tok.tkz slot = false →
    let t := tkzOf pkg
    e.placeTkz t = some chip →
    let d := { e with tok := { e.tok with tkz := NMap.put e.tok.tkz slot { t with onChip := chip } } }
    let x : Res := { dev := d.showTkz slot, small := slot, result := t.digest }
    exec (.loadTokenizer h slot pkg) s = .next (s.put ((if tkzHeaderOk pkg && tkzTablesOk pkg then x else e.res
      .badParam).decideAs h.fn h.ring h.hseq 0x0301 true))) ∧
  (∀ (s : State) (h : Hdr) (sid count : Nat) (data : Bytes) (slot : Nat) (strs : List Bytes) (i : Nat),
    s.runs = true → s.dev.ready h true = true → s.dev.mayUse h.fn sid false = true → count ≤ 64 →
    let e := s.dev.asked h slot
    (s.dev.entered h).serves h sid slot = true → unpackStops count data = some strs → (strs.map (·.length)).foldl (· + ·) 0 ≤ 4096 →
    let x := (e.sess slot).d
    x.state ≠ .closed → (x.ctxValid || x.turnQueued) = false → strs ≠ [] → e.tok.stops.any (fun y => sameStops y.2.strs strs) = false
      → NMap.freeFrom e.tok.stops 16383 1 = some i →
    let d := { e with tok := { e.tok with stops := NMap.put e.tok.stops i { strs := strs, count := 1 } } }
    let d := (d.dropStops x.stopSet).updDesc slot fun x => { x with stopSet := i }
    exec (.setStops h sid count data) s = .next (s.put (({ dev := d, small := i } : Res).decideAs h.fn h.ring h.hseq 0x0304
      true))) ∧
  (∀ (s : State) (h : Hdr) (sid : Nat) (img : Bytes) (pol n i : Nat),
    s.runs = true → s.dev.ready h true = true → sid = 0 → h.fn = 0 →
    let e := s.dev.entered h
    e.on F.GRM_CTL_EN = true → e.grammarOk img = true →
    let g := grammarOf img 0
    e.tok.grams.any (fun y => y.2.partition == 0 && y.2.digest == g.digest) = false → g.imageLen ≤ e.grmFree → NMap.freeFrom
      e.tok.grams 1024 0 = some i →
    let d := ({ e with tok := { e.tok with grams := NMap.put e.tok.grams i g } }).showGrammar i
    exec (.loadGrammar h sid img pol n) s = .next (s.put
      (({ dev := d, small := i, result := g.digest ++ leBytes 4 g.deadReach } : Res).decideAs h.fn h.ring h.hseq 0x0302 true))) ∧
  (∀ (s : State) (h : Hdr) (sid : Nat) (unbind : Bool) (grammar pol n slot : Nat) (g : Grammar),
    s.runs = true → s.dev.ready h false = true → s.dev.mayUse h.fn sid false = true → unbind = false → pol ≤ 2 → 1 ≤ n → n ≤ 64
      → grammar < 1024 →
    let e := s.dev.asked h slot
    (s.dev.entered h).serves h sid slot = true → NMap.get? e.tok.grams grammar = some g → e.bindCheck slot g = .ok → (e.sess
      slot).d.grammarBound = false → (e.takeArea slot).isSome = true →
    let d := ((e.takeArea slot).getD e).updDesc slot fun x =>
      { x with grammarBound := true, grammarId := grammar, deadPolicy := pol, rollbackN := n }
    exec (.bindGrammar h sid unbind grammar pol n) s = .next (s.put (((d.showGrammar (e.sess slot).d.grammarId).showGrammar
      grammar).answered h 0x0303 .ok []))) ∧
  (∀ (s : State) (h : Hdr) (sid : Nat) (unbind : Bool) (grammar pol n slot : Nat),
    s.runs = true → s.dev.ready h false = true → s.dev.mayUse h.fn sid false = true → unbind = true →
    let e := s.dev.asked h slot
    (s.dev.entered h).serves h sid slot = true →
    let x := (e.sess slot).d
    (x.state = .open ∨ x.state = .waiting) → (x.turnQueued || x.ctxValid) = false → x.grammarBound = true →
    exec (.bindGrammar h sid unbind grammar pol n) s = .next (s.put (((e.unbindGrammar slot).showGrammar x.grammarId).answered
      h 0x0303 .ok [])))

/-- The commands of memory search complete (R447, R449, R453, R456, R458 to R460). When a merge shows its effects is the
model's reading (DEDUCED): at MERGE_DONE. -/
def Obligations.SearchCommandsComplete : Prop :=
  (∀ (s : State) (h : Hdr) (handle : Nat) (replace : Bool) (key tags : Nat) (vec param : Bytes) (bind nodesMax sideMax sideMerge
    dim efBuild degree metric fmt : Nat) (v : List Rat) (k i : Nat) (y : SIndex),
    s.runs = true → s.dev.ready h true = true → handle = 0 → bind = 0 → s.dev.mayIndex h.fn handle false = true → vecFmtOk fmt
      = true → createOk dim degree metric nodesMax sideMax sideMerge efBuild = true →
    let e := s.dev.entered h
    e.on F.SFT_CTL_EN = true →
    let cs := readElems param 32 (2 * dim)
    cs.all Elem.fp32.finite = true → (cs.drop dim).all (fun c => decide (0 < ofF32 c)) = true → readVec fmt dim vec = some v →
    let die := e.indexPlace none
    indexSize dim degree nodesMax sideMax ≤ e.sftFree die → overLimit h.fn (e.useIndexes h.fn) 1 (e.limits h.fn).indexes =
      false → NMap.freeFrom e.sft.idx 32768 (die * 32768) = some k →
    let gen := NMap.getD e.sft.gens k 1
    let x : SIndex := {
        dim := dim, degree := degree, ip := metric == 1, nodesMax := nodesMax, sideMax := sideMax, sideMerge := sideMerge,
        efBuild := efBuild, gen := gen, partition := h.fn, fn := h.fn, eq := h.eq, centres := cs.take dim,
        scales := cs.drop dim }
    x.insert key tags v = some (i, y) →
    let y := { y with engine := (e.indexEngine (gen * 2 ^ 16 + k)).getD 0 }
    let merges := e.on F.SFT_CTL_AUTO_MERGE && y.waiting == y.sideMerge
    let d := (e.setIndex (gen * 2 ^ 16 + k) (if merges then y.startMerge else y)).wrap F.SFT_CNT0_INSERTS 1
    exec (.siftInsert h handle replace key tags vec param bind nodesMax sideMax sideMerge dim efBuild degree metric fmt) s =
      .next (s.put (d.answered h 0x0501 .ok (leBytes 4 (gen * 2 ^ 16 + k) ++ leBytes 4 i)))) ∧
  (∀ (s : State) (h : Hdr) (handle : Nat) (replace : Bool) (key tags : Nat) (vec param : Bytes) (bind nodesMax sideMax sideMerge
    dim efBuild degree metric fmt : Nat) (x y : SIndex) (v : List Rat) (i c : Nat),
    s.runs = true → s.dev.ready h true = true → handle ≠ 0 → s.dev.mayIndex h.fn handle false = true → vecFmtOk fmt = true →
    let e := s.dev.entered h
    e.on F.SFT_CTL_EN = true → e.sindex handle = some x → readVec fmt x.dim vec = some v → x.keyed key = none → x.side.length <
      x.sideMax → x.insert key tags v = some (i, y) → e.indexEngine handle = some c →
    let y := { y with engine := c }
    let reached := e.on F.SFT_CTL_AUTO_MERGE && y.waiting == y.sideMerge
    let y := if !reached then y else if y.merging = none then y.startMerge else { y with mergeDue := true }
    let d := ((e.awaitIndex handle).setIndex handle y).wrap F.SFT_CNT0_INSERTS 1
    exec (.siftInsert h handle replace key tags vec param bind nodesMax sideMax sideMerge dim efBuild degree metric fmt) s =
      .next (s.put (d.answered h 0x0501 .ok (leBytes 4 handle ++ leBytes 4 i)))) ∧
  (∀ (s : State) (h : Hdr) (handle : Nat) (drop : Bool) (key : Nat) (x : SIndex),
    s.runs = true → s.dev.ready h false = true → drop = true → s.dev.mayIndex h.fn handle true = true →
    let e := s.dev.entered h
    e.on F.SFT_CTL_EN = true → e.sindex handle = some x →
    exec (.siftDelete h handle drop key) s = .next (s.put (((e.awaitIndex handle).dropIndex handle).answered h 0x0502 .ok []))) ∧
  (∀ (s : State) (h : Hdr) (handle : Nat) (drop : Bool) (key : Nat) (x : SIndex) (i c : Nat),
    s.runs = true → s.dev.ready h false = true → drop = false → s.dev.mayIndex h.fn handle false = true →
    let e := s.dev.entered h
    e.on F.SFT_CTL_EN = true → e.sindex handle = some x → x.keyed key = some i → e.indexEngine handle = some c →
    let y := { x with engine := c, nodes := NMap.upd x.nodes i fun n => { n with tomb := true } }
    exec (.siftDelete h handle drop key) s = .next (s.put ((((e.awaitIndex handle).setIndex handle y).sat F.SFT_CNT1_DELETES
      1).answered h 0x0502 .ok []))) ∧
  (∀ (s : State) (h : Hdr) (handle : Nat) (widen : Bool) (vec : Bytes) (res all any k ef maxProbes rerank widenProbes fmt : Nat)
    (x : SIndex) (v : List Rat),
    s.runs = true → s.dev.ready h true = true → s.dev.mayIndex h.fn handle false = true → vecFmtOk fmt = true → 1 ≤ k → k ≤
      1024 → k ≤ ef → ef ≤ 4096 → 1 ≤ maxProbes → (rerank = 0 ∨ k ≤ rerank ∧ rerank ≤ 4096) → (widen = true → 1 ≤ widenProbes ∧
      widenProbes ≤ s.dev.g F.SFT_CTL_WIDEN_MAX) →
    let e := s.dev.entered h
    e.on F.SFT_CTL_EN = true → e.sindex handle = some x → readVec fmt x.dim vec = some v →
    let q : Query := {
        all := all, any := any, k := k, ef := ef, maxProbes := maxProbes, rerank := rerank,
        widen := if widen then some widenProbes else none }
    let p := x.probe q (x.code v)
    let out := x.found q v
    let d := (((e.selWaits p.probes).emit (.host h.fn res (x.entries q out))).wrap F.SFT_CNT0_QUERIES 1).wrap F.SFT_CNT2_PROBES p.probes
    let d := if p.widened then d.sat F.SFT_CNT1_WIDENED 1 else d
    let d := if out.length < k then d.sat F.SFT_CNT1_PARTIAL 1 else d
    exec (.siftQuery h handle widen vec res all any k ef maxProbes rerank widenProbes fmt) s = .next (s.put (d.answered h
      0x0503 (if out.length < k then .partialDone else .ok) (leBytes 4 p.probes ++ leBytes 2 out.length ++ leBytes 1 (b2n
      p.widened))))) ∧
  (∀ (s : State) (h : Hdr) (handle : Nat) (x : SIndex),
    s.runs = true → s.dev.ready h false = true → s.dev.mayIndex h.fn handle false = true →
    let e := s.dev.entered h
    e.on F.SFT_CTL_EN = true → e.sindex handle = some x → x.merging = none →
    (e.indexEngine handle).isSome = true →
    exec (.siftMerge h handle) s = .next (s.put (((e.awaitIndex handle).setIndex handle (x.startMerge h.hseq)).answered h 0x0504
      .ok []))) ∧
  (∀ (s : State) (handle : Nat) (x : SIndex) (t : SMerge),
    s.runs = true → s.dev.sindex handle = some x → x.merging = some t →
    let d := (((s.dev.awaitIndex handle).setIndex handle (x.merge t)).sat F.SFT_CNT1_MERGES 1).selWaits 0xFFFF
    exec (.mergeDone handle) s = .next (s.put (d.post x.fn x.eq
      { typ := 0x0E, subject := handle, hseq := x.mergeHseq, args := [t.side.length, t.dead.length] })))

/-- PARK and REVIVE complete (R330, R336 to R338). -/
def Obligations.ParkAndReviveComplete : Prop :=
  (∀ (s : State) (h : Hdr) (sid target slot : Nat) (holder : WarmHolder),
    s.runs = true → s.dev.ready h false = true → s.dev.mayUse h.fn sid true = true → target ≤ 2 →
    let e := s.dev.asked h slot
    e.parkOn = true → (s.dev.entered h).serves h sid slot = true →
    let x := (e.sess slot).d
    ((x.state = .open ∨ x.state = .waiting) ∧ (x.turnQueued || x.ctxValid) = false ∨
      x.state = .parked ∧ target = 1 ∧ x.histDurable < x.histLen) → (target = 2 → x.tier ≠
      .warm ∧ holder.room = true ∧ holder.ctrl ≠ e.self ∧ (e.own.domains.any fun a => a.1 == holder.ctrl &&
      e.own.domains.any fun b => b.1 == e.self && b.2 == a.2) = true) → e.hready (slotDie slot) = true → (if target = 1 then (if e.histBlocked slot then some 3 else none) else
      e.parkBlocked slot) = none → ((e.supersede slot).beginPark s.hbm slot target holder h.fn h.eq h.hseq).isSome =
      true →
    exec (.park h sid holder target) s = .next (s.put ((((e.supersede slot).beginPark s.hbm slot target holder h.fn h.eq
      h.hseq).getD e).answered h 0x0401 .ok []))) ∧
  (∀ (s : State) (h : Hdr) (sid target slot : Nat) (holder : WarmHolder),
    s.runs = true → s.dev.ready h false = true → s.dev.mayUse h.fn sid true = true → target = 1 →
    let e := s.dev.asked h slot
    e.parkOn = true → (s.dev.entered h).serves h sid slot = true → (e.sess slot).d.state = .parked →
      (e.sess slot).d.histLen ≤ (e.sess slot).d.histDurable →
    exec (.park h sid holder target) s = .next (s.put ((((e.supersede slot).tellRanges slot 1).toHistory slot (e.sess slot).d.lastRow
      h.fn h.eq h.hseq).answered h 0x0401 .ok []))) ∧
  (∀ (s : State) (h : Hdr) (sid mode slot : Nat),
    s.runs = true → s.dev.ready h false = true → s.dev.mayUse h.fn sid true = true → mode ≤ 2 →
    let e := s.dev.asked h slot
    e.parkOn = true → (s.dev.entered h).serves h sid slot = true →
    let x := (e.sess slot).d
    (x.state = .parked ∨ x.state = .history ∧ mode ≠ 1 ∨ (x.state = .open ∨ x.state = .waiting) ∧ x.tier = .warm) → e.hready
      (slotDie slot) = true →
    let d := if (e.park slot).isSome then e.abandonPark slot 2 else e
    (d.beginRevive s.hbm slot mode h.fn h.eq h.hseq).isSome = true →
    exec (.revive h sid mode) s = .next (s.put (((d.beginRevive s.hbm slot mode h.fn h.eq h.hseq).getD d).answered h 0x0402 .ok
      []))) ∧
  (∀ (s : State) (h : Hdr) (sid mode slot : Nat),
    s.runs = true → s.dev.ready h false = true → s.dev.mayUse h.fn sid true = true → mode ≤ 2 →
    let e := s.dev.asked h slot
    e.parkOn = true → (s.dev.entered h).serves h sid slot = true → (e.sess slot).d.state = .parking →
      ((e.abandonPark slot 2).isWarm slot || ((e.abandonPark slot 2).sess slot).d.tier == .parked) = false →
    exec (.revive h sid mode) s = .next (s.put ((e.abandonPark slot 2).answered h 0x0402 .ok []))) ∧
  (∀ (s : State) (h : Hdr) (sid mode slot : Nat),
    s.runs = true → s.dev.ready h false = true → s.dev.mayUse h.fn sid true = true → mode ≤ 2 →
    let e := s.dev.asked h slot
    e.parkOn = true → (s.dev.entered h).serves h sid slot = true → ((e.sess slot).d.state ∈ [SState.running, .reviving] ∨ ((e.sess
      slot).d.state ∈ [SState.open, .waiting] ∧ (e.sess slot).d.tier ≠ .warm ∧ (e.sess slot).coldest = .hot)) →
    exec (.revive h sid mode) s = .next (s.put ((e).answered h 0x0402 .dup [])))

/-- The events of parking and reviving have their effect (R328, R330, R332, R335 to R337, R339, R340, R342 to R344). -/
def Obligations.ParkEventsComplete : Prop :=
  (∀ (s : State) (sid slot : Nat) (p : Park),
    s.runs = true → s.dev.slotOf sid = some slot → s.dev.noteDurable slot = s.dev → s.dev.park slot = some p → p.durable =
      false → s.dev.parkReady slot p = true → p.target = 1 → s.dev.noGroupRuns = true →
    let p' := { p with durable := true }
    let d := s.dev.setPark slot p'
    exec (.parkDurable sid) s = .next (s.put ((d.toHistory slot (d.sess slot).d.lastRow p.fn p.eq
      p.hseq).reclaimFrames.reclaimBlocks))) ∧
  (∀ (s : State) (sid slot : Nat) (p : Park) (t : Nat),
    s.runs = true → s.dev.slotOf sid = some slot → s.dev.park slot = some p → p.mirrorDeadline = some t → p.mirrored = false →
      p.needMirror = true →
    exec (.mirrorTimeout sid) s = .next (s.put ((s.dev.reach t).abandonPark slot 5))) ∧
  (∀ (s : State) (sid : Nat) (ok : Bool) (data : Bytes) (slot : Nat) (p : Park),
    s.runs = true → s.dev.slotOf sid = some slot → s.dev.park slot = some p → p.target = 2 →
    exec (.warmCopy sid ok data) s = .next (s.put (if ok then (s.dev.setPark slot { p with mirrored := true }).checkPark slot
      else (s.dev.endPark slot).tierDone slot (s.dev.sess slot).d.lastRow p.fn p.eq p.hseq .noSpace))) ∧
  (∀ (s : State) (sid : Nat) (ok : Bool) (data : Bytes) (slot : Nat) (p : Park),
    s.runs = true → s.dev.slotOf sid = some slot → s.dev.park slot = some p → p.target = 0 → p.handle = 0 → p.fromWarm = true →
    let x := s.dev.sess slot
    let pages := pageIn' (pagePayload (s.dev.prof x).slotBytes) (ceilDiv x.d.committed 64) data
    exec (.warmCopy sid ok data) s = .next (s.put (if ok then (s.dev.stageImage slot p pages).getD (s.dev.abandonPark slot 4)
      else ((s.dev.tellRanges slot 1).becomeHistory slot x.d.lastRow p.fn p.eq p.hseq).commitLater slot 0))) ∧
  (∀ (s : State) (sid : Nat) (data : Bytes) (slot : Nat),
    s.runs = true → s.dev.slotOf sid = some slot → s.dev.park slot = none → (s.dev.sess slot).d.tier = .warm → s.dev.owns slot = true →
    exec (.warmCopy sid false data) s = .next (s.put (s.dev.lostPages slot))) ∧
  (∀ (s : State) (sid slot : Nat),
    s.runs = true → s.dev.slotOf sid = some slot →
    let x := s.dev.sess slot
    idleCond x.d = true → x.d.idleSince ≠ 0 → s.dev.on F.PRK_CTL_EN = true → s.dev.park slot = none → s.dev.owns slot = true →
      s.dev.hready (slotDie slot) = true →
    let e := s.dev.reach (x.d.idleSince + x.idleMs * 1000000)
    let c := e.idleChoice slot
    let d := match c.2 with | some r => e.override slot r c.1 | none => e
    let eq := d.gi F.PRK_POLICY_EQ x.d.partition
    exec (.idleToPark sid) s = .next (s.put (match c.1 with
        | .keep => d.idleStart slot
        | .park => (d.beginPark
      s.hbm slot 0 {} x.d.partition eq 0).getD (d.idleStart slot)
        | .history => (d.beginPark s.hbm slot 1 {}
      x.d.partition eq 0).getD (d.idleStart slot)))) ∧
  (∀ (s : State) (slot : Nat),
    s.runs = true → s.dev.on F.PRK_CTL_EN = true → s.dev.on F.PRK_CTL_SPILL_EN = true → s.dev.hamperReady = true →
      s.dev.hamperBelow (s.dev.g (if s.dev.prk.spillSeen = 1 then F.PRK_SPILL_HIGH_PCT else F.PRK_SPILL_LOW_PCT)) = true →
      s.dev.spillNext = some slot →
    let d : Dev := { s.dev with prk := { s.dev.prk with spillSeen := 1 } }
    let x := (d.sess slot).d
    let d := if x.hint = 2 then d.override slot 3 .history else d
    let eq := d.gi F.PRK_POLICY_EQ x.partition
    exec (.spillScan) s = .next (s.put (if x.histLen ≤ x.histDurable then (d.tellRanges slot 1).toHistory slot x.lastRow x.partition eq 0
      else (d.beginPark s.hbm slot 1 {} x.partition eq 0).getD d))) ∧
  (∀ (s : State) (sid : Nat) (data : Bytes) (slot : Nat) (r : Revive) (o : HObj),
    s.runs = true → s.dev.slotOf sid = some slot → s.dev.revive slot = some r → r.reserved = true → r.wants = 0 → r.mode = 1 →
      s.dev.readObj (s.dev.sess slot).d.imageHandle = some o → o.lacks 0 o.length = false → imageOk o.data = true →
    let d := s.dev.countReads (s.dev.sess slot).d.imageHandle 0 o.length
    exec (.reviveComplete sid data) s = .next (s.put ((d.fillFromImage slot o.data).revived slot (s.dev.sess
      slot).d.lastRow))) ∧
  (∀ (s : State) (sid : Nat) (data : Bytes) (slot : Nat) (r : Revive) (o : HObj),
    s.runs = true → s.dev.slotOf sid = some slot → s.dev.revive slot = some r → r.reserved = true → r.wants = 0 → r.mode = 1 →
    let x := (s.dev.sess slot).d
    s.dev.readObj x.imageHandle = some o → o.lacks 0 o.length = true → x.mirrorValid = true → x.buddy ≠ 0 → r.staged = false →
    let d := s.dev.countReads x.imageHandle 0 o.length
    let bad := o.badChunks
    exec (.reviveComplete sid data) s = .next (s.put ((d.setRevive slot
      { r with wants := (bad.map o.chunkLen).sum }).askChunks slot o bad))) ∧
  (∀ (s : State) (sid : Nat) (data : Bytes) (slot : Nat) (r : Revive),
    s.runs = true → s.dev.slotOf sid = some slot → s.dev.revive slot = some r → r.reserved = true → r.wants = 0 → r.mode = 3 →
    exec (.reviveComplete sid data) s = .next (s.put ((s.dev.fillFromHolder slot data).revived slot (s.dev.sess
      slot).d.lastRow))) ∧
  (∀ (s : State) (sid slot t : Nat) (r : Revive),
    s.runs = true → s.dev.slotOf sid = some slot → s.dev.revive slot = some r → r.mode = 2 → r.deadline = some t →
    exec (.rebuildTimeout sid) s = .next (s.put ((s.dev.reach t).reviveFailed slot 2)))

/-- The messages between a controller and its buddy take effect (R334, R335, R339), and so does the buddy's answer to a lost
descriptor, DESC_REPLY (R587). Which generation GET_DESC names in DESC is the model's reading. -/
def Obligations.MirrorMessagesComplete : Prop :=
  (∀ (s : State) (src sid partition obj length epoch hd : Nat) (c : Dev),
    s.runs = true → (obj = 3 ∨ obj = 4) →
    let d := s.dev.resolve src 5 .ok
    let x := d.mirror sid
    x.handle obj = 0 →
    let y := { x with partition := partition, ownerEpoch := epoch }
    d.createObj (mirrorHalf sid) obj sid partition (if obj = 3 then ceilDiv length 16384 else 64) = some (hd, c) →
    exec (.mirrorOpen src sid partition obj length epoch) s = .next (s.put ((c.setMirror sid (if obj = 3 then
      { y with image := some hd, whole := false } else { y with hist := some hd })).mirrorAck src sid obj 0 .ok))) ∧
  (∀ (s : State) (src prio sid obj offset : Nat) (data : Bytes) (o : HObj),
    s.runs = true → obj ≠ 4 →
    let d := s.dev.resolve src 5 .ok
    let hd := (d.mirror sid).handle obj
    d.obj hd = some o → ceilDiv (offset + data.length) 16384 ≤ o.pages →
    exec (.mirrorData ⟨src, prio⟩ sid obj offset data) s = .next (s.put (d.writeObjAt prio hd offset data))) ∧
  (∀ (s : State) (src sid obj : Nat) (digest : Bytes) (o : HObj),
    s.runs = true →
    let d := s.dev.resolve src 5 .ok
    d.obj ((d.mirror sid).handle obj) = some o →
    exec (.mirrorSeal src sid obj digest) s = .next (s.put ((d.setMirror sid
      { d.mirror sid with sealing := some (src, obj, padTo 48 digest) }).ackSeals))) ∧
  (∀ (s : State) (src sid partition epoch : Nat) (desc : Bytes),
    s.runs = true →
    let d := s.dev.resolve src 5 .ok
    let x := { d.mirror sid with partition := partition, ownerEpoch := epoch, desc := desc }
    exec (.mirrorDesc src sid partition epoch desc) s = .next (s.put ((d.setMirror sid x).mirrorAck src sid 0 0 .ok))) ∧
  (∀ (s : State) (src sid obj : Nat),
    s.runs = true → obj = 0 →
    let d := s.dev.resolve src 5 .ok
    let x := d.mirror sid
    let d := [3, 4].foldl (fun (d : Dev) o => if x.handle o = 0 then d else d.askRelease (x.handle o)) d
    let d := d.mirrorAck src sid 0 0 .ok
    exec (.mirrorRelease src sid obj) s = .next (s.put
      ({ d with prk := { d.prk with mirrors := NMap.del d.prk.mirrors sid } }))) ∧
  (∀ (s : State) (src sid obj : Nat),
    s.runs = true → obj = 3 →
    let d := s.dev.resolve src 5 .ok
    let x := d.mirror sid
    let d := (if x.handle 3 = 0 then d else d.askRelease (x.handle 3)).mirrorAck src sid 3 0 .ok
    exec (.mirrorRelease src sid obj) s = .next (s.put (d.setMirror sid { x with image := none }))) ∧
  (∀ (s : State) (src sid obj status length slot : Nat) (p : Park) (o : HObj),
    s.runs = true → s.dev.oldId sid = false →
    let d := s.dev.heard src 5 sid
    d.slotOf sid = some slot →
    let x := (d.sess slot).d
    x.buddy = src → x.state ≠ .closed → d.park slot = some p → p.target = 0 → status = 0 → obj = 3 → d.obj p.handle = some o →
      p.handle ≠ 0 → o.length ≤ length →
    exec (.mirrorAck src sid obj status length) s = .next (s.put ((d.setPark slot { p with mirrored := true }).checkPark slot))) ∧
  (∀ (s : State) (src sid obj offset length : Nat) (o : HObj),
    s.runs = true →
    let d := s.dev.resolve src 5 .ok
    let x := d.mirror sid
    d.readObj (x.handle obj) = some o → o.lacks offset length = false →
    exec (.mirrorRead src sid obj offset length) s = .next (s.put ((d.countReads (x.handle obj) offset length).sendBulk src 5 (mirrorMsg 8 0 x.partition obj 0 sid offset
      length x.ownerEpoch (padTo length (slice o.data offset length)))))) ∧
  (∀ (s : State) (src sid obj offset status : Nat) (data : Bytes) (slot l : Nat) (o : HObj) (p : Nat × Nat),
    s.runs = true → s.dev.oldId sid = false →
    let d := s.dev.heard src 5 sid
    d.slotOf sid = some slot →
    let hd := if obj = 3 then (d.sess slot).d.imageHandle else (d.sess slot).d.histHandle
    d.obj hd = some o → (obj = 3 → ((d.revive slot).map (·.wants)).getD 0 = 0) → lpnAt o.extents (offset / 16384) = some l →
      ((d.half (handleHalf hd)).repairs.find? fun e => e.1 == l) = some p →
    let y := d.half (handleHalf hd)
    NMap.get? y.map l = some p.2 → ((y.queued ++ y.buffer).all fun b => b.lpn != l) = true →
    let d := d.setHalf (handleHalf hd) { y with repairs := y.repairs.erase p }
    let more := d.updHalf (handleHalf hd) fun y => { y with buddyRepairs := y.buddyRepairs + 1 }
    exec (.mirrorReadData src sid obj offset status data) s = .next (s.put (if status = 0 then more.writeObj hd offset
      (data.take (o.length - offset)) else d.updObj hd fun o => { o with damaged := true }))) ∧
  (∀ (s : State) (src sid obj offset status : Nat) (data : Bytes) (slot : Nat) (o : HObj) (r : Revive),
    s.runs = true → s.dev.oldId sid = false →
    let d := s.dev.heard src 5 sid
    d.slotOf sid = some slot → obj = 3 →
    let hd := (d.sess slot).d.imageHandle
    d.obj hd = some o → d.revive slot = some r → 0 < r.wants → status = 0 → data.length < r.wants → data ≠ [] →
    let keep := o.data.drop (offset + data.length)
    let here (k : Nat) : Bool := decide (offset ≤ 16384 * k) && decide (16384 * k < offset + data.length)
    let d := d.updObj hd fun o => { o with
        data := padTo offset o.data ++ data ++ keep, holes := o.holes.filter fun k => !here k }
    exec (.mirrorReadData src sid obj offset status data) s = .next (s.put (d.setRevive slot
      { r with wants := r.wants - data.length, staged := true }))) ∧
  (∀ (s : State) (src sid : Nat) (x : Mirror),
    s.runs = true → s.dev.prk.mirrors = [(sid, x)] → x.desc ≠ [] →
    exec (.getDesc src sid) s = .next (s.put ((s.dev.resolve src 5 .ok).sendBulk src 5 (mirrorMsg 10 0 x.partition 0 0 sid 0
      256 x.ownerEpoch x.desc)))) ∧
  (∀ (s : State) (src sid status : Nat) (body : Bytes),
    s.runs = true → s.dev.oldId sid = false →
    let slot := sidSlot sid
    let d := s.dev.heard src 5 sid
    d.flt.asked.contains slot = true → sidHome sid = d.self → src = d.myBuddy →
    let d : Dev := { d with flt := { d.flt with asked := d.flt.asked.filter (· != slot) } }
    let y := Desc.ofBytes body
    let parked := y.imageValid && y.mirrorValid
    let st := if parked then SState.parked else SState.history
    let tier := if parked then Tier.parked else Tier.history
    let n := if parked then y.committed else 0
    let image := if parked then y.imageHandle else 0
    let hist := (d.sess slot).hist.take y.histDurable
    let e := if y.imageValid && !parked then d.askRelease y.imageHandle else d
    let e := if NMap.has e.ses.tab slot then (e.dropTable slot).releaseArea slot else e
    let x := { y with
        state := st, tier := tier, committed := n, histLen := y.histDurable, histAddr := 0, ptRoot := 0, grmState := 0,
        imageValid := parked, imageMx4 := parked && y.imageMx4, mirrorValid := parked, imageHandle := image, ctx := 0,
        ctxValid := false, turnQueued := false, ownerEpoch := y.ownerEpoch + 1, ownerCtrl := e.self }
    let e := e.setSess slot { d := x, hist := hist, mirrored := true }
    let e := e.postBoth y.partition { typ := 0x1D, subject := y.sid, args := [y.ownerEpoch + 1, e.self] }
    exec (.descReply src sid status body) s = .next (s.put (if status = 0 ∧ body.length = 256 ∧ (d.sess slot).d.state ≠ .closed
      then e else d)))

/-- A controller takes a WARM holding for another's session, and releases it (R337). How a holder allocates is the model's
choice (log entry 31). -/
def Obligations.WarmHoldingComplete : Prop :=
  (∀ (s : State) (src sid : Nat) (release : Bool) (length partition b i : Nat) (c : Dev),
    s.runs = true → release = false → (s.dev.prk.holdings.find? fun h => h.sid == sid && h.holder == src) = none →
    let die := slotDie (sidSlot sid)
    let n := max 1 (ceilDiv length (2 ^ 24))
    s.dev.binRun die n = some b → s.dev.newRegion (holdingRegion s.dev die b length partition) = some (i, c) →
    let bins := (List.range n).map fun i => die * 2 ^ 19 + b + i
    let ids := bins.flatMap fun k => (List.range (classFrames 15)).map fun i => k * 2 ^ 12 + i
    let f : Frame := { refcount := 1, cls := 15, fstate := 2, partition := partition, place := 1 }
    let pgs := { c.pgs with
        bins := bins.foldl (fun m k => NMap.put m k 15) c.pgs.bins,
        frames := ids.foldl (fun m id => NMap.put m id f) c.pgs.frames }
    let hold : Holding := { sid := sid, region := i, frames := ids, holder := src }
    let d := { c with pgs := pgs, prk := { c.prk with holdings := c.prk.holdings ++ [hold] } }
    exec (.warmHolding src sid release length partition) s = .next (s.put ((d.resolve src svcOwner .ok).reportHolding src
      sid i))) ∧
  (∀ (s : State) (src sid : Nat) (release : Bool) (length partition : Nat) (h : Holding),
    s.runs = true → release = true → (s.dev.prk.holdings.find? fun h => h.sid == sid && h.holder == src) = some h →
    let free (d : Dev) (id : Nat) : Dev := d.setFrame id { d.frame id with refcount := 0, fstate := 3 }
    let d := h.frames.foldl free (s.dev.dropRegion h.region)
    let d := { d with prk := { d.prk with holdings := d.prk.holdings.filter (· != h) } }
    exec (.warmHolding src sid release length partition) s = .next (s.put ((if d.noGroupRuns then d.reclaimFrames else
      d).resolve src svcOwner .ok)))

/-- Doorbells and the limits of a row have their effect (R46 to R48, R50, R57, R58, R291). -/
def Obligations.DoorbellsAndTimeoutsComplete : Prop :=
  (∀ (s : State) (g member word : Nat),
    s.runs = true → g < 64 → member < s.dev.gi F.TIM_GRP_SHAPE_MEMBERS g → s.dev.phase g = 1 → bits word 0 48 = s.dev.row g →
      bits word 56 2 = 0 →
    let stake := bits word 48 8
    stake < s.dev.stakes g → (NMap.get? (s.dev.group g).announced member).any (fun a => decide (stake < a)) = false →
    exec (.stakeDoorbell g member word) s = .next (s.put ((s.dev.updGroup g fun x =>
      { x with announced := NMap.put x.announced member stake }).closeStakes g 256))) ∧
  (∀ (s : State) (g member word : Nat),
    s.runs = true → g < 64 → member < s.dev.gi F.TIM_GRP_SHAPE_MEMBERS g → s.dev.phase g = 1 → bits word 0 48 = s.dev.row g →
      bits word 56 2 = 1 →
    exec (.stakeDoorbell g member word) s = .next (s.put (s.dev.updGroup g fun x =>
      { x with rowEnds := if x.rowEnds.contains member then x.rowEnds else x.rowEnds ++ [member] }))) ∧
  (∀ (s : State) (g member word : Nat),
    s.runs = true → g < 64 → member < s.dev.gi F.TIM_GRP_SHAPE_MEMBERS g → s.dev.phase g ≠ 0 → s.dev.phase g ≠ 4 → bits word 0
      48 = s.dev.row g + 1 → bits word 56 2 < 2 →
    exec (.stakeDoorbell g member word) s = .next (s.put (s.dev.updGroup g fun x =>
      { x with heldBells := NMap.put x.heldBells member word }))) ∧
  (∀ (s : State) (g t : Nat),
    s.runs = true → g < 64 → (s.dev.group g).stakeDeadline = some t → s.dev.phase g = 1 →
    let d := (s.dev.reach t).updGroup g fun x => { x with stakeDeadline := none }
    let n := d.closedCount g
    let ev : Event := { typ := 0x12, subject := d.gid g, args := [d.row g, n] ++ memberWords (d.silent g n) }
    let parts := (((d.group g).batch.map fun e => (d.sess e.slot).d.partition).filter (· != 0)).dedup
    exec (.stakeTimeout g) s = .next (s.put ((parts.foldl (fun (d : Dev) p => d.postP p ev) (d.post0 ev)).sati
      F.TIM_GRP_CNT_STAKE_TO g 1))) ∧
  (∀ (s : State) (g t : Nat),
    s.runs = true → g < 64 → (s.dev.group g).rowDeadline = some t → s.dev.phase g = 1 →
    exec (.rowTimeout g) s = .next (s.put ((s.dev.reach t).runBoundary s.hbm g true))) ∧
  (∀ (s : State) (g : Nat),
    s.runs = true → g < 64 → s.dev.rowOver g = true →
    exec (.rowBoundary g) s = .next (s.put (s.dev.runBoundary s.hbm g false))) ∧
  (∀ (s : State) (g member row : Nat) (entries : List (Nat × Nat)),
    s.runs = true → g < 64 → member < s.dev.gi F.TIM_GRP_SHAPE_MEMBERS g → entries.length ≤ s.dev.gi F.TOK_GRP_IN_ENTRIES g →
      s.dev.phase g = 1 → row = s.dev.row g →
    let list : List TokEntry := entries.map fun e => { sid := e.1, token := e.2 }
    exec (.tokenList g member row entries) s = .next (s.put (s.dev.updGroup g fun x =>
      { x with tokens := NMap.put x.tokens member list }))) ∧
  (∀ (s : State) (g member row : Nat) (entries : List (Nat × Nat)),
    s.runs = true → g < 64 → member < s.dev.gi F.TIM_GRP_SHAPE_MEMBERS g → entries.length ≤ s.dev.gi F.TOK_GRP_IN_ENTRIES g →
      s.dev.phase g ≠ 0 → s.dev.phase g ≠ 4 → row = s.dev.row g + 1 →
    let list : List TokEntry := entries.map fun e => { sid := e.1, token := e.2 }
    exec (.tokenList g member row entries) s = .next (s.put (s.dev.updGroup g fun x =>
      { x with heldTokens := NMap.put x.heldTokens member list })))

/-- The messages and limits between two rows take effect (R51, R53 to R55, R57, R59, R60, R625). -/
def Obligations.BoundaryRoundsComplete : Prop :=
  (∀ (s : State) (g : Nat) (r : Report),
    s.runs = true → g < 64 → (s.dev.group g).reportPending = some r → s.dev.phase g = 2 → (s.dev.group g).boundaryDone = true →
      (s.dev.group g).acksWanted = [] →
    let d := (s.dev.setPhase g .waitBeacon).updGroup g fun x => { x with reportPending := none, boundaryDone := false }
    exec (.boundaryReportSend g) s = .next (s.put (d.sendReport g r))) ∧
  (∀ (s : State) (src gid row epoch mapEpoch status : Nat) (void cutOk cutFail owns restart : Bool) (g : Nat),
    s.runs = true → s.dev.groupOf gid = some g → (s.dev.group g).ctrls.contains src = true →
    let d := s.dev.resolve src svcTime .ok
    let x := s.dev.group g
    d.isTk g = true → (row = x.roundRow ∨ restart = true ∨ (x.tookOver = true ∧ x.roundRow < row)) →
    let r : Report := {
        row := row, tkEpoch := epoch, mapEpoch := mapEpoch, status := status, void := void, cutOk := cutOk, cutFail := cutFail,
        owns := owns, restart := restart }
    exec (.boundaryReport src gid row epoch mapEpoch status void cutOk cutFail owns restart) s = .next (s.put (d.takeReport g
      src r))) ∧
  (∀ (s : State) (g t : Nat),
    s.runs = true → g < 64 → (s.dev.group g).lostDeadline = some t → s.dev.issues g = true → s.dev.phase g = 3 → (s.dev.group
      g).heldBeacon = none →
    exec (.memberLost g) s = .next (s.put ((s.dev.reach t).endRound g))) ∧
  (∀ (s : State) (src gid row epoch mapEpoch : Nat) (void resync cut reconf memberLost : Bool) (voidMap g : Nat),
    s.runs = true → s.dev.groupOf gid = some g → s.dev.phase g ≠ 0 → s.dev.phase g ≠ 4 → epoch = s.dev.tkEpoch g → src = s.dev.tk
      g →
    let b : Beacon := {
        row := row, tkEpoch := epoch, groupId := gid, void := void, resync := resync, cut := cut, reconf := reconf,
        memberLost := memberLost, voidMap := voidMap }
    exec (.beacon src gid row epoch mapEpoch void resync cut reconf memberLost voidMap) s = .next (s.put ((s.dev.takeBeacon g
      src b).resolve src svcTime .ok))) ∧
  (∀ (s : State) (src gid row epoch mapEpoch : Nat) (void resync cut reconf memberLost : Bool) (voidMap g : Nat),
    s.runs = true → s.dev.groupOf gid = some g → s.dev.phase g = 0 → epoch = s.dev.tkEpoch g → src = s.dev.tk g → reconf = true →
      resync = true → s.dev.row g < row →
    let b : Beacon := {
        row := row, tkEpoch := epoch, groupId := gid, void := void, resync := resync, cut := cut, reconf := reconf,
        memberLost := memberLost, voidMap := voidMap }
    exec (.beacon src gid row epoch mapEpoch void resync cut reconf memberLost voidMap) s = .next (s.put ((s.dev.updGroup g
      fun x => { x with heldBeacon := some (src, b) }).resolve src svcTime .ok))) ∧
  (∀ (s : State) (g src : Nat) (b : Beacon),
    s.runs = true → g < 64 → (s.dev.group g).heldBeacon = some (src, b) → (s.dev.phase g = 0 ∨ s.dev.phase g = 3) → s.dev.on
      F.TIM_CTL_EN = true →
    exec (.rowBegin g) s = .next (s.put (s.dev.beginRow s.hbm g b))) ∧
  (∀ (s : State) (src gid row epoch mapEpoch g : Nat) (b : Beacon),
    s.runs = true → s.dev.groupOf gid = some g →
    let d := s.dev.resolve src svcTime .ok
    d.issues g = true → (d.group g).lastBeacon = some b → d.phase g ≠ 4 →
    exec (.beaconQuery src gid row epoch mapEpoch) s = .next (s.put (d.send src svcTime (d.timeHdr g 1 0 b.row 0 ++ b.bytes)))) ∧
  (∀ (s : State) (src gid row epoch mapEpoch g : Nat),
    s.runs = true → s.dev.groupOf gid = some g →
    let d := (s.dev.resolve src svcTime .ok).updGroup g fun x => { x with mapReady := NMap.put x.mapReady src (mapEpoch, row) }
    exec (.mapReady src gid row epoch mapEpoch) s = .next (s.put (d.firstBeacon g))) ∧
  (∀ (s : State) (g t : Nat),
    s.runs = true → g < 64 → (s.dev.group g).beaconDeadline = some t → s.dev.phase g = 3 →
    let d := s.dev.reach t
    let again := d.deputy g = d.self ∨ d.deputy g = 0
    let till := if again then some (t + d.seen g F.TIM_DPATH_BEACON_MS * 1000000) else none
    let own (x : Group) : List Nat := if d.deputy g = d.self ∧ !x.querySeen.contains d.self then x.querySeen ++ [d.self] else
      x.querySeen
    let d := d.updGroup g fun x => { x with beaconDeadline := none, querySeen := own x, takeoverDeadline := till }
    let ask := ([d.tk g, d.deputy g].filter fun c => c != 0 && c != d.self).dedup
    exec (.beaconLimit g) s = .next (s.put (ask.foldl (fun (d : Dev) c => d.send c svcTime (d.timeHdr g 3 0 (d.row g) 0)) d))) ∧
  (∀ (s : State) (g t : Nat),
    s.runs = true → g < 64 → (s.dev.group g).takeoverDeadline = some t → s.dev.phase g = 3 → (s.dev.group g).heldBeacon = none
      →
    let d := (s.dev.reach t).updGroup g fun x => { x with takeoverDeadline := none }
    d.deputy g = d.self → d.self ≠ 0 → (d.group g).querySeen ≠ [] →
    let d := d.newTk g d.self (d.tkEpoch g + 1)
    let n := d.row g
    let lost := d.now + d.seen g F.TIM_DPATH_ROW_MS * 1000000
    let keep (x : Group) : Group := { x with
        tookOver := true, roundRow := n, reports := x.reports.filter fun e => decide (n ≤ e.2.row), lostDeadline := some lost }
    exec (.takeover g) s = .next (s.put (((d.failCkpt g 4).updGroup g keep).tryBeacon g)))

/-- Tiles that pass their checks are taken (R153, R158, R163 to R165, R260, R261, R263). -/
def Obligations.TilesComplete : Prop :=
  (∀ (s : State) (g m qp imm : Nat) (bytes : Bytes) (slot : Nat) (e : BatchEntry),
    s.runs = true → g < 64 → s.dev.on F.ATT_CTL_EN = true → imm < s.dev.gi F.ATT_GRP_SLOTS_SLOTS g → max bytes.length (64 +
      leAt bytes 0x28 4) ≤ s.dev.gi F.ATT_GRP_IN_SLOT_KIB g * 1024 →
    let t := QTile.ofBytes qp (imm % 65536) bytes
    let d := s.dev.cntP F.ATT_CNT0_TILES_IN (s.dev.partOf t.sid) 1 true
    d.slotOf t.sid = some slot →
    let d := d.touch slot
    d.epochs slot t.mapEpoch t.ownerEpoch = .accept → t.row = d.row g → d.phase g = 1 → d.closed g
      t.stake = false → d.feeds g slot = some e → (d.liveEngines (slotDie slot)).isEmpty = false → (d.sess slot).d.kill = false
      → ((d.turnCtx slot).map fun i => (d.ctx i).kill).getD false = false → (d.sess slot).voided = none → d.tileOk g m slot t e
      = true → (d.worksOf g slot t).any (fun w => w.got.contains (t.pos, t.head0)) = false →
    exec (.queryTile g m qp imm bytes) s = .next (s.put (d.takeTile g m slot t e))) ∧
  (∀ (s : State) (g die qp imm : Nat) (bytes : Bytes) (slot : Nat) (u : Push),
    s.runs = true → g < 64 → die < 2 →
    let lane := imm / 65536 % 256
    lane < s.dev.gi F.ATT_GRP_PUSH_LANES g → imm % 65536 < s.dev.gi F.ATT_GRP_PUSH2_LANE_SLOTS g → max bytes.length (64 + leAt
      bytes 0x28 4) ≤ s.dev.gi F.ATT_GRP_PUSH_SLOT_4K g * 4096 →
    let t := PTile.ofBytes qp (imm % 65536) bytes
    s.dev.slotOf t.sid = some slot →
    let d := s.dev.touch slot
    d.epochs slot t.mapEpoch t.ownerEpoch = .accept → d.pushOf slot = some u → u.lane.isSome = true → u.id = t.pushId →
      t.pushId ≠ 0 → d.pushOk g die lane u t = true → u.placed.contains (pieceKey t.layer t.pos) = false →
    let stake := d.layerStake g t.layer
    let row := if d.phase g = 1 ∧ !d.closed g stake then d.row g else d.row g + 1
    let t := { t with row := row, tag := (d.sess u.slot).d.partition }
    let d := ((d.setPush { u with waiting := u.waiting ++ [t] }).stagePush g die stake slot).wakeTasks g stake (2 ^ 22) (some die)
    exec (.pushTile g die qp imm bytes) s = .next (s.put (d.placeLate g die t.layer))) ∧
  (∀ (s : State) (src : Nat) (tile : Bytes) (slot : Nat),
    s.runs = true →
    let t := OTile.ofBytes tile
    s.dev.oldId t.sid = false → s.dev.slotOf t.sid = some slot →
    let d := s.dev.touch slot
    let g := (d.sess slot).d.group
    d.epochs slot t.mapEpoch t.ownerEpoch = .accept → t.row = d.row g → d.phase g = 1 → (d.sess slot).voided = none →
    let d : Dev := { d with att := { d.att with partials := d.att.partials ++ [(g, t)] } }
    exec (.rangePartial src tile) s = .next (s.put ((d.mergePartials g slot t).resolve src 4 .ok)))

/-- Engines issue steps, change tasks and copy pages (R122, R211, R223, R230, R231, R271 to R276). -/
def Obligations.EnginesComplete : Prop :=
  (∀ (s : State) (e station : Nat) (t : Task) (v : Weave) (i : Inst),
    s.runs = true → e < 64 → station < 6 → (s.dev.engine e).running = some t → s.dev.weaveOf t.group = some v → s.dev.phase
      t.group = 1 → s.dev.nextInst v e station t = some i →
    let x := (v.stepsOf t.stake).getD i.step {}
    let works := s.dev.needed v e t x i
    s.dev.headOf v e t x i = true → s.dev.mayFire v e t x i works = true →
    let waited := (s.dev.tileWait v e t).isSome && x.op != 0x02 && x.op != 0x0E
    let d := ((s.dev.issue s.hbm v e t x i works).markIssued e i).latchYield e waited
    let d := d.flushAll t.group
    exec (.stepFire e station) s = .next (s.put ((if d.closed t.group t.stake then d.returnStaged t.group t.stake else
      d).tryCheap e))) ∧
  (∀ (s : State) (sid stake slot : Nat) (v : Weave) (w : Work),
    s.runs = true → s.dev.slotOf sid = some slot → (s.dev.siftFor slot).isSome = true →
    let g := (s.dev.sess slot).d.group
    s.dev.weaveOf g = some v → (s.dev.att.work.find? fun w => w.group == g && w.slot == slot && w.stake == stake && w.selAsked
      && w.sel.isNone) = some w →
    let d := s.dev.putWork { w with sel := some (s.dev.selection v w (v.layerAt stake)) }
    let engines := ((s.dev.group g).plan.filter fun p => p.stake == stake && p.slot == slot && !p.push).map (·.engine)
    exec (.selection sid stake) s = .next (s.put (engines.dedup.foldl Dev.tryCheap d))) ∧
  (∀ (s : State) (slot layer page : Nat) (c : Nat × Nat × Nat × Nat × Nat) (r : Resv),
    s.runs = true → (s.dev.pgs.copies.find? fun c => c.1 == slot && c.2.1 == layer && c.2.2.1 == page) = some c →
    let before := (s.dev.pgs.copies.filter fun k => slotDie k.1 == slotDie slot).takeWhile (· != c)
    before.length < s.dev.moveEngines (slotDie slot) →
    let src := c.2.2.2.1
    let x := s.dev.sess slot
    let n := min 64 (x.d.committed - 64 * page)
    let fs := s.dev.frame src
    let d := s.dev.heatFrame src (s.dev.row x.d.group)
    let d := d.poke (d.frameAddr c.2.2.2.2) (Memory.readN s.hbm (d.frameAddr src) (n * (s.dev.prof x).slotBytes))
    let d := { d with pgs := { d.pgs with copies := d.pgs.copies.erase c } }.sat F.PGS_CNT_COW 1
    (x.resv.find? fun r => r.layer == layer && r.page == page) = some r →
    let copied (f : Frame) : Frame := { f with
        fill := n, fmt := fs.fmt, parkFid := fs.parkFid, written := fs.written, ofsLat := fs.ofsLat,
        ofsRot := fs.ofsRot }
    exec (.cowCopy slot layer page) s = .next (s.put (((d.installResv slot r copied).dropRef slot src).placeLate x.d.group
      (slotDie slot) layer))) ∧
  (∀ (s : State) (e : Nat) (t : Task) (v : Weave),
    s.runs = true → e < 64 →
    let x := s.dev.engine e
    x.running = some t → s.dev.weaveOf t.group = some v → s.dev.firstInst v e t = none → s.dev.selecting v e t = false →
    let d := s.dev.setEngine e { x with running := none, request := none }
    exec (.taskComplete e) s = .next (s.put ((if t.stake + 1 < v.stakes then d.readyTask t.group e (t.stake + 1) else
      d).dispatch e))) ∧
  (∀ (s : State) (e : Nat) (t : Task) (l till : Nat),
    s.runs = true → e < 64 → (s.dev.engine e).running = some t → (s.dev.engine e).request = some (l, till) →
    exec (.preemptionWait e) s = .next (s.put ((s.dev.reach till).saveTask e none))) ∧
  (∀ (s : State) (e : Nat) (t : Task) (l what : Nat) (v : Weave),
    s.runs = true → e < 64 →
    let x := s.dev.engine e
    x.running = some t → t.level = some l → s.dev.weaveOf t.group = some v → s.dev.tileWait v e t = some what →
      t.yieldCc ≠ 0 → (!x.ready.isEmpty || x.saved.any fun u => u.awaits.isNone) = true → NMap.has
      s.dev.att.saveSets (saveKey (engDie e) l) = true → (x.saved.any fun u => u.level == some l) = false →
    let d := s.dev.reach (t.waitFrom + s.dev.ccNs t.yieldCc)
    let d := (d.sat F.ATT_PREEMPT_CNT_YIELD 1).setEngine e { x with running := some { t with awaits := some what } }
    exec (.yield e) s = .next (s.put (d.saveTask e (d.cheapBytes v e t)))) ∧
  (∀ (s : State) (e : Nat) (t : Task),
    s.runs = true → e < 64 →
    let x := s.dev.engine e
    x.saving = some t →
    exec (.save e) s = .next (s.put ((s.dev.setEngine e
      { x with saving := none, saved := x.saved ++ [{ t with readyAt := s.dev.now }] }).dispatch e))) ∧
  (∀ (s : State) (e : Nat) (t : Task),
    s.runs = true → e < 64 →
    let x := s.dev.engine e
    x.restoring = some t →
    let d := (s.dev.sat F.ATT_PREEMPT_CNT_RESTORE 1).setEngine e
      { x with
        restoring := none,
        running := some { t with
          saved := none, tags := [], lost := [], yieldCc := s.dev.g F.ATT_PREEMPT_YIELD_CC, waitFrom := s.dev.now } }
    let woken := x.saved.filter fun u => u.awaits.isNone
    exec (.restore e) s = .next (s.put ((x.ready ++ woken).foldl (fun (d : Dev) u => d.askPreempt e u) ((d.putTags t).spoil t))))

/-- Unit faults have their counted and recorded effect (R232, R580, R581, R584, R585, R588, R590, R591). -/
def Obligations.UnitFaultsComplete : Prop :=
  (∀ (s : State) (kind idx n : Nat),
    s.runs = true → unitFitted kind idx = true → unitCount kind ≠ 0 →
    let d := if kind = 1 then s.dev.sati F.ATT_ENG_FAULT_CORRECTED idx n
      else if kind = 3 then s.dev.updHalf (idx / 256) fun x => { x with corrected := x.corrected + n } else s.dev
    exec (.correctedError kind idx n) s = .next (s.put ((d.countUnit kind idx n 0).checkUnit s.hbm kind idx 0))) ∧
  (∀ (s : State) (kind idx failed loc fn ring : Nat),
    s.runs = true → unitFitted kind idx = true → fn < 32 → kind ≠ 1 → failed ≠ 0 → failed ≤ s.dev.g F.FLT_CTL_RETRIES →
    let d := if unitCount kind = 0 then s.dev else s.dev.countUnit kind idx 0 failed
    let cured : FaultRec := { cls := 1, action := 1, kind := kind, unit := idx, attempts := min 16 (failed + 1), loc := loc }
    exec (.transientFault kind idx failed loc fn ring) s = .next (s.put ((d.faultRecord cured).checkUnit s.hbm kind idx 1))) ∧
  (∀ (s : State) (kind idx failed loc fn ring : Nat),
    s.runs = true → unitFitted kind idx = true → fn < 32 → kind ≠ 1 → kind < 11 → s.dev.g F.FLT_CTL_RETRIES < failed →
    let n := s.dev.g F.FLT_CTL_RETRIES + 1
    let hit := if kind = 2 then s.dev.sharers loc ++ s.dev.struck loc else []
    let served := 6 ≤ kind && kind ≤ 10 && (s.dev.ring fn ring).busy.isSome
    let d := if unitCount kind = 0 then s.dev else s.dev.countUnit kind idx 0 n
    let sid := ((hit.head?).map fun k => (d.sess k).d.sid).getD 0
    let lost : FaultRec := {
        cls := 2, action := 2, kind := kind, unit := idx, attempts := min 16 n, loc := loc, session := sid,
        affected := hit.length + b2n served, status := 0xF0 }
    exec (.transientFault kind idx failed loc fn ring) s = .next (s.put (((d.faultRecord lost).uncured s.hbm kind idx loc fn
      ring).checkUnit s.hbm kind idx 1))) ∧
  (∀ (s : State) (e loc : Nat),
    s.runs = true → e < 64 →
    exec (.engineFault e loc) s = .next (s.put (s.dev.engineFault s.hbm e loc false))) ∧
  (∀ (s : State) (e : Nat),
    s.runs = true → e < 64 → s.dev.stalls e = true →
    exec (.stallWatchdog e) s = .next (s.put ((s.dev.sati F.ATT_ENG_STATUS_STALLS e 1).engineFault s.hbm e 0 true))) ∧
  (∀ (s : State) (core : Nat) (held : List (Nat × Nat)),
    s.runs = true → core < 8 →
    let busy := held.dedup.filter fun e => (s.dev.ring e.1 e.2).busy.isSome
    let d := (busy.foldl (fun (d : Dev) e => (d.faultRes 2).answer e.1 e.2) s.dev).countUnit 11 core 0 1
    d.transWin 11 core < d.g F.FLT_CTL_RETRIES + 1 →
    let fails := if busy.isEmpty then 1 else 2
    let status := if busy.isEmpty then 0 else 0xF0
    exec (.coreWatchdog core held) s = .next (s.put (d.faultRecord
      { cls := fails, action := fails, kind := 11, unit := core, attempts := 1, affected := busy.length, status := status }))) ∧
  (∀ (s : State),
    s.runs = true →
    let t := s.dev.flt.hourAt + 3600 * 1000000000
    let d := s.dev.reach t
    let aged := NMap.mapV d.flt.buckets fun _ bs => (({} : Bucket) :: bs).take (d.g F.FLT_CTL_WINDOW_H)
    let kept := aged.filter fun e => e.2.any fun b => b.corr != 0 || b.trans != 0
    let d : Dev := { d with flt := { d.flt with hourAt := t, buckets := kept } }
    exec (.faultWindow) s = .next (s.put
      ({ d with flt := { d.flt with warned := d.flt.warned.filter fun k => d.unitWarm (k / 65536) (k % 65536) } })))

/-- Descriptor reads and the reinstatement of a lost session (R77, R81, R587). -/
def Obligations.LostDescriptorsComplete : Prop :=
  (∀ (s : State) (slot : Nat),
    s.runs = true → slot < 4194304 → NMap.has s.dev.ses.tab slot = true → (s.dev.sess slot).lost = false → ((s.dev.lines
      (slotDie slot)).any fun l => l.slot == slot) = false →
    let rest := s.dev.ses.fetches.filter fun f => f.slot != slot
    exec (.descriptorFetch slot true) s = .next (s.put (({ s.dev with ses := { s.dev.ses with fetches := rest } } :
      Dev).cacheIn slot false))) ∧
  (∀ (s : State) (slot : Nat),
    s.runs = true → slot < 4194304 → NMap.has s.dev.ses.tab slot = true → (s.dev.sess slot).lost = false → ((s.dev.lines
      (slotDie slot)).any fun l => l.slot == slot) = false → (s.dev.ses.fetches.any fun f => f.slot == slot) = false →
    let rest := s.dev.ses.fetches.filter fun f => f.slot != slot
    exec (.descriptorFetch slot false) s = .next (s.put
      ({ s.dev with ses := { s.dev.ses with fetches := rest ++ [{ slot := slot, tries := 1 }] } }))) ∧
  (∀ (s : State) (slot : Nat),
    s.runs = true → slot < 4194304 → NMap.has s.dev.ses.tab slot = true → (s.dev.sess slot).lost = false → ((s.dev.lines
      (slotDie slot)).any fun l => l.slot == slot) = false → (s.dev.ses.fetches.any fun f => f.slot == slot) = true →
    let rest := s.dev.ses.fetches.filter fun f => f.slot != slot
    exec (.descriptorFetch slot false) s = .next (s.put (({ s.dev with ses := { s.dev.ses with fetches := rest } } :
      Dev).loseDesc slot))) ∧
  (∀ (s : State) (slot : Nat) (ok : Bool),
    s.runs = true → slot < 4194304 → (NMap.has s.dev.ses.tab slot = false ∨ (s.dev.sess slot).lost = true ∨ ((s.dev.lines
      (slotDie slot)).any fun l => l.slot == slot) = true) →
    exec (.descriptorFetch slot ok) s = .next (s.put s.dev)) ∧
  (∀ (s : State) (src sid status : Nat) (body : Bytes),
    s.runs = true → s.dev.oldId sid = false →
    let d := s.dev.heard src 5 sid
    let slot := sidSlot sid
    d.flt.asked.contains slot = true → sidHome sid = d.self → src = d.myBuddy →
      (status ≠ 0 ∨ body.length ≠ 256 ∨ (d.sess slot).d.state = .closed) →
    exec (.descReply src sid status body) s = .next (s.put { d with flt := { d.flt with asked := d.flt.asked.filter (· !=
      slot) } })) ∧
  (∀ (s : State) (src sid status : Nat) (body : Bytes),
    s.runs = true → s.dev.oldId sid = false →
    let d := s.dev.heard src 5 sid
    let slot := sidSlot sid
    d.flt.asked.contains slot = true → sidHome sid = d.self → src = d.myBuddy → status = 0 → body.length = 256 →
      (d.sess slot).d.state ≠ .closed →
    let d : Dev := { d with flt := { d.flt with asked := d.flt.asked.filter (· != slot) } }
    let y := Desc.ofBytes body
    let hist := (d.sess slot).hist.take y.histDurable
    let parked := y.imageValid && y.mirrorValid
    let st := if parked then SState.parked else SState.history
    let tier := if parked then Tier.parked else Tier.history
    let n := if parked then y.committed else 0
    let image := if parked then y.imageHandle else 0
    let e := y.ownerEpoch + 1
    let d := if y.imageValid && !parked then d.askRelease y.imageHandle else d
    let d := if NMap.has d.ses.tab slot then (d.dropTable slot).releaseArea slot else d
    let x := { y with
        state := st, tier := tier, committed := n, histLen := y.histDurable, histAddr := 0, ptRoot := 0, grmState := 0,
        imageValid := parked, imageMx4 := parked && y.imageMx4, mirrorValid := parked, imageHandle := image, ctx := 0,
        ctxValid := false, turnQueued := false, ownerEpoch := e, ownerCtrl := d.self }
    let d := d.setSess slot { d := x, hist := hist, mirrored := true }
    exec (.descReply src sid status body) s = .next (s.put (d.postBoth y.partition
      { typ := 0x1D, subject := y.sid, args := [e, d.self] })))

/-- Resets have their effect (R566 to R568, R574 to R577, R610). -/
def Obligations.BlockAndDeviceResets : Prop :=
  (∀ (s : State) (h : Hdr) (block : Nat) (asserted : Bool),
    s.runs = true → s.dev.fits h false = true → h.fn = 0 → block < 12 → asserted = true →
    let e := s.dev.entered h
    e.bootPhase ≠ 3 →
    exec (.blockReset h block asserted) s = .next (s.put ((e.resetBlock s.hbm block true).answered h 0x0901 .ok []))) ∧
  (∀ (s : State) (h : Hdr) (block : Nat) (asserted : Bool),
    s.runs = true → s.dev.ready h false = true → h.fn = 0 → block < 12 →
    let e := s.dev.entered h
    e.bootPhase = 3 → (e.rst.blocks.any fun b => b.row == block) = false → ((NMap.keys e.groups).filter fun g => e.phase g ==
      2) = [] → e.rowIdle block = true →
    exec (.blockReset h block asserted) s = .next (s.put ((e.resetBlock s.hbm block false).answered h 0x0901 .ok []))) ∧
  (∀ (s : State) (h : Hdr) (block : Nat) (asserted : Bool),
    s.runs = true → s.dev.ready h false = true → h.fn = 0 → block < 12 →
    let e := s.dev.entered h
    e.bootPhase = 3 → (e.rst.blocks.any fun b => b.row == block) = false →
    let gs := (NMap.keys e.groups).filter fun g => e.phase g == 2
    (gs ≠ [] ∨ e.rowIdle block = false) →
    let b : BlkReset := { row := block, fn := h.fn, ring := h.ring, groups := gs }
    let e := ({ e with rst := { e.rst with blocks := e.rst.blocks ++ [b] } } : Dev).showResets
    let e := if gs.isEmpty then e.startDrain block else e
    exec (.blockReset h block asserted) s = .next (s.put (e.setRing h.fn h.ring
      { e.ring h.fn h.ring with busy := some (h.hseq, 0x0901, true) }))) ∧
  (∀ (s : State) (row : Nat) (b : BlkReset),
    s.runs = true → row < 12 → (s.dev.rst.blocks.find? fun b => b.row == row && b.groups.isEmpty) = some b →
    exec (.blockIdleTimeout row) s = .next (s.put ((s.dev.reach b.deadline).finishReset s.hbm b))) ∧
  (∀ (s : State) (h : Hdr) (kind : Nat),
    s.runs = true → s.dev.ready h false = true → h.fn = 0 → kind ≤ 2 →
    let e := s.dev.entered h
    exec (.deviceReset h kind) s = .next (s.put ((e.answered h 0x0902 .ok []).cleanStop.deviceReset s.hbm 4 kind (kind == 1)
      (kind == 2)))) ∧
  (∀ (s : State),
    s.dev.rst.pinHeld = false →
    let d := if s.dev.pwr.pstate = 2 ∧ s.dev.rst.held = false then s.dev.flushNow.deviceReset s.hbm 3 0 false false else s.dev
    exec (.rstN) s = .next (s.put ({ d with rst := { d.rst with pinHeld := true, held := true } })))

/-- Start-up, hamper restore and firmware update take their steps (R375, R491, R571 to R573, R624). -/
def Obligations.StartUpComplete : Prop :=
  (∀ (s : State) (fails : List (Nat × Nat)),
    s.runs = true → s.dev.bootPhase = 0 → s.dev.bootStep = 1 →
    exec (.startUp fails) s = .next (s.put (({ s.dev with pwr := { s.dev.pwr with railTries := 0 } } : Dev).boot1))) ∧
  (∀ (s : State) (fails : List (Nat × Nat)),
    s.runs = true → s.dev.bootPhase = 0 → s.dev.bootStep = 2 →
    exec (.startUp fails) s = .next (s.put (s.dev.boot2))) ∧
  (∀ (s : State) (fails : List (Nat × Nat)),
    s.runs = true → s.dev.bootPhase = 0 → s.dev.bootStep = 3 →
    exec (.startUp fails) s = .next (s.put (s.dev.boot3 s.hbm fails))) ∧
  (∀ (s : State) (fails : List (Nat × Nat)),
    s.runs = true → s.dev.bootPhase = 0 → s.dev.bootStep = 4 →
    exec (.startUp fails) s = .next (s.put (s.dev.s F.RST_STATE_STEP 5))) ∧
  (∀ (s : State) (fails : List (Nat × Nat)),
    s.runs = true → s.dev.bootPhase = 0 → s.dev.bootStep = 5 →
    let d := (s.dev.layOut.setHstate 0 .recovering).setHstate 1 .recovering
    exec (.startUp fails) s = .next (s.put (d.s F.RST_STATE_STEP (d.bootStep + 1)))) ∧
  (∀ (s : State) (fails : List (Nat × Nat)),
    s.runs = true → s.dev.bootPhase = 0 → s.dev.bootStep = 6 → (s.dev.halves.all fun e => e.2.restored) = true →
    exec (.startUp fails) s = .next (s.put (s.dev.s F.RST_STATE_STEP 7))) ∧
  (∀ (s : State) (fails : List (Nat × Nat)),
    s.runs = true → s.dev.bootPhase = 0 → s.dev.bootStep = 7 →
    let d := s.dev.s F.CLK_STATUS_REF_LOCK 1
    exec (.startUp fails) s = .next (s.put (d.s F.RST_STATE_STEP (d.bootStep + 1)))) ∧
  (∀ (s : State) (fails : List (Nat × Nat)),
    s.runs = true → s.dev.bootPhase = 0 → s.dev.bootStep = 8 →
    let cause := s.dev.g F.RST_CAUSE_CAUSE
    let p := if s.dev.rst.wantTest then 1 else if cause = 5 ∨ cause = 6 ∨ s.dev.rst.fellBack ∨ s.dev.optionsNow.2 then 2 else 3
    exec (.startUp fails) s = .next (s.put (s.dev.s F.RST_STATE_PHASE p))) ∧
  (∀ (s : State) (half : Nat),
    s.runs = true → half < 2 → s.dev.hstate half = 1 → (if s.dev.bootPhase = 0 then s.dev.bootStep == 6 || s.dev.bootStep == 7
      else s.dev.on F.HMP_CTL_EN) = true →
    let x := s.dev.half half
    x.thermal ≠ 2 →
    let lost := s.dev.rst.unclean
    let off := if (s.dev.half (1 - half)).restored then max (x.lastOff lost) (s.dev.g F.HMP_STATUS_LAST_OFF) else x.lastOff lost
    let d := s.dev.s F.HMP_STATUS_LAST_OFF off
    let d := d.setHalf half (x.restore d.now d.scanPeriod (d.media half) d.rst.unclean)
    let ms := d.pwr.flushMs
    let d := if x.flushes = 0 then d else ((d.s F.HMP_FLUSH_LAST_MS ms).s F.HMP_FLUSH_MARGIN_MS (250 - ms)).s F.HMP_FLUSH_COUNT
      (min (2 ^ 32 - 1) x.flushes)
    let d := if d.halves.all fun e => e.2.restored then { d with rst := { d.rst with unclean := false } } else d
    exec (.hamperRestore half) s = .next (s.put (((d.setHstate half (d.spaceState half)).checkSpare half).admitAll))) ∧
  (∀ (s : State) (image : Bool) (slot : Nat) (opts : Bytes) (svn1 svn2 : Nat) (sig1 sig2 : Bool),
    s.runs = true → (s.dev.bootPhase ≠ 0 ∨ 2 ≤ s.dev.bootStep) → image = true →
    let x : BootImage := { svn1 := svn1, svn2 := svn2, sig1 := sig1, sig2 := sig2 }
    exec (.pldmFirmwareUpdate image slot opts svn1 svn2 sig1 sig2) s = .next (s.put
      ({ s.dev with rst := { s.dev.rst with images := NMap.put s.dev.rst.images slot x } }))) ∧
  (∀ (s : State) (image : Bool) (slot : Nat) (opts : Bytes) (svn1 svn2 : Nat) (sig1 sig2 : Bool),
    s.runs = true → (s.dev.bootPhase ≠ 0 ∨ 2 ≤ s.dev.bootStep) → image = false → opts.length = 64 →
    exec (.pldmFirmwareUpdate image slot opts svn1 svn2 sig1 sig2) s = .next (s.put
      ({ s.dev with rst := { s.dev.rst with optA := opts, optB := opts } })))

/-- Reports, health, ring synchronisation and bus resets (R371, R521 to R523, R530, R538, R592, R616). -/
def Obligations.ReportAndSyncCommands : Prop :=
  (∀ (s : State) (h : Hdr) (addr len frm : Nat),
    s.runs = true → s.dev.fits h true = true → h.fn = 0 →
    let e := s.dev.entered h
    let rs := (e.flt.records.filter fun r => frm ≤ r.index).take (len / 64)
    exec (.faultReport h addr len frm) s = .next (s.put (((if rs.isEmpty then e else e.emit (.host h.fn addr (rs.flatMap
      FaultRec.bytes)))).answered h 0x0904 .ok (leBytes 4 rs.length)))) ∧
  (∀ (s : State) (h : Hdr) (addr len : Nat),
    s.runs = true → s.dev.fits h true = true → h.fn = 0 →
    let e := s.dev.entered h
    let body := (e.moduleRecord ++ e.hamperRecord 0 ++ e.hamperRecord 1).take len
    exec (.healthRead h addr len) s = .next (s.put (((({ e with pwr := { e.pwr with pPeak := 0 } } : Dev).emit (.host h.fn addr
      body))).answered h 0x0905 .ok (leBytes 4 body.length)))) ∧
  (∀ (s : State) (h : Hdr) (outAddr outLen ring : Nat),
    s.runs = true → s.dev.fits h true = true → (s.dev.ring h.fn h.ring).busy = none →
    let e := s.dev.entered h
    s.dev.syncRing h ring = true →
    let rings := (List.range (e.gf F.CMD_LIMITS_RINGS_MAX h.fn 0)).flatMap (e.ringEntry h.fn)
    let queues := (List.range (e.gf F.CMD_LIMITS_EQS_MAX h.fn 0)).flatMap (e.queueEntry h.fn)
    let body := if ring = 0xFF then rings ++ queues else e.ringEntry h.fn ring
    let about := if ring = 0xFF then h.ring else ring
    body.length ≤ outLen →
    let e := e.emit (.host h.fn outAddr body)
    exec (.syncQuery h outAddr outLen ring) s = .next (s.put (e.answered h 0x0903 .ok (e.syncResult h.fn about (body.length /
      32))))) ∧
  (∀ (s : State) (h : Hdr) (outAddr frm outLen ring : Nat),
    s.runs = true → s.dev.fits h true = true → (s.dev.ring h.fn h.ring).busy = none →
    let e := s.dev.entered h
    ring ≠ 0xFF → s.dev.syncRing h ring = true → e.gf F.CMD_RQ_CFG_EN h.fn ring ≠ 0 → e.logHolds h.fn ring frm = true → 32 ≤
      outLen →
    let again (d : Dev) (x : Reply) : Dev := (d.satf F.CMD_CNT_REPLAYS h.fn 0 1).sendReply h.fn ring { x with replay := true }
    let d := (e.loggedFrom h.fn ring frm).foldl again e
    let d := d.emit (.host h.fn outAddr (d.ringEntry h.fn ring))
    exec (.syncReplay h outAddr frm outLen ring) s = .next (s.put (d.answered h 0x0903 .ok (d.syncResult h.fn ring 1)))) ∧
  (∀ (s : State) (h : Hdr) (frm ring : Nat),
    s.runs = true → s.dev.fits h false = true → (s.dev.ring h.fn h.ring).busy = none →
    let e := s.dev.entered h
    ring ≠ 0xFF → s.dev.syncRing h ring = true → e.ringRuns h.fn ring = false →
    let d := e.syncReset h.fn ring frm
    exec (.syncReset h frm ring) s = .next (s.put (d.answered h 0x0903 .ok (d.syncResult h.fn ring 0)))) ∧
  (∀ (s : State) (h : Hdr) (op : Nat),
    s.runs = true → assigned op = false → s.dev.takes h = true → (s.dev.take h).seqDiff h = 0 →
    let d := (s.dev.take h).sf F.CMD_HSEQ_NEXT h.fn h.ring ((h.hseq + 1) % 2 ^ 32)
    exec (.unassignedOpcode h op) s = .next (s.put (d.answered h op .unknownOp []))) ∧
  (∀ (s : State) (fn : Nat),
    s.runs = true → fn < 32 → fn ≠ 0 →
    exec (.functionLevelReset fn) s = .next (s.put (s.dev.resetOne fn))) ∧
  (∀ (s : State) (fn : Nat),
    s.runs = true → fn = 0 →
    exec (.functionLevelReset fn) s = .next (s.put ((List.range 32).foldl (fun d k => d.resetOne k) s.dev))) ∧
  (∀ (s : State),
    s.runs = true →
    exec (.perst) s = .next (s.put ((List.range 32).foldl (fun d k => d.resetOne k) s.dev)))

/-- The power states change as R606 to R610 say, with the flush of R372 to R374. -/
def Obligations.PowerTransitionsComplete : Prop :=
  (∀ (s : State),
    s.dev.pwr.pstate = 0 →
    let p := { s.dev.pwr with charging := true, railTries := 0, railFailed := false }
    exec (.powerOn) s = .next (s.put (({ s.dev with pwr := p } : Dev).setPower 1))) ∧
  (∀ (s : State) (measured : Bool) (us : Nat),
    s.dev.pwr.pstate = 1 → s.dev.pwr.charging = true → measured = true →
    let joule := 3 * us * 902
    let grade := if 64000000 * 22 ≤ joule then 0 else if 16000000 * 22 ≤ joule then 1 else 2
    let p := { s.dev.pwr with bankUf := (3 * us + 11) / 22, bank := grade, bankMv := 52000 }
    exec (.bankCharged measured us) s = .next (s.put (({ s.dev with pwr := p } : Dev).powerUp s.hbm))) ∧
  (∀ (s : State) (measured : Bool) (us : Nat),
    s.dev.pwr.pstate = 1 → s.dev.pwr.charging = true → measured = false →
    exec (.bankCharged measured us) s = .next (s.put (({ s.dev with pwr := { s.dev.pwr with bankMv := 52000 } } : Dev).powerUp
      s.hbm))) ∧
  (∀ (s : State),
    s.dev.pwr.pstate = 2 → s.dev.bootPhase = 0 → s.dev.bootStep = 1 → s.dev.rst.held = false →
    let n := s.dev.pwr.railTries + 1
    exec (.railTimeout) s = .next (s.put
      (({ s.dev with pwr := { s.dev.pwr with railTries := n, railFailed := decide (2 ≤ n) } } : Dev).setPower 1))) ∧
  (∀ (s : State),
    s.dev.pwr.pstate = 1 → s.dev.pwr.railTries = 1 → s.dev.pwr.charging = false →
    exec (.railRetry) s = .next (s.put (s.dev.powerUp s.hbm))) ∧
  (∀ (s : State) (rail : Bool),
    s.dev.pwr.pstate = 2 →
    let counted := if rail then { s.dev.pwr with pfRail := satAdd 16 s.dev.pwr.pfRail 1 } else
      { s.dev.pwr with pfPfw := satAdd 16 s.dev.pwr.pfPfw 1 }
    (!s.dev.rst.held && s.dev.afterStep6) = true →
    let d : Dev := { s.dev with pwr := { counted with restored := false } }
    exec (.powerFail rail) s = .next (s.put (((d.setHstate 0 .flushing).setHstate 1 .flushing).setPower 3))) ∧
  (∀ (s : State) (rail : Bool),
    s.dev.pwr.pstate = 2 →
    let counted := if rail then { s.dev.pwr with pfRail := satAdd 16 s.dev.pwr.pfRail 1 } else
      { s.dev.pwr with pfPfw := satAdd 16 s.dev.pwr.pfPfw 1 }
    (!s.dev.rst.held && s.dev.afterStep6) = false →
    exec (.powerFail rail) s = .next (s.put (({ s.dev with pwr := counted } : Dev).setPower 0))) ∧
  (∀ (s : State) (rail : Bool),
    s.dev.pwr.pstate = 1 →
    let counted := if rail then { s.dev.pwr with pfRail := satAdd 16 s.dev.pwr.pfRail 1 } else
      { s.dev.pwr with pfPfw := satAdd 16 s.dev.pwr.pfPfw 1 }
    exec (.powerFail rail) s = .next (s.put ({ s.dev with pwr := { counted with charging := false } }))) ∧
  (∀ (s : State) (ms : Nat),
    s.dev.pwr.pstate = 3 →
    let e := s.dev.flushHalves fun _ => false
    let halves := NMap.mapV e.halves fun _ x => { x with restored := false }
    s.dev.pwr.restored = true →
    exec (.flushComplete ms) s = .next (s.put
      (({ e with halves := halves, pwr := { e.pwr with flushMs := ms, restored := false, charging := true } } :
      Dev).setPower 1))) ∧
  (∀ (s : State) (ms : Nat),
    s.dev.pwr.pstate = 3 →
    let e := s.dev.flushHalves fun _ => false
    let halves := NMap.mapV e.halves fun _ x => { x with restored := false }
    s.dev.pwr.restored = false →
    exec (.flushComplete ms) s = .next (s.put (({ e with halves := halves, pwr := { e.pwr with flushMs := ms } } :
      Dev).setPower 4))) ∧
  (∀ (s : State),
    s.dev.pwr.pstate = 3 →
    exec (.powerRestored) s = .next (s.put ({ s.dev with pwr := { s.dev.pwr with restored := true } }))) ∧
  (∀ (s : State),
    s.dev.pwr.pstate = 4 →
    exec (.powerRestored) s = .next (s.put (({ s.dev with pwr := { s.dev.pwr with charging := true } } : Dev).setPower 1))) ∧
  (∀ (s : State),
    let inUse := s.dev.pwr.pstate == 3 || (s.dev.pwr.pstate == 2 && !s.dev.rst.held && s.dev.afterStep6)
    let halves := if inUse then NMap.mapV s.dev.halves fun _ x => if x.restored then { x.crash with restored := false } else x
      else s.dev.halves
    let lost := inUse && s.dev.halves.any fun e => e.2.restored
    let rst := { s.dev.rst with unclean := s.dev.rst.unclean || lost }
    let p := { s.dev.pwr with charging := false, restored := false, bankMv := min s.dev.pwr.bankMv 29999 }
    exec (.belowModuleMinimum) s = .next (s.put (({ s.dev with halves := halves, rst := rst, pwr := p } : Dev).setPower 0))) ∧
  (∀ (s : State),
    s.dev.pwr.pstate = 2 →
    let held := s.dev.pwr.tripped.isSome
    exec (.rstNRelease) s = .next (s.put ({ s.dev with rst := { s.dev.rst with pinHeld := false, held := held } }))) ∧
  (∀ (s : State),
    s.dev.pwr.pstate = 1 →
    exec (.rstNRelease) s = .next (s.put (({ s.dev with rst := { s.dev.rst with pinHeld := false } } : Dev).powerUp s.hbm)))

/-- Shed stages, clock steps, the clamp, samples and the trip act as R488 and R611 to R613 say. -/
def Obligations.ThermalAndClockComplete : Prop :=
  (∀ (s : State),
    s.runs = true →
    let n := s.dev.g F.ISO_SHED_ST_STAGE
    s.dev.iso.throttle = true → n < 7 →
    exec (.shedStep) s = .next (s.put (((s.dev.reach s.dev.iso.nextShed).setStage (n + 1)).armShed))) ∧
  (∀ (s : State),
    s.runs = true →
    let n := s.dev.g F.ISO_SHED_ST_STAGE
    s.dev.iso.throttle = false → 0 < n → s.dev.pwr.loopMhz = 1800 →
    exec (.shedStep) s = .next (s.put (((s.dev.reach s.dev.iso.nextShed).setStage (n - 1)).armShed))) ∧
  (∀ (s : State),
    s.runs = true → s.dev.iso.throttle = true → s.dev.g F.ISO_SHED_ST_STAGE = 7 → 900 < s.dev.pwr.loopMhz →
    let d := s.dev.reach s.dev.iso.nextShed
    exec (.clockStep) s = .next (s.put (({ d with pwr := { d.pwr with loopMhz := max 900 (s.dev.pwr.loopMhz - 100) } } :
      Dev).showClock.armShed))) ∧
  (∀ (s : State),
    s.runs = true → s.dev.iso.throttle = false → s.dev.pwr.loopMhz < 1800 →
    let d := s.dev.reach s.dev.iso.nextShed
    exec (.clockStep) s = .next (s.put (({ d with pwr := { d.pwr with loopMhz := min 1800 (s.dev.pwr.loopMhz + 100) } } :
      Dev).showClock.armShed))) ∧
  (∀ (s : State) (watts : Nat),
    s.runs = true → (2000 < watts ∨ s.dev.capWatts < watts) →
    let p := { s.dev.pwr with
        clamped := true, clampMhz := 900, clamps := satAdd 32 s.dev.pwr.clamps 1, pPeak := max s.dev.pwr.pPeak watts }
    exec (.powerClamp watts) s = .next (s.put (({ s.dev with pwr := p } : Dev).showClock))) ∧
  (∀ (s : State) (temps : List (Nat × Nat)) (avg peak vin iin bankMv : Nat),
    s.runs = true → s.dev.pwr.pstate = 2 →
    let p := s.dev.pwr.sample temps
    let p := { p with pAvg := avg, pPeak := max p.pPeak peak, vinMv := vin, iin := iin, bankMv := bankMv }
    p.tripped = none →
    let low := satAdd 32 p.clkLowMs (b2n (p.coreMhz < 1800))
    let halves := NMap.mapV s.dev.halves fun _ x => x.millisecond
    let d : Dev := { s.dev with halves := halves, pwr := { p with onMs := p.onMs + 1, clkLowMs := low } }
    let hot := d.throttled
    let clamped := d.pwr.clamped && decide (d.capWatts ≤ avg)
    let mhz := if d.pwr.clamped then d.pwr.clampMhz else min 1800 (d.pwr.clampMhz + 100)
    let p := { d.pwr with throttleMs := satAdd 32 d.pwr.throttleMs (b2n hot), clamped := clamped, clampMhz := mhz }
    let e : Dev := { d with iso := { d.iso with throttle := hot }, pwr := p }
    exec (.sensorSample temps avg peak vin iin bankMv) s = .next (s.put ((if hot != d.iso.throttle then e.armShed else
      e).showClock))) ∧
  (∀ (s : State) (sensor : Nat),
    s.runs = true → s.dev.pwr.pstate = 2 → 2 ≤ NMap.getD s.dev.pwr.overs sensor 0 →
    let d := s.dev.flushNow.deviceReset s.hbm 7 sensor false false
    let p := { d.pwr with trips := satAdd 16 d.pwr.trips 1, tripped := some sensor }
    exec (.thermalTrip sensor) s = .next (s.put ({ d with pwr := p, rst := { d.rst with held := true } })))

/-- Partition, shaping and isolation commands complete (R465 to R468, R475, R477 to R479, R483). -/
def Obligations.PartitionsComplete : Prop :=
  (∀ (s : State) (h : Hdr) (p : Nat) (upd : Bool) (w0 w1 w2 w3 w4 : Nat),
    s.runs = true → s.dev.ready h false = true → h.fn = 0 → 1 ≤ p → p ≤ 31 →
    let l := limitsOf w0 w1 w2 w3 w4
    let e := s.dev.entered h
    s.dev.limitsOk p l = true → (e.strict = false ∨ e.strictLimits p (some l) = true) → e.gi F.ISO_PART_STATE p = 0 → upd =
      false →
    exec (.partCreate h p upd w0 w1 w2 w3 w4) s = .next (s.put
      (((((({ e with iso := { e.iso with lastCmd := NMap.put e.iso.lastCmd p e.now } } : Dev).setLimits p l).si
      F.ISO_PART_STATE p 1))).answered h 0x0601 .ok []))) ∧
  (∀ (s : State) (h : Hdr) (p : Nat) (upd : Bool) (w0 w1 w2 w3 w4 : Nat),
    s.runs = true → s.dev.ready h false = true → h.fn = 0 → 1 ≤ p → p ≤ 31 →
    let l := limitsOf w0 w1 w2 w3 w4
    let e := s.dev.entered h
    s.dev.limitsOk p l = true → (e.strict = false ∨ e.strictLimits p (some l) = true) → e.gi F.ISO_PART_STATE p = 1 → upd =
      true →
    exec (.partCreate h p upd w0 w1 w2 w3 w4) s = .next (s.put (((if e.noGroupRuns then e.setLimits p l else
      { e with iso := { e.iso with pendLimits := NMap.put e.iso.pendLimits p l } })).answered h 0x0601 .ok []))) ∧
  (∀ (s : State) (h : Hdr) (p : Nat),
    s.runs = true → s.dev.ready h false = true → h.fn = 0 → 1 ≤ p → p ≤ 31 →
    let e := s.dev.entered h
    e.gi F.ISO_PART_STATE p ≠ 0 → e.gi F.ISO_PART_STATE p ≠ 2 →
    exec (.partDestroy h p) s = .next (s.put (((e.destroyPart p)).answered h 0x0602 .ok []))) ∧
  (∀ (s : State) (p : Nat),
    s.runs = true → 1 ≤ p → p < 32 → s.dev.iso.destroying.contains p = true → s.dev.partGone p = true → s.dev.running
      F.SEC_CTL_EN = true →
    let d := s.dev.zero s.hbm fun a => s.dev.iso.scrubs.any fun r => r.1 == p && decide (r.2.1 ≤ a ∧ a < r.2.1 + r.2.2)
    let iso := { d.iso with scrubs := d.iso.scrubs.filter fun r => r.1 != p, destroying := d.iso.destroying.filter (· != p) }
    let d := (({ d with iso := iso } : Dev).dropTags p).clearPart p
    let d := if d.iso.destroying.isEmpty ∧ d.sec.scrub.isNone then (d.s F.SEC_SCRUB_BUSY 0).s F.SEC_SCRUB_MODE 0 else d
    exec (.partDestroyed p) s = .next (s.put (d.post0 { typ := 0x10, subject := p }))) ∧
  (∀ (s : State) (p : Nat),
    s.runs = true → 1 ≤ p → p < 32 →
    let t := s.dev.gi F.ISO_PART_IDLE_EXPIRE_S p
    s.dev.active p = true → t ≠ 0 →
    let d := s.dev.reach (NMap.getD s.dev.iso.lastCmd p 0 + t * 1000000000)
    exec (.partitionExpiry p) s = .next (s.put ((d.destroyPart p).post0 { typ := 0x11, subject := p }))) ∧
  (∀ (s : State) (h : Hdr) (kind levelMode budgetOp owner index promptW rebuildW overhead rate partMask : Nat) (valid shape
    budgetOn : Bool) (burst budget : Nat),
    s.runs = true → s.dev.ready h false = true → h.fn = 0 →
    let e := s.dev.entered h
    let x : ShaperSet := {
        kind := kind, index := index, valid := valid, shape := shape, rate := rate, burst := burst, owner := owner,
        budgetOn := budgetOn, budget := signed 64 budget, partMask := partMask, promptW := promptW, rebuildW := rebuildW,
        overhead := overhead, levelMode := levelMode, budgetOp := budgetOp }
    let users := e.nodeUsers kind index
    shaperOk x = true → (e.strict && kind != 0 && shape && decide (1 < popcount partMask 32)) = false → (kind ≠ 0 ∨ users = []
      ∨ (valid = true ∧ (e.node kind index).owner = owner)) → (kind = 0 ∨ (users.any fun u => bitOf (e.node kind
      index).partMask u.d.partition && !bitOf partMask u.d.partition) = false) →
    exec (.shaperSet h kind levelMode budgetOp owner index promptW rebuildW overhead rate partMask valid shape budgetOn burst
      budget) s = .next (s.put (((if e.noGroupRuns then e.applyShaper x else
      { e with iso := { e.iso with pendSets := e.iso.pendSets ++ [x] } })).answered h 0x0603 .ok []))) ∧
  (∀ (s : State) (h : Hdr) (mode frameExp : Nat),
    s.runs = true → s.dev.ready h false = true → h.fn = 0 → mode ≤ 1 → 16 ≤ frameExp → frameExp ≤ 24 →
    let e := s.dev.entered h
    (e.g F.ISO_MODE_MODE ≠ mode ∨ e.g F.ISO_MODE_FRAME_EXP ≠ frameExp) → (mode = 0 ∨ e.strict = true ∨ (e.strictLimits 0 none
      && e.strictNodes) = true) →
    let e := if e.g F.ISO_MODE_MODE = mode then e else (e.s F.ISO_MODE_MODE mode).s F.ISO_MODE_STRICT_ACTIVE 0
    let e := e.s F.ISO_MODE_FRAME_EXP frameExp
    let e : Dev := { e with iso := { e.iso with pendArb := some (mode == 1, frameExp), passed := [] } }
    exec (.isoModeSet h mode frameExp) s = .next (s.put ((e.checkStrict).answered h 0x0604 .ok []))) ∧
  (∀ (s : State) (res : Nat) (quiet wants : List Nat),
    s.runs = true → s.dev.iso.pendArb = none → s.dev.iso.arbStrict = true →
    let iso := { s.dev.iso with slotOwner := s.dev.dealSlots, slotLent := NMap.put s.dev.iso.slotLent res s.dev.dealSlots }
    exec (.frameBoundary res quiet wants) s = .next (s.put ({ s.dev with iso := iso }))) ∧
  (∀ (s : State) (res : Nat) (quiet wants : List Nat),
    s.runs = true → s.dev.iso.pendArb = none → s.dev.iso.arbStrict = false →
    let lends := (List.range 32).filter fun p => s.dev.gi F.ISO_PART_LEND p == 1
    let borrowers := (List.range 32).filter fun p => s.dev.gi F.ISO_PART_BORROW p == 1 && wants.contains p
    let x := lend lends quiet borrowers s.dev.dealSlots (NMap.getD s.dev.iso.lastBorrower res 0)
    let iso := { s.dev.iso with
        slotOwner := s.dev.dealSlots,
        slotLent := NMap.put s.dev.iso.slotLent res x.1, lastBorrower := NMap.put s.dev.iso.lastBorrower res x.2 }
    exec (.frameBoundary res quiet wants) s = .next (s.put ({ s.dev with iso := iso }))) ∧
  (∀ (s : State) (res : Nat) (quiet wants : List Nat) (n : Nat),
    s.runs = true → s.dev.iso.pendArb = some (true, n) →
    let d : Dev := { s.dev with iso := { s.dev.iso with pendArb := none, arbStrict := true, arbExp := n } }
    let d : Dev := { d with iso := { d.iso with slotOwner := d.dealSlots } }
    exec (.frameBoundary res quiet wants) s = .next (s.put
      ({ d with iso := { d.iso with slotLent := NMap.put d.iso.slotLent res d.iso.slotOwner } })))

/-- The security commands complete (R496 to R501, R503, R510). Whether a signature or tag verifies is a free value (log entry
2): both outcomes are stated. -/
def Obligations.KeysAndScrubsComplete : Prop :=
  (∀ (s : State) (h : Hdr) (nonce : Bytes) (addr len : Nat) (chain : Bool),
    s.runs = true → s.dev.fits h true = true → (h.fn = 0 ∨ s.dev.on F.SEC_CTL_TENANT_ATTEST = true) → nonce.length = 32 →
    let e := s.dev.entered h
    let r := e.report h.fn nonce
    let all := r ++ signed384 r ++ (if chain then Config.certChain else [])
    all.length ≤ len →
    exec (.attest h nonce addr len chain) s = .next (s.put ((((e.sat F.SEC_CNT_ATTESTS 1).emit (.host h.fn addr all))).answered
      h 0x0701 .ok (leBytes 4 all.length)))) ∧
  (∀ (s : State) (h : Hdr) (seq : Nat) (digest key setId sig : Bytes),
    s.runs = true → s.dev.ready h true = true → h.fn = 0 → key.length = 96 → setId.length = 16 → sig.length = 96 → digest =
      Config.deviceIdDigest →
    let e := s.dev.entered h
    e.sec.authority = none →
    let ok := Config.ecdsaVerify key (Config.sha384 (enrolBody 0 seq digest (key ++ setId))) sig
    e.g F.SEC_ENROL_SEQ < seq →
    let fails := (e.sat F.SEC_CNT_ENROL_FAIL 1).answered h 0x0702 .digestFail []
    exec (.bindAuthority h seq digest key setId sig) s = .next (s.put (if ok then ((e.bindAuthority key setId).s
      F.SEC_ENROL_SEQ seq).answered h 0x0702 .ok [] else fails))) ∧
  (∀ (s : State) (h : Hdr) (seq : Nat) (digest : Bytes) (gen : Nat) (eph wrapped sig key : Bytes),
    s.runs = true → s.dev.ready h true = true → h.fn = 0 → eph.length = 96 → wrapped.length = 48 → sig.length = 96 → digest =
      Config.deviceIdDigest →
    let e := s.dev.entered h
    e.on F.SEC_CTL_EN = true → e.g F.SEC_KEYGEN_CUR < gen → e.sec.authority = some key →
    let ok := Config.ecdsaVerify key (Config.sha384 (enrolBody 1 seq digest (leBytes 4 gen ++ eph ++ wrapped))) sig
    e.g F.SEC_ENROL_SEQ < seq →
    let fails := (e.sat F.SEC_CNT_ENROL_FAIL 1).answered h 0x0702 .digestFail []
    exec (.install h seq digest gen eph wrapped sig) s = .next (s.put (if ok then (e.installKey gen eph wrapped).elim fails fun
      e => (e.s F.SEC_ENROL_SEQ seq).answered h 0x0702 .ok [] else fails))) ∧
  (∀ (s : State) (h : Hdr) (seq : Nat) (digest sig key : Bytes),
    s.runs = true → s.dev.ready h true = true → h.fn = 0 → sig.length = 96 → digest = Config.deviceIdDigest →
    let e := s.dev.entered h
    e.sec.authority = some key →
    let ok := Config.ecdsaVerify key (Config.sha384 (enrolBody 2 seq digest [])) sig
    e.g F.SEC_ENROL_SEQ < seq →
    let fails := (e.sat F.SEC_CNT_ENROL_FAIL 1).answered h 0x0702 .digestFail []
    exec (.retire h seq digest sig) s = .next (s.put (if ok then (e.retireKey.s F.SEC_ENROL_SEQ seq).answered h 0x0702 .ok []
      else fails))) ∧
  (∀ (s : State) (h : Hdr) (seq : Nat) (digest sig key : Bytes),
    s.runs = true → s.dev.ready h true = true → h.fn = 0 → sig.length = 96 → digest = Config.deviceIdDigest →
    let e := s.dev.entered h
    e.sec.authority = some key →
    let ok := Config.ecdsaVerify key (Config.sha384 (enrolBody 3 seq digest [])) sig
    e.g F.SEC_ENROL_SEQ < seq →
    let fails := (e.sat F.SEC_CNT_ENROL_FAIL 1).answered h 0x0702 .digestFail []
    exec (.clear h seq digest sig) s = .next (s.put (if ok then (e.clearEnrol.s F.SEC_ENROL_SEQ seq).answered h 0x0702 .ok []
      else fails))) ∧
  (∀ (s : State) (h : Hdr) (addr len : Nat) (pkg sk : Bytes),
    s.runs = true → s.dev.ready h true = true → h.fn = 0 →
    let e := s.dev.entered h
    e.on F.SEC_CTL_EN = true → wrapOk pkg len = true → slice pkg 8 16 = e.setId →
    let gen := leAt pkg 0x18 4
    e.heldKey gen = some sk →
    let used := e.sec.staged.foldl (fun a x => a + x.body.length) 0
    let room (body : Bytes) : Bool := decide (e.sec.staged.length < 4 ∧ used + body.length ≤ e.g F.SEC_STAGE_GIB * 2 ^ 30)
    let hd := e.sec.nextHandle % 2 ^ 32
    let till := e.now + e.g F.SEC_STAGE_HOLD_S * 1000000000
    let staged (body : Bytes) : List Staged := e.sec.staged ++
      [{ handle := hd, body := body, keyGen := gen, deadline := till }]
    let take (body : Bytes) : Dev := { e with sec := { e.sec with staged := staged body, nextHandle := e.sec.nextHandle + 1 } }
    let good (body : Bytes) : Dev := if room body then (take body).showStaged.answered h 0x0703 .ok (leBytes 4 hd) else
      e.answered h 0x0703 .noSpace []
    exec (.weightsUnwrap h addr len pkg) s = .next (s.put ((openPackage sk pkg).elim ((e.sat F.SEC_CNT_UNWRAP_FAIL 1).answered
      h 0x0703 .digestFail []) good))) ∧
  (∀ (s : State) (handle : Nat) (x : Staged),
    s.runs = true → s.dev.sec.staged.find? (·.handle == handle) = some x →
    let d := s.dev.reach x.deadline
    exec (.stageHold handle) s = .next (s.put
      (({ d with sec := { d.sec with staged := d.sec.staged.filter (·.handle != handle) } } : Dev).showStaged))) ∧
  (∀ (s : State) (h : Hdr) (mode : Nat),
    s.runs = true → s.dev.ready h false = true → h.fn = 0 → mode ≤ 2 →
    let e := s.dev.entered h
    e.on F.SEC_CTL_EN = true → e.scrubOk mode = true →
    let d := if mode = 2 then e.newMediaKeys else e
    let d : Dev := { d with sec := { d.sec with scrub := some mode } }
    exec (.scrub h mode) s = .next (s.put ((((d.s F.SEC_SCRUB_BUSY 1).s F.SEC_SCRUB_MODE mode)).answered h 0x0704 .ok []))) ∧
  (∀ (s : State) (ok : Bool) (mode : Nat),
    s.runs = true → s.dev.sec.scrub = some mode →
    let d := s.dev.zero s.hbm (if mode = 0 then s.dev.freeByte else fun a => !s.dev.keptByte a)
    let d := if mode = 2 then { d with halves := NMap.mapV d.halves fun _ x => x.sanitized } else d
    let d : Dev := { d with sec := { d.sec with scrub := none } }
    let more := !d.iso.destroying.isEmpty
    let d := (d.s F.SEC_SCRUB_BUSY (b2n more)).s F.SEC_SCRUB_MODE (if more then 3 else 0)
    let st := if ok then 0 else 0xF0
    exec (.scrubDone ok) s = .next (s.put (d.post0 { typ := 0x0F, status := st, args := [mode] })))

/-- The responder answers the requests that R494 lists. The response layouts are DMTF's (log entry 52). -/
def Obligations.SpdmComplete : Prop :=
  (∀ (s : State) (doe : Bool),
    s.runs = true → s.dev.spdmOn doe = true →
    exec (.getVersion doe) s = .next (s.put (s.dev.spdm 0x04 0 0 0x10 ([0, 2] ++ leBytes 2 0x1200 ++ leBytes 2 0x1300)))) ∧
  (∀ (s : State) (doe : Bool) (ver : Nat),
    s.runs = true → s.dev.spdmOn doe = true → spdmVersion ver = true →
    exec (.getCapabilities doe ver) s = .next (s.put (s.dev.spdm 0x61 0 0 ver (leBytes 4 0 ++ leBytes 4 0x20016)))) ∧
  (∀ (s : State) (doe : Bool) (ver asym hash : Nat),
    s.runs = true → s.dev.spdmOn doe = true → spdmVersion ver = true → bitOf asym 7 = true → bitOf hash 1 = true →
    exec (.negotiateAlgorithms doe ver asym hash) s = .next (s.put (s.dev.spdm 0x63 0 0 ver (leBytes 4 4 ++ leBytes 4 0x80 ++
      leBytes 4 2)))) ∧
  (∀ (s : State) (doe : Bool) (ver : Nat),
    s.runs = true → s.dev.spdmOn doe = true → spdmVersion ver = true →
    exec (.getDigests doe ver) s = .next (s.put (s.dev.spdm 0x01 0 1 ver (padTo 48 (Config.sha384 Config.certChain))))) ∧
  (∀ (s : State) (doe : Bool) (ver slot off len room : Nat),
    s.runs = true → s.dev.spdmOn doe = true → spdmVersion ver = true → slot = 0 →
    let part := slice Config.certChain off len
    let n := Config.certChain.length
    let rest := n - off - part.length
    exec (.getCertificate doe ver slot off len room) s = .next (s.put (if off < n then s.dev.spdmLong 0x02 0 0 ver room
      (leBytes 2 part.length ++ leBytes 2 rest ++ part) else s.dev.spdmError ver 0x82))) ∧
  (∀ (s : State) (doe : Bool) (ver slot : Nat) (summary : Bool) (nonce : Bytes) (room : Nat),
    s.runs = true → s.dev.spdmOn doe = true → spdmVersion ver = true → slot = 0 → nonce.length = 32 →
    let d : Dev := { s.dev with free := s.dev.free + 1 }
    let all := (List.range 12).flatMap fun i => (d.measure (i + 1)).getD []
    let sum := if summary then padTo 48 (Config.sha384 all) else []
    let body := padTo 48 (Config.sha384 Config.certChain) ++ leBytes 32 (Config.freeNat s.dev.free) ++ sum ++ leBytes 2 0
    exec (.challenge doe ver slot summary nonce room) s = .next (s.put (d.spdmLong 0x03 0 1 ver room (body ++ signed384 (nonce
      ++ body))))) ∧
  (∀ (s : State) (doe : Bool) (ver index : Nat) (sign : Bool) (nonce : Bytes) (room : Nat),
    s.runs = true → s.dev.spdmOn doe = true → spdmVersion ver = true → (index ≤ 12 ∨ index = 255) → (sign = false ∨
      nonce.length = 32) →
    let which := if index = 255 then (List.range 12).map (· + 1) else if index = 0 then [] else [index]
    let value (i : Nat) : Bytes := (s.dev.measure i).getD []
    let block (i : Nat) : Bytes := leBytes 1 i ++ leBytes 1 1 ++ leBytes 2 (value i).length ++ value i
    let body := leBytes 1 which.length ++ which.flatMap block ++ leBytes 32 (Config.freeNat s.dev.free) ++ leBytes 2 0
    let d : Dev := { s.dev with free := s.dev.free + 1 }
    exec (.getMeasurements doe ver index sign nonce room) s = .next (s.put (d.spdmLong 0x60 (if index = 0 then 12 else 0) 0 ver
      room (body ++ (if sign then signed384 (nonce ++ body) else []))))) ∧
  (∀ (s : State) (doe : Bool) (ver seq off len : Nat),
    s.runs = true → s.dev.spdmOn doe = true → spdmVersion ver = true → off < s.dev.sec.spdmLarge.length →
    let part := slice s.dev.sec.spdmLarge off len
    let last := b2n (decide (s.dev.sec.spdmLarge.length ≤ off + len))
    exec (.chunkGet doe ver seq off len) s = .next (s.put (s.dev.spdm 0x06 last 1 ver (leBytes 2 seq ++ leBytes 2 0 ++ leBytes
      4 part.length ++ part)))) ∧
  (∀ (s : State) (doe : Bool) (ver req : Nat),
    s.runs = true → s.dev.spdmOn doe = true →
    exec (.unsupportedRequest doe ver req) s = .next (s.put (s.dev.spdmError ver req)))

/-- The writes of a half have their effect (R346, R350, R353 to R357, R359, R360). -/
def Obligations.HamperWritesComplete : Prop :=
  (∀ (s : State) (half index : Nat) (o : HObj),
    s.runs = true → half < 2 → NMap.get? (s.dev.half half).objs index = some o → o.valid = true → o.releasing = true → o.reads
      = 0 →
    let handle := mkHandle half o.kind o.gen index
    let d := s.dev.releaseObj half index
    exec (.objectRelease half index) s = .next (s.put ((NMap.keys d.ses.tab).foldl (fun d slot => d.confirm slot handle) d))) ∧
  (∀ (s : State) (half block twin : Nat) (lpns : List Nat),
    s.runs = true → half < 2 →
    let x := s.dev.half half
    let bufs := lpns.filterMap fun l => x.buffer.find? fun b => b.lpn == l && b.done.isEmpty
    let kinds := bufs.map fun b => streamOf (x.tagOf b).kind
    let stream := kinds.head?.getD 2
    1 ≤ lpns.length → bufs.length = lpns.length → lpns.Nodup → kinds.all (· == stream) = true → x.thermal ≠ 2
      → (if stream = 0 then x.takesPair block twin lpns.length && x.fitsLine twin lpns.length
      else x.takesNext block lpns.length stream) = true → x.fitsLine block lpns.length = true → s.dev.hready half = true →
    let done (y : Half) (b : HBuf) (ps : List Nat) : List HBuf := y.buffer.map fun (q : HBuf) =>
      if q.lpn = b.lpn then { q with done := ps } else q
    let two (y : Half) (b : HBuf) : Nat × Half :=
      let z := y.program twin s.dev.now (s.dev.media half) (y.tagOf b) (y.pageOfBuf b) (y.pageData b);
      (z.1, { z.2 with twins := NMap.put z.2.twins b.lpn z.1 })
    let one (y : Half) (b : HBuf) : Half :=
      let z := y.program block s.dev.now (s.dev.media half) (y.tagOf b) (y.pageOfBuf b) (y.pageData b);
      let w := if b.system then ([z.1, (two z.2 b).1], (two z.2 b).2) else ([z.1], z.2)
      ({ w.2 with map := NMap.put w.2.map b.lpn z.1, buffer := done w.2 b w.1 } : Half).touch b.lpn
    let y := (bufs.foldl one ((if stream = 0 then x.openFor twin 0 else x).openFor block stream)).releaseDone
    let y := { y with turn := NMap.put y.turn stream (lunOf (if stream = 0 then twin else block)) }
    exec (.nandProgramDone half ⟨block, twin⟩ lpns) s = .next (s.put ((s.dev.setHalf half y).admitAll))) ∧
  (∀ (s : State) (half b1 b2 seg : Nat) (rest : List Nat),
    s.runs = true → half < 2 →
    let x := s.dev.half half
    x.dirty = seg :: rest → s.dev.hready half = true → x.thermal ≠ 2 → x.takesPair b1 b2 1 = true →
    let tag : HTag := { lpn := seg, kind := 0 }
    let y := (x.openFor b1 0).program b1 s.dev.now (s.dev.media half) tag (x.segPage seg) (x.segData seg)
    let z := (y.2.openFor b2 0).program b2 s.dev.now (s.dev.media half) tag (x.segPage seg) (x.segData seg)
    let w := { z.2 with
        dirty := rest, segAt := NMap.put z.2.segAt seg (y.1, z.1), turn := NMap.put z.2.turn 0 (lunOf b2),
        segsSinceRoot := z.2.segsSinceRoot + 1, hostPages := z.2.hostPages + 1 }
    exec (.mapSegmentWrite half b1 b2) s = .next (s.put ((s.dev.setHalf half (w.releaseDone.touchDir seg)).admitAll))) ∧
  (∀ (s : State) (half : Nat),
    s.runs = true → half < 2 → s.dev.hready half = true →
    let x := s.dev.half half
    x.thermal ≠ 2 →
    let d := if 4096 ≤ x.segsSinceRoot then s.dev else s.dev.reach (x.rootAt + 1000000000)
    let k := d.media half
    let y := x.dirtyDir.foldl (fun y i => y.writeDir d.now k i) x
    let z := ((y.appendRoot d.now k y.rootPage y.rootData 0).appendRoot d.now k y.rootPage y.rootData (128 * lunBlocks)).releaseDone
    exec (.rootWrite half) s = .next (s.put (d.setHalf half
      { z with rootAt := d.now, roots := z.roots + 1, segsSinceRoot := 0 })))

/-- The upkeep of a half has its effect (R361 to R368, R370). -/
def Obligations.HamperUpkeepComplete : Prop :=
  (∀ (s : State) (half victim dst : Nat) (more : Bool),
    s.runs = true → half < 2 →
    let x := s.dev.half half
    let lun := lunOf victim
    let level := s.dev.wearApart x
    let below (n l : Nat) : Bool := !x.retired.contains l && decide (x.erasedIn l < n)
    let due (n : Nat) : Bool := if level then (List.range 256).any (below n) else below n lun
    let urgent := due (s.dev.g F.HMP_GC_URGENT_BLK)
    s.dev.hready half = true → (urgent || (s.dev.on F.HMP_CTL_GC_EN && due (s.dev.g F.HMP_GC_START_BLK))) = true →
      (if level then x.coldest == some victim && (x.hottestErased dst || (x.validOf victim).isEmpty) else x.victim lun
      s.dev.now == some victim) = true → (x.validOf victim = [] ∨ (victim ≠ dst ∧ (if level then x.takesPages dst 1 3 else
      x.takesNext dst 1 3) = true)) → x.thermal ≠ 2 →
    let d := if s.dev.on F.ISO_MODE_MODE && urgent && more && !s.dev.iso.gcLoud then s.dev.gcNotice true else s.dev
    let y := x.relocate victim dst d.now (d.media half) none
    let d := d.setHalf half (if (y.validOf victim).isEmpty then y.erase victim else y)
    exec (.garbageCollection half victim dst more) s = .next (s.put (if d.iso.gcLoud && !d.gcUrgent then d.gcNotice false else
      d))) ∧
  (∀ (s : State) (half block dst reads bits : Nat),
    s.runs = true → half < 2 →
    let x := s.dev.half half
    let n := (x.block block).reads + reads
    let limit := 1000 * s.dev.g F.HMP_RD_LIMIT_K
    let worn := decide (limit ≤ n) || decide (s.dev.g F.HMP_RD_ECC_THRESH < bits)
    let inUse := ((x.block block).state == .full || (x.block block).state == .opened) && !isRoot block &&
      !x.retired.contains (lunOf block)
    s.dev.hready half = true → x.evacQ.contains block = false →
      (x.refreshQ.contains block || x.retainQ.contains block || (worn && inUse)) = true → (s.dev.on
      F.HMP_CTL_REFRESH_EN = true ∨ 2 * limit ≤ n) → (x.validOf block = [] ∨ (block ≠ dst ∧ x.takesNext dst 1 3 = true)) →
      x.thermal ≠ 2 →
    let y := x.relocate block dst s.dev.now (s.dev.media half) none
    let y := if (y.validOf block).isEmpty then y.erase block else y
    let z := if x.retainQ.contains block then { y with retRefresh := y.retRefresh + 1 } else
      { y with rdRefresh := y.rdRefresh + 1 }
    exec (.refresh half block dst reads bits) s = .next (s.put (s.dev.setHalf half z))) ∧
  (∀ (s : State) (half block dst reads bits : Nat),
    s.runs = true → half < 2 →
    let x := s.dev.half half
    s.dev.hready half = true → x.evacQ.contains block = true →
      (x.validOf block = [] ∨ (block ≠ dst ∧ x.takesNext dst 1 3 = true)) → x.thermal ≠ 2 →
    let y := x.relocate block dst s.dev.now (s.dev.media half) none
    let left := y.evacQ.filter fun b => b != block || !(y.validOf b).isEmpty
    exec (.refresh half block dst reads bits) s = .next (s.put (s.dev.setHalf half { y with evacQ := left }))) ∧
  (∀ (s : State) (half : Nat) (bits : List (Nat × Nat)) (hard : List Nat) (t : Nat),
    s.runs = true → half < 2 → (s.dev.half half).scanDue = some t →
    let d := s.dev.reach t
    let x := d.half half
    let full := (x.blocks.filter fun e => e.2.state == .full && !x.retired.contains (lunOf e.1)).map (·.1)
    let age (b : Nat) : Nat := ((d.now : Int) - (x.block b).filledAt).toNat
    let old (b : Nat) : Bool := decide (d.g F.HMP_RET_MAX_AGE_D * 86400 * 1000000000 < age b)
    let worn (b : Nat) : Bool := hard.contains b || bits.any fun e => e.1 == b && d.g F.HMP_RET_RET_THRESH < e.2
    let add := full.filter fun b => (old b || worn b) && !x.retainQ.contains b && !x.refreshQ.contains b
    let weak (b : Nat) : Bool := bits.any fun e => e.1 == b && d.g F.HMP_RD_ECC_THRESH < e.2
    let ecc := full.filter fun b => weak b && !add.contains b && !x.retainQ.contains b && !x.refreshQ.contains b
    let y := { x with
        retainQ := x.retainQ ++ add, refreshQ := x.refreshQ ++ ecc, scanDue := some (d.now + d.scanPeriod) }
    exec (.retentionScan half bits hard) s = .next (s.put (d.setHalf half
      (full.foldl (fun y b => y.readBlock (1000 * d.g F.HMP_RD_LIMIT_K) b 2) y)))) ∧
  (∀ (s : State) (half ppa dst : Nat) (t : HTag) (i : Nat) (o : HObj),
    s.runs = true → half < 2 →
    let x := s.dev.half half
    NMap.get? x.tags ppa = some t →
    let lun := lunOf (ppa / blockPages)
    let y := { x with
        uncorr := x.uncorr + 1, unread := x.unread ++ [ppa],
        unc := NMap.put x.unc lun (NMap.getD x.unc lun [] ++ [s.dev.now]) }
    let d := s.dev.setHalf half y
    NMap.get? x.map t.lpn = some ppa → 1 ≤ t.kind → t.kind ≤ 5 → x.inBuffer ppa = false → (d.half half).ownerOf t.lpn = some (i, o) →
    let slot := d.slotOf o.sid
    let a := ((slot.map fun k => d.sess k).getD {}).d
    let mirrored := slot.isSome && ((o.kind == 1 && a.mirrorValid) || o.kind == 2) && a.buddy != 0 && a.buddy != d.self
    let o := { o with holes := o.holes ++ [pageIn o.extents t.lpn] }
    let y := d.half half
    let asks := { y with
        objs := NMap.put y.objs i o, repairs := y.repairs ++ [(t.lpn, NMap.getD y.map t.lpn 0)] }
    let ask := (d.setHalf half asks).toBuddy (slot.getD 0) 7 (o.kind + 2) (16384 * pageIn o.extents t.lpn) 16384 []
    let loss := d.setHalf half ((d.half half).putObj i { o with damaged := true })
    exec (.uncorrectablePage half ppa dst) s = .next (s.put ((if mirrored then ask else loss).markBad half (ppa / blockPages)
      dst (some ppa)))) ∧
  (∀ (s : State) (half block dst : Nat),
    s.runs = true → half < 2 → block < 256 * lunBlocks →
    exec (.programFailure half block dst) s = .next (s.put (s.dev.markBad half block dst none))) ∧
  (∀ (s : State) (half block : Nat),
    s.runs = true → half < 2 → block < 256 * lunBlocks →
    exec (.eraseFailure half block) s = .next (s.put (s.dev.markBad half block block none))) ∧
  (∀ (s : State) (half pkg temp : Nat),
    s.runs = true → half < 2 → pkg < 32 →
    let x := s.dev.half half
    let temps := NMap.put x.temps pkg temp
    let lim := s.dev.thermalOf x.thermal ((NMap.vals temps).foldl max 0)
    let d := s.dev.setHalf half { x with temps := temps, maxTemp := max x.maxTemp temp, thermal := lim }
    exec (.hamperThermal half pkg temp) s = .next (s.put (if lim = x.thermal then d else d.postAll
      { typ := 0x33, args := [half, lim] })))

/-- The packets and timers of hall messages (R392, R400 to R404, R406, R408 to R412). A packet is taken as authenticated when
its operand says so (log entry 50). -/
def Obligations.HallMessagesComplete : Prop :=
  (∀ (s : State) (peer : Nat) (bulk : Bool) (i : Nat),
    s.runs = true → s.dev.connOf peer bulk = some i →
    exec (.messageSend peer bulk) s = .next (s.put (s.dev.sendMore i))) ∧
  (∀ (s : State) (peer : Nat) (bulk : Bool),
    s.runs = true → s.dev.connOf peer bulk = none → s.dev.on F.HLF_CTL_EN = true → s.dev.enrolled = true → s.dev.hall.wait.any
      (fun e => e.1 == peer && e.2.1 == bulk) = true →
    exec (.messageSend peer bulk) s = .next (s.put (s.dev.connect peer bulk))) ∧
  (∀ (s : State) (port : Nat) (ce tag room : Bool) (hdr data : Bytes) (i : Nat),
    s.runs = true → s.dev.hallIn port 0 tag hdr i = true →
    let d := (s.dev.arrived).rxPacket i ce hdr
    let q := qinOf 0 hdr
    let ahead := signed 32 (q.msn + 2 ^ 32 - (d.conn i).next)
    0 ≤ ahead → ahead < 64 → q.shape data = true → d.track i q.msn = none → d.checkMsg q = .ok → (d.pageWaits q data || d.roomFor port q.part room true data.length) = true →
    let t : QTrack := {
        type := q.typ, total := q.total, region := q.region, regionGen := q.gen, addr := q.addr, partition := q.part,
        counter := q.counter, incr := q.incr, notify := q.notify, port := port, via := NMap.put [] q.off port }
    let d := (d.setTrack i q.msn t).placeOrHold i q data
    exec (.write port ce tag room hdr data) s = .next (s.put (d))) ∧
  (∀ (s : State) (port : Nat) (ce tag room : Bool) (hdr data : Bytes) (i : Nat) (t : QTrack),
    s.runs = true → s.dev.hallIn port 0 tag hdr i = true →
    let d := (s.dev.arrived).rxPacket i ce hdr
    let q := qinOf 0 hdr
    let ahead := signed 32 (q.msn + 2 ^ 32 - (d.conn i).next)
    0 ≤ ahead → ahead < 64 → q.shape data = true → d.track i q.msn = some t → t.status = none → t.total = q.total →
      (d.pageWaits q data || d.roomFor port t.partition room false data.length) = true →
    let via := if (NMap.get? t.via q.off).isSome then t.via else NMap.put t.via q.off port
    exec (.write port ce tag room hdr data) s = .next (s.put ((d.setTrack i q.msn { t with via := via }).placeOrHold i q data))) ∧
  (∀ (s : State) (port : Nat) (ce tag room : Bool) (hdr : Bytes) (i : Nat),
    s.runs = true → s.dev.hallIn port 1 tag hdr i = true →
    let d := (s.dev.arrived).rxPacket i ce hdr
    let q := qinOf 1 hdr
    let ahead := signed 32 (q.msn + 2 ^ 32 - (d.conn i).next)
    0 ≤ ahead → ahead < 64 → q.shape [] = true → d.track i q.msn = none → d.checkMsg q = .ok → (d.pageWaits q [] || d.roomFor port q.part room true ([] : Bytes).length) = true →
    let t : QTrack := {
        type := q.typ, total := q.total, region := q.region, regionGen := q.gen, addr := q.addr, partition := q.part,
        counter := q.counter, incr := q.incr, notify := q.notify, port := port, via := NMap.put [] q.off port }
    let d := (d.setTrack i q.msn t).placeOrHold i q []
    exec (.readReq port ce tag room hdr) s = .next (s.put (if q.msn = (d.conn i).next then d.visible s.hbm i else d))) ∧
  (∀ (s : State) (port : Nat) (ce tag room : Bool) (hdr data : Bytes) (i : Nat),
    s.runs = true → s.dev.hallIn port 3 tag hdr i = true →
    let d := (s.dev.arrived).rxPacket i ce hdr
    let q := qinOf 3 hdr
    let ahead := signed 32 (q.msn + 2 ^ 32 - (d.conn i).next)
    0 ≤ ahead → ahead < 64 → q.shape data = true → d.track i q.msn = none → d.checkMsg q = .ok → (d.pageWaits q data || d.roomFor port q.part room true data.length) = true →
    let t : QTrack := {
        type := q.typ, total := q.total, region := q.region, regionGen := q.gen, addr := q.addr, partition := q.part,
        counter := q.counter, incr := q.incr, notify := q.notify, port := port, via := NMap.put [] q.off port }
    let d := (d.setTrack i q.msn t).placeOrHold i q data
    exec (.send port ce tag room hdr data) s = .next (s.put (d))) ∧
  (∀ (s : State) (port : Nat) (ce tag room : Bool) (hdr data : Bytes) (i : Nat) (t : QTrack),
    s.runs = true → s.dev.hallIn port 3 tag hdr i = true →
    let d := (s.dev.arrived).rxPacket i ce hdr
    let q := qinOf 3 hdr
    let ahead := signed 32 (q.msn + 2 ^ 32 - (d.conn i).next)
    0 ≤ ahead → ahead < 64 → q.shape data = true → d.track i q.msn = some t → t.status = none → t.total = q.total →
      (d.pageWaits q data || d.roomFor port t.partition room false data.length) = true →
    let via := if (NMap.get? t.via q.off).isSome then t.via else NMap.put t.via q.off port
    exec (.send port ce tag room hdr data) s = .next (s.put ((d.setTrack i q.msn { t with via := via }).placeOrHold i q data))) ∧
  (∀ (s : State) (port : Nat) (ce tag : Bool) (hdr data : Bytes) (i : Nat) (y : QMsg),
    s.runs = true → s.dev.hallIn port 2 tag hdr i = true →
    let d := (s.dev.arrived).rxPacket i ce hdr
    let q := qinOf 2 hdr
    (d.conn i).msgs.find? (fun y => y.msn == some q.msn && y.type == 1 && !y.ended) = some y → q.shape data = true →
      q.total = y.len → y.placed.any (fun e => e.1 == q.off) = false →
    let d := d.poke (y.dest + q.off) data
    let placed := y.placed ++ [(q.off, data.length)]
    let z := { y with placed := placed, ended := decide (placed.foldl (fun n e => n + e.2) 0 = y.len) }
    let msgs (x : Conn) : List QMsg := x.msgs.map fun o => if o == y then z else o
    let had (x : Conn) : Conn := { x with msgs := msgs x }
    let d := d.updConn i fun x => if z.ended then (had x).dropPkts fun k => k.kind == 1 && k.msn == q.msn else had x
    exec (.readResp port ce tag hdr data) s = .next (s.put (((Dev.endReads i (d.conn i).msgs.length d).sendMore i).tryClose
      i))) ∧
  (∀ (s : State) (port : Nat) (ce tag : Bool) (hdr : Bytes) (i : Nat),
    s.runs = true → s.dev.hallIn port 4 tag hdr i = true →
    let d := s.dev.arrived
    let d := if ce then d.updConn i fun x => { x with ceMask := setBit x.ceMask (hf hdr 0 16 4) true } else d
    exec (.ack port ce tag hdr) s = .next (s.put (d.ackIn i hdr))) ∧
  (∀ (s : State) (conn : Nat) (t : QTrack),
    s.runs = true → s.dev.track conn (s.dev.conn conn).next = some t → t.status.isSome = true →
    exec (.messageVisible conn) s = .next (s.put (s.dev.visible s.hbm conn))) ∧
  (∀ (s : State) (conn t : Nat),
    s.runs = true → (s.dev.conn conn).ackDue = some t →
    exec (.ackTimer conn) s = .next (s.put ((s.dev.reach t).sendAck conn 0 0 0))) ∧
  (∀ (s : State) (conn tsn : Nat) (k : QPkt),
    s.runs = true → (s.dev.conn conn).pkts.find? (fun k => k.tsn == tsn && !k.queued) = some k →
    let d := s.dev.reach (k.sent + k.rto * 1000 * min 64 (2 ^ k.tries))
    let d := d.updConn conn fun x => x.updPath k.path fun p => { p with timeouts := p.timeouts + 1 }
    let n := (((d.conn conn).paths[k.path]?).map (·.timeouts)).getD 0
    let live := (((d.conn conn).paths[k.path]?).map (·.live)).getD false
    exec (.retransmission conn tsn) s = .next (s.put (if k.limit ≤ n ∧ live then d.retirePath conn k.path true else d.resend
      conn k))) ∧
  (∀ (s : State) (conn path : Nat) (p : QPath),
    s.runs = true →
    let x := s.dev.conn conn
    x.paths[path]? = some p → p.live = false → (x.state = .opened ∨ x.state = .draining) →
    let d := s.dev.reach p.probeAt
    let again := d.now + d.g F.HLF_CONN_CFG_PROBE_MS * 1000000
    let asked (p : QPath) : QPath := { p with replies := if p.asked then 0 else p.replies, asked := true, probeAt := again }
    let y := ({ x with tsn := x.tsn + 1 } : Conn).updPath path asked
    exec (.probeTimer conn path) s = .next (s.put ((d.setConn conn y).packet y path 9 [y.tsn - 1] []))) ∧
  (∀ (s : State) (port : Nat) (ce tag : Bool) (hdr : Bytes) (i : Nat),
    s.runs = true → s.dev.hallIn port 9 tag hdr i = true →
    let d := (s.dev.arrived).rxPacket i ce hdr
    let x := d.conn i
    exec (.probe port ce tag hdr) s = .next (s.put ((d.setConn i { x with tsn := x.tsn + 1 }).packet x (hf hdr 0 16 4) 10
      [x.tsn] []))) ∧
  (∀ (s : State) (port : Nat) (ce tag : Bool) (hdr : Bytes) (i : Nat),
    s.runs = true → s.dev.hallIn port 10 tag hdr i = true →
    let d := (s.dev.arrived).rxPacket i ce hdr
    let back (q : QPath) : QPath := { q with
        live := true, timeouts := 0, window := d.g F.HLF_CC_WIN_MIN_KIB, outstanding := 0, acked := 0, replies := 0,
        asked := false }
    let one (q : QPath) : QPath := if q.live then q else if q.replies + 1 < 3 then
      { q with replies := q.replies + 1, asked := false } else back q
    let x := (d.conn i).updPath (hf hdr 0 16 4) one
    exec (.probeReply port ce tag hdr) s = .next (s.put ((d.setConn i
      { x with noPathSince := if x.paths.any (·.live) then none else x.noPathSince }).sendMore i))) ∧
  (∀ (s : State) (conn msn : Nat) (y : QMsg),
    s.runs = true → (s.dev.conn conn).msgs.find? (fun y => y.msn == some msn && y.type != 2 && y.retryAt.isSome) = some y →
    let d := s.dev.reach (y.retryAt.getD 0)
    let waits (k : Nat) : Bool := (d.conn conn).pkts.any fun p => p.msn == msn && p.kind == y.type && p.offset == 4096 * k
    let todo := (List.range (max 1 (ceilDiv y.wire 4096))).filter fun k => !y.acked.contains (4096 * k) && !waits k
    let sent := max 1 (ceilDiv (min y.cut (if y.type = 1 then 1 else y.wire)) 4096)
    let again := todo.filter fun k => decide (k < sent)
    let msgs (x : Conn) : List QMsg := x.msgs.map fun z => if z == y then { z with retryAt := none } else z
    let pkt (k : Nat) : QPkt := {
        kind := y.type, msn := msn, offset := 4096 * k, len := min 4096 (y.wire - 4096 * k), first := d.now, tsn := 0,
        queued := true }
    exec (.busyRetry conn msn) s = .next (s.put ((d.updConn conn fun x =>
      { x with msgs := msgs x, pkts := x.pkts ++ again.map pkt }).sendMore conn)))

/-- The life of a connection (R393 to R399, R504). -/
def Obligations.HallConnectionsComplete : Prop :=
  (∀ (s : State) (port : Nat) (mac : Bool) (hdr data : Bytes),
    s.runs = true → s.dev.hallTakes port 5 hdr = true →
    let d := s.dev.wrap F.HLF_CNT0_PKTS_IN 1
    d.enrolled = true → mac = true → d.holdsGen (leAt data 0xA0 4) = true → d.connOf (srcOf hdr) (classOf hdr) = none →
    exec (.connReq port mac hdr data) s = .next (s.put (d.acceptNew hdr data))) ∧
  (∀ (s : State) (port : Nat) (mac : Bool) (hdr data : Bytes) (i : Nat),
    s.runs = true → s.dev.hallTakes port 5 hdr = true →
    let d := s.dev.wrap F.HLF_CNT0_PKTS_IN 1
    d.enrolled = true → mac = true → d.holdsGen (leAt data 0xA0 4) = true → d.connOf (srcOf hdr) (classOf hdr) = some i →
    let x := d.conn i
    x.state = .connecting → x.peer ≤ d.self →
    exec (.connReq port mac hdr data) s = .next (s.put (d.acceptConn i hdr data))) ∧
  (∀ (s : State) (port : Nat) (mac : Bool) (hdr data : Bytes) (i : Nat),
    s.runs = true → s.dev.hallTakes port 5 hdr = true →
    let d := s.dev.wrap F.HLF_CNT0_PKTS_IN 1
    d.enrolled = true → mac = true → d.holdsGen (leAt data 0xA0 4) = true → d.connOf (srcOf hdr) (classOf hdr) = some i →
    let x := d.conn i
    (x.state = .opened ∨ x.state = .draining) →
    let boot := hf data 8 0 64
    let epoch := hf data 0 32 32
    let same := decide (boot = x.peerBoot ∧ epoch = x.peerEpoch)
    exec (.connReq port mac hdr data) s = .next (s.put (if same then d.sendConnAccept i else if boot < x.peerBoot then
      d.rejectConn hdr 3 else if x.peerBoot < boot then (d.failConn i 4).acceptNew hdr data else d.rejectConn hdr 2))) ∧
  (∀ (s : State) (port : Nat) (mac : Bool) (hdr data : Bytes),
    s.runs = true → s.dev.hallTakes port 6 hdr = true →
    let d := s.dev.wrap F.HLF_CNT0_PKTS_IN 1
    mac = true →
    let i := hf hdr 8 32 14
    let x := d.conn i
    x.peer = srcOf hdr → x.bulk = classOf hdr →
    let e := hf data 0 32 32
    x.state = .connecting →
    let y := { x with
        peerEpoch := e, peerBoot := hf data 8 0 64, peerConn := hf data 0 0 14, naddr := max 1 (hf data 0x10 0 4),
        addrs := peerAddrs data, epoch := epochOf x.myEpoch e }
    exec (.connAccept port mac hdr data) s = .next (s.put ((d.setConn i y).openKeyed i data))) ∧
  (∀ (s : State) (port : Nat) (mac : Bool) (hdr data : Bytes),
    s.runs = true → s.dev.hallTakes port 6 hdr = true →
    let d := s.dev.wrap F.HLF_CNT0_PKTS_IN 1
    mac = true →
    let i := hf hdr 8 32 14
    let x := d.conn i
    x.peer = srcOf hdr → x.bulk = classOf hdr →
    let e := hf data 0 32 32
    x.state = .opened → x.rekeying = true →
    exec (.connAccept port mac hdr data) s = .next (s.put ((d.newKeys i e x.keyGen true (peerKey data)).sendMore i))) ∧
  (∀ (s : State) (port : Nat) (hdr : Bytes) (reason : Nat),
    s.runs = true → s.dev.hallTakes port 7 hdr = true →
    let d := s.dev.wrap F.HLF_CNT0_PKTS_IN 1
    let i := hf hdr 8 32 14
    let x := d.conn i
    x.peer = srcOf hdr → x.bulk = classOf hdr → x.state = .connecting →
    let d := d.dropConn i
    exec (.connReject port hdr reason) s = .next (s.put (if reason = 3 then d.endWait x.peer x.bulk .denied else d))) ∧
  (∀ (s : State) (conn : Nat),
    s.runs = true →
    let x := s.dev.conn conn
    x.state = .connecting →
    let d := s.dev.reach x.reqAt
    let till := d.now + (if x.reqTries = 1 then 16000 else 64000) * d.g F.TIM_FAB_RTO_US
    exec (.connReqRetry conn) s = .next (s.put (if 3 ≤ x.reqTries then d.failConn conn 3 else (d.setConn conn
      { x with reqTries := x.reqTries + 1, reqAt := till }).sendReq conn))) ∧
  (∀ (s : State) (port : Nat) (ce tag : Bool) (hdr : Bytes) (i : Nat),
    s.runs = true → s.dev.hallIn port 8 tag hdr i = true →
    let d := (s.dev.arrived).rxPacket i ce hdr
    exec (.close port ce tag hdr) s = .next (s.put ((d.updConn i fun x =>
      { x with state := .draining, closeGot := true }).tryClose i))) ∧
  (∀ (s : State) (port : Nat) (ce tag mac : Bool) (hdr data : Bytes) (i : Nat),
    s.runs = true → s.dev.hallIn port 11 tag hdr i = true →
    let d := (s.dev.arrived).rxPacket i ce hdr
    mac = true → d.enrolled = true → d.holdsGen (leAt data 0xA0 4) = true →
    let p := d.propose (d.conn i)
    let e := hf data 0 32 32
    let d := (p.2.setConn i p.1).sendConnAccept i
    exec (.rekey port ce tag mac hdr data) s = .next (s.put ((d.newKeys i e (leAt data 0xA0 4) false (peerKey
      data)).sendMore i))) ∧
  (∀ (s : State) (conn : Nat),
    s.runs = true →
    let x := s.dev.conn conn
    x.state = .opened → x.quiet = true →
    exec (.connIdle conn) s = .next (s.put ((s.dev.reach (x.lastUse + s.dev.g F.HLF_CONN_CFG_IDLE_MS * 1000000)).sendClose
      conn))) ∧
  (∀ (s : State) (conn t : Nat),
    s.runs = true →
    let x := s.dev.conn conn
    (x.state = .opened ∨ x.state = .draining) →
    let ms := s.dev.g F.HLF_CONN_CFG_FAIL_MS * 1000000
    let sooner (b : Option Nat) (k : QPkt) : Option Nat := some (b.elim k.first fun t => min t k.first)
    x.pkts.foldl sooner none = some t → x.noPathSince = none →
    exec (.connFailed conn) s = .next (s.put ((s.dev.reach (t + ms)).failConn conn 1))) ∧
  (∀ (s : State) (conn t u : Nat),
    s.runs = true →
    let x := s.dev.conn conn
    (x.state = .opened ∨ x.state = .draining) →
    let ms := s.dev.g F.HLF_CONN_CFG_FAIL_MS * 1000000
    let sooner (b : Option Nat) (k : QPkt) : Option Nat := some (b.elim k.first fun t => min t k.first)
    x.pkts.foldl sooner none = some t → x.noPathSince = some u →
    exec (.connFailed conn) s = .next (s.put (if t ≤ u then (s.dev.reach (t + ms)).failConn conn 1 else (s.dev.reach (u +
      ms)).failConn conn 2))) ∧
  (∀ (s : State) (conn u : Nat),
    s.runs = true →
    let x := s.dev.conn conn
    (x.state = .opened ∨ x.state = .draining) →
    let ms := s.dev.g F.HLF_CONN_CFG_FAIL_MS * 1000000
    x.pkts = [] → x.noPathSince = some u →
    exec (.connFailed conn) s = .next (s.put ((s.dev.reach (u + ms)).failConn conn 2))) ∧
  (∀ (s : State) (conn : Nat),
    s.runs = true →
    let x := s.dev.conn conn
    x.state = .failed →
    exec (.connFailedEnd conn) s = .next (s.put (((s.dev.reach (x.failedAt + 2 * s.dev.g F.HLF_CONN_CFG_FAIL_MS *
      1000000)).dropConn conn).askConns)))

/-- The pages of a PAGED region (R413 to R415). -/
def Obligations.PagedRegionsComplete : Prop :=
  (∀ (s : State) (region page : Nat) (ok : Bool) (r : Region),
    s.runs = true → s.dev.region region = some r → r.mayArrive page = true →
    let failed := if ok then r.failed else r.failed ++ [page]
    let r' := { r with absent := r.absent.filter (· != page), fetching := r.fetching.filter (· != page), failed := failed }
    let d : Dev := { s.dev with hall := { s.dev.hall with regions := NMap.put s.dev.hall.regions region r' } }
    let src := d.histPage region page
    let bytes := (src.map (·.2)).getD []
    let d := src.elim d fun x => let y := (d.sess x.1).d;
      d.countReads y.histHandle (65536 * page) (min 65536 (4 * y.histDurable - 65536 * page))
    let d := if ok then d.poke (r.base + 65536 * page) (bytes.take (r.length - 65536 * page)) else d
    let m := if ok then Memory.apply s.hbm d.wr else s.hbm
    let waits (t : Nat × QTrack) : Bool := t.2.region == region && !t.2.held.isEmpty
    let retry (e : Nat × Conn) (d : Dev) (t : Nat × QTrack) : Dev := if waits t then d.retryHeld e.1 t.1 else d
    let d := d.hall.conns.foldl (fun (d : Dev) (e : Nat × Conn) => e.2.tracks.foldl (retry e) d) d
    let d := d.hall.qps.foldl (fun (d : Dev) (e : Nat × Qp) => if e.2.held.isEmpty then d else d.retryRoce m e.1 region) d
    exec (.pageFetch region page ok) s = .next (s.put (if ok then d else src.elim d fun x => d.reviveFailed x.1 1))) ∧
  (∀ (s : State) (index seq : Nat) (x : Qp) (e : Nat × Nat × Nat × Nat × Nat),
    s.runs = true → NMap.get? s.dev.hall.qps index = some x → x.held.find? (fun e => e.1 == seq) = some e →
    let d := s.dev.reach e.2.2.2.2
    let k := Config.freeNat d.free
    let y := { x with held := x.held.erase e, reads := x.reads - 1, done := some x.donePsn, rqPsn := e.1 }
    let d : Dev := { d with free := d.free + 1, hall := { d.hall with qps := NMap.put d.hall.qps index y } }
    exec (.pageStall true index seq) s = .next (s.put (((d.sat F.HLF_CNT2_RETRY_AFTER 1).sat F.RCE_CNT1_RNR 1).roceOut
      index 3 [e.1, k % 32] []))) ∧
  (∀ (s : State) (index seq : Nat) (t : QTrack) (u : Nat),
    s.runs = true → s.dev.track index seq = some t → t.heldUntil = some u →
    let d := s.dev.reach u
    let us := Config.freeNat d.free % 2 ^ 32
    let d : Dev := { d with free := d.free + 1 }
    exec (.pageStall false index seq) s = .next (s.put ((d.setTrack index seq { t with held := [], heldUntil := none }).answer
      index seq .retryAfter us)))

/-- RoCEv2 (R414, R417 to R421). -/
def Obligations.RoceComplete : Prop :=
  (∀ (s : State) (qp psn key addr : Nat) (imm : Option Nat) (ce : Bool) (data : Bytes) (x : Qp) (k : Nat) (r : Region),
    s.runs = true → NMap.get? s.dev.hall.qps qp = some x → s.dev.on F.RCE_CTL_EN = true → x.state = .rts → s.dev.gi
      F.HLF_PORT_ROLE x.port = 1 →
    let n := packets data.length
    let d := (s.dev.wrap F.RCE_CNT0_PKTS_IN n).cnp qp ce
    let x := NMap.getD d.hall.qps qp x
    signed 24 (psn + 2 ^ 24 - x.rqPsn) = 0 →
    let y := { x with rqPsn := (x.rqPsn + n) % 2 ^ 24 }
    let d := d.setQp qp y
    y.ran psn = false → d.roceRegion y key addr data.length true = some (k, r) →
    exec (.roceWrite qp psn key addr imm ce data) s = .next (s.put ((d.poke (addr % 2 ^ 48) data).roceAcked qp psn n))) ∧
  (∀ (s : State) (qp psn key addr : Nat) (imm : Option Nat) (ce : Bool) (data : Bytes) (x : Qp),
    s.runs = true → NMap.get? s.dev.hall.qps qp = some x → s.dev.on F.RCE_CTL_EN = true → x.state = .rts → s.dev.gi
      F.HLF_PORT_ROLE x.port = 1 →
    let n := packets data.length
    let d := (s.dev.wrap F.RCE_CNT0_PKTS_IN n).cnp qp ce
    let x := NMap.getD d.hall.qps qp x
    signed 24 (psn + 2 ^ 24 - x.rqPsn) = 0 →
    let y := { x with rqPsn := (x.rqPsn + n) % 2 ^ 24 }
    y.ran psn = true →
    exec (.roceWrite qp psn key addr imm ce data) s = .next (s.put (((d.setQp qp y).sat F.RCE_CNT1_DUP 1).roceAcked qp psn n))) ∧
  (∀ (s : State) (qp psn key addr len : Nat) (ce : Bool) (x : Qp) (k : Nat) (r : Region),
    s.runs = true → NMap.get? s.dev.hall.qps qp = some x → s.dev.on F.RCE_CTL_EN = true → x.state = .rts → s.dev.gi
      F.HLF_PORT_ROLE x.port = 1 →
    let n := packets len
    let d := (s.dev.wrap F.RCE_CNT0_PKTS_IN 1).cnp qp ce
    let x := NMap.getD d.hall.qps qp x
    signed 24 (psn + 2 ^ 24 - x.rqPsn) = 0 →
    let y := { x with rqPsn := (x.rqPsn + n) % 2 ^ 24 }
    let d := d.setQp qp y
    y.reads < 16 → d.roceRegion y key addr len false = some (k, r) →
    let a := addr % 2 ^ 48
    r.touches r.failed a len = false → r.touches r.absent a len = false →
    exec (.roceRead qp psn key addr len ce) s = .next (s.put (d.roceRead s.hbm qp psn a len))) ∧
  (∀ (s : State) (qp psn key addr len : Nat) (ce : Bool) (x : Qp) (k : Nat) (r : Region),
    s.runs = true → NMap.get? s.dev.hall.qps qp = some x → s.dev.on F.RCE_CTL_EN = true → x.state = .rts → s.dev.gi
      F.HLF_PORT_ROLE x.port = 1 →
    let n := packets len
    let d := (s.dev.wrap F.RCE_CNT0_PKTS_IN 1).cnp qp ce
    let x := NMap.getD d.hall.qps qp x
    signed 24 (psn + 2 ^ 24 - x.rqPsn) = 0 →
    let y := { x with rqPsn := (x.rqPsn + n) % 2 ^ 24 }
    let d := d.setQp qp y
    y.reads < 16 → d.roceRegion y key addr len false = some (k, r) →
    let a := addr % 2 ^ 48
    r.touches r.failed a len = false → r.touches r.absent a len = true →
    let d := d.holdOn k r a len
    let till := d.now + d.g F.TIM_FAB_PAGE_STALL_US * 1000
    exec (.roceRead qp psn key addr len ce) s = .next (s.put (d.setQp qp
      { y with reads := y.reads + 1, held := y.held ++ [(psn, k, a, len, till)] }))) ∧
  (∀ (s : State) (qp psn op : Nat) (imm : Option Nat) (ce : Bool) (data : Bytes) (x : Qp),
    s.runs = true → NMap.get? s.dev.hall.qps qp = some x → s.dev.on F.RCE_CTL_EN = true → x.state = .rts → s.dev.gi
      F.HLF_PORT_ROLE x.port = 1 →
    let n := packets data.length
    let d := (s.dev.wrap F.RCE_CNT0_PKTS_IN n).cnp qp ce
    let x := NMap.getD d.hall.qps qp x
    signed 24 (psn + 2 ^ 24 - x.rqPsn) = 0 →
    let y := { x with rqPsn := (x.rqPsn + n) % 2 ^ 24 }
    let d := d.setQp qp y
    op = 0 → data.length ≤ 16777216 →
    exec (.roceSend qp psn op imm ce data) s = .next (s.put (d.roceAcked qp psn n))) ∧
  (∀ (s : State) (qp psn nak : Nat) (x : Qp),
    s.runs = true → NMap.get? s.dev.hall.qps qp = some x → s.dev.qpUp x = true → nak = 0 →
    exec (.roceAck qp psn nak) s = .next (s.put ((s.dev.wrap F.RCE_CNT0_PKTS_IN 1).qpAcked qp x psn))) ∧
  (∀ (s : State) (qp psn nak : Nat) (x : Qp),
    s.runs = true → NMap.get? s.dev.hall.qps qp = some x → s.dev.qpUp x = true → nak ≠ 0 →
    let d := (s.dev.wrap F.RCE_CNT0_PKTS_IN 1).qpAcked qp x ((psn + 2 ^ 24 - 1) % 2 ^ 24)
    exec (.roceAck qp psn nak) s = .next (s.put (if nak = 3 then d.qpFail qp 1 else d.qpRetry qp
      { NMap.getD d.hall.qps qp x with tries := x.tries }))) ∧
  (∀ (s : State) (qp : Nat) (x : Qp) (t : Nat),
    s.runs = true → NMap.get? s.dev.hall.qps qp = some x → x.ackAt = some t → s.dev.qpUp x = true →
    exec (.roceAckTimeout qp) s = .next (s.put ((s.dev.reach t).qpRetry qp x))) ∧
  (∀ (s : State) (qp : Nat) (x : Qp),
    s.runs = true → NMap.get? s.dev.hall.qps qp = some x → s.dev.qpUp x = true →
    let least := s.dev.lineRate x.port * s.dev.g F.RCE_CC_MIN_PCT / 100
    let r := max least (s.dev.rateOf x * (100 - s.dev.g F.RCE_CC_DEC_PCT) / 100)
    let till := s.dev.now + s.dev.g F.RCE_CC_INC_US * 1000
    exec (.cnp qp) s = .next (s.put ((s.dev.sat F.RCE_CNT2_CNP_RCVD 1).setQp qp { x with rate := r, incAt := some till }))) ∧
  (∀ (s : State) (qp : Nat) (x : Qp) (t : Nat),
    s.runs = true → NMap.get? s.dev.hall.qps qp = some x → x.incAt = some t →
    let d := s.dev.reach t
    let line := d.lineRate x.port
    let r := min line (d.rateOf x + d.g F.RCE_CC_INC_MBPS)
    let next := if r = line then none else some (t + d.g F.RCE_CC_INC_US * 1000)
    exec (.rateIncrease qp) s = .next (s.put (d.setQp qp { x with rate := r, incAt := next })))

/-- Ports (R384, R386, R387, R423). -/
def Obligations.LinksComplete : Prop :=
  (∀ (s : State) (port : Nat),
    s.runs = true →
    let n := s.dev.lanesOk port
    exec (.linkUp port) s = .next (s.put ((s.dev.si F.HLF_PORT_LINK port (linkOf n)).si F.HLF_PORT_LANES_OK port n))) ∧
  (∀ (s : State) (port : Nat),
    s.runs = true →
    exec (.linkDown port) s = .next (s.put (((s.dev.si F.HLF_PORT_LINK port 0).si F.HLF_PORT_LANES_OK port 0).portDown port))) ∧
  (∀ (s : State) (port hi lo : Nat),
    s.runs = true → hi = s.dev.gi F.HLF_PORT_IP1_ADDR_HI port → lo = s.dev.gi F.HLF_PORT_IP0_ADDR_LO port → (hi ≠ 0 ∨ lo ≠ 0) →
    exec (.neighbourSolicitation port hi lo) s = .next (s.put (s.dev.emit (.mgmt 3 (leBytes 1 port ++ leBytes 6 (Config.portMac
      port)))))) ∧
  (∀ (s : State) (port prio : Nat) (pause : Bool),
    s.runs = true → bitOf (s.dev.gi F.HLF_PORT_PFC_PRIOS port) prio = true →
    let mask := setBit (NMap.getD s.dev.hall.paused port 0) prio pause
    let d : Dev := { s.dev with hall := { s.dev.hall with paused := NMap.put s.dev.hall.paused port mask } }
    let mine (e : Nat × Nat × Out) : Bool := e.1 == port && e.2.1 == prio
    let freed : Dev := { d with stopped := d.stopped.filter fun e => !mine e }
    exec (.pfcPause port prio pause) s = .next (s.put (if pause then d else
      freed.emits ((d.stopped.filter mine).map fun e => e.2.2)))) ∧
  (∀ (s : State) (port : Nat),
    s.runs = true →
    exec (.rxDrop port true) s = .next (s.put (s.dev.sati F.HLF_PORT_CNT_FCS_ERR port 1))) ∧
  (∀ (s : State) (port : Nat),
    s.runs = true →
    exec (.rxDrop port false) s = .next (s.put (s.dev.dropFrame port)))

/-- Clock synchronisation (R62 to R64). That HOLDOVER leaves LOCKED only by missing messages and that the whole offset is
corrected at once is the model's reading. -/
def Obligations.ClockSynchronisationComplete : Prop :=
  (∀ (s : State) (port domain interval offset : Nat),
    s.runs = true → s.dev.on F.TIM_CTL_EN = true → bitOf (s.dev.g F.TIM_CTL_PTP_PORTS) port = true → domain = s.dev.g
      F.TIM_CTL_PTP_DOMAIN →
    let off := signed 32 offset
    let gap := decide (s.dev.sync.lastPtp + 2 * interval ≤ s.dev.now)
    let good := if -1000 ≤ off ∧ off ≤ 1000 then (if gap then 1 else s.dev.sync.good + 1) else 0
    let fix := if s.dev.on F.TIM_CTL_PPS_EN && s.dev.on F.TIM_STATUS_PPS_OK && s.dev.sync.ppsUsed then wholeSeconds off else off
    let d : Dev := { s.dev with sync := { s.dev.sync with lastPtp := s.dev.now, interval := interval, good := good } }
    let d := (d.s F.TIM_STATUS_OFFSET_NS offset).s F.TIM_WALL_NS (unsigned 64 ((d.wall : Int) - fix))
    let st := d.g F.TIM_STATUS_SYNC
    exec (.ptpMessage port domain interval offset) s = .next (s.put (d.s F.TIM_STATUS_SYNC (if st = 2 then 2 else if 16 ≤ good
      then 2 else 1)))) ∧
  (∀ (s : State) (wide : Bool),
    s.runs = true → wide = true →
    let near (t : Nat) : Bool := decide (999900000 ≤ s.dev.now - t ∧ s.dev.now - t ≤ 1000100000)
    let ok := s.dev.sync.ppsAt.elim true near
    let d := ({ s.dev with sync := { s.dev.sync with ppsAt := some s.dev.now } } : Dev).s F.TIM_STATUS_PPS_OK (b2n ok)
    let used : Dev := { d with sync := { d.sync with ppsUsed := true } }
    exec (.ppsPulse wide) s = .next (s.put (if ok && d.on F.TIM_CTL_PPS_EN then used.s F.TIM_WALL_NS (unsigned 64 (wholeSeconds
      d.wall)) else d))) ∧
  (∀ (s : State) (t : Nat),
    s.runs = true → s.dev.sync.ppsAt = some t → s.dev.on F.TIM_STATUS_PPS_OK = true →
    exec (.ppsTimeout) s = .next (s.put ((s.dev.reach (t + 1100000000)).s F.TIM_STATUS_PPS_OK 0))) ∧
  (∀ (s : State),
    s.runs = true → s.dev.g F.TIM_STATUS_SYNC = 2 →
    let d := s.dev.reach (s.dev.sync.lastPtp + 8 * s.dev.sync.interval)
    let d : Dev := { d with sync := { d.sync with holdSince := d.now, good := 0 } }
    exec (.holdover) s = .next (s.put ((d.s F.TIM_STATUS_SYNC 3).ckptWarn 5))) ∧
  (∀ (s : State),
    s.runs = true → s.dev.g F.TIM_STATUS_SYNC = 3 →
    exec (.holdoverLimit) s = .next (s.put ((s.dev.reach (s.dev.sync.holdSince + s.dev.g F.TIM_HOLD_LIMIT_S *
      1000000000)).freeRun)))

/-- The messages and limits of a handoff (R425, R426, R434 to R438). -/
def Obligations.HandoffComplete : Prop :=
  (∀ (s : State) (src sid epoch target slot : Nat),
    s.runs = true →
    let d := s.dev.heard src svcOwner sid
    d.slotOf sid = some slot →
    let x := (d.sess slot).d
    x.ownerEpoch = epoch → x.ownerCtrl = src → x.lease ≠ .offered → x.ownerEpoch ≠ 0xFFFFFFFF → d.fenced slot = false → d.g
      F.TIM_STATUS_SYNC ≠ 0 →
    let l := { d.homeLease sid with offerTo := some target, offerDeadline := d.now + d.expiryNs }
    let d := d.updDesc slot fun x => { x with lease := .offered }
    let d := d.updOwn fun o => { o with homeLeases := NMap.put o.homeLeases sid l }
    exec (.offer src sid epoch target) s = .next (s.put (d.own1 src 4 sid epoch target .ok))) ∧
  (∀ (s : State) (src sid status slot : Nat) (o : HandOut),
    s.runs = true → s.dev.oldId sid = false →
    let d := s.dev.heard src svcOwner sid
    d.slotOf sid = some slot → d.handOut sid = some o → o.phase = 0 → d.homeOf sid = src → status = 0 → d.mayOffer slot = true
      →
    exec (.offerAck src sid status) s = .next (s.put (d.proposeHandoff s.hbm slot))) ∧
  (∀ (s : State) (src sid epoch : Nat) (desc : Bytes) (want image slot i : Nat) (d1 : Dev),
    s.runs = true → s.dev.oldId sid = false →
    let d := s.dev.heard src svcOwner sid
    let desc := padTo 256 desc
    let x := Desc.ofBytes desc
    NMap.get? d.own.ins sid = none → (d.own.guests.any fun e => sidHome e.1 == sidHome sid && sidSlot e.1 == sidSlot sid &&
      decide (sidGen sid < sidGen e.1)) = false → (x.isRange src && (d.slotOf sid).isSome || !d.isHome sid &&
      NMap.has d.own.guests sid) = false → x.rangeOk = true → d.g F.TIM_STATUS_SYNC ≠ 0 →
    let home := d.isHome sid
    let die := slotDie (sidSlot sid)
    let other := d.lowestSlot 2097152 ((1 - die) * 2097152)
    (if home then d.slotOf sid else (d.lowestSlot 2097152 (die * 2097152)).orElse fun _ => other) = some slot →
    let c : Ctx := {
        sid := sid, slot := slot, kind := .migrateIn, phase := .tierMove, prio := x.prio, group := x.group, fn := x.partition,
        eq := d.gi F.PRK_POLICY_EQ x.partition, mapEpoch := d.own.current, ownerEpoch := epoch, baseCommitted := x.committed,
        baseHist := x.histLen }
    d.newCtx (slotDie slot) c = some (i, d1) →
    let gd : Desc := { x with
        state := .migrating, ownerCtrl := src, lease := .none, ptRoot := 0, histAddr := 0, grmState := 0, imageHandle := 0,
        histHandle := 0, siftIndex := 0, stopSet := 0, ctxValid := false, turnQueued := false, idleSince := 0 }
    let g : Session := { d := gd }
    let e := if home then d1 else ((d1.setSess slot g).touch slot).updOwn fun o => { o with guests := NMap.put o.guests sid slot }
    let y : HandIn := {
        source := src, home := e.homeOf sid, epoch := epoch, slot := slot, ctx := i, desc := desc, want := want, image := image,
        deadline := e.now + e.expiryNs }
    let e := e.updOwn fun o => { o with ins := NMap.put o.ins sid y }
    let e := e.updSess slot fun a => { a with tierCtx := if home then a.tierCtx else some i }
    let row : AdmEnv := { g := x.group, row := x.lastRow, die := slotDie slot }
    exec (.propose src sid epoch desc want image) s = .next (s.put (if e.noGroupRuns = false then e
      else if x.tier ≠ .hot then (e.reserveCold sid).sendAccept s.hbm sid
      else ((Adm.joinMigrate s.hbm row { dev := e } slot i).dev).sendAccept s.hbm sid))) ∧
  (∀ (s : State) (src sid epoch : Nat) (desc : Bytes) (want image : Nat) (y : HandIn),
    s.runs = true → s.dev.oldId sid = false →
    let d := s.dev.heard src svcOwner sid
    NMap.get? d.own.ins sid = some y → y.source = src → y.epoch = epoch →
    exec (.propose src sid epoch desc want image) s = .next (s.put (if y.accepted then d.acceptMsg sid y else d))) ∧
  (∀ (s : State) (src sid epoch addr region gen slot : Nat) (o : HandOut),
    s.runs = true → s.dev.oldId sid = false →
    let d := s.dev.heard src svcOwner sid
    d.slotOf sid = some slot → d.handOut sid = some o →
    let x := d.sess slot
    o.phase = 2 → o.target = src → epoch = o.epoch + 1 → d.mayOffer slot = true →
    let bs := d.copyBytes s.hbm slot x.d.tier
    let d := d.setOut sid { o with phase := 3 }
    let d := (d.updSess slot fun y => { y with prevState := x.d.state, prevTier := x.d.tier }).setState slot .migrating
      x.d.tier
    let d := if x.d.tier = .parked then d.countReads x.d.imageHandle 0 bs.length
      else if x.d.tier = .hot then d.heatSession slot else d
    exec (.accept src sid epoch addr region gen) s = .next (s.put (d.write src region gen addr x.d.partition bs))) ∧
  (∀ (s : State) (src sid slot : Nat) (o : HandOut),
    s.runs = true → s.dev.oldId sid = false →
    let d := s.dev.heard src svcOwner sid
    d.slotOf sid = some slot → d.handOut sid = some o → o.target = src →
    exec (.refuse src sid) s = .next (s.put (d.abortOut slot))) ∧
  (∀ (s : State) (src sid epoch slot : Nat),
    s.runs = true →
    let d := s.dev.heard src svcOwner sid
    d.slotOf sid = some slot →
    let x := (d.sess slot).d
    let l := d.homeLease sid
    ((NMap.get? d.own.dirWrites sid).map fun w => w.commit == some (src, epoch)).getD false = false → x.lease = .offered →
      l.offerTo = some src → epoch = x.ownerEpoch + 1 → d.now ≤ l.offerDeadline → d.g F.TIM_STATUS_SYNC ≠ 0 → src ≠ d.self → d.holdersUp sid = true →
    let acting := if sidHome sid = d.self then 0 else d.self
    let buddy := ((d.own.buddies.find? fun e => e.1 == d.self).map (·.2)).getD 0
    let e : DirEntry :=
      { sid := sid, ownerEpoch := epoch, ownerCtrl := src, actingHome := acting, buddy := buddy, tier := x.tier.code }
    exec (.commit src sid epoch) s = .next (s.put ((d.writeDir sid (some e) (some (src, epoch))).finishDir s.hbm sid))) ∧
  (∀ (s : State) (src sid epoch status : Nat) (y : HandIn),
    s.runs = true → s.dev.oldId sid = false →
    let d := s.dev.heard src svcOwner sid
    NMap.get? d.own.ins sid = some y → y.epoch = epoch → y.commitAt.isSome = true → d.homeOf sid = src → status = 0 →
    exec (.committed src sid epoch status) s = .next (s.put (d.committedIn s.hbm sid))) ∧
  (∀ (s : State) (src sid epoch target slot : Nat) (o : HandOut),
    s.runs = true → s.dev.oldId sid = false →
    let d := s.dev.heard src svcOwner sid
    d.slotOf sid = some slot → d.handOut sid = some o → d.homeOf sid = src → o.target = target → epoch = o.epoch + 1 →
    exec (.notice src sid epoch target) s = .next (s.put (d.noticeOut slot target epoch))) ∧
  (∀ (s : State) (sid slot : Nat),
    s.runs = true → s.dev.slotOf sid = some slot → s.dev.isHome sid = true → (s.dev.sess slot).d.lease = .offered → ((NMap.get?
      s.dev.own.dirWrites sid).map fun w => w.commit.isSome).getD false = false →
    exec (.offerDeadline sid) s = .next (s.put ((s.dev.reach (s.dev.homeLease sid).offerDeadline).abortOffer slot))) ∧
  (∀ (s : State) (sid : Nat) (y : HandIn),
    s.runs = true → NMap.get? s.dev.own.ins sid = some y → y.accepted = false → s.dev.isHome sid = false →
    exec (.offerDeadline sid) s = .next (s.put ((s.dev.reach y.deadline).refuseLate sid y))) ∧
  (∀ (s : State) (src sid : Nat),
    s.runs = true → s.dev.oldId sid = false →
    let d := s.dev.heard src svcOwner sid
    d.homeOf sid = src → (NMap.get? d.own.ins sid).isSome = true →
    exec (.abort src sid) s = .next (s.put (d.abandonIn sid))) ∧
  (∀ (s : State) (src sid slot : Nat),
    s.runs = true → s.dev.oldId sid = false →
    let d := s.dev.heard src svcOwner sid
    d.homeOf sid = src → NMap.get? d.own.ins sid = none → d.slotOf sid = some slot → (d.handOut sid).isSome = true →
    exec (.abort src sid) s = .next (s.put (d.abortOut slot))) ∧
  (∀ (s : State) (sid : Nat) (y : HandIn) (t : Nat),
    s.runs = true → NMap.get? s.dev.own.ins sid = some y → y.commitAt = some t →
    exec (.commitResend sid) s = .next (s.put ((s.dev.reach (t + s.dev.renewNs)).sendCommit s.hbm sid))) ∧
  (∀ (s : State) (sid : Nat) (y : HandIn),
    s.runs = true → NMap.get? s.dev.own.ins sid = some y → y.commitAt.isSome = true →
    let d := (s.dev.reach (y.firstCommit + s.dev.expiryNs)).abandonIn sid
    exec (.handoffLost sid) s = .next (s.put (d.post0 { typ := 0x1E, subject := sid, status := 0xF0, args := [y.epoch] })))

/-- Leases and state synchronisation (R65, R68, R427 to R431, R433, R437), and what becomes of messages that name an older
generation of a slot (R73). -/
def Obligations.LeasesComplete : Prop :=
  (∀ (s : State) (sid slot : Nat) (l : OwnLease),
    s.runs = true → s.dev.slotOf sid = some slot → NMap.get? s.dev.own.ownLeases slot = some l → s.dev.away slot = true →
    let d := s.dev.reach l.renewAt
    let l := { l with sents := l.sents ++ [d.now], renewAt := d.now + d.renewNs }
    let d := d.updOwn fun o => { o with ownLeases := NMap.put o.ownLeases slot l }
    let d := if d.own.lostCtrls.contains (sidHome sid) && !NMap.has d.own.actHome sid then d.askDir sid else d
    exec (.renewTimer sid) s = .next (s.put (d.own1 (d.homeOf sid) 1 sid (d.sess slot).d.ownerEpoch d.self .ok))) ∧
  (∀ (s : State) (src sid epoch renewMs expiryMs slot : Nat),
    s.runs = true →
    let d := s.dev.heard src svcOwner sid
    d.samePeriods renewMs expiryMs = true → d.slotOf sid = some slot → d.isHome sid = true → (d.sess slot).d.ownerEpoch = epoch
      → (d.sess slot).d.ownerCtrl = src →
    let l := { d.homeLease sid with tr := d.now, expiry := d.expiryNs }
    exec (.renew src sid epoch renewMs expiryMs) s = .next (s.put ((d.updOwn fun o =>
      { o with homeLeases := NMap.put o.homeLeases sid l }).own1 src 2 sid epoch 0 .ok))) ∧
  (∀ (s : State) (src sid epoch status renewMs expiryMs slot : Nat) (l : OwnLease),
    s.runs = true → s.dev.oldId sid = false → s.dev.samePeriods renewMs expiryMs = true →
    let d := s.dev.heard src svcOwner sid
    d.slotOf sid = some slot → NMap.get? d.own.ownLeases slot = some l → d.away slot = true → d.homeOf sid = src → (d.sess
      slot).d.ownerEpoch = epoch → status = 0 →
    let now := d.noGroupRuns
    let l := { l with
        ts := max l.ts (l.sents.headD l.ts), sents := l.sents.drop 1, expiry := d.expiryNs, fenced := l.fenced && !now,
        lifting := l.fenced && !now }
    exec (.renewAck src sid epoch status renewMs expiryMs) s = .next (s.put (d.updOwn fun o =>
      { o with ownLeases := NMap.put o.ownLeases slot l }))) ∧
  (∀ (s : State) (src sid epoch status renewMs expiryMs slot : Nat) (l : OwnLease),
    s.runs = true → s.dev.oldId sid = false → s.dev.samePeriods renewMs expiryMs = true →
    let d := s.dev.heard src svcOwner sid
    d.slotOf sid = some slot → NMap.get? d.own.ownLeases slot = some l → d.away slot = true → d.homeOf sid = src → (d.sess
      slot).d.ownerEpoch = epoch → status = Status.staleGen.code →
    exec (.renewAck src sid epoch status renewMs expiryMs) s = .next (s.put (d.dropCopy slot))) ∧
  (∀ (s : State) (sid slot : Nat) (l : OwnLease),
    s.runs = true → s.dev.slotOf sid = some slot → NMap.get? s.dev.own.ownLeases slot = some l → l.fenced = false → s.dev.away
      slot = true →
    let d := s.dev.reach (l.ts + l.expiry)
    let d := d.updOwn fun o => { o with ownLeases := NMap.put o.ownLeases slot { l with fenced := true, lifting := false } }
    let d := d.nullWork slot .staleGen
    let x := (d.sess slot).d
    exec (.fence sid) s = .next (s.put (d.postBoth x.partition
      { typ := 0x1C, subject := sid, status := Status.staleGen.code, args := [x.ownerEpoch] }))) ∧
  (∀ (s : State) (sid slot t : Nat),
    s.runs = true → s.dev.slotOf sid = some slot →
    s.dev.isHome sid = true → (s.dev.sess slot).d.state ≠ .closed → s.dev.leaseEnd slot = some t →
    exec (.leaseReclaim sid) s = .next (s.put ((s.dev.reach t).reclaim slot))) ∧
  (∀ (s : State) (src sid epoch slot : Nat),
    s.runs = true → s.dev.oldId sid = false →
    let d := s.dev.heard src svcOwner sid
    d.homeOf sid = src → NMap.get? d.own.ins sid = none → d.slotOf sid = some slot → d.owns slot = true → (d.sess
      slot).d.ownerEpoch < epoch →
    exec (.reclaimed src sid epoch) s = .next (s.put (d.dropCopy slot))) ∧
  (∀ (s : State) (src sid epoch : Nat),
    s.runs = true → s.dev.oldId sid = false →
    let d := s.dev.heard src svcOwner sid
    d.homeOf sid = src → (NMap.get? d.own.ins sid).isSome = true →
    exec (.reclaimed src sid epoch) s = .next (s.put (d.abandonIn sid))) ∧
  (∀ (s : State) (src sid epoch state tier histLen : Nat) (tokens : List Nat) (slot : Nat),
    s.runs = true →
    let d := s.dev.heard src svcOwner sid
    d.slotOf sid = some slot → d.isHome sid = true →
    let x := (d.sess slot).d
    x.ownerCtrl = src → x.ownerEpoch = epoch → x.state = .closed →
    exec (.stateSync src sid epoch state tier histLen tokens) s = .next (s.put (d.syncAck src sid epoch histLen .ok))) ∧
  (∀ (s : State) (src sid epoch state tier histLen : Nat) (tokens : List Nat) (slot : Nat),
    s.runs = true →
    let d := s.dev.heard src svcOwner sid
    d.slotOf sid = some slot → d.isHome sid = true →
    let x := (d.sess slot).d
    x.ownerCtrl = src → x.ownerEpoch = epoch → x.state ≠ .closed → SState.ofCode state = .closed →
    let d := d.updOwn fun o => { o with homeLeases := NMap.del o.homeLeases sid }
    exec (.stateSync src sid epoch state tier histLen tokens) s = .next (s.put (((d.writeDir sid none none).closeSession
      slot).syncAck src sid epoch histLen .ok))) ∧
  (∀ (s : State) (src sid epoch state tier histLen : Nat) (tokens : List Nat) (slot : Nat),
    s.runs = true →
    let d := s.dev.heard src svcOwner sid
    d.slotOf sid = some slot → d.isHome sid = true →
    let x := (d.sess slot).d
    x.ownerCtrl = src → x.ownerEpoch = epoch → x.state ≠ .closed → SState.ofCode state ≠ .closed → tokens = [] →
    let st (x : Desc) : SState := if SState.ofCode state = .free then x.state else SState.ofCode state
    let d := d.updDesc slot fun x => { x with state := st x, tier := Tier.ofCode tier, idleSince := 0 }
    let d := if x.tier = Tier.ofCode tier then d else d.refresh slot
    exec (.stateSync src sid epoch state tier histLen tokens) s = .next (s.put (d.syncAck src sid epoch histLen .ok))) ∧
  (∀ (s : State) (src sid epoch state tier histLen : Nat) (tokens : List Nat) (slot hd : Nat) (d1 d2 : Dev),
    s.runs = true →
    let d := s.dev.heard src svcOwner sid
    d.slotOf sid = some slot → d.isHome sid = true →
    let x := (d.sess slot).d
    x.ownerCtrl = src → x.ownerEpoch = epoch → x.state ≠ .closed → SState.ofCode state ≠ .closed →
      tokens ≠ [] →
    let st (x : Desc) : SState := if SState.ofCode state = .free then x.state else SState.ofCode state
    let d := (d.updDesc slot fun x => { x with state := st x, tier := Tier.ofCode tier, idleSince := 0 }).refresh slot
    let lo := histLen - tokens.length
    (if (d.obj x.histHandle).isSome then some (x.histHandle, d) else d.createObj (slotDie slot) 2 sid x.partition 0) = some
      (hd, d1) → (d1.updDesc slot fun y => { y with histHandle := hd }).growObj hd (ceilDiv (4 * histLen) 16384) = some d2 →
    let kept (y : Session) : List Nat := y.hist.take lo ++ List.replicate (lo - y.hist.length) 0 ++ tokens
    let e := d2.updSess slot fun y => { y with hist := kept y, d := { y.d with histLen := histLen } }
    let e := (e.writeObj hd (4 * lo) (tokens.flatMap (leBytes 4))).updOwn fun o => { o with syncs := o.syncs ++ [(sid, src, histLen)] }
    exec (.stateSync src sid epoch state tier histLen tokens) s = .next (s.put ((e.mirrorHist slot lo
      histLen).ackSyncs))) ∧
  (∀ (s : State) (src sid epoch status histLen slot : Nat),
    s.runs = true → s.dev.oldId sid = false →
    let d := s.dev.heard src svcOwner sid
    d.slotOf sid = some slot → status = 0 → d.away slot = true → d.homeOf sid = src → (d.sess slot).d.ownerEpoch = epoch →
    exec (.syncAck src sid epoch status histLen) s = .next (s.put ((d.updDesc slot fun x =>
      { x with histDurable := max x.histDurable (min histLen x.histLen) }).checkPark slot))) ∧
  (∀ (s : State) (src sid epoch status target addr region gen want image renewMs expiryMs histLen obj offset : Nat) (data :
    Bytes),
    s.runs = true → s.dev.oldId sid = true →
    let stale (service : Nat) : Host.Outcome State Fault Refusal := .next (s.put (s.dev.resolve src service .staleGen))
    exec (.offerAck src sid status) s = stale svcOwner ∧ exec (.propose src sid epoch data want image) s = stale svcOwner ∧
      exec (.accept src sid epoch addr region gen) s = stale svcOwner ∧ exec (.refuse src sid) s = stale svcOwner ∧
      exec (.committed src sid epoch status) s = stale svcOwner ∧ exec (.notice src sid epoch target) s = stale svcOwner ∧
      exec (.abort src sid) s = stale svcOwner ∧ exec (.reclaimed src sid epoch) s = stale svcOwner ∧
      exec (.syncAck src sid epoch status histLen) s = stale svcOwner ∧ exec (.redirect src sid epoch target) s = stale
      svcOwner ∧ exec (.mirrorAck src sid obj status histLen) s = stale 5 ∧ exec (.mirrorReadData src sid obj offset status
      data) s = stale 5 ∧ exec (.descReply src sid status data) s = stale 5 ∧ exec (.dirPut src sid epoch target addr region gen) s = stale svcDir ∧ exec (.dirDel src sid) s =
      stale svcDir ∧ exec (.dirAck src sid status) s = stale svcDir ∧ exec (.dirGet src sid) s = stale svcDir ∧ exec (.dirReply
      src sid status epoch target addr) s = stale svcDir ∧ (s.dev.samePeriods renewMs expiryMs = true → exec (.renewAck src sid epoch status renewMs expiryMs)
      s = stale svcOwner))

/-- The directory and composition maps (R438 to R442, R444, R445). -/
def Obligations.DirectoryAndMapsComplete : Prop :=
  (∀ (s : State) (src sid epoch owner acting buddy tier : Nat),
    s.runs = true → s.dev.oldId sid = false →
    let d := s.dev.heard src svcDir sid
    let e : DirEntry :=
      { sid := sid, ownerEpoch := epoch, ownerCtrl := owner, actingHome := acting, buddy := buddy, tier := tier }
    let full := !NMap.has d.own.dir sid && decide (Config.dirEntries ≤ d.own.dir.length)
    let st : Status := if full then .noSpace else .ok
    let d := if full then d else d.updOwn fun o => { o with dir := NMap.put o.dir sid e }
    exec (.dirPut src sid epoch owner acting buddy tier) s = .next (s.put (d.send src svcDir (d.ownMsg 18 st.code sid epoch
      owner 0 0 0 0 0 0 [])))) ∧
  (∀ (s : State) (src sid : Nat),
    s.runs = true → s.dev.oldId sid = false →
    let d := s.dev.heard src svcDir sid
    let d := d.updOwn fun o => { o with dir := NMap.del o.dir sid }
    exec (.dirDel src sid) s = .next (s.put (d.send src svcDir (d.ownMsg 18 0 sid 0 0 0 0 0 0 0 0 [])))) ∧
  (∀ (s : State) (src sid status : Nat) (w : DirWrite),
    s.runs = true → s.dev.oldId sid = false →
    let d := s.dev.heard src svcDir sid
    NMap.get? d.own.dirWrites sid = some w → w.waits.contains src = true →
    let w := { w with waits := w.waits.erase src, failed := w.failed || status != 0 }
    exec (.dirAck src sid status) s = .next (s.put ((d.updOwn fun o =>
      { o with dirWrites := NMap.put o.dirWrites sid w }).finishDir s.hbm sid))) ∧
  (∀ (s : State) (src sid : Nat),
    s.runs = true → s.dev.oldId sid = false →
    let d := s.dev.heard src svcDir sid
    let none' := d.ownMsg 20 Status.noSpace.code sid 0 0 0 0 0 0 0 0 []
    let found (e : DirEntry) : Bytes := d.ownMsg 20 0 sid e.ownerEpoch e.ownerCtrl 0 e.tier 0 0 0 0 e.bytes
    exec (.dirGet src sid) s = .next (s.put (d.send src svcDir ((NMap.get? d.own.dir sid).elim none' found)))) ∧
  (∀ (s : State) (src sid status epoch owner acting : Nat),
    s.runs = true → s.dev.oldId sid = false →
    let d := s.dev.heard src svcDir sid
    d.own.asked.contains sid = true →
    let e : DirEntry := { sid := sid, ownerEpoch := epoch, ownerCtrl := owner, actingHome := acting }
    exec (.dirReply src sid status epoch owner acting) s = .next (s.put (d.dirKnown sid (if status = 0 then some e else none)))) ∧
  (∀ (s : State) (src sid epoch target : Nat),
    s.runs = true → s.dev.oldId sid = false →
    let d := s.dev.heard src svcOwner sid
    d.slotOf sid = none → d.isHome sid = false → target ≠ d.self →
    exec (.redirect src sid epoch target) s = .next (s.put (d.addForward sid target epoch))) ∧
  (∀ (s : State) (sid : Nat) (f : Nat × Nat × Nat × Nat),
    s.runs = true → s.dev.own.forwards.find? (fun f => f.1 == sid) = some f →
    exec (.forwardingExpiry sid) s = .next (s.put ((s.dev.reach f.2.2.2).updOwn fun o =>
      { o with forwards := o.forwards.filter fun f => f.1 != sid }))) ∧
  (∀ (s : State) (p : Nat × Nat),
    s.runs = true → s.dev.own.previous = some p →
    exec (.drainWindow) s = .next (s.put ((s.dev.reach p.2).updOwn fun o => { o with previous := none }))) ∧
  (∀ (s : State) (h : Hdr) (outAddr outLen : Nat) (img : Bytes) (c c1 : CompMap) (rs : List (Nat × Bytes)) (e1 : Dev),
    s.runs = true → s.dev.ready h true = true → h.fn = 0 →
    let e := s.dev.entered h
    mapOf img (e.g F.TIM_LEASE_DRAIN_MS) = some (c, rs) → (e.own.installed.map fun o => o.epoch == c.epoch && o.image ==
      img).getD false = false → e.installedEpoch < c.epoch → mapOk c rs = true → e.strands c = false → e.mapBusy c rs = false →
      e.mapWindows c = some (c1, e1) →
    let es := e1.mapEntries c1 rs
    32 * es.length ≤ outLen →
    exec (.composeMap h outAddr outLen img) s = .next (s.put ((((e1.installMap s.hbm c1 rs).emit (.host h.fn outAddr
      es.flatten))).answered h 0x0803 .ok (leBytes 4 es.length)))) ∧
  (∀ (s : State) (h : Hdr) (sid addr : Nat) (desc : Bool) (slot : Nat),
    s.runs = true → s.dev.ready h desc = true → s.dev.mayUse h.fn sid false = true →
    let e := s.dev.entered h
    e.slotOf sid = some slot → (e.sess slot).lost = false →
    let x := (e.sess slot).d
    exec (.ownerQuery h sid addr desc) s = .next (s.put (((if desc then e.emit (.host h.fn addr x.bytes) else e)).answered h
      0x0804 .ok (leBytes 4 x.ownerEpoch ++ leBytes 4 x.histLen ++ leBytes 4 x.committed ++ leBytes 2 x.ownerCtrl ++ leBytes 1
      x.state.code ++ leBytes 1 (e.sess slot).coldest.code ++ leBytes 1 x.lease.code))))

/-- How a checkpoint begins (R545, R547 to R550, R558, R559). -/
def Obligations.CheckpointBeginAndPrepare : Prop :=
  (∀ (s : State) (h : Hdr) (req : Bytes) (g : Nat),
    s.runs = true → s.dev.ready h true = true → h.fn = 0 → req.length = 32 → fieldAt req 0 35 29 = 0 → fieldAt req 8 48 16 = 0
      → leAt req 0x10 16 = 0 →
    let e := s.dev.entered h
    e.on F.CKP_CTL_EN = true → e.on F.HMP_CTL_EN = true → e.groupOf (leAt req 0 4) = some g → e.prog g = none → NMap.has e.ckp.fwd g = false → e.isTk g =
      true →
    let b := e.startCkpt g (fieldAt req 0 32 3) (fieldAt req 8 0 48) true h.fn h.eq h.hseq
    exec (.ckptBegin h req) s = .next (s.put ((b.1).answered h 0x0801 .ok (leBytes 8 b.2.manifest)))) ∧
  (∀ (s : State) (h : Hdr) (req : Bytes) (g : Nat),
    s.runs = true → s.dev.ready h true = true → h.fn = 0 → req.length = 32 → fieldAt req 0 35 29 = 0 → fieldAt req 8 48 16 = 0
      → leAt req 0x10 16 = 0 →
    let e := s.dev.entered h
    e.on F.CKP_CTL_EN = true → e.on F.HMP_CTL_EN = true →
    let gid := leAt req 0 4
    e.groupOf gid = some g → e.prog g = none → NMap.has e.ckp.fwd g = false → e.isTk g = false →
    let e := e.send (e.tk g) svcCkpt (ckptMsg 2 0 0 gid 0 0 (fieldAt req 0 32 3) 0 0 req)
    let e : Dev := { e with ckp := { e.ckp with fwd := NMap.put e.ckp.fwd g (h.fn, h.ring, h.eq, h.hseq) } }
    exec (.ckptBegin h req) s = .next (s.put (e.setRing h.fn h.ring
      { e.ring h.fn h.ring with busy := some (h.hseq, 0x0801, true) }))) ∧
  (∀ (s : State) (g : Nat),
    s.runs = true → g < 64 → s.dev.gid g ≠ 0 → s.dev.isTk g = true → s.dev.seen g F.CKP_CFG_PERIOD_S ≠ 0 → s.dev.on F.CKP_CTL_EN =
      true → s.dev.on F.CKP_CTL_AUTO_EN = true → bitOf (s.dev.g F.CKP_TRIG_MASK) 0 = true →
    let till := NMap.getD s.dev.ckp.lastCut g 0 + s.dev.seen g F.CKP_CFG_PERIOD_S * 1000000000
    exec (.ckptPeriod g) s = .next (s.put ((s.dev.reach till).autoCkpt g))) ∧
  (∀ (s : State) (src gid g : Nat),
    s.runs = true → s.dev.groupOf gid = some g → s.dev.isTk g = true → s.dev.on F.CKP_CTL_EN = true → s.dev.on
      F.CKP_CTL_AUTO_EN = true →
    exec (.ckptRequest src gid) s = .next (s.put ((s.dev.autoCkpt g).resolve src svcCkpt .ok))) ∧
  (∀ (s : State) (src gid : Nat) (req : Bytes) (g : Nat),
    s.runs = true → s.dev.groupOf gid = some g → s.dev.isTk g = true → s.dev.on F.CKP_CTL_EN = true → s.dev.prog g = none →
    let b := s.dev.startCkpt g (fieldAt req 0 32 3) (fieldAt req 8 0 48) false 0 0xFFFF 0
    let d := b.1.send src svcCkpt (ckptMsg 3 0 0 gid b.2.manifest b.2.cutRow b.2.flags 0 0 [])
    exec (.beginFwd src gid req) s = .next (s.put (d.resolve src svcCkpt .ok))) ∧
  (∀ (s : State) (src gid status manifest cutRow g fn ring eq hseq : Nat),
    s.runs = true → s.dev.groupOf gid = some g → NMap.get? s.dev.ckp.fwd g = some (fn, ring, eq, hseq) →
    let d : Dev := { s.dev with ckp := { s.dev.ckp with fwd := NMap.del s.dev.ckp.fwd g } }
    let p := (d.prog g).getD { manifest := manifest, cutRow := cutRow }
    let d := if status = 0 ∧ p.manifest = manifest then d.setProg g { p with origin := true, fn := fn, eq := eq, hseq := hseq }
      else d
    let x : Res := if status = 0 then { dev := d, result := leBytes 8 manifest } else { dev := d, st := statusOf status }
    exec (.beginReply src gid status manifest cutRow) s = .next (s.put ((x.answer fn ring).resolve src svcCkpt .ok))) ∧
  (∀ (s : State) (src gid manifest cutRow flags g : Nat),
    s.runs = true → s.dev.groupOf gid = some g → src = s.dev.tk g → s.dev.prog g = none → s.dev.on F.CKP_CTL_EN = true →
    let p : CkpProg :=
      { manifest := manifest, cutRow := cutRow, mx4 := bitOf flags 0, indexes := bitOf flags 1, mirror := bitOf flags 2 }
    let d : Dev := { s.dev with ckp := { s.dev.ckp with lastGen := NMap.put s.dev.ckp.lastGen g (manifest % 2 ^ 32) } }
    exec (.prepare src gid manifest cutRow flags) s = .next (s.put (((d.setProg g p).send src svcCkpt (ckptMsg 5 0 0 gid
      manifest cutRow flags 0 0 [])).resolve src svcCkpt .ok))) ∧
  (∀ (s : State) (src gid manifest cutRow flags g : Nat) (p : CkpProg),
    s.runs = true → s.dev.groupOf gid = some g → src = s.dev.tk g → s.dev.prog g = some p → p.manifest = manifest →
    let row := if p.cutTaken then p.cutRow else cutRow
    let p := { p with cutRow := row, mx4 := bitOf flags 0, indexes := bitOf flags 1, mirror := bitOf flags 2 }
    exec (.prepare src gid manifest cutRow flags) s = .next (s.put (((s.dev.setProg g p).send src svcCkpt (ckptMsg 5 0 0 gid
      manifest cutRow flags 0 0 [])).resolve src svcCkpt .ok))) ∧
  (∀ (s : State) (src gid manifest status g : Nat) (p : CkpProg),
    s.runs = true → s.dev.groupOf gid = some g → s.dev.isTk g = true → s.dev.on F.CKP_CTL_EN = true → s.dev.prog g = some p →
      p.manifest = manifest → p.timekeeper = true → status = 0 →
    let p := { p with prepared := if p.prepared.contains src then p.prepared else p.prepared ++ [src] }
    exec (.prepared src gid manifest status) s = .next (s.put ((s.dev.setProg g p).resolve src svcCkpt .ok))) ∧
  (∀ (s : State) (src gid manifest status g : Nat) (p : CkpProg),
    s.runs = true → s.dev.groupOf gid = some g → s.dev.isTk g = true → s.dev.on F.CKP_CTL_EN = true → s.dev.prog g = some p →
      p.manifest = manifest → p.timekeeper = true → status ≠ 0 →
    exec (.prepared src gid manifest status) s = .next (s.put ((s.dev.failCkpt g 6).resolve src svcCkpt .ok))) ∧
  (∀ (s : State) (g : Nat) (p : CkpProg) (t : Nat),
    s.runs = true → g < 64 → s.dev.prog g = some p → p.barrier = some t →
    exec (.ckptBarrierTimeout g) s = .next (s.put ((s.dev.reach t).failCkpt g 1))) ∧
  (∀ (s : State) (g : Nat) (p : CkpProg) (t : Nat),
    s.runs = true → g < 64 → s.dev.prog g = some p → p.writeBy = some t → p.timekeeper = true → (s.dev.group g).ctrls.all
      (NMap.has p.dones) = false →
    exec (.ckptWriteTimeout g) s = .next (s.put ((s.dev.reach t).failCkpt g 3)))

/-- How shards and manifests are written (R546, R554 to R558). -/
def Obligations.ShardsAndManifests : Prop :=
  (∀ (s : State) (src gid manifest flags length hd : Nat) (d : Dev),
    s.runs = true → (s.dev.ckp.mirrors.any fun x => ckptKey x src manifest flags) = false →
    let die := bits flags 3 1
    s.dev.createObj die 5 manifest 0 (ceilDiv length 16384) = some (hd, d) →
    let x : CkpMirror :=
      { manifest := manifest, sender := src, die := die, isManifest := bitOf flags 4, handle := hd, length := length }
    let d : Dev := { d with ckp := { d.ckp with mirrors := d.ckp.mirrors ++ [x] } }
    exec (.shardOpen src gid manifest flags length) s = .next (s.put ((d.ckptAck src gid manifest flags .ok).resolve src
      svcCkpt .ok))) ∧
  (∀ (s : State) (src manifest flags offset : Nat) (data : Bytes) (x : CkpMirror),
    s.runs = true → s.dev.ckp.mirrors.find? (fun x => ckptKey x src manifest flags) = some x → offset + data.length ≤ x.length
      → x.sealed = false →
    let d := s.dev.writeObj x.handle offset data
    let merged (x : CkpMirror) : Bytes := padTo offset x.data ++ data ++ x.data.drop (offset + data.length)
    let d := d.updCkptMirror src manifest flags fun x => { x with data := merged x }
    exec (.shardData src manifest flags offset data) s = .next (s.put (d.resolve src svcCkpt .ok))) ∧
  (∀ (s : State) (src gid manifest flags : Nat) (digest : Bytes) (x : CkpMirror),
    s.runs = true → s.dev.ckp.mirrors.find? (fun x => ckptKey x src manifest flags) = some x → x.data.length = x.length →
    let agrees := padTo 48 (Config.sha384 x.data) = digest
    let good := (s.dev.updCkptMirror src manifest flags fun x => { x with sealed := true }).ackCkptSeals
    let bad := s.dev.ckptAck src gid manifest flags .digestFail
    exec (.shardSeal src gid manifest flags digest) s = .next (s.put ((if agrees then good else bad).resolve src svcCkpt .ok))) ∧
  (∀ (s : State) (src gid manifest flags status g : Nat),
    s.runs = true → s.dev.groupOf gid = some g → (status = 0 ∨ status = Status.dup.code) → bitOf flags 4 = false →
    let d := s.dev.resolve src svcCkpt .ok
    let mine (k : Shard) : Bool := k.manifest == manifest && k.ctrl == d.self && k.die == bits flags 3 1 && k.wantMirror
    let one (k : Shard) : Shard := if mine k then (if k.opened then { k with mirrored := true } else { k with opened := true })
      else k
    exec (.ckptAck src gid manifest flags status) s = .next (s.put
      ({ d with ckp := { d.ckp with shards := d.ckp.shards.map one } }))) ∧
  (∀ (s : State) (src gid manifest flags status g : Nat) (p : CkpProg),
    s.runs = true → s.dev.groupOf gid = some g → (status = 0 ∨ status = Status.dup.code) → bitOf flags 4 = true →
    let d := s.dev.resolve src svcCkpt .ok
    d.prog g = some p → p.manifest = manifest → p.manifestWritten = true →
    exec (.ckptAck src gid manifest flags status) s = .next (s.put (d.setProg g (if p.manifestOpened then
      { p with manifestMirrored := true } else { p with manifestOpened := true })))) ∧
  (∀ (s : State) (g : Nat) (p : CkpProg),
    s.runs = true → g < 64 → s.dev.prog g = some p →
    let mine (k : Shard) : Bool := k.manifest == p.manifest && k.ctrl == s.dev.self
    p.cutTaken = true → p.sentDone = false → (s.dev.ckp.shards.filter mine).all (fun k => s.dev.objDurable k.handle &&
      (!k.wantMirror || k.mirrored)) = true →
    let done (c : Capture) : Capture := { c with todo := [], histDone := true, indexTodo := false }
    let shards := s.dev.ckp.shards.map fun k => if mine k then { k with durable := true, caps := k.caps.map done } else k
    let d := ({ s.dev with ckp := { s.dev.ckp with shards := shards } } : Dev).setProg g { p with sentDone := true }
    let xs := (s.dev.ckp.shards.filter mine).map (·.info)
    let msg := ckptMsg 10 0 0 (d.gid g) p.manifest p.cutRow p.flags 0 0 (xs.flatMap ShardInfo.bytes)
    exec (.shardDurable g) s = .next (s.put (if d.isTk g then d.takeDone g d.self xs else d.send (d.tk g) svcCkpt msg))) ∧
  (∀ (s : State) (src gid manifest : Nat) (entries : Bytes) (g : Nat) (p : CkpProg),
    s.runs = true → s.dev.groupOf gid = some g → s.dev.isTk g = true → s.dev.on F.CKP_CTL_EN = true → s.dev.prog g = some p →
      p.manifest = manifest → (s.dev.group g).ctrls.contains src = true →
    let xs := [ShardInfo.ofBytes (slice entries 0 80), ShardInfo.ofBytes (slice entries 80 80)]
    exec (.shardDone src gid manifest entries) s = .next (s.put ((s.dev.takeDone g src xs).resolve src svcCkpt .ok))) ∧
  (∀ (s : State) (g : Nat) (p : CkpProg) (x : Manifest),
    s.runs = true → g < 64 → s.dev.prog g = some p → p.pending = some x → s.dev.objDurable p.manifestHandle = true →
      (s.dev.deputy g = s.dev.self ∨ s.dev.deputy g = 0 ∨ p.manifestMirrored = true) →
    let valid := NMap.put s.dev.ckp.valid g (x :: NMap.getD s.dev.ckp.valid g [])
    let d : Dev := { s.dev with ckp := { s.dev.ckp with valid := valid, lastCut := NMap.put s.dev.ckp.lastCut g p.cutMono } }
    let d := (d.ckptAll g 11 0 0 p.manifest p.cutRow p.flags).commitGen g p.manifest p.cutRow
    exec (.manifestDurable g) s = .next (s.put ((d.endProg g).postCkpt p .ok 0 (x.total (·.size)) (x.total (·.sessions))))) ∧
  (∀ (s : State) (src gid manifest cutRow g : Nat),
    s.runs = true → s.dev.groupOf gid = some g → src = s.dev.tk g →
    let d := s.dev.commitGen g manifest cutRow
    (d.prog g).any (fun p => p.manifest == manifest) = false →
    exec (.commitGen src gid manifest cutRow) s = .next (s.put (d.resolve src svcCkpt .ok))) ∧
  (∀ (s : State) (src gid manifest cutRow g : Nat) (p : CkpProg),
    s.runs = true → s.dev.groupOf gid = some g → src = s.dev.tk g →
    let d := s.dev.commitGen g manifest cutRow
    d.prog g = some p → p.manifest = manifest →
    let a := Config.freeNat d.free % 2 ^ 64
    let b := Config.freeNat (d.free + 1) % 2 ^ 64
    let d : Dev := { d with free := d.free + 2 }
    exec (.commitGen src gid manifest cutRow) s = .next (s.put (((d.endProg g).postCkpt p .ok 0 a b).resolve src svcCkpt .ok))) ∧
  (∀ (s : State) (src gid manifest cause g : Nat),
    s.runs = true → s.dev.groupOf gid = some g → src = s.dev.tk g →
    let hit := (s.dev.prog g).any fun p => p.manifest == manifest
    let d := if hit then s.dev.dropProg g (ckptStatus cause) cause else s.dev.dropShards g manifest
    exec (.ckptAbort src gid manifest cause) s = .next (s.put (d.resolve src svcCkpt .ok))) ∧
  (∀ (s : State) (src manifest : Nat),
    s.runs = true →
    let mine (x : CkpMirror) : Bool := x.sender == src && x.manifest == manifest
    let d := (s.dev.ckp.mirrors.filter mine).foldl (fun (d : Dev) x => d.askRelease x.handle) s.dev
    let left := d.ckp.mirrors.filter fun x => !mine x
    exec (.shardRelease src manifest) s = .next (s.put (({ d with ckp := { d.ckp with mirrors := left } } : Dev).resolve src
      svcCkpt .ok)))

/-- CKPT_RESTORE completes (R560 to R563). What the group's other controllers find and lose is the row's operand (a choice of
the model). -/
def Obligations.CheckpointRestoreCompletes : Prop :=
  ∀ (s : State) (h : Hdr) (req : Bytes) (outAddr outLen gen : Nat) (busy : Bool) (bad fails : List (Nat × Nat)) (mirrors : List
    Nat) (others lostOthers : Nat) (x : Manifest) (place g : Nat),
    s.runs = true → s.dev.ready h true = true → h.fn = 0 → req.length = 16 → leAt req 4 4 = 0 →
    let e := s.dev.entered h
    e.on F.CKP_CTL_EN = true → e.on F.HMP_CTL_EN = true →
    let gid := leAt req 0 4
    e.pickGen (e.manifests gid) (leAt req 8 8) gen bad mirrors = some (x, place) → x.digestOk = true → e.groupOf gid = some g →
      (e.phase g = 0 ∨ e.phase g = 4) → (e.ses.tab.any fun a => a.2.d.group == g && a.2.d.state != .free) = false → busy =
      false → e.headerFaults x place bad mirrors = [] →
    let agrees (k : ShardInfo) (b : Bytes) : Bool := padTo 48 (Config.sha384 (b.drop 16384)) == k.digest
    let sound (k : ShardInfo) : Bool := if e.loadsHere k then ((e.shardHere x k).map (agrees k)).getD true else (reportOf fails
      place k).isNone
    x.shards.all sound = true →
    let saved := e.savedHere x
    (saved.any fun a => e.isHome a.desc.sid && NMap.has e.ses.tab (sidSlot a.desc.sid)) = false →
    let live := (e.readShards x true).liveAgain g x saved
    let st : Status := if live.2 + lostOthers = 0 then .ok else .partialDone
    exec (.ckptRestore h req outAddr outLen gen busy bad fails mirrors others lostOthers) s = .next (s.put (live.1.answered h
      0x0802 st (leBytes 4 (saved.length + others))))
end

