-- ==== Sys2Proof/Laws/State.lean ====
section
/-! SUPPORT. Laws of the small updates: what each leaves of the other fields, one lemma per field and update, by rfl. -/
namespace Sys2Proof.Machine
open Sys2Proof

variable (s : State) (d : Dev)

/-- The block after a step's effect: no HBM write is left over. -/
@[simp] theorem State.put_dev (e : Dev) : (s.put e).dev = { e with wr := [] } := rfl
/-- The HBM after a step's effect. -/
@[simp] theorem State.put_hbm (e : Dev) : (s.put e).hbm = Memory.apply s.hbm e.wr := rfl
/-- The queue after a step's effect. -/
@[simp] theorem State.put_pending (e : Dev) : (s.put e).pending = s.pending := rfl

/-! `sf` -/

@[simp] theorem Dev.sf_pendS (f : Fld) (fn i v : Nat) : (d.sf f fn i v).pendS = d.pendS := rfl
@[simp] theorem Dev.sf_ses (f : Fld) (fn i v : Nat) : (d.sf f fn i v).ses = d.ses := rfl
@[simp] theorem Dev.sf_groups (f : Fld) (fn i v : Nat) : (d.sf f fn i v).groups = d.groups := rfl
@[simp] theorem Dev.sf_pgs (f : Fld) (fn i v : Nat) : (d.sf f fn i v).pgs = d.pgs := rfl
@[simp] theorem Dev.sf_att (f : Fld) (fn i v : Nat) : (d.sf f fn i v).att = d.att := rfl
@[simp] theorem Dev.sf_tok (f : Fld) (fn i v : Nat) : (d.sf f fn i v).tok = d.tok := rfl
@[simp] theorem Dev.sf_prk (f : Fld) (fn i v : Nat) : (d.sf f fn i v).prk = d.prk := rfl
@[simp] theorem Dev.sf_halves (f : Fld) (fn i v : Nat) : (d.sf f fn i v).halves = d.halves := rfl
@[simp] theorem Dev.sf_hall (f : Fld) (fn i v : Nat) : (d.sf f fn i v).hall = d.hall := rfl
@[simp] theorem Dev.sf_own (f : Fld) (fn i v : Nat) : (d.sf f fn i v).own = d.own := rfl
@[simp] theorem Dev.sf_sft (f : Fld) (fn i v : Nat) : (d.sf f fn i v).sft = d.sft := rfl
@[simp] theorem Dev.sf_iso (f : Fld) (fn i v : Nat) : (d.sf f fn i v).iso = d.iso := rfl
@[simp] theorem Dev.sf_sec (f : Fld) (fn i v : Nat) : (d.sf f fn i v).sec = d.sec := rfl
@[simp] theorem Dev.sf_cmd (f : Fld) (fn i v : Nat) : (d.sf f fn i v).cmd = d.cmd := rfl
@[simp] theorem Dev.sf_ckp (f : Fld) (fn i v : Nat) : (d.sf f fn i v).ckp = d.ckp := rfl
@[simp] theorem Dev.sf_flt (f : Fld) (fn i v : Nat) : (d.sf f fn i v).flt = d.flt := rfl
@[simp] theorem Dev.sf_rst (f : Fld) (fn i v : Nat) : (d.sf f fn i v).rst = d.rst := rfl
@[simp] theorem Dev.sf_pwr (f : Fld) (fn i v : Nat) : (d.sf f fn i v).pwr = d.pwr := rfl
@[simp] theorem Dev.sf_sync (f : Fld) (fn i v : Nat) : (d.sf f fn i v).sync = d.sync := rfl
@[simp] theorem Dev.sf_out (f : Fld) (fn i v : Nat) : (d.sf f fn i v).out = d.out := rfl
@[simp] theorem Dev.sf_free (f : Fld) (fn i v : Nat) : (d.sf f fn i v).free = d.free := rfl
@[simp] theorem Dev.sf_wr (f : Fld) (fn i v : Nat) : (d.sf f fn i v).wr = d.wr := rfl
@[simp] theorem Dev.sf_stopped (f : Fld) (fn i v : Nat) : (d.sf f fn i v).stopped = d.stopped := rfl

/-! `si` -/

@[simp] theorem Dev.si_pendS (f : Fld) (i v : Nat) : (d.si f i v).pendS = d.pendS := rfl
@[simp] theorem Dev.si_ses (f : Fld) (i v : Nat) : (d.si f i v).ses = d.ses := rfl
@[simp] theorem Dev.si_groups (f : Fld) (i v : Nat) : (d.si f i v).groups = d.groups := rfl
@[simp] theorem Dev.si_pgs (f : Fld) (i v : Nat) : (d.si f i v).pgs = d.pgs := rfl
@[simp] theorem Dev.si_att (f : Fld) (i v : Nat) : (d.si f i v).att = d.att := rfl
@[simp] theorem Dev.si_tok (f : Fld) (i v : Nat) : (d.si f i v).tok = d.tok := rfl
@[simp] theorem Dev.si_prk (f : Fld) (i v : Nat) : (d.si f i v).prk = d.prk := rfl
@[simp] theorem Dev.si_halves (f : Fld) (i v : Nat) : (d.si f i v).halves = d.halves := rfl
@[simp] theorem Dev.si_hall (f : Fld) (i v : Nat) : (d.si f i v).hall = d.hall := rfl
@[simp] theorem Dev.si_own (f : Fld) (i v : Nat) : (d.si f i v).own = d.own := rfl
@[simp] theorem Dev.si_sft (f : Fld) (i v : Nat) : (d.si f i v).sft = d.sft := rfl
@[simp] theorem Dev.si_iso (f : Fld) (i v : Nat) : (d.si f i v).iso = d.iso := rfl
@[simp] theorem Dev.si_sec (f : Fld) (i v : Nat) : (d.si f i v).sec = d.sec := rfl
@[simp] theorem Dev.si_cmd (f : Fld) (i v : Nat) : (d.si f i v).cmd = d.cmd := rfl
@[simp] theorem Dev.si_ckp (f : Fld) (i v : Nat) : (d.si f i v).ckp = d.ckp := rfl
@[simp] theorem Dev.si_flt (f : Fld) (i v : Nat) : (d.si f i v).flt = d.flt := rfl
@[simp] theorem Dev.si_rst (f : Fld) (i v : Nat) : (d.si f i v).rst = d.rst := rfl
@[simp] theorem Dev.si_pwr (f : Fld) (i v : Nat) : (d.si f i v).pwr = d.pwr := rfl
@[simp] theorem Dev.si_sync (f : Fld) (i v : Nat) : (d.si f i v).sync = d.sync := rfl
@[simp] theorem Dev.si_out (f : Fld) (i v : Nat) : (d.si f i v).out = d.out := rfl
@[simp] theorem Dev.si_free (f : Fld) (i v : Nat) : (d.si f i v).free = d.free := rfl
@[simp] theorem Dev.si_wr (f : Fld) (i v : Nat) : (d.si f i v).wr = d.wr := rfl
@[simp] theorem Dev.si_stopped (f : Fld) (i v : Nat) : (d.si f i v).stopped = d.stopped := rfl

/-! `s` -/

@[simp] theorem Dev.s_pendS (f : Fld) (v : Nat) : (d.s f v).pendS = d.pendS := rfl
@[simp] theorem Dev.s_ses (f : Fld) (v : Nat) : (d.s f v).ses = d.ses := rfl
@[simp] theorem Dev.s_groups (f : Fld) (v : Nat) : (d.s f v).groups = d.groups := rfl
@[simp] theorem Dev.s_pgs (f : Fld) (v : Nat) : (d.s f v).pgs = d.pgs := rfl
@[simp] theorem Dev.s_att (f : Fld) (v : Nat) : (d.s f v).att = d.att := rfl
@[simp] theorem Dev.s_tok (f : Fld) (v : Nat) : (d.s f v).tok = d.tok := rfl
@[simp] theorem Dev.s_prk (f : Fld) (v : Nat) : (d.s f v).prk = d.prk := rfl
@[simp] theorem Dev.s_halves (f : Fld) (v : Nat) : (d.s f v).halves = d.halves := rfl
@[simp] theorem Dev.s_hall (f : Fld) (v : Nat) : (d.s f v).hall = d.hall := rfl
@[simp] theorem Dev.s_own (f : Fld) (v : Nat) : (d.s f v).own = d.own := rfl
@[simp] theorem Dev.s_sft (f : Fld) (v : Nat) : (d.s f v).sft = d.sft := rfl
@[simp] theorem Dev.s_iso (f : Fld) (v : Nat) : (d.s f v).iso = d.iso := rfl
@[simp] theorem Dev.s_sec (f : Fld) (v : Nat) : (d.s f v).sec = d.sec := rfl
@[simp] theorem Dev.s_cmd (f : Fld) (v : Nat) : (d.s f v).cmd = d.cmd := rfl
@[simp] theorem Dev.s_ckp (f : Fld) (v : Nat) : (d.s f v).ckp = d.ckp := rfl
@[simp] theorem Dev.s_flt (f : Fld) (v : Nat) : (d.s f v).flt = d.flt := rfl
@[simp] theorem Dev.s_rst (f : Fld) (v : Nat) : (d.s f v).rst = d.rst := rfl
@[simp] theorem Dev.s_pwr (f : Fld) (v : Nat) : (d.s f v).pwr = d.pwr := rfl
@[simp] theorem Dev.s_sync (f : Fld) (v : Nat) : (d.s f v).sync = d.sync := rfl
@[simp] theorem Dev.s_out (f : Fld) (v : Nat) : (d.s f v).out = d.out := rfl
@[simp] theorem Dev.s_free (f : Fld) (v : Nat) : (d.s f v).free = d.free := rfl
@[simp] theorem Dev.s_wr (f : Fld) (v : Nat) : (d.s f v).wr = d.wr := rfl
@[simp] theorem Dev.s_stopped (f : Fld) (v : Nat) : (d.s f v).stopped = d.stopped := rfl

/-! `clr` -/

@[simp] theorem Dev.clr_pendS (f : Fld) (fn i : Nat) : (d.clr f fn i).pendS = d.pendS := rfl
@[simp] theorem Dev.clr_ses (f : Fld) (fn i : Nat) : (d.clr f fn i).ses = d.ses := rfl
@[simp] theorem Dev.clr_groups (f : Fld) (fn i : Nat) : (d.clr f fn i).groups = d.groups := rfl
@[simp] theorem Dev.clr_pgs (f : Fld) (fn i : Nat) : (d.clr f fn i).pgs = d.pgs := rfl
@[simp] theorem Dev.clr_att (f : Fld) (fn i : Nat) : (d.clr f fn i).att = d.att := rfl
@[simp] theorem Dev.clr_tok (f : Fld) (fn i : Nat) : (d.clr f fn i).tok = d.tok := rfl
@[simp] theorem Dev.clr_prk (f : Fld) (fn i : Nat) : (d.clr f fn i).prk = d.prk := rfl
@[simp] theorem Dev.clr_halves (f : Fld) (fn i : Nat) : (d.clr f fn i).halves = d.halves := rfl
@[simp] theorem Dev.clr_hall (f : Fld) (fn i : Nat) : (d.clr f fn i).hall = d.hall := rfl
@[simp] theorem Dev.clr_own (f : Fld) (fn i : Nat) : (d.clr f fn i).own = d.own := rfl
@[simp] theorem Dev.clr_sft (f : Fld) (fn i : Nat) : (d.clr f fn i).sft = d.sft := rfl
@[simp] theorem Dev.clr_iso (f : Fld) (fn i : Nat) : (d.clr f fn i).iso = d.iso := rfl
@[simp] theorem Dev.clr_sec (f : Fld) (fn i : Nat) : (d.clr f fn i).sec = d.sec := rfl
@[simp] theorem Dev.clr_cmd (f : Fld) (fn i : Nat) : (d.clr f fn i).cmd = d.cmd := rfl
@[simp] theorem Dev.clr_ckp (f : Fld) (fn i : Nat) : (d.clr f fn i).ckp = d.ckp := rfl
@[simp] theorem Dev.clr_flt (f : Fld) (fn i : Nat) : (d.clr f fn i).flt = d.flt := rfl
@[simp] theorem Dev.clr_rst (f : Fld) (fn i : Nat) : (d.clr f fn i).rst = d.rst := rfl
@[simp] theorem Dev.clr_pwr (f : Fld) (fn i : Nat) : (d.clr f fn i).pwr = d.pwr := rfl
@[simp] theorem Dev.clr_sync (f : Fld) (fn i : Nat) : (d.clr f fn i).sync = d.sync := rfl
@[simp] theorem Dev.clr_out (f : Fld) (fn i : Nat) : (d.clr f fn i).out = d.out := rfl
@[simp] theorem Dev.clr_free (f : Fld) (fn i : Nat) : (d.clr f fn i).free = d.free := rfl
@[simp] theorem Dev.clr_wr (f : Fld) (fn i : Nat) : (d.clr f fn i).wr = d.wr := rfl
@[simp] theorem Dev.clr_stopped (f : Fld) (fn i : Nat) : (d.clr f fn i).stopped = d.stopped := rfl

/-! `sati` -/

@[simp] theorem Dev.sati_pendS (f : Fld) (i n : Nat) : (d.sati f i n).pendS = d.pendS := rfl
@[simp] theorem Dev.sati_ses (f : Fld) (i n : Nat) : (d.sati f i n).ses = d.ses := rfl
@[simp] theorem Dev.sati_groups (f : Fld) (i n : Nat) : (d.sati f i n).groups = d.groups := rfl
@[simp] theorem Dev.sati_pgs (f : Fld) (i n : Nat) : (d.sati f i n).pgs = d.pgs := rfl
@[simp] theorem Dev.sati_att (f : Fld) (i n : Nat) : (d.sati f i n).att = d.att := rfl
@[simp] theorem Dev.sati_tok (f : Fld) (i n : Nat) : (d.sati f i n).tok = d.tok := rfl
@[simp] theorem Dev.sati_prk (f : Fld) (i n : Nat) : (d.sati f i n).prk = d.prk := rfl
@[simp] theorem Dev.sati_halves (f : Fld) (i n : Nat) : (d.sati f i n).halves = d.halves := rfl
@[simp] theorem Dev.sati_hall (f : Fld) (i n : Nat) : (d.sati f i n).hall = d.hall := rfl
@[simp] theorem Dev.sati_own (f : Fld) (i n : Nat) : (d.sati f i n).own = d.own := rfl
@[simp] theorem Dev.sati_sft (f : Fld) (i n : Nat) : (d.sati f i n).sft = d.sft := rfl
@[simp] theorem Dev.sati_iso (f : Fld) (i n : Nat) : (d.sati f i n).iso = d.iso := rfl
@[simp] theorem Dev.sati_sec (f : Fld) (i n : Nat) : (d.sati f i n).sec = d.sec := rfl
@[simp] theorem Dev.sati_cmd (f : Fld) (i n : Nat) : (d.sati f i n).cmd = d.cmd := rfl
@[simp] theorem Dev.sati_ckp (f : Fld) (i n : Nat) : (d.sati f i n).ckp = d.ckp := rfl
@[simp] theorem Dev.sati_flt (f : Fld) (i n : Nat) : (d.sati f i n).flt = d.flt := rfl
@[simp] theorem Dev.sati_rst (f : Fld) (i n : Nat) : (d.sati f i n).rst = d.rst := rfl
@[simp] theorem Dev.sati_pwr (f : Fld) (i n : Nat) : (d.sati f i n).pwr = d.pwr := rfl
@[simp] theorem Dev.sati_sync (f : Fld) (i n : Nat) : (d.sati f i n).sync = d.sync := rfl
@[simp] theorem Dev.sati_out (f : Fld) (i n : Nat) : (d.sati f i n).out = d.out := rfl
@[simp] theorem Dev.sati_free (f : Fld) (i n : Nat) : (d.sati f i n).free = d.free := rfl
@[simp] theorem Dev.sati_wr (f : Fld) (i n : Nat) : (d.sati f i n).wr = d.wr := rfl
@[simp] theorem Dev.sati_stopped (f : Fld) (i n : Nat) : (d.sati f i n).stopped = d.stopped := rfl

/-! `sat` -/

@[simp] theorem Dev.sat_pendS (f : Fld) (n : Nat) : (d.sat f n).pendS = d.pendS := rfl
@[simp] theorem Dev.sat_ses (f : Fld) (n : Nat) : (d.sat f n).ses = d.ses := rfl
@[simp] theorem Dev.sat_groups (f : Fld) (n : Nat) : (d.sat f n).groups = d.groups := rfl
@[simp] theorem Dev.sat_pgs (f : Fld) (n : Nat) : (d.sat f n).pgs = d.pgs := rfl
@[simp] theorem Dev.sat_att (f : Fld) (n : Nat) : (d.sat f n).att = d.att := rfl
@[simp] theorem Dev.sat_tok (f : Fld) (n : Nat) : (d.sat f n).tok = d.tok := rfl
@[simp] theorem Dev.sat_prk (f : Fld) (n : Nat) : (d.sat f n).prk = d.prk := rfl
@[simp] theorem Dev.sat_halves (f : Fld) (n : Nat) : (d.sat f n).halves = d.halves := rfl
@[simp] theorem Dev.sat_hall (f : Fld) (n : Nat) : (d.sat f n).hall = d.hall := rfl
@[simp] theorem Dev.sat_own (f : Fld) (n : Nat) : (d.sat f n).own = d.own := rfl
@[simp] theorem Dev.sat_sft (f : Fld) (n : Nat) : (d.sat f n).sft = d.sft := rfl
@[simp] theorem Dev.sat_iso (f : Fld) (n : Nat) : (d.sat f n).iso = d.iso := rfl
@[simp] theorem Dev.sat_sec (f : Fld) (n : Nat) : (d.sat f n).sec = d.sec := rfl
@[simp] theorem Dev.sat_cmd (f : Fld) (n : Nat) : (d.sat f n).cmd = d.cmd := rfl
@[simp] theorem Dev.sat_ckp (f : Fld) (n : Nat) : (d.sat f n).ckp = d.ckp := rfl
@[simp] theorem Dev.sat_flt (f : Fld) (n : Nat) : (d.sat f n).flt = d.flt := rfl
@[simp] theorem Dev.sat_rst (f : Fld) (n : Nat) : (d.sat f n).rst = d.rst := rfl
@[simp] theorem Dev.sat_pwr (f : Fld) (n : Nat) : (d.sat f n).pwr = d.pwr := rfl
@[simp] theorem Dev.sat_sync (f : Fld) (n : Nat) : (d.sat f n).sync = d.sync := rfl
@[simp] theorem Dev.sat_out (f : Fld) (n : Nat) : (d.sat f n).out = d.out := rfl
@[simp] theorem Dev.sat_free (f : Fld) (n : Nat) : (d.sat f n).free = d.free := rfl
@[simp] theorem Dev.sat_wr (f : Fld) (n : Nat) : (d.sat f n).wr = d.wr := rfl
@[simp] theorem Dev.sat_stopped (f : Fld) (n : Nat) : (d.sat f n).stopped = d.stopped := rfl

/-! `wrap` -/

@[simp] theorem Dev.wrap_pendS (f : Fld) (n : Nat) : (d.wrap f n).pendS = d.pendS := rfl
@[simp] theorem Dev.wrap_ses (f : Fld) (n : Nat) : (d.wrap f n).ses = d.ses := rfl
@[simp] theorem Dev.wrap_groups (f : Fld) (n : Nat) : (d.wrap f n).groups = d.groups := rfl
@[simp] theorem Dev.wrap_pgs (f : Fld) (n : Nat) : (d.wrap f n).pgs = d.pgs := rfl
@[simp] theorem Dev.wrap_att (f : Fld) (n : Nat) : (d.wrap f n).att = d.att := rfl
@[simp] theorem Dev.wrap_tok (f : Fld) (n : Nat) : (d.wrap f n).tok = d.tok := rfl
@[simp] theorem Dev.wrap_prk (f : Fld) (n : Nat) : (d.wrap f n).prk = d.prk := rfl
@[simp] theorem Dev.wrap_halves (f : Fld) (n : Nat) : (d.wrap f n).halves = d.halves := rfl
@[simp] theorem Dev.wrap_hall (f : Fld) (n : Nat) : (d.wrap f n).hall = d.hall := rfl
@[simp] theorem Dev.wrap_own (f : Fld) (n : Nat) : (d.wrap f n).own = d.own := rfl
@[simp] theorem Dev.wrap_sft (f : Fld) (n : Nat) : (d.wrap f n).sft = d.sft := rfl
@[simp] theorem Dev.wrap_iso (f : Fld) (n : Nat) : (d.wrap f n).iso = d.iso := rfl
@[simp] theorem Dev.wrap_sec (f : Fld) (n : Nat) : (d.wrap f n).sec = d.sec := rfl
@[simp] theorem Dev.wrap_cmd (f : Fld) (n : Nat) : (d.wrap f n).cmd = d.cmd := rfl
@[simp] theorem Dev.wrap_ckp (f : Fld) (n : Nat) : (d.wrap f n).ckp = d.ckp := rfl
@[simp] theorem Dev.wrap_flt (f : Fld) (n : Nat) : (d.wrap f n).flt = d.flt := rfl
@[simp] theorem Dev.wrap_rst (f : Fld) (n : Nat) : (d.wrap f n).rst = d.rst := rfl
@[simp] theorem Dev.wrap_pwr (f : Fld) (n : Nat) : (d.wrap f n).pwr = d.pwr := rfl
@[simp] theorem Dev.wrap_sync (f : Fld) (n : Nat) : (d.wrap f n).sync = d.sync := rfl
@[simp] theorem Dev.wrap_out (f : Fld) (n : Nat) : (d.wrap f n).out = d.out := rfl
@[simp] theorem Dev.wrap_free (f : Fld) (n : Nat) : (d.wrap f n).free = d.free := rfl
@[simp] theorem Dev.wrap_wr (f : Fld) (n : Nat) : (d.wrap f n).wr = d.wr := rfl
@[simp] theorem Dev.wrap_stopped (f : Fld) (n : Nat) : (d.wrap f n).stopped = d.stopped := rfl

/-! `satf` -/

@[simp] theorem Dev.satf_pendS (f : Fld) (fn i n : Nat) : (d.satf f fn i n).pendS = d.pendS := rfl
@[simp] theorem Dev.satf_ses (f : Fld) (fn i n : Nat) : (d.satf f fn i n).ses = d.ses := rfl
@[simp] theorem Dev.satf_groups (f : Fld) (fn i n : Nat) : (d.satf f fn i n).groups = d.groups := rfl
@[simp] theorem Dev.satf_pgs (f : Fld) (fn i n : Nat) : (d.satf f fn i n).pgs = d.pgs := rfl
@[simp] theorem Dev.satf_att (f : Fld) (fn i n : Nat) : (d.satf f fn i n).att = d.att := rfl
@[simp] theorem Dev.satf_tok (f : Fld) (fn i n : Nat) : (d.satf f fn i n).tok = d.tok := rfl
@[simp] theorem Dev.satf_prk (f : Fld) (fn i n : Nat) : (d.satf f fn i n).prk = d.prk := rfl
@[simp] theorem Dev.satf_halves (f : Fld) (fn i n : Nat) : (d.satf f fn i n).halves = d.halves := rfl
@[simp] theorem Dev.satf_hall (f : Fld) (fn i n : Nat) : (d.satf f fn i n).hall = d.hall := rfl
@[simp] theorem Dev.satf_own (f : Fld) (fn i n : Nat) : (d.satf f fn i n).own = d.own := rfl
@[simp] theorem Dev.satf_sft (f : Fld) (fn i n : Nat) : (d.satf f fn i n).sft = d.sft := rfl
@[simp] theorem Dev.satf_iso (f : Fld) (fn i n : Nat) : (d.satf f fn i n).iso = d.iso := rfl
@[simp] theorem Dev.satf_sec (f : Fld) (fn i n : Nat) : (d.satf f fn i n).sec = d.sec := rfl
@[simp] theorem Dev.satf_cmd (f : Fld) (fn i n : Nat) : (d.satf f fn i n).cmd = d.cmd := rfl
@[simp] theorem Dev.satf_ckp (f : Fld) (fn i n : Nat) : (d.satf f fn i n).ckp = d.ckp := rfl
@[simp] theorem Dev.satf_flt (f : Fld) (fn i n : Nat) : (d.satf f fn i n).flt = d.flt := rfl
@[simp] theorem Dev.satf_rst (f : Fld) (fn i n : Nat) : (d.satf f fn i n).rst = d.rst := rfl
@[simp] theorem Dev.satf_pwr (f : Fld) (fn i n : Nat) : (d.satf f fn i n).pwr = d.pwr := rfl
@[simp] theorem Dev.satf_sync (f : Fld) (fn i n : Nat) : (d.satf f fn i n).sync = d.sync := rfl
@[simp] theorem Dev.satf_out (f : Fld) (fn i n : Nat) : (d.satf f fn i n).out = d.out := rfl
@[simp] theorem Dev.satf_free (f : Fld) (fn i n : Nat) : (d.satf f fn i n).free = d.free := rfl
@[simp] theorem Dev.satf_wr (f : Fld) (fn i n : Nat) : (d.satf f fn i n).wr = d.wr := rfl
@[simp] theorem Dev.satf_stopped (f : Fld) (fn i n : Nat) : (d.satf f fn i n).stopped = d.stopped := rfl

/-! `reach` -/

@[simp] theorem Dev.reach_pendS (t : Nat) : (d.reach t).pendS = d.pendS := rfl
@[simp] theorem Dev.reach_ses (t : Nat) : (d.reach t).ses = d.ses := rfl
@[simp] theorem Dev.reach_groups (t : Nat) : (d.reach t).groups = d.groups := rfl
@[simp] theorem Dev.reach_pgs (t : Nat) : (d.reach t).pgs = d.pgs := rfl
@[simp] theorem Dev.reach_att (t : Nat) : (d.reach t).att = d.att := rfl
@[simp] theorem Dev.reach_tok (t : Nat) : (d.reach t).tok = d.tok := rfl
@[simp] theorem Dev.reach_prk (t : Nat) : (d.reach t).prk = d.prk := rfl
@[simp] theorem Dev.reach_halves (t : Nat) : (d.reach t).halves = d.halves := rfl
@[simp] theorem Dev.reach_hall (t : Nat) : (d.reach t).hall = d.hall := rfl
@[simp] theorem Dev.reach_own (t : Nat) : (d.reach t).own = d.own := rfl
@[simp] theorem Dev.reach_sft (t : Nat) : (d.reach t).sft = d.sft := rfl
@[simp] theorem Dev.reach_iso (t : Nat) : (d.reach t).iso = d.iso := rfl
@[simp] theorem Dev.reach_sec (t : Nat) : (d.reach t).sec = d.sec := rfl
@[simp] theorem Dev.reach_cmd (t : Nat) : (d.reach t).cmd = d.cmd := rfl
@[simp] theorem Dev.reach_ckp (t : Nat) : (d.reach t).ckp = d.ckp := rfl
@[simp] theorem Dev.reach_flt (t : Nat) : (d.reach t).flt = d.flt := rfl
@[simp] theorem Dev.reach_rst (t : Nat) : (d.reach t).rst = d.rst := rfl
@[simp] theorem Dev.reach_pwr (t : Nat) : (d.reach t).pwr = d.pwr := rfl
@[simp] theorem Dev.reach_sync (t : Nat) : (d.reach t).sync = d.sync := rfl
@[simp] theorem Dev.reach_out (t : Nat) : (d.reach t).out = d.out := rfl
@[simp] theorem Dev.reach_free (t : Nat) : (d.reach t).free = d.free := rfl
@[simp] theorem Dev.reach_wr (t : Nat) : (d.reach t).wr = d.wr := rfl
@[simp] theorem Dev.reach_stopped (t : Nat) : (d.reach t).stopped = d.stopped := rfl

/-! `tick` -/

@[simp] theorem Dev.tick_pendS : (d.tick).pendS = d.pendS := rfl
@[simp] theorem Dev.tick_ses : (d.tick).ses = d.ses := rfl
@[simp] theorem Dev.tick_groups : (d.tick).groups = d.groups := rfl
@[simp] theorem Dev.tick_pgs : (d.tick).pgs = d.pgs := rfl
@[simp] theorem Dev.tick_att : (d.tick).att = d.att := rfl
@[simp] theorem Dev.tick_tok : (d.tick).tok = d.tok := rfl
@[simp] theorem Dev.tick_prk : (d.tick).prk = d.prk := rfl
@[simp] theorem Dev.tick_halves : (d.tick).halves = d.halves := rfl
@[simp] theorem Dev.tick_hall : (d.tick).hall = d.hall := rfl
@[simp] theorem Dev.tick_own : (d.tick).own = d.own := rfl
@[simp] theorem Dev.tick_sft : (d.tick).sft = d.sft := rfl
@[simp] theorem Dev.tick_iso : (d.tick).iso = d.iso := rfl
@[simp] theorem Dev.tick_sec : (d.tick).sec = d.sec := rfl
@[simp] theorem Dev.tick_cmd : (d.tick).cmd = d.cmd := rfl
@[simp] theorem Dev.tick_ckp : (d.tick).ckp = d.ckp := rfl
@[simp] theorem Dev.tick_flt : (d.tick).flt = d.flt := rfl
@[simp] theorem Dev.tick_rst : (d.tick).rst = d.rst := rfl
@[simp] theorem Dev.tick_pwr : (d.tick).pwr = d.pwr := rfl
@[simp] theorem Dev.tick_sync : (d.tick).sync = d.sync := rfl
@[simp] theorem Dev.tick_out : (d.tick).out = d.out := rfl
@[simp] theorem Dev.tick_free : (d.tick).free = d.free := rfl
@[simp] theorem Dev.tick_wr : (d.tick).wr = d.wr := rfl
@[simp] theorem Dev.tick_stopped : (d.tick).stopped = d.stopped := rfl

/-! `emit` -/

@[simp] theorem Dev.emit_regs (o : Out) : (d.emit o).regs = d.regs := rfl
@[simp] theorem Dev.emit_pendS (o : Out) : (d.emit o).pendS = d.pendS := rfl
@[simp] theorem Dev.emit_ses (o : Out) : (d.emit o).ses = d.ses := rfl
@[simp] theorem Dev.emit_groups (o : Out) : (d.emit o).groups = d.groups := rfl
@[simp] theorem Dev.emit_pgs (o : Out) : (d.emit o).pgs = d.pgs := rfl
@[simp] theorem Dev.emit_att (o : Out) : (d.emit o).att = d.att := rfl
@[simp] theorem Dev.emit_tok (o : Out) : (d.emit o).tok = d.tok := rfl
@[simp] theorem Dev.emit_prk (o : Out) : (d.emit o).prk = d.prk := rfl
@[simp] theorem Dev.emit_halves (o : Out) : (d.emit o).halves = d.halves := rfl
@[simp] theorem Dev.emit_hall (o : Out) : (d.emit o).hall = d.hall := rfl
@[simp] theorem Dev.emit_own (o : Out) : (d.emit o).own = d.own := rfl
@[simp] theorem Dev.emit_sft (o : Out) : (d.emit o).sft = d.sft := rfl
@[simp] theorem Dev.emit_iso (o : Out) : (d.emit o).iso = d.iso := rfl
@[simp] theorem Dev.emit_sec (o : Out) : (d.emit o).sec = d.sec := rfl
@[simp] theorem Dev.emit_cmd (o : Out) : (d.emit o).cmd = d.cmd := rfl
@[simp] theorem Dev.emit_ckp (o : Out) : (d.emit o).ckp = d.ckp := rfl
@[simp] theorem Dev.emit_flt (o : Out) : (d.emit o).flt = d.flt := rfl
@[simp] theorem Dev.emit_rst (o : Out) : (d.emit o).rst = d.rst := rfl
@[simp] theorem Dev.emit_pwr (o : Out) : (d.emit o).pwr = d.pwr := rfl
@[simp] theorem Dev.emit_sync (o : Out) : (d.emit o).sync = d.sync := rfl
@[simp] theorem Dev.emit_free (o : Out) : (d.emit o).free = d.free := rfl
@[simp] theorem Dev.emit_wr (o : Out) : (d.emit o).wr = d.wr := rfl
@[simp] theorem Dev.emit_stopped (o : Out) : (d.emit o).stopped = d.stopped := rfl

/-! `emits` -/

@[simp] theorem Dev.emits_regs (os : List Out) : (d.emits os).regs = d.regs := rfl
@[simp] theorem Dev.emits_pendS (os : List Out) : (d.emits os).pendS = d.pendS := rfl
@[simp] theorem Dev.emits_ses (os : List Out) : (d.emits os).ses = d.ses := rfl
@[simp] theorem Dev.emits_groups (os : List Out) : (d.emits os).groups = d.groups := rfl
@[simp] theorem Dev.emits_pgs (os : List Out) : (d.emits os).pgs = d.pgs := rfl
@[simp] theorem Dev.emits_att (os : List Out) : (d.emits os).att = d.att := rfl
@[simp] theorem Dev.emits_tok (os : List Out) : (d.emits os).tok = d.tok := rfl
@[simp] theorem Dev.emits_prk (os : List Out) : (d.emits os).prk = d.prk := rfl
@[simp] theorem Dev.emits_halves (os : List Out) : (d.emits os).halves = d.halves := rfl
@[simp] theorem Dev.emits_hall (os : List Out) : (d.emits os).hall = d.hall := rfl
@[simp] theorem Dev.emits_own (os : List Out) : (d.emits os).own = d.own := rfl
@[simp] theorem Dev.emits_sft (os : List Out) : (d.emits os).sft = d.sft := rfl
@[simp] theorem Dev.emits_iso (os : List Out) : (d.emits os).iso = d.iso := rfl
@[simp] theorem Dev.emits_sec (os : List Out) : (d.emits os).sec = d.sec := rfl
@[simp] theorem Dev.emits_cmd (os : List Out) : (d.emits os).cmd = d.cmd := rfl
@[simp] theorem Dev.emits_ckp (os : List Out) : (d.emits os).ckp = d.ckp := rfl
@[simp] theorem Dev.emits_flt (os : List Out) : (d.emits os).flt = d.flt := rfl
@[simp] theorem Dev.emits_rst (os : List Out) : (d.emits os).rst = d.rst := rfl
@[simp] theorem Dev.emits_pwr (os : List Out) : (d.emits os).pwr = d.pwr := rfl
@[simp] theorem Dev.emits_sync (os : List Out) : (d.emits os).sync = d.sync := rfl
@[simp] theorem Dev.emits_free (os : List Out) : (d.emits os).free = d.free := rfl
@[simp] theorem Dev.emits_wr (os : List Out) : (d.emits os).wr = d.wr := rfl
@[simp] theorem Dev.emits_stopped (os : List Out) : (d.emits os).stopped = d.stopped := rfl

/-! `poke` -/

@[simp] theorem Dev.poke_regs (a : Nat) (bs : Bytes) : (d.poke a bs).regs = d.regs := rfl
@[simp] theorem Dev.poke_pendS (a : Nat) (bs : Bytes) : (d.poke a bs).pendS = d.pendS := rfl
@[simp] theorem Dev.poke_ses (a : Nat) (bs : Bytes) : (d.poke a bs).ses = d.ses := rfl
@[simp] theorem Dev.poke_groups (a : Nat) (bs : Bytes) : (d.poke a bs).groups = d.groups := rfl
@[simp] theorem Dev.poke_pgs (a : Nat) (bs : Bytes) : (d.poke a bs).pgs = d.pgs := rfl
@[simp] theorem Dev.poke_att (a : Nat) (bs : Bytes) : (d.poke a bs).att = d.att := rfl
@[simp] theorem Dev.poke_tok (a : Nat) (bs : Bytes) : (d.poke a bs).tok = d.tok := rfl
@[simp] theorem Dev.poke_prk (a : Nat) (bs : Bytes) : (d.poke a bs).prk = d.prk := rfl
@[simp] theorem Dev.poke_halves (a : Nat) (bs : Bytes) : (d.poke a bs).halves = d.halves := rfl
@[simp] theorem Dev.poke_hall (a : Nat) (bs : Bytes) : (d.poke a bs).hall = d.hall := rfl
@[simp] theorem Dev.poke_own (a : Nat) (bs : Bytes) : (d.poke a bs).own = d.own := rfl
@[simp] theorem Dev.poke_sft (a : Nat) (bs : Bytes) : (d.poke a bs).sft = d.sft := rfl
@[simp] theorem Dev.poke_iso (a : Nat) (bs : Bytes) : (d.poke a bs).iso = d.iso := rfl
@[simp] theorem Dev.poke_sec (a : Nat) (bs : Bytes) : (d.poke a bs).sec = d.sec := rfl
@[simp] theorem Dev.poke_cmd (a : Nat) (bs : Bytes) : (d.poke a bs).cmd = d.cmd := rfl
@[simp] theorem Dev.poke_ckp (a : Nat) (bs : Bytes) : (d.poke a bs).ckp = d.ckp := rfl
@[simp] theorem Dev.poke_flt (a : Nat) (bs : Bytes) : (d.poke a bs).flt = d.flt := rfl
@[simp] theorem Dev.poke_rst (a : Nat) (bs : Bytes) : (d.poke a bs).rst = d.rst := rfl
@[simp] theorem Dev.poke_pwr (a : Nat) (bs : Bytes) : (d.poke a bs).pwr = d.pwr := rfl
@[simp] theorem Dev.poke_sync (a : Nat) (bs : Bytes) : (d.poke a bs).sync = d.sync := rfl
@[simp] theorem Dev.poke_out (a : Nat) (bs : Bytes) : (d.poke a bs).out = d.out := rfl
@[simp] theorem Dev.poke_free (a : Nat) (bs : Bytes) : (d.poke a bs).free = d.free := rfl
@[simp] theorem Dev.poke_stopped (a : Nat) (bs : Bytes) : (d.poke a bs).stopped = d.stopped := rfl

/-! `setRing` -/

@[simp] theorem Dev.setRing_regs (fn r : Nat) (x : Ring) : (d.setRing fn r x).regs = d.regs := rfl
@[simp] theorem Dev.setRing_pendS (fn r : Nat) (x : Ring) : (d.setRing fn r x).pendS = d.pendS := rfl
@[simp] theorem Dev.setRing_ses (fn r : Nat) (x : Ring) : (d.setRing fn r x).ses = d.ses := rfl
@[simp] theorem Dev.setRing_groups (fn r : Nat) (x : Ring) : (d.setRing fn r x).groups = d.groups := rfl
@[simp] theorem Dev.setRing_pgs (fn r : Nat) (x : Ring) : (d.setRing fn r x).pgs = d.pgs := rfl
@[simp] theorem Dev.setRing_att (fn r : Nat) (x : Ring) : (d.setRing fn r x).att = d.att := rfl
@[simp] theorem Dev.setRing_tok (fn r : Nat) (x : Ring) : (d.setRing fn r x).tok = d.tok := rfl
@[simp] theorem Dev.setRing_prk (fn r : Nat) (x : Ring) : (d.setRing fn r x).prk = d.prk := rfl
@[simp] theorem Dev.setRing_halves (fn r : Nat) (x : Ring) : (d.setRing fn r x).halves = d.halves := rfl
@[simp] theorem Dev.setRing_hall (fn r : Nat) (x : Ring) : (d.setRing fn r x).hall = d.hall := rfl
@[simp] theorem Dev.setRing_own (fn r : Nat) (x : Ring) : (d.setRing fn r x).own = d.own := rfl
@[simp] theorem Dev.setRing_sft (fn r : Nat) (x : Ring) : (d.setRing fn r x).sft = d.sft := rfl
@[simp] theorem Dev.setRing_iso (fn r : Nat) (x : Ring) : (d.setRing fn r x).iso = d.iso := rfl
@[simp] theorem Dev.setRing_sec (fn r : Nat) (x : Ring) : (d.setRing fn r x).sec = d.sec := rfl
@[simp] theorem Dev.setRing_ckp (fn r : Nat) (x : Ring) : (d.setRing fn r x).ckp = d.ckp := rfl
@[simp] theorem Dev.setRing_flt (fn r : Nat) (x : Ring) : (d.setRing fn r x).flt = d.flt := rfl
@[simp] theorem Dev.setRing_rst (fn r : Nat) (x : Ring) : (d.setRing fn r x).rst = d.rst := rfl
@[simp] theorem Dev.setRing_pwr (fn r : Nat) (x : Ring) : (d.setRing fn r x).pwr = d.pwr := rfl
@[simp] theorem Dev.setRing_sync (fn r : Nat) (x : Ring) : (d.setRing fn r x).sync = d.sync := rfl
@[simp] theorem Dev.setRing_out (fn r : Nat) (x : Ring) : (d.setRing fn r x).out = d.out := rfl
@[simp] theorem Dev.setRing_free (fn r : Nat) (x : Ring) : (d.setRing fn r x).free = d.free := rfl
@[simp] theorem Dev.setRing_wr (fn r : Nat) (x : Ring) : (d.setRing fn r x).wr = d.wr := rfl
@[simp] theorem Dev.setRing_stopped (fn r : Nat) (x : Ring) : (d.setRing fn r x).stopped = d.stopped := rfl

/-! `setQueue` -/

@[simp] theorem Dev.setQueue_regs (fn q : Nat) (x : EvQueue) : (d.setQueue fn q x).regs = d.regs := rfl
@[simp] theorem Dev.setQueue_pendS (fn q : Nat) (x : EvQueue) : (d.setQueue fn q x).pendS = d.pendS := rfl
@[simp] theorem Dev.setQueue_ses (fn q : Nat) (x : EvQueue) : (d.setQueue fn q x).ses = d.ses := rfl
@[simp] theorem Dev.setQueue_groups (fn q : Nat) (x : EvQueue) : (d.setQueue fn q x).groups = d.groups := rfl
@[simp] theorem Dev.setQueue_pgs (fn q : Nat) (x : EvQueue) : (d.setQueue fn q x).pgs = d.pgs := rfl
@[simp] theorem Dev.setQueue_att (fn q : Nat) (x : EvQueue) : (d.setQueue fn q x).att = d.att := rfl
@[simp] theorem Dev.setQueue_tok (fn q : Nat) (x : EvQueue) : (d.setQueue fn q x).tok = d.tok := rfl
@[simp] theorem Dev.setQueue_prk (fn q : Nat) (x : EvQueue) : (d.setQueue fn q x).prk = d.prk := rfl
@[simp] theorem Dev.setQueue_halves (fn q : Nat) (x : EvQueue) : (d.setQueue fn q x).halves = d.halves := rfl
@[simp] theorem Dev.setQueue_hall (fn q : Nat) (x : EvQueue) : (d.setQueue fn q x).hall = d.hall := rfl
@[simp] theorem Dev.setQueue_own (fn q : Nat) (x : EvQueue) : (d.setQueue fn q x).own = d.own := rfl
@[simp] theorem Dev.setQueue_sft (fn q : Nat) (x : EvQueue) : (d.setQueue fn q x).sft = d.sft := rfl
@[simp] theorem Dev.setQueue_iso (fn q : Nat) (x : EvQueue) : (d.setQueue fn q x).iso = d.iso := rfl
@[simp] theorem Dev.setQueue_sec (fn q : Nat) (x : EvQueue) : (d.setQueue fn q x).sec = d.sec := rfl
@[simp] theorem Dev.setQueue_ckp (fn q : Nat) (x : EvQueue) : (d.setQueue fn q x).ckp = d.ckp := rfl
@[simp] theorem Dev.setQueue_flt (fn q : Nat) (x : EvQueue) : (d.setQueue fn q x).flt = d.flt := rfl
@[simp] theorem Dev.setQueue_rst (fn q : Nat) (x : EvQueue) : (d.setQueue fn q x).rst = d.rst := rfl
@[simp] theorem Dev.setQueue_pwr (fn q : Nat) (x : EvQueue) : (d.setQueue fn q x).pwr = d.pwr := rfl
@[simp] theorem Dev.setQueue_sync (fn q : Nat) (x : EvQueue) : (d.setQueue fn q x).sync = d.sync := rfl
@[simp] theorem Dev.setQueue_out (fn q : Nat) (x : EvQueue) : (d.setQueue fn q x).out = d.out := rfl
@[simp] theorem Dev.setQueue_free (fn q : Nat) (x : EvQueue) : (d.setQueue fn q x).free = d.free := rfl
@[simp] theorem Dev.setQueue_wr (fn q : Nat) (x : EvQueue) : (d.setQueue fn q x).wr = d.wr := rfl
@[simp] theorem Dev.setQueue_stopped (fn q : Nat) (x : EvQueue) : (d.setQueue fn q x).stopped = d.stopped := rfl

/-! `setHeld` -/

@[simp] theorem Dev.setHeld_regs (fn : Nat) (h : List Held) : (d.setHeld fn h).regs = d.regs := rfl
@[simp] theorem Dev.setHeld_pendS (fn : Nat) (h : List Held) : (d.setHeld fn h).pendS = d.pendS := rfl
@[simp] theorem Dev.setHeld_ses (fn : Nat) (h : List Held) : (d.setHeld fn h).ses = d.ses := rfl
@[simp] theorem Dev.setHeld_groups (fn : Nat) (h : List Held) : (d.setHeld fn h).groups = d.groups := rfl
@[simp] theorem Dev.setHeld_pgs (fn : Nat) (h : List Held) : (d.setHeld fn h).pgs = d.pgs := rfl
@[simp] theorem Dev.setHeld_att (fn : Nat) (h : List Held) : (d.setHeld fn h).att = d.att := rfl
@[simp] theorem Dev.setHeld_tok (fn : Nat) (h : List Held) : (d.setHeld fn h).tok = d.tok := rfl
@[simp] theorem Dev.setHeld_prk (fn : Nat) (h : List Held) : (d.setHeld fn h).prk = d.prk := rfl
@[simp] theorem Dev.setHeld_halves (fn : Nat) (h : List Held) : (d.setHeld fn h).halves = d.halves := rfl
@[simp] theorem Dev.setHeld_hall (fn : Nat) (h : List Held) : (d.setHeld fn h).hall = d.hall := rfl
@[simp] theorem Dev.setHeld_own (fn : Nat) (h : List Held) : (d.setHeld fn h).own = d.own := rfl
@[simp] theorem Dev.setHeld_sft (fn : Nat) (h : List Held) : (d.setHeld fn h).sft = d.sft := rfl
@[simp] theorem Dev.setHeld_iso (fn : Nat) (h : List Held) : (d.setHeld fn h).iso = d.iso := rfl
@[simp] theorem Dev.setHeld_sec (fn : Nat) (h : List Held) : (d.setHeld fn h).sec = d.sec := rfl
@[simp] theorem Dev.setHeld_ckp (fn : Nat) (h : List Held) : (d.setHeld fn h).ckp = d.ckp := rfl
@[simp] theorem Dev.setHeld_flt (fn : Nat) (h : List Held) : (d.setHeld fn h).flt = d.flt := rfl
@[simp] theorem Dev.setHeld_rst (fn : Nat) (h : List Held) : (d.setHeld fn h).rst = d.rst := rfl
@[simp] theorem Dev.setHeld_pwr (fn : Nat) (h : List Held) : (d.setHeld fn h).pwr = d.pwr := rfl
@[simp] theorem Dev.setHeld_sync (fn : Nat) (h : List Held) : (d.setHeld fn h).sync = d.sync := rfl
@[simp] theorem Dev.setHeld_out (fn : Nat) (h : List Held) : (d.setHeld fn h).out = d.out := rfl
@[simp] theorem Dev.setHeld_free (fn : Nat) (h : List Held) : (d.setHeld fn h).free = d.free := rfl
@[simp] theorem Dev.setHeld_wr (fn : Nat) (h : List Held) : (d.setHeld fn h).wr = d.wr := rfl
@[simp] theorem Dev.setHeld_stopped (fn : Nat) (h : List Held) : (d.setHeld fn h).stopped = d.stopped := rfl

/-! `setConn` -/

@[simp] theorem Dev.setConn_regs (i : Nat) (x : Conn) : (d.setConn i x).regs = d.regs := rfl
@[simp] theorem Dev.setConn_pendS (i : Nat) (x : Conn) : (d.setConn i x).pendS = d.pendS := rfl
@[simp] theorem Dev.setConn_ses (i : Nat) (x : Conn) : (d.setConn i x).ses = d.ses := rfl
@[simp] theorem Dev.setConn_groups (i : Nat) (x : Conn) : (d.setConn i x).groups = d.groups := rfl
@[simp] theorem Dev.setConn_pgs (i : Nat) (x : Conn) : (d.setConn i x).pgs = d.pgs := rfl
@[simp] theorem Dev.setConn_att (i : Nat) (x : Conn) : (d.setConn i x).att = d.att := rfl
@[simp] theorem Dev.setConn_tok (i : Nat) (x : Conn) : (d.setConn i x).tok = d.tok := rfl
@[simp] theorem Dev.setConn_prk (i : Nat) (x : Conn) : (d.setConn i x).prk = d.prk := rfl
@[simp] theorem Dev.setConn_halves (i : Nat) (x : Conn) : (d.setConn i x).halves = d.halves := rfl
@[simp] theorem Dev.setConn_own (i : Nat) (x : Conn) : (d.setConn i x).own = d.own := rfl
@[simp] theorem Dev.setConn_sft (i : Nat) (x : Conn) : (d.setConn i x).sft = d.sft := rfl
@[simp] theorem Dev.setConn_iso (i : Nat) (x : Conn) : (d.setConn i x).iso = d.iso := rfl
@[simp] theorem Dev.setConn_sec (i : Nat) (x : Conn) : (d.setConn i x).sec = d.sec := rfl
@[simp] theorem Dev.setConn_cmd (i : Nat) (x : Conn) : (d.setConn i x).cmd = d.cmd := rfl
@[simp] theorem Dev.setConn_ckp (i : Nat) (x : Conn) : (d.setConn i x).ckp = d.ckp := rfl
@[simp] theorem Dev.setConn_flt (i : Nat) (x : Conn) : (d.setConn i x).flt = d.flt := rfl
@[simp] theorem Dev.setConn_rst (i : Nat) (x : Conn) : (d.setConn i x).rst = d.rst := rfl
@[simp] theorem Dev.setConn_pwr (i : Nat) (x : Conn) : (d.setConn i x).pwr = d.pwr := rfl
@[simp] theorem Dev.setConn_sync (i : Nat) (x : Conn) : (d.setConn i x).sync = d.sync := rfl
@[simp] theorem Dev.setConn_out (i : Nat) (x : Conn) : (d.setConn i x).out = d.out := rfl
@[simp] theorem Dev.setConn_free (i : Nat) (x : Conn) : (d.setConn i x).free = d.free := rfl
@[simp] theorem Dev.setConn_wr (i : Nat) (x : Conn) : (d.setConn i x).wr = d.wr := rfl
@[simp] theorem Dev.setConn_stopped (i : Nat) (x : Conn) : (d.setConn i x).stopped = d.stopped := rfl

/-! `resolve` -/

@[simp] theorem Dev.resolve_regs (src service : Nat) (st : Status) : (d.resolve src service st).regs = d.regs := rfl
@[simp] theorem Dev.resolve_pendS (src service : Nat) (st : Status) : (d.resolve src service st).pendS = d.pendS := rfl
@[simp] theorem Dev.resolve_ses (src service : Nat) (st : Status) : (d.resolve src service st).ses = d.ses := rfl
@[simp] theorem Dev.resolve_groups (src service : Nat) (st : Status) : (d.resolve src service st).groups = d.groups := rfl
@[simp] theorem Dev.resolve_pgs (src service : Nat) (st : Status) : (d.resolve src service st).pgs = d.pgs := rfl
@[simp] theorem Dev.resolve_att (src service : Nat) (st : Status) : (d.resolve src service st).att = d.att := rfl
@[simp] theorem Dev.resolve_tok (src service : Nat) (st : Status) : (d.resolve src service st).tok = d.tok := rfl
@[simp] theorem Dev.resolve_prk (src service : Nat) (st : Status) : (d.resolve src service st).prk = d.prk := rfl
@[simp] theorem Dev.resolve_halves (src service : Nat) (st : Status) : (d.resolve src service st).halves = d.halves := rfl
@[simp] theorem Dev.resolve_hall (src service : Nat) (st : Status) : (d.resolve src service st).hall = d.hall := rfl
@[simp] theorem Dev.resolve_own (src service : Nat) (st : Status) : (d.resolve src service st).own = d.own := rfl
@[simp] theorem Dev.resolve_sft (src service : Nat) (st : Status) : (d.resolve src service st).sft = d.sft := rfl
@[simp] theorem Dev.resolve_iso (src service : Nat) (st : Status) : (d.resolve src service st).iso = d.iso := rfl
@[simp] theorem Dev.resolve_sec (src service : Nat) (st : Status) : (d.resolve src service st).sec = d.sec := rfl
@[simp] theorem Dev.resolve_cmd (src service : Nat) (st : Status) : (d.resolve src service st).cmd = d.cmd := rfl
@[simp] theorem Dev.resolve_ckp (src service : Nat) (st : Status) : (d.resolve src service st).ckp = d.ckp := rfl
@[simp] theorem Dev.resolve_flt (src service : Nat) (st : Status) : (d.resolve src service st).flt = d.flt := rfl
@[simp] theorem Dev.resolve_rst (src service : Nat) (st : Status) : (d.resolve src service st).rst = d.rst := rfl
@[simp] theorem Dev.resolve_pwr (src service : Nat) (st : Status) : (d.resolve src service st).pwr = d.pwr := rfl
@[simp] theorem Dev.resolve_sync (src service : Nat) (st : Status) : (d.resolve src service st).sync = d.sync := rfl
@[simp] theorem Dev.resolve_free (src service : Nat) (st : Status) : (d.resolve src service st).free = d.free := rfl
@[simp] theorem Dev.resolve_wr (src service : Nat) (st : Status) : (d.resolve src service st).wr = d.wr := rfl
@[simp] theorem Dev.resolve_stopped (src service : Nat) (st : Status) : (d.resolve src service st).stopped = d.stopped := rfl

end Sys2Proof.Machine
end

