-- ==== Sys2Proof/Laws/Events.lean ====
section
/-! SUPPORT. Laws of replies, events and interrupts: they change registers of class C of the CMD block, the rings and queues, and
what has been sent; everything else stays. -/
namespace Sys2Proof.Machine
open Sys2Proof

variable (d : Dev)

@[simp] theorem rest_sf (f : Fld) (fn i v : Nat) : (d.sf f fn i v).rest = d.rest := rfl
@[simp] theorem rest_si (f : Fld) (i v : Nat) : (d.si f i v).rest = d.rest := rfl
@[simp] theorem rest_s (f : Fld) (v : Nat) : (d.s f v).rest = d.rest := rfl
@[simp] theorem rest_satf (f : Fld) (fn i n : Nat) : (d.satf f fn i n).rest = d.rest := rfl
@[simp] theorem rest_sati (f : Fld) (i n : Nat) : (d.sati f i n).rest = d.rest := rfl
@[simp] theorem rest_sat (f : Fld) (n : Nat) : (d.sat f n).rest = d.rest := rfl
@[simp] theorem rest_wrap (f : Fld) (n : Nat) : (d.wrap f n).rest = d.rest := rfl
@[simp] theorem rest_reach (t : Nat) : (d.reach t).rest = d.rest := rfl
@[simp] theorem rest_emit (o : Out) : (d.emit o).rest = d.rest := rfl
@[simp] theorem rest_emits (os : List Out) : (d.emits os).rest = d.rest := rfl
@[simp] theorem rest_setRing (fn r : Nat) (x : Ring) : (d.setRing fn r x).rest = d.rest := rfl
@[simp] theorem rest_setQueue (fn q : Nat) (x : EvQueue) : (d.setQueue fn q x).rest = d.rest := rfl
@[simp] theorem rest_setHeld (fn : Nat) (h : List Held) : (d.setHeld fn h).rest = d.rest := rfl
@[simp] theorem rest_resolve (src service : Nat) (st : Status) : (d.resolve src service st).rest = d.rest := rfl
@[simp] theorem rest_cmd (c : Cmd) : ({ d with cmd := c } : Dev).rest = d.rest := rfl

@[simp] theorem rest_cntP (f : Fld) (p n : Nat) (w : Bool) : (d.cntP f p n w).rest = d.rest := by
  unfold Dev.cntP
  by_cases hp : p = 0 <;> simp [hp]
@[simp] theorem rest_msix (fn vec : Nat) : (d.msix fn vec).rest = d.rest := by
  unfold Dev.msix
  split <;> simp
@[simp] theorem rest_modRing (fn r : Nat) : (d.modRing fn r).rest = d.rest := by
  unfold Dev.modRing
  dsimp only
  split <;> simp
@[simp] theorem rest_modQueue (fn q : Nat) : (d.modQueue fn q).rest = d.rest := by
  unfold Dev.modQueue
  dsimp only
  split <;> simp
@[simp] theorem rest_tryQueue (fn q : Nat) : (d.tryQueue fn q).rest = d.rest := by
  unfold Dev.tryQueue
  split <;> simp
@[simp] theorem rest_takeEseq (fn q : Nat) : (d.takeEseq fn q).2.rest = d.rest := by simp [Dev.takeEseq]
@[simp] theorem rest_writeEvent (fn q n : Nat) (late : Bool) (e : Event) : (d.writeEvent fn q n late e).rest = d.rest := by
  simp [Dev.writeEvent]
/-- Writing held events leaves the rest. -/
@[simp] theorem rest_drainHeld (fn q : Nat) (hs kept : List Held) : (d.drainHeld fn q hs kept).rest = d.rest := by
  induction hs generalizing d kept with
  | nil => simp [Dev.drainHeld]
  | cons h hs ih =>
    unfold Dev.drainHeld
    dsimp only
    repeat' split
    all_goals simp [ih]
@[simp] theorem rest_drain (fn q : Nat) : (d.drain fn q).rest = d.rest := by
  unfold Dev.drain
  dsimp only
  repeat' split
  all_goals simp
/-- Posting an event leaves the rest. -/
@[simp] theorem rest_post (fn eq : Nat) (e : Event) : (d.post fn eq e).rest = d.rest := by
  unfold Dev.post
  dsimp only
  repeat' split
  all_goals simp
@[simp] theorem rest_post0 (e : Event) : (d.post0 e).rest = d.rest := by simp [Dev.post0]
@[simp] theorem rest_postP (p : Nat) (e : Event) : (d.postP p e).rest = d.rest := by simp [Dev.postP]
/-- A fold of steps that each leave the rest leaves it. -/
theorem rest_foldl {α : Type} (f : Dev → α → Dev) (hf : ∀ d a, (f d a).rest = d.rest) (l : List α) :
    (l.foldl f d).rest = d.rest := by
  induction l generalizing d with
  | nil => rfl
  | cons a l ih => simp [ih, hf]
@[simp] theorem rest_postAll (e : Event) : (d.postAll e).rest = d.rest := rest_foldl d _ (fun d p => rest_postP d p e) _
@[simp] theorem rest_reject (fn off : Nat) (st : Status) : (d.reject fn off st).rest = d.rest := by
  unfold Dev.reject
  dsimp only
  split <;> simp
@[simp] theorem rest_writeReply (fn r : Nat) (rep : Reply) : (d.writeReply fn r rep).rest = d.rest := by simp [Dev.writeReply]
/-- Writing replies that waited leaves the rest. -/
@[simp] theorem rest_flushReplies (fn r : Nat) (l : List Reply) : (d.flushReplies fn r l).rest = d.rest := by
  induction l generalizing d with
  | nil => simp [Dev.flushReplies]
  | cons a l ih =>
    unfold Dev.flushReplies
    split <;> simp [ih]
@[simp] theorem rest_tryRing (fn r : Nat) : (d.tryRing fn r).rest = d.rest := by
  unfold Dev.tryRing
  split <;> simp
@[simp] theorem rest_sendReply (fn r : Nat) (rep : Reply) : (d.sendReply fn r rep).rest = d.rest := by
  unfold Dev.sendReply
  dsimp only
  split <;> simp
@[simp] theorem rest_logReply (fn r : Nat) (rep : Reply) : (d.logReply fn r rep).rest = d.rest := by simp [Dev.logReply]

end Sys2Proof.Machine
end

