-- ==== Sys2Proof/Laws/Memory.lean ====
section
/-! SUPPORT. Laws of the HBM: its canonical form is kept, and a byte reads back what was last written. -/
namespace Sys2Proof.Machine
open Sys2Proof

/-- The canonical form holds from any lower bound. -/
theorem Memory.wfFrom_mono (m : Memory) {a b : Nat} (h : a ≤ b) (hb : Memory.wfFrom m b = true) : Memory.wfFrom m a = true := by
  cases m with
  | nil => rfl
  | cons e m =>
    obtain ⟨k, v⟩ := e
    simp only [Memory.wfFrom, Bool.and_eq_true, decide_eq_true_eq] at hb ⊢
    exact ⟨⟨⟨Nat.le_trans h hb.1.1.1, hb.1.1.2⟩, hb.1.2⟩, hb.2⟩

/-- A byte write within the HBM keeps the canonical form. -/
theorem Memory.wfFrom_write (m : Memory) (a : Nat) (b : Byte) (lo : Nat) (hlo : lo ≤ a) (ha : inHbm a = true)
    (h : Memory.wfFrom m lo = true) : Memory.wfFrom (Memory.write m a b) lo = true := by
  induction m generalizing lo with
  | nil => by_cases hb : b = 0#8 <;> simp [Memory.write, Memory.wfFrom, hb, hlo, ha]
  | cons e m ih =>
    obtain ⟨k, v⟩ := e
    simp only [Memory.wfFrom, Bool.and_eq_true, decide_eq_true_eq] at h
    unfold Memory.write
    split
    · split
      · have hv : ¬v = 0#8 := h.1.2
        simp [Memory.wfFrom, h.1.1.1, h.1.1.2, hv, h.2]
      · simp only [Memory.wfFrom, Bool.and_eq_true, decide_eq_true_eq]
        exact ⟨⟨⟨hlo, ha⟩, ‹_›⟩, ⟨⟨by omega, h.1.1.2⟩, h.1.2⟩, h.2⟩
    · split
      · split
        · exact Memory.wfFrom_mono m (by omega) h.2
        · simp only [Memory.wfFrom, Bool.and_eq_true, decide_eq_true_eq]
          exact ⟨⟨⟨h.1.1.1, h.1.1.2⟩, ‹_›⟩, h.2⟩
      · simp only [Memory.wfFrom, Bool.and_eq_true, decide_eq_true_eq]
        exact ⟨⟨⟨h.1.1.1, h.1.1.2⟩, h.1.2⟩, ih (k + 1) (by omega) h.2⟩

/-- A byte write keeps the canonical form wherever it goes. -/
theorem Memory.wf_writeIn (m : Memory) (a : Nat) (b : Byte) (h : Memory.wf m = true) : Memory.wf (Memory.writeIn m a b) = true := by
  unfold Memory.writeIn
  split
  · exact Memory.wfFrom_write m a b 0 (Nat.zero_le _) ‹_› h
  · exact h

/-- A write of a byte string keeps the canonical form. -/
theorem Memory.wf_writeAll (m : Memory) (a : Nat) (bs : Bytes) (h : Memory.wf m = true) : Memory.wf (Memory.writeAll m a bs) = true := by
  induction bs generalizing m a with
  | nil => exact h
  | cons b bs ih => exact ih _ _ (Memory.wf_writeIn m a b h)

/-- The writes of a step keep the canonical form. -/
theorem Memory.wf_apply (m : Memory) (ws : List (Nat × Bytes)) (h : Memory.wf m = true) : Memory.wf (Memory.apply m ws) = true := by
  induction ws generalizing m with
  | nil => exact h
  | cons w ws ih => exact ih _ (Memory.wf_writeAll m w.1 w.2 h)

/-- Below the first listed offset every byte is zero. -/
theorem Memory.read_below (m : Memory) (a lo : Nat) (h : Memory.wfFrom m lo = true) (ha : a < lo) : Memory.read m a = 0 := by
  cases m with
  | nil => rfl
  | cons e m =>
    obtain ⟨k, v⟩ := e
    simp only [Memory.wfFrom, Bool.and_eq_true, decide_eq_true_eq] at h
    simp [Memory.read, show a ≠ k by omega, show a < k by omega]

/-- A byte reads back what was written, and every other byte what it held. -/
theorem Memory.read_write (m : Memory) (a i : Nat) (b : Byte) (lo : Nat) (h : Memory.wfFrom m lo = true) :
    Memory.read (Memory.write m a b) i = if i = a then b else Memory.read m i := by
  induction m generalizing lo with
  | nil =>
    by_cases hb : b = 0#8
    · by_cases hi : i = a <;> simp [Memory.write, Memory.read, hb, hi]
    · by_cases hi : i = a <;> simp [Memory.write, Memory.read, hb, hi]
  | cons e m ih =>
    obtain ⟨k, v⟩ := e
    simp only [Memory.wfFrom, Bool.and_eq_true, decide_eq_true_eq] at h
    unfold Memory.write
    split
    · split
      · by_cases hi : i = a
        · subst hi
          simp [Memory.read, show i ≠ k by omega, ‹i < k›, ‹b = 0›]
        · simp [hi]
      · by_cases hi : i = a
        · simp [Memory.read, hi]
        · by_cases h2 : i < a
          · simp [Memory.read, hi, h2, show i ≠ k by omega, show i < k by omega]
          · simp [Memory.read, hi, h2]
    · split
      · subst_vars
        split
        · by_cases hi : i = k
          · subst hi
            simp only [if_true]
            rw [Memory.read_below m i (i + 1) h.2 (by omega)]
            exact (‹b = 0›).symm
          · by_cases h2 : i < k
            · simp only [Memory.read, hi, h2, if_true, if_false]
              exact Memory.read_below m i (k + 1) h.2 (by omega)
            · simp [Memory.read, hi, h2]
        · by_cases hi : i = k <;> simp [Memory.read, hi]
      · by_cases hi : i = k
        · subst hi
          simp [Memory.read, Ne.symm ‹¬a = i›]
        · by_cases h2 : i < k
          · simp [Memory.read, hi, h2, show i ≠ a by omega]
          · simp only [Memory.read, hi, h2, if_false]
            exact ih (k + 1) h.2

/-- The canonical form is kept by the write that a step makes of one byte, and the byte reads back if it lies in the HBM. -/
theorem Memory.read_writeIn (m : Memory) (a i : Nat) (b : Byte) (h : Memory.wf m = true) :
    Memory.read (Memory.writeIn m a b) i = if i = a ∧ inHbm a = true then b else Memory.read m i := by
  unfold Memory.writeIn
  split
  · rw [Memory.read_write m a i b 0 h]
    simp [‹inHbm a = true›]
  · simp [‹¬inHbm a = true›]

end Sys2Proof.Machine
end

