-- ==== Sys2Proof/Laws/Tables.lean ====
section
/-! SUPPORT. Laws of sparse tables: reading back what was written, and the canonical form. -/
namespace Sys2Proof.Machine

variable {α : Type}

/-- Reading after a write: the new value under its key, the old value elsewhere. -/
theorem NMap.get?_put (m : NMap α) (i j : Nat) (v : α) :
    NMap.get? (NMap.put m i v) j = if j = i then some v else NMap.get? m j := by
  induction m with
  | nil => by_cases h : j = i <;> simp [NMap.put, NMap.get?, h]
  | cons e m ih =>
    obtain ⟨k, w⟩ := e
    unfold NMap.put
    split
    · by_cases h : j = i <;> simp [NMap.get?, h]
    · split
      · subst_vars; by_cases h : j = k <;> simp [NMap.get?, h]
      · by_cases h : j = k
        · subst h; simp [NMap.get?, Ne.symm ‹¬i = j›]
        · simp [NMap.get?, h, ih]

/-- The value read back under a key that was written. -/
@[simp] theorem NMap.getD_put_self (m : NMap α) (i : Nat) (v d : α) : NMap.getD (NMap.put m i v) i d = v := by
  simp [NMap.getD, NMap.get?_put]

/-- A write under another key is not seen. -/
theorem NMap.getD_put_ne (m : NMap α) {i j : Nat} (h : j ≠ i) (v d : α) :
    NMap.getD (NMap.put m i v) j d = NMap.getD m j d := by
  simp [NMap.getD, NMap.get?_put, h]

/-- A written key is listed, and no other key is lost. -/
theorem NMap.has_put (m : NMap α) (i j : Nat) (v : α) : NMap.has (NMap.put m i v) j = (j == i || NMap.has m j) := by
  by_cases h : j = i <;> simp [NMap.has, NMap.get?_put, h]

/-- Keys of a table after a write: the key itself or old keys. -/
theorem NMap.mem_keys_put (m : NMap α) (i : Nat) (v : α) (e : Nat × α) (h : e ∈ NMap.put m i v) : e.1 = i ∨ e ∈ m := by
  induction m with
  | nil => simp [NMap.put] at h; simp [h]
  | cons x m ih =>
    obtain ⟨k, w⟩ := x
    unfold NMap.put at h
    split at h
    · rcases List.mem_cons.1 h with rfl | h
      · simp
      · exact .inr h
    · split at h
      · rcases List.mem_cons.1 h with rfl | h
        · simp
        · exact .inr (List.mem_cons_of_mem _ h)
      · rcases List.mem_cons.1 h with rfl | h
        · simp
        · rcases ih h with h | h
          · exact .inl h
          · exact .inr (List.mem_cons_of_mem _ h)

/-- A write keeps the canonical form. -/
theorem NMap.wf_put (m : NMap α) (i : Nat) (v : α) (h : NMap.wf m = true) : NMap.wf (NMap.put m i v) = true := by
  simp only [NMap.wf, decide_eq_true_eq] at h ⊢
  induction m with
  | nil => simp [NMap.put]
  | cons x m ih =>
    obtain ⟨k, w⟩ := x
    rw [List.pairwise_cons] at h
    unfold NMap.put
    split
    · rename_i hk
      refine List.pairwise_cons.2 ⟨fun e he => ?_, List.pairwise_cons.2 h⟩
      rcases List.mem_cons.1 he with rfl | he
      · exact hk
      · exact Nat.lt_trans hk (h.1 e he)
    · split
      · subst_vars
        exact List.pairwise_cons.2 ⟨h.1, h.2⟩
      · refine List.pairwise_cons.2 ⟨fun e he => ?_, ih h.2⟩
        rcases NMap.mem_keys_put m i v e he with he | he
        · show k < e.1
          omega
        · exact h.1 e he

/-- Entries that are not under a key stay when that key is taken out. -/
theorem NMap.mem_del (m : NMap α) (i : Nat) (e : Nat × α) (h : e ∈ NMap.del m i) : e ∈ m := by
  induction m with
  | nil => simp [NMap.del] at h
  | cons x m ih =>
    unfold NMap.del at h
    split at h
    · exact List.mem_cons_of_mem _ h
    · rcases List.mem_cons.1 h with rfl | h
      · simp
      · exact List.mem_cons_of_mem _ (ih h)

/-- Taking a key out keeps the canonical form. -/
theorem NMap.wf_del (m : NMap α) (i : Nat) (h : NMap.wf m = true) : NMap.wf (NMap.del m i) = true := by
  simp only [NMap.wf, decide_eq_true_eq] at h ⊢
  induction m with
  | nil => simp [NMap.del]
  | cons x m ih =>
    rw [List.pairwise_cons] at h
    unfold NMap.del
    split
    · exact h.2
    · exact List.pairwise_cons.2 ⟨fun e he => h.1 e (NMap.mem_del m i e he), ih h.2⟩

end Sys2Proof.Machine
end

