-- ==== Sys2Proof/Laws/Run.lean ====
section
/-! SUPPORT. Laws of how a meaning acts: what it answers, when nothing happens, and what every answer keeps. -/
namespace Sys2Proof.Machine
open Sys2Proof

/-- A meaning of the controller that runs answers the block's next registers and tables. -/
theorem onDev_runs (f : Memory → Dev → Dev) (s : State) (h : s.runs = true) :
    onDev f s = .next (s.put (f s.hbm s.dev)) := by
  simp only [State.runs, Bool.not_eq_true'] at h
  simp [onDev, onModule, h]
/-- A meaning of the controller that is held changes nothing. -/
theorem onDev_held (f : Memory → Dev → Dev) (s : State) (h : s.dev.rst.held = true) : onDev f s = .next (s.put s.dev) := by
  simp [onDev, onModule, h]
/-- A meaning of an event of a fitted unit. -/
theorem onUnit_runs (c : Bool) (f : Memory → Dev → Dev) (s : State) (hc : c = true) (h : s.runs = true) :
    onUnit c f s = .next (s.put (f s.hbm s.dev)) := by subst hc; exact onDev_runs f s h
/-- What a meaning answers keeps the HBM canonical and leaves no write over, and the queue stays. -/
theorem put_safe (s : State) (d : Dev) (h : Memory.wf s.hbm = true) :
    Memory.wf (s.put d).hbm = true ∧ (s.put d).dev.wr = [] ∧ (s.put d).pending = s.pending :=
  ⟨Memory.wf_apply _ _ h, rfl, rfl⟩
/-- The state does not change when nothing is put in it. -/
theorem put_self (s : State) (h : s.dev.wr = []) : s.put s.dev = s := by
  obtain ⟨d, m, p⟩ := s
  simp only at h
  simp [State.put, h, Memory.apply]
  rw [← h]
/-- Every answer of a meaning of the module's supervisor. -/
theorem onModule_next (f : Memory → Dev → Dev) (s t : State) (h : onModule f s = .next t) : t = s.put (f s.hbm s.dev) := by
  simpa [onModule] using h.symm
/-- Every answer of a meaning of the controller puts some block in the state. -/
theorem onDev_next (f : Memory → Dev → Dev) (s t : State) (h : onDev f s = .next t) : ∃ d, t = s.put d :=
  ⟨_, onModule_next _ s t h⟩
/-- Every answer of a meaning of a unit's event puts some block in the state. -/
theorem onUnit_next (c : Bool) (f : Memory → Dev → Dev) (s t : State) (h : onUnit c f s = .next t) : ∃ d, t = s.put d := by
  exact onDev_next _ s t h
/-- An event of a unit that is not fitted does not occur: nothing changes. -/
theorem onUnit_unfitted (f : Memory → Dev → Dev) (s : State) : onUnit false f s = .next (s.put s.dev) := by
  simp [onUnit, onDev, onModule]

end Sys2Proof.Machine
end

