-- ==== Sys2Proof/Laws/Regs.lean ====
section
/-! SUPPORT. Laws of register writes: what a write of one field comes to. -/
namespace Sys2Proof.Machine
open Sys2Proof

/-- A write of one field that starts an action is that action. -/
theorem writeOne_act (d : Dev) (fn : Nat) (f : Fld) (i whole : Nat) (io : Bool) (a : Act) (hm : d.mapped = true)
    (hi : i < d.instLimit f fn) (hg : fn = 0 ∨ f.grant = .fnWrite ∨ f.grant = .ownWrite)
    (hs : f.off i ≠ F.SHP_NODE_SEL_KIND.addr) (hr : f.addr ≠ F.PGS_REGION_BINS.addr) (hp : f.addr ≠ F.PGS_PTPOOL_BLOCKS.addr)
    (hok : d.inRange fn whole [(f, i)] (f, i) = true)
    (hc : f.cls = .l ∨ f.cls = .k ∧ bits whole f.lo f.w ≠ d.readField fn f i ∧
      (enableFields.contains f = true ∨ d.fieldRuns f fn i = false))
    (ha : d.actOf f fn i (bits whole f.lo f.w) whole = some a) : d.writeOne fn f i whole io = d.act fn (f.off i) io a := by
  have hg' : ¬(fn ≠ 0 ∧ f.grant ≠ .fnWrite ∧ f.grant ≠ .ownWrite) := by
    rintro ⟨h0, h1, h2⟩
    rcases hg with h | h | h
    · exact h0 h
    · exact h1 h
    · exact h2 h
  have hsel : d.maySelect fn (f.off i) whole = true := by simp [Dev.maySelect, hs]
  have hw : d.writeField fn (f.off i) f i (bits whole f.lo f.w) whole true = (d, some a) := by
    unfold Dev.writeField
    rcases hc with hc | ⟨hc, hv, he⟩
    · simp [hc, hp, ha]
    · rcases he with he | he
      · have he' : f ∈ enableFields := by simpa using he
        simp [hc, hv, hp, ha, he']
      · simp [hc, hv, hp, ha, he]
  simp only [Dev.writeOne, hm, Dev.writeSome, hsel, hr, hok, Dev.writeFields, hw, Dev.acts, if_neg hg', if_neg (Nat.not_le.2 hi)]
  simp

/-- A range check of a field without a stated range of its own is one of its width and step. -/
theorem inRange_sole (d : Dev) (fn whole : Nat) (f : Fld) (i : Nat) (h : ∀ t : Dev, t.rangeOk f fn i (bits whole f.lo f.w) = true) :
    d.inRange fn whole [(f, i)] (f, i) = true := by simp [Dev.inRange, h]

end Sys2Proof.Machine
end

