-- ==== Sys2Proof/Laws/Vcp.lean ====
section
/-! SUPPORT. Laws of the command protocol: deciding a reply leaves everything but the CMD block's own state, and what becomes of an
entry by the place of its HSEQ. -/
namespace Sys2Proof.Machine
open Sys2Proof

/-- A decided reply leaves what the command did outside the rings. -/
@[simp] theorem rest_decideAs (x : Res) (fn r n op : Nat) (l : Bool) : (x.decideAs fn r n op l).rest = x.dev.rest := by
  unfold Res.decideAs
  dsimp only
  repeat' split
  all_goals simp
/-- A replay, and a refused HSEQ, leave everything outside the rings. -/
@[simp] theorem rest_seqGap (d : Dev) (h : Hdr) (op : Nat) : (d.seqGap h op).rest = d.rest := by simp [Dev.seqGap]
@[simp] theorem rest_replay (d : Dev) (h : Hdr) (op : Nat) : (d.replay h op).rest = d.rest := by
  unfold Dev.replay
  repeat' split
  all_goals simp
@[simp] theorem rest_take (d : Dev) (h : Hdr) : (d.take h).rest = d.rest := by simp [Dev.take]
/-- A ring that takes nothing leaves the entry there. -/
theorem command_not_taken (d : Dev) (h : Hdr) (op : Nat) (may params data : Bool) (run : Dev → Res) (ht : d.takes h = false) :
    d.command h op may params data run = d := by simp [Dev.command, ht]
/-- An entry that is not next in sequence changes nothing outside the rings (R526). -/
theorem rest_command_out_of_sequence (d : Dev) (h : Hdr) (op : Nat) (may params data : Bool) (run : Dev → Res)
    (hk : (d.take h).seqDiff h ≠ 0) : (d.command h op may params data run).rest = d.rest := by
  unfold Dev.command
  split
  · rfl
  · dsimp only
    rw [if_neg hk]
    split <;> simp
/-- The checks of an entry that fits pass. -/
theorem checked_fits (d : Dev) (h : Hdr) (may params data : Bool) (run : Dev → Res) (hr : d.fits h data = true)
    (hm : may = true) (hp : params = true) : (d.entered h).checked h may params data run = run (d.entered h) := by
  simp only [Dev.fits, Bool.and_eq_true, beq_iff_eq, Bool.or_eq_true, bne_iff_ne] at hr
  obtain ⟨⟨⟨⟨⟨⟨-, -⟩, -⟩, h3⟩, h4⟩, h5⟩, h7⟩ := hr
  subst hm hp
  unfold Dev.checked
  have h8 : (h.fn != 0 && ((d.entered h).bootPhase == 1 || (d.entered h).bootPhase == 2 ||
      (d.entered h).gi F.ISO_PART_STATE h.fn != 1)) = false := by
    rcases h7 with h7 | ⟨⟨h7, h8⟩, h9⟩
    · simp [h7]
    · simp [h7, h8, h9]
  rw [h8, h3, h5]
  rcases h4 with h4 | h4
  · simp only [Bool.not_eq_true'] at h4
    simp [h4]
  · simp [h4]
/-- An entry in sequence, of a partition that does not expire now, runs its checks, and its rules, in the entered block. -/
theorem command_in_sequence (d : Dev) (h : Hdr) (op : Nat) (may params data : Bool) (run : Dev → Res) (ht : d.takes h = true)
    (hk : (d.take h).seqDiff h = 0) (he : (d.take h).expires h.fn = false) :
    d.command h op may params data run =
      if ((d.entered h).checked h may params data run).later then
        ((d.entered h).checked h may params data run).dev.setRing h.fn h.ring
          { ((d.entered h).checked h may params data run).dev.ring h.fn h.ring with busy := some (h.hseq, op, true) }
      else ((d.entered h).checked h may params data run).decideAs h.fn h.ring h.hseq op true := by
  unfold Dev.command
  rw [ht]
  dsimp only
  rw [if_neg (by decide), if_pos hk]
  unfold Dev.executeAs
  rw [he]
  simp only [Bool.not_false, Bool.and_true]
  rfl
/-- The rules of an entry that fits run in the entered block, and its reply is decided at once or later. -/
theorem command_fits (d : Dev) (h : Hdr) (op : Nat) (may params data : Bool) (run : Dev → Res) (hr : d.fits h data = true)
    (hm : may = true) (hp : params = true) :
    d.command h op may params data run =
      if (run (d.entered h)).later then
        (run (d.entered h)).dev.setRing h.fn h.ring
          { (run (d.entered h)).dev.ring h.fn h.ring with busy := some (h.hseq, op, true) }
      else (run (d.entered h)).decideAs h.fn h.ring h.hseq op true := by
  have hc := checked_fits d h may params data run hr hm hp
  simp only [Dev.fits, Bool.and_eq_true, beq_iff_eq, Bool.not_eq_true'] at hr
  obtain ⟨⟨⟨⟨⟨⟨he, ht⟩, hk⟩, -⟩, -⟩, -⟩, -⟩ := hr
  rw [← hc]
  exact command_in_sequence d h op may params data run ht hk he
/-- An entry in sequence that a check refuses is answered with that status. -/
theorem command_refused (d : Dev) (h : Hdr) (op : Nat) (may params data : Bool) (run : Dev → Res) (st : Status)
    (ht : d.takes h = true) (hk : (d.take h).seqDiff h = 0) (he : (d.take h).expires h.fn = false)
    (hc : (d.entered h).checked h may params data run = (d.entered h).res st) :
    d.command h op may params data run = (d.entered h).answered h op st [] := by
  rw [command_in_sequence d h op may params data run ht hk he, hc]
  rfl
/-- A ready entry fits, and start-up is over. -/
theorem ready_fits (d : Dev) (h : Hdr) (data : Bool) (hr : d.ready h data = true) : d.fits h data = true := by
  simp only [Dev.ready, Bool.and_eq_true] at hr
  exact hr.1
theorem ready_phase (d : Dev) (h : Hdr) (data : Bool) (hr : d.ready h data = true) : (d.entered h).bootPhase ≠ 0 := by
  simp only [Dev.ready, Bool.and_eq_true, bne_iff_ne] at hr
  exact hr.2
/-- A command that needs no running block too: a ready entry's rules run in the entered block. -/
theorem command_ready (d : Dev) (h : Hdr) (op : Nat) (may params data : Bool) (run : Dev → Res) (hr : d.ready h data = true)
    (hm : may = true) (hp : params = true) :
    d.command h op may params data run =
      if (run (d.entered h)).later then
        (run (d.entered h)).dev.setRing h.fn h.ring
          { (run (d.entered h)).dev.ring h.fn h.ring with busy := some (h.hseq, op, true) }
      else (run (d.entered h)).decideAs h.fn h.ring h.hseq op true :=
  command_fits d h op may params data run (ready_fits d h data hr) hm hp
theorem needs_on (d : Dev) (ens : List Fld) (run : Dev → Res) (hp : d.bootPhase ≠ 0) (he : ens.all (fun e => d.on e) = true) :
    d.needs ens run = run d := by
  unfold Dev.needs
  have hn : ens.find? (fun en => !d.on en) = none := by
    rw [List.find?_eq_none]
    intro x hx
    simp [List.all_eq_true.1 he x hx]
  simp only [if_neg hp, hn]
theorem serves_run (d : Dev) (h : Hdr) (sid slot : Nat) (run : Nat → Dev → Res) (hs : d.serves h sid slot = true) :
    d.onSession h sid run = run slot (d.readLine slot).2 := by
  simp only [Dev.serves, Bool.and_eq_true, beq_iff_eq, Bool.not_eq_true'] at hs
  simp [Dev.onSession, hs.1.1, hs.1.2, hs.2]

end Sys2Proof.Machine
end

