-- ==== Sys2Proof/Machine/Store.lean ====
section
/-! DEFINITION. Where the page store's own records lie in the HBM of a die and the bytes that stand there: frame records, roots,
directories and leaf runs (R111 to R115, R207). The controller alone reads and writes them (R112), so that the model holds them as
structures and lays them out here; the bin table has no layout in the spec (log entry 70). -/
namespace Sys2Proof.Machine
open Sys2Proof

/-- Local offset of the frame-record area of a die: the top bins of its page region (R111). -/
def Dev.recordBase (d : Dev) (die : Nat) : Nat :=
  let bins := d.gi F.PGS_REGION_BINS die
  die * 2 ^ 47 + (d.gi F.PGS_REGION_BASE die + bins - recordBins bins) * 2 ^ 24
/-- Local offset of the record of a frame: (b * 4,096 + s) * 16 in the record area (R111). -/
def Dev.recordAddr (d : Dev) (id : Nat) : Nat :=
  d.recordBase (pageDie id) + (id / 2 ^ 12 % 2 ^ 19 * 4096 + id % 2 ^ 12) * 16
/-- The 16 bytes of a frame record (R112). -/
def Frame.bytes (f : Frame) : Bytes :=
  pack 16
    [⟨0, 0, 16, f.refcount⟩, ⟨0, 16, 4, f.cls⟩, ⟨0, 20, 7, f.fill⟩, ⟨0, 27, 8, f.layer⟩, ⟨0, 35, 16, f.pageIdx⟩,
     ⟨0, 51, 5, f.partition⟩, ⟨0, 56, 3, f.place⟩, ⟨0, 59, 2, f.fstate⟩, ⟨0, 61, 1, b2n f.moving⟩, ⟨8, 0, 22, f.owner⟩,
     ⟨8, 22, 1, b2n f.ownerValid⟩, ⟨8, 23, 8, f.heat⟩, ⟨8, 31, 17, f.heatRow⟩]
/-- The 8 bytes of a page-table entry that is VALID (R115). -/
def Pte.bytes (e : Pte) : Bytes := pack 8 [⟨0, 0, 32, e.pageId⟩, ⟨0, 32, 1, 1⟩, ⟨0, 33, 1, b2n e.cow⟩, ⟨0, 34, 4, e.cls⟩]
/-- An entry of a root or of a directory (R114). -/
def ptrBytes (ptr : Nat) (present direct : Bool) : Bytes :=
  pack 8 [⟨0, 0, 48, ptr⟩, ⟨0, 48, 1, b2n present⟩, ⟨0, 49, 1, b2n direct⟩]
/-- A pointer at a leaf of a session: zeros where it has none (R114). -/
def Dev.leafPtr (d : Dev) (slot : Nat) (x : Session) (l : Nat) (direct : Bool) : Bytes :=
  match NMap.get? x.ptLeaves l with
  | some b => ptrBytes (d.blockAddr (slotDie slot) b) true direct
  | none => ptrBytes 0 false false
/-- The root block of a session (R114): 256 layers are encoded as 0. -/
def Dev.rootBytes (d : Dev) (slot : Nat) : Bytes :=
  let x := d.sess slot
  let p := d.prof x
  let entry (l : Nat) : Bytes :=
    if !x.ptVia.contains l then d.leafPtr slot x (128 * l) true
    else ptrBytes (d.blockAddr (slotDie slot) (NMap.getD x.ptDirs (l / 4) 0) + 1024 * (l % 4)) (x.ptLeaves.any fun e => e.1 / 128 == l) false
  padTo 4096 (padTo 64 (pack 8 [⟨0, 0, 8, p.layers⟩, ⟨0, 8, 4, p.cls⟩, ⟨0, 12, 3, x.defaultPlace⟩]) ++ (List.range 256).flatMap entry)
/-- The directory block `j` of a session: 1 KiB for each of four layers, 128 leaf pointers (R113, R114). -/
def Dev.dirBytes (d : Dev) (slot j : Nat) : Bytes :=
  let x := d.sess slot
  (List.range 512).flatMap fun i =>
    if x.ptVia.contains (4 * j + i / 128) then d.leafPtr slot x (512 * j + i) false else ptrBytes 0 false false
/-- A leaf of a session: 512 entries (R113, R115). -/
def Session.leafBytes (x : Session) (l : Nat) : Bytes :=
  (List.range 512).flatMap fun i => match NMap.get? x.pt (l / 128 * 65536 + l % 128 * 512 + i) with
    | some e => e.bytes
    | none => leBytes 8 0
/-- Blocks 1 to 9 of a leaf run: coarse records, the two bitmaps, and the signature records (R207). -/
def Session.leafRunBytes (x : Session) (l : Nat) : Bytes :=
  let key (i : Nat) : Nat := l / 128 * 65536 + l % 128 * 512 + i
  let block (b : Nat) : Nat := l / 128 * 1024 + l % 128 * 8 + b
  let valid := (List.range 512).foldl (fun n i => setBit n i (NMap.has x.sigs (key i))) 0
  let coarse := (List.range 8).foldl (fun n b => setBit n b (NMap.has x.coarse (block b))) 0
  padTo 4096 (((List.range 8).flatMap fun b => leBytes 64 (NMap.getD x.coarse (block b) 0)) ++ leBytes 64 valid ++ leBytes 1 coarse) ++
    (List.range 512).flatMap fun i => leBytes 64 (NMap.getD x.sigs (key i) 0)
/-- The blocks of a session's page table with their local offsets (R113, R207). -/
def Dev.tableBytes (d : Dev) (slot : Nat) : List (Nat × Bytes) :=
  let x := d.sess slot
  let die := slotDie slot
  (if x.ptHeld then [(x.d.ptRoot, d.rootBytes slot)] else []) ++
    (x.ptDirs.map fun e => (d.blockAddr die e.2, d.dirBytes slot e.1)) ++
    x.ptLeaves.map fun e => (d.blockAddr die e.2, x.leafBytes e.1 ++ if 0 < (d.prof x).selGroups then x.leafRunBytes e.1 else [])
/-- What the page store keeps in HBM beside the pages: the listed frame records and every page table, by local offset (R111 to R115). -/
def Dev.storeBytes (d : Dev) : List (Nat × Bytes) :=
  (d.pgs.frames.map fun e => (d.recordAddr e.1, e.2.bytes)) ++ (NMap.keys d.ses.tab).flatMap d.tableBytes

end Sys2Proof.Machine
end

