-- ==== Sys2Proof/WellFormed.lean ====
section
/-! DEFINITION. Well-formed commands: every operand lies within its field. -/
namespace Sys2Proof

/-- A header whose numbers fit their fields (R519, R540). -/
def Hdr.wf (h : Hdr) : Bool :=
  decide (h.fn < 32 ∧ h.ring < 64 ∧ h.hseq < 2 ^ 32 ∧ h.eq < 2 ^ 16 ∧ h.mapEpoch < 2 ^ 32 ∧ h.ownerEpoch < 2 ^ 32)

/-- A number fits a field of `w` bits. -/
def fits (w n : Nat) : Bool := decide (n < 2 ^ w)
/-- A number is below a bound. -/
def below (b n : Nat) : Bool := decide (n < b)

/-- Every operand of a command lies within its field. -/
def Instr.wf : Instr → Bool
  | .registerWrite fn off whole _ _ => fits 5 fn && fits 26 off && fits 64 whole
  | .blockEnable fn block => fits 5 fn && below 14 block
  | .blockStop fn block => fits 5 fn && below 14 block
  | .blockIdle block => below 14 block
  | .regionRelayout fn field gib => fits 5 fn && below 5 field && fits 9 gib
  | .groupRestart fn g => fits 5 fn && fits 6 g
  | .go fn => fits 5 fn
  | .commandDoorbell fn ring tail _ => fits 5 fn && fits 6 ring && fits 32 tail
  | .replyHeadWrite fn ring head _ => fits 5 fn && fits 6 ring && fits 32 head
  | .eventHeadWrite fn queue head _ => fits 5 fn && fits 10 queue && fits 32 head
  | .ringEnable fn ring _ => fits 5 fn && fits 6 ring
  | .ringDisable fn ring => fits 5 fn && fits 6 ring
  | .eventQueueEnable fn queue _ => fits 5 fn && fits 10 queue
  | .eventQueueDisable fn queue => fits 5 fn && fits 10 queue
  | .interruptModeration fn _ index => fits 5 fn && fits 10 index
  | .sessionOpen h src len sub srv prof prio tkz port g _ _ _ => h.wf && fits 64 src && fits 32 len && fits 16 sub && fits 16 srv && fits 8 prof && fits 8 prio && fits 8 tkz && fits 8 port && fits 8 g
  | .sessionClose h sid => h.wf && fits 64 sid
  | .turnBegin h sid _ _ _ textAddr textLen maxNew _ _ _ _ _ _ _ batch batchSize prio => h.wf && fits 64 sid && fits 64 textAddr && fits 32 textLen && fits 32 maxNew && fits 16 batch && fits 16 batchSize && fits 8 prio
  | .turnCancel h sid turn _ => h.wf && fits 64 sid && fits 32 turn
  | .loadProfile h _ handle len slot _ => h.wf && fits 64 handle && fits 64 len && fits 8 slot
  | .loadWeave h len _ _ g _ => h.wf && fits 32 len && fits 8 g
  | .unload h kind slot => h.wf && fits 8 kind && fits 16 slot
  | .loadTokenizer h slot _ => h.wf && fits 8 slot
  | .loadGrammar h sid _ pol n => h.wf && fits 64 sid && fits 8 pol && fits 8 n
  | .bindGrammar h sid _ grammar pol n => h.wf && fits 64 sid && fits 16 grammar && fits 8 pol && fits 8 n
  | .setStops h sid count _ => h.wf && fits 64 sid && fits 8 count
  | .park h sid holder target => h.wf && fits 64 sid && fits 16 holder.ctrl && fits 8 target
  | .revive h sid mode => h.wf && fits 64 sid && fits 8 mode
  | .hintPlace h sid posLo posHi _ layerLo layerHi code => h.wf && fits 64 sid && fits 32 posLo && fits 32 posHi && fits 8 layerLo && fits 8 layerHi && fits 8 code
  | .setParkPolicy h sid hint fidelity => h.wf && fits 64 sid && fits 8 hint && fits 8 fidelity
  | .siftInsert h handle _ key tags _ _ bind nodesMax sideMax sideMerge dim efBuild degree metric fmt => h.wf && fits 32 handle && fits 64 key && fits 64 tags && fits 64 bind && fits 32 nodesMax && fits 32 sideMax && fits 32 sideMerge && fits 16 dim && fits 16 efBuild && fits 8 degree && fits 8 metric && fits 8 fmt
  | .siftDelete h handle _ key => h.wf && fits 32 handle && fits 64 key
  | .siftQuery h handle _ _ res all any k ef maxProbes rerank widenProbes fmt => h.wf && fits 32 handle && fits 64 res && fits 64 all && fits 64 any && fits 16 k && fits 16 ef && fits 16 maxProbes && fits 16 rerank && fits 16 widenProbes && fits 8 fmt
  | .siftMerge h handle => h.wf && fits 32 handle
  | .mergeDone handle => fits 32 handle
  | .partCreate h p _ w0 w1 w2 w3 w4 => h.wf && fits 8 p && fits 64 w0 && fits 64 w1 && fits 64 w2 && fits 64 w3 && fits 64 w4
  | .partDestroy h p => h.wf && fits 8 p
  | .partDestroyed p => fits 5 p
  | .shaperSet h kind levelMode budgetOp owner index promptW rebuildW overhead rate partMask _ _ _ burst budget => h.wf && fits 8 kind && fits 8 levelMode && fits 8 budgetOp && fits 8 owner && fits 16 index && fits 16 promptW && fits 16 rebuildW && fits 16 overhead && fits 32 rate && fits 32 partMask && fits 64 burst && fits 64 budget
  | .isoModeSet h mode frameExp => h.wf && fits 8 mode && fits 8 frameExp
  | .attest h _ addr len _ => h.wf && fits 64 addr && fits 32 len
  | .bindAuthority h seq _ _ _ _ => h.wf && fits 32 seq
  | .install h seq _ gen _ _ _ => h.wf && fits 32 seq && fits 32 gen
  | .retire h seq _ _ => h.wf && fits 32 seq
  | .clear h seq _ _ => h.wf && fits 32 seq
  | .weightsUnwrap h addr len _ => h.wf && fits 64 addr && fits 64 len
  | .scrub h mode => h.wf && fits 8 mode
  | .scrubDone _ => true
  | .ckptBegin h _ => h.wf
  | .ckptRestore h _ outAddr outLen gen _ _ _ _ others lostOthers => h.wf && fits 64 outAddr && fits 32 outLen && fits 8 gen && fits 32 others && fits 32 lostOthers
  | .composeMap h outAddr outLen _ => h.wf && fits 64 outAddr && fits 32 outLen
  | .ownerQuery h sid addr _ => h.wf && fits 64 sid && fits 64 addr
  | .blockReset h block _ => h.wf && fits 8 block
  | .blockIdleTimeout row => below 12 row
  | .deviceReset h kind => h.wf && fits 8 kind
  | .syncQuery h outAddr outLen ring => h.wf && fits 64 outAddr && fits 32 outLen && fits 8 ring
  | .syncReplay h outAddr frm outLen ring => h.wf && fits 64 outAddr && fits 32 frm && fits 32 outLen && fits 8 ring
  | .syncReset h frm ring => h.wf && fits 32 frm && fits 8 ring
  | .faultReport h addr len frm => h.wf && fits 64 addr && fits 32 len && fits 32 frm
  | .healthRead h addr len => h.wf && fits 64 addr && fits 32 len
  | .functionLevelReset fn => fits 5 fn
  | .perst => true
  | .stakeDoorbell g member word => fits 6 g && fits 9 member && fits 64 word
  | .stakeTimeout g => fits 6 g
  | .rowTimeout g => fits 6 g
  | .rowBoundary g => fits 6 g
  | .boundaryReportSend g => fits 6 g
  | .boundaryReport src gid row epoch mapEpoch status _ _ _ _ _ => fits 16 src && fits 32 gid && fits 48 row && fits 32 epoch && fits 32 mapEpoch && fits 16 status
  | .memberLost g => fits 6 g
  | .beacon src gid row epoch mapEpoch _ _ _ _ _ voidMap => fits 16 src && fits 32 gid && fits 48 row && fits 32 epoch && fits 32 mapEpoch && fits 64 voidMap
  | .rowBegin g => fits 6 g
  | .beaconQuery src gid row epoch mapEpoch => fits 16 src && fits 32 gid && fits 48 row && fits 32 epoch && fits 32 mapEpoch
  | .mapReady src gid row epoch mapEpoch => fits 16 src && fits 32 gid && fits 48 row && fits 32 epoch && fits 32 mapEpoch
  | .beaconLimit g => fits 6 g
  | .takeover g => fits 6 g
  | .queryTile _ _ qp imm _ => fits 24 qp && fits 32 imm
  | .tokenList g member row _ => fits 6 g && fits 8 member && fits 48 row
  | .pushTile _ _ qp imm _ => fits 24 qp && fits 32 imm
  | .rangePartial src _ => fits 16 src
  | .stepFire _ _ => true
  | .selection sid stake => fits 64 sid && fits 8 stake
  | .cowCopy slot layer page => fits 22 slot && fits 8 layer && fits 17 page
  | .descriptorFetch slot _ => fits 22 slot
  | .stallWatchdog e => fits 6 e
  | .taskComplete _ => true
  | .preemptionWait _ => true
  | .yield _ => true
  | .save _ => true
  | .restore _ => true
  | .idleToPark sid => fits 64 sid
  | .parkDurable sid => fits 64 sid
  | .mirrorTimeout sid => fits 64 sid
  | .reviveComplete sid _ => fits 64 sid
  | .rebuildTimeout sid => fits 64 sid
  | .warmCopy sid _ _ => fits 64 sid
  | .spillScan => true
  | .mirrorOpen src sid partition obj length epoch => fits 16 src && fits 64 sid && fits 5 partition && fits 3 obj && fits 64 length && fits 32 epoch
  | .mirrorData src sid obj offset _ => fits 16 src.node && fits 3 src.prio && fits 64 sid && fits 3 obj && fits 64 offset
  | .mirrorSeal src sid obj _ => fits 16 src && fits 64 sid && fits 3 obj
  | .mirrorDesc src sid partition epoch _ => fits 16 src && fits 64 sid && fits 5 partition && fits 32 epoch
  | .mirrorRelease src sid obj => fits 16 src && fits 64 sid && fits 3 obj
  | .mirrorAck src sid obj status length => fits 16 src && fits 64 sid && fits 3 obj && fits 16 status && fits 64 length
  | .mirrorRead src sid obj offset length => fits 16 src && fits 64 sid && fits 3 obj && fits 64 offset && fits 20 length
  | .mirrorReadData src sid obj offset status _ => fits 16 src && fits 64 sid && fits 3 obj && fits 64 offset && fits 16 status
  | .getDesc src sid => fits 16 src && fits 64 sid
  | .descReply src sid status _ => fits 16 src && fits 64 sid && fits 16 status
  | .objectRelease half index => fits 1 half && fits 23 index
  | .garbageCollection half victim dst _ => fits 1 half && fits 22 victim && fits 22 dst
  | .refresh half block dst reads bits => fits 1 half && fits 22 block && fits 22 dst && fits 32 reads && fits 16 bits
  | .retentionScan half _ _ => fits 1 half
  | .rootWrite half => fits 1 half
  | .mapSegmentWrite half b1 b2 => fits 1 half && fits 22 b1 && fits 22 b2
  | .uncorrectablePage half ppa dst => fits 1 half && fits 32 ppa && fits 22 dst
  | .programFailure half block dst => fits 1 half && fits 22 block && fits 22 dst
  | .eraseFailure half block => fits 1 half && fits 22 block
  | .hamperThermal half pkg temp => fits 1 half && fits 5 pkg && fits 8 temp
  | .powerFail _ => true
  | .powerRestored => true
  | .hamperRestore half => fits 1 half
  | .messageSend peer _ => fits 16 peer
  | .write port _ _ _ _ _ => fits 4 port
  | .readReq port _ _ _ _ => fits 4 port
  | .readResp port _ _ _ _ => fits 4 port
  | .send port _ _ _ _ _ => fits 4 port
  | .ack port _ _ _ => fits 4 port
  | .messageVisible conn => fits 14 conn
  | .ackTimer conn => fits 14 conn
  | .retransmission conn tsn => fits 14 conn && fits 48 tsn
  | .probeTimer conn path => fits 14 conn && fits 4 path
  | .probe port _ _ _ => fits 4 port
  | .probeReply port _ _ _ => fits 4 port
  | .busyRetry conn msn => fits 14 conn && fits 32 msn
  | .connReq port _ _ _ => fits 4 port
  | .connAccept port _ _ _ => fits 4 port
  | .connReject port _ reason => fits 4 port && fits 32 reason
  | .connReqRetry conn => fits 14 conn
  | .close port _ _ _ => fits 4 port
  | .rekey port _ _ _ _ _ => fits 4 port
  | .connIdle conn => fits 14 conn
  | .connFailed conn => fits 14 conn
  | .connFailedEnd conn => fits 14 conn
  | .pageFetch region page _ => fits 16 region && fits 20 page
  | .pageStall _ index seq => fits 16 index && fits 32 seq
  | .roceWrite qp psn key addr _ _ _ => fits 16 qp && fits 24 psn && fits 32 key && fits 64 addr
  | .roceRead qp psn key addr len _ => fits 16 qp && fits 24 psn && fits 32 key && fits 64 addr && fits 32 len
  | .roceSend qp psn op _ _ _ => fits 16 qp && fits 24 psn && fits 3 op
  | .cnp qp => fits 16 qp
  | .rateIncrease qp => fits 16 qp
  | .roceAckTimeout qp => fits 16 qp
  | .linkUp port => fits 4 port
  | .linkDown port => fits 4 port
  | .neighbourSolicitation port hi lo => fits 4 port && fits 64 hi && fits 64 lo
  | .ptpMessage port domain interval offset => fits 4 port && fits 8 domain && fits 64 interval && fits 32 offset
  | .ppsPulse _ => true
  | .holdover => true
  | .holdoverLimit => true
  | .renewTimer sid => fits 64 sid
  | .renew src sid epoch renewMs expiryMs => fits 16 src && fits 64 sid && fits 32 epoch && fits 16 renewMs && fits 16 expiryMs
  | .renewAck src sid epoch status renewMs expiryMs => fits 16 src && fits 64 sid && fits 32 epoch && fits 16 status && fits 16 renewMs && fits 16 expiryMs
  | .fence sid => fits 64 sid
  | .leaseReclaim sid => fits 64 sid
  | .offer src sid epoch target => fits 16 src && fits 64 sid && fits 32 epoch && fits 16 target
  | .offerAck src sid status => fits 16 src && fits 64 sid && fits 16 status
  | .propose src sid epoch _ want image => fits 16 src && fits 64 sid && fits 32 epoch && fits 64 want && fits 64 image
  | .accept src sid epoch addr region gen => fits 16 src && fits 64 sid && fits 32 epoch && fits 64 addr && fits 16 region && fits 32 gen
  | .refuse src sid => fits 16 src && fits 64 sid
  | .commit src sid epoch => fits 16 src && fits 64 sid && fits 32 epoch
  | .committed src sid epoch status => fits 16 src && fits 64 sid && fits 32 epoch && fits 16 status
  | .notice src sid epoch target => fits 16 src && fits 64 sid && fits 32 epoch && fits 16 target
  | .offerDeadline sid => fits 64 sid
  | .abort src sid => fits 16 src && fits 64 sid
  | .commitResend sid => fits 64 sid
  | .handoffLost sid => fits 64 sid
  | .reclaimed src sid epoch => fits 16 src && fits 64 sid && fits 32 epoch
  | .stateSync src sid epoch state tier histLen _ => fits 16 src && fits 64 sid && fits 32 epoch && fits 4 state && fits 3 tier && fits 23 histLen
  | .syncAck src sid epoch status histLen => fits 16 src && fits 64 sid && fits 32 epoch && fits 16 status && fits 23 histLen
  | .redirect src sid epoch target => fits 16 src && fits 64 sid && fits 32 epoch && fits 16 target
  | .dirPut src sid epoch owner acting buddy tier => fits 16 src && fits 64 sid && fits 32 epoch && fits 16 owner && fits 16 acting && fits 16 buddy && fits 3 tier
  | .dirDel src sid => fits 16 src && fits 64 sid
  | .dirAck src sid status => fits 16 src && fits 64 sid && fits 16 status
  | .dirGet src sid => fits 16 src && fits 64 sid
  | .dirReply src sid status epoch owner acting => fits 16 src && fits 64 sid && fits 16 status && fits 32 epoch && fits 16 owner && fits 16 acting
  | .drainWindow => true
  | .partitionExpiry p => fits 5 p
  | .shedStep => true
  | .clockStep => true
  | .powerClamp watts => fits 16 watts
  | .frameBoundary res _ _ => fits 8 res
  | .sensorSample _ avg peak vin iin bankMv => fits 16 avg && fits 16 peak && fits 16 vin && fits 16 iin && fits 16 bankMv
  | .thermalTrip sensor => below 93 sensor
  | .stageHold handle => fits 32 handle
  | .getVersion _ => true
  | .getCapabilities _ ver => fits 8 ver
  | .negotiateAlgorithms _ ver asym hash => fits 8 ver && fits 32 asym && fits 32 hash
  | .getDigests _ ver => fits 8 ver
  | .getCertificate _ ver slot off len room => fits 8 ver && fits 8 slot && fits 16 off && fits 16 len && fits 32 room
  | .challenge _ ver slot _ _ room => fits 8 ver && fits 8 slot && fits 32 room
  | .getMeasurements _ ver index _ _ room => fits 8 ver && fits 8 index && fits 32 room
  | .chunkGet _ ver seq off len => fits 8 ver && fits 16 seq && fits 32 off && fits 32 len
  | .pldmFirmwareUpdate _ slot _ svn1 svn2 _ _ => fits 1 slot && fits 16 svn1 && fits 16 svn2
  | .powerOn => true
  | .bankCharged _ us => fits 32 us
  | .railTimeout => true
  | .rstN => true
  | .startUp _ => true
  | .coreWatchdog core _ => fits 3 core
  | .correctedError kind idx n => fits 8 kind && fits 16 idx && fits 32 n
  | .transientFault kind idx failed loc fn ring => fits 8 kind && fits 16 idx && fits 8 failed && fits 64 loc && fits 5 fn && fits 6 ring
  | .engineFault e loc => fits 6 e && fits 64 loc
  | .faultWindow => true
  | .ckptPeriod _ => true
  | .ckptRequest src gid => fits 16 src && fits 32 gid
  | .beginFwd src gid _ => fits 16 src && fits 32 gid
  | .beginReply src gid status manifest cutRow => fits 16 src && fits 32 gid && fits 16 status && fits 64 manifest && fits 48 cutRow
  | .prepare src gid manifest cutRow flags => fits 16 src && fits 32 gid && fits 64 manifest && fits 48 cutRow && fits 5 flags
  | .prepared src gid manifest status => fits 16 src && fits 32 gid && fits 64 manifest && fits 16 status
  | .shardOpen src gid manifest flags length => fits 16 src && fits 32 gid && fits 64 manifest && fits 5 flags && fits 64 length
  | .shardData src manifest flags offset _ => fits 16 src && fits 64 manifest && fits 5 flags && fits 64 offset
  | .shardSeal src gid manifest flags _ => fits 16 src && fits 32 gid && fits 64 manifest && fits 5 flags
  | .ckptAck src gid manifest flags status => fits 16 src && fits 32 gid && fits 64 manifest && fits 5 flags && fits 16 status
  | .shardDurable _ => true
  | .shardDone src gid manifest _ => fits 16 src && fits 32 gid && fits 64 manifest
  | .manifestDurable _ => true
  | .commitGen src gid manifest cutRow => fits 16 src && fits 32 gid && fits 64 manifest && fits 48 cutRow
  | .ckptAbort src gid manifest cause => fits 16 src && fits 32 gid && fits 64 manifest && fits 8 cause
  | .shardRelease src manifest => fits 16 src && fits 64 manifest
  | .ckptBarrierTimeout _ => true
  | .ckptWriteTimeout _ => true
  | .flushComplete ms => below 251 ms
  | .belowModuleMinimum => true
  | .rstNRelease => true
  | .railRetry => true
  | .ppsTimeout => true
  | .roceAck qp psn nak => fits 16 qp && fits 24 psn && fits 2 nak
  | .pfcPause port prio _ => fits 4 port && fits 3 prio
  | .rxDrop port _ => fits 4 port
  | .forwardingExpiry sid => fits 64 sid
  | .vectorUnmask fn vec => fits 5 fn && fits 11 vec
  | .unassignedOpcode h op => h.wf && fits 16 op
  | .unsupportedRequest _ ver req => fits 8 ver && fits 8 req
  | .warmHolding src sid _ length partition => fits 16 src && fits 64 sid && fits 47 length && fits 5 partition
  | .nandProgramDone half blocks _ => fits 1 half && fits 22 blocks.first && fits 22 blocks.twin

end Sys2Proof
end

