-- ==== Sys2Proof/Tests/Slice0.lean ====
section
/-! SUPPORT. Tests: worked examples of the spec, ill-formed commands, and for every statement with hypotheses a state that meets
them. -/
section
set_option Elab.async false
open Sys2Proof Sys2Proof.Machine

/-! ## Worked examples -/

/-- The session id of the example after R33: controller 0x0113, generation 5, slot 0x2A41 (R71). -/
theorem test_session_id :
    sidHome 0x0113000001402A41 = 0x0113 ∧ sidGen 0x0113000001402A41 = 5 ∧ sidSlot 0x0113000001402A41 = 10817 := by
  decide +kernel
/-- Slots of Tessel-52 at FP8-E4M3 and MXFP4: 576 and 306 bytes (after R106 and R181). -/
theorem test_slot_bytes : slotBytesOf 3 512 64 = 576 ∧ slotBytesOf 7 512 64 = 306 := by decide +kernel
/-- Its pages: 36,928 bytes in class 8, of which a bin holds 409; at MXFP4 19,648 bytes in class 4. -/
theorem test_page_class :
    pagePayload 576 = 36928 ∧ classFor 36928 = some 8 ∧ classFrames 8 = 409 ∧ pagePayload 306 = 19648 ∧ classFor 19648 = some 4 := by
  decide +kernel
/-- Elements 0x1B, 0x10 and 0x82 of FP8-E4M3 (the example after R199). -/
theorem test_e4m3 :
    Elem.e4m3.val 0x1B = 859375 / 10000000 ∧ Elem.e4m3.val 0x10 = 3125 / 100000 ∧ Elem.e4m3.val 0x82 = -390625 / 100000000 := by
  decide +kernel
/-- Ties go to even and the largest finite value caps (R187, R188). -/
theorem test_rounding : Elem.e4m3.round 17 = Elem.e4m3.round 16 ∧ Elem.e4m3.val (Elem.e4m3.round 500) = 448 := by decide +kernel
/-- The distance of the example after R205: 9. -/
theorem test_signature_distance : hamming 64 0x0F0F0000FFFF1234 0x0F0E0000FF001234 = 9 := by decide +kernel
/-- The image of the example after R352: 3,180 positions of 576 bytes in 52 layers take 5,942 pages. -/
theorem test_image_pages :
    imagePages { layers := 52, dc := 512, dr := 64, dh := 128, storeFmt := 3, slotBytes := 576, selGroups := 8 } 3180 false = 5942 := by decide +kernel
/-- Status codes (R20). -/
theorem test_status_codes :
    Status.ok.code = 0 ∧ Status.retryAfter.code = 0x11 ∧ Status.staleGen.code = 0x40 ∧ Status.seqGap.code = 0x80 ∧
      Status.fault.code = 0xF0 := by decide
/-- Arithmetic of counters: saturating and wrapping (R7). -/
theorem test_counters : satAdd 16 65535 3 = 65535 ∧ wrapAdd 32 (2 ^ 32 - 1) 2 = 1 := by decide
/-- HSEQ distances are signed 32-bit values (R526): one below 0 is -1. -/
theorem test_seq_diff : signed 32 (0xFFFFFFFF + 2 ^ 32 - 0) = -1 := by decide
/-- The reset values of fields of three tables: IDLE_PARK_MS, FRAME_EXP and RANKS (R69, R489). -/
theorem test_reset_values :
    State.reset.dev.g F.ISO_MODE_FRAME_EXP = 20 ∧ State.reset.dev.g F.ISO_SHED_RANKS = 0x1AC688 ∧
      State.reset.dev.g F.SHP_STATUS_IDLE = 1 := by decide +kernel
/-- A zero written to the HBM lists nothing, so that equal contents are equal data. -/
theorem test_memory_canonical :
    Memory.writeAll [(5, 1)] 5 [0, 7] = [(6, 7)] ∧ Memory.wf [(5, 0)] = false ∧ Memory.wf [(6, 1), (5, 1)] = false := by decide +kernel
/-- A frame record, bit by bit from R112's table; the record of bin 3, slot 5 lies 196,688 bytes into the record area (R111). -/
theorem test_frame_record :
    Frame.bytes { refcount := 2, cls := 8, fill := 44, layer := 1, pageIdx := 49, partition := 3, place := 1, fstate := 2,
                  owner := 10817, ownerValid := true, heat := 7, heatRow := 300 } =
      [2, 0, 200, 10, 136, 1, 24, 17, 65, 42, 192, 3, 150, 0, 0, 0] ∧
      State.reset.dev.recordAddr (3 * 4096 + 5) = State.reset.dev.recordBase 0 + 196688 := by decide +kernel
/-- A page-table entry: page id 0x01003005, VALID, COW, class 8 (R115). -/
theorem test_page_entry : Pte.bytes { pageId := 0x01003005, cow := true, cls := 8 } = [5, 48, 0, 1, 35, 0, 0, 0] := by decide +kernel

/-! ## Ill-formed commands -/

/-- A header with one number outside its field. -/
theorem test_wf_header :
    ([{ fn := 32 }, { ring := 64 }, { hseq := 2 ^ 32 }, { eq := 2 ^ 16 }, { mapEpoch := 2 ^ 32 }, { ownerEpoch := 2 ^ 32 }] :
      List Hdr).all (fun h => !h.wf) = true := by decide +kernel
/-- The header at the top of its fields. -/
theorem test_wf_header_top :
    ({ fn := 31, ring := 63, hseq := 2 ^ 32 - 1, mapEpoch := 2 ^ 32 - 1, ownerEpoch := 2 ^ 32 - 1 } : Hdr).wf = true := by
  decide +kernel
/-- Commands with one operand outside its field. -/
theorem test_wf_refuses_1 : (
    [.registerWrite (2 ^ 5) 0 0 false false, .registerWrite 0 (2 ^ 26) 0 false false,
      .registerWrite 0 0 (2 ^ 64) false false, .blockEnable (2 ^ 5) 0, .blockEnable 0 14, .blockStop (2 ^ 5) 0,
      .blockStop 0 14, .blockIdle 14, .regionRelayout (2 ^ 5) 0 0, .regionRelayout 0 5 0, .regionRelayout 0 0 (2 ^ 9),
      .groupRestart (2 ^ 5) 0, .groupRestart 0 (2 ^ 6), .go (2 ^ 5), .commandDoorbell (2 ^ 5) 0 0 false,
      .commandDoorbell 0 (2 ^ 6) 0 false, .commandDoorbell 0 0 (2 ^ 32) false, .replyHeadWrite (2 ^ 5) 0 0 false,
      .replyHeadWrite 0 (2 ^ 6) 0 false, .replyHeadWrite 0 0 (2 ^ 32) false, .eventHeadWrite (2 ^ 5) 0 0 false,
      .eventHeadWrite 0 (2 ^ 10) 0 false, .eventHeadWrite 0 0 (2 ^ 32) false, .ringEnable (2 ^ 5) 0 false,
      .ringEnable 0 (2 ^ 6) false, .ringDisable (2 ^ 5) 0, .ringDisable 0 (2 ^ 6), .eventQueueEnable (2 ^ 5) 0 false,
      .eventQueueEnable 0 (2 ^ 10) false, .eventQueueDisable (2 ^ 5) 0, .eventQueueDisable 0 (2 ^ 10),
      .interruptModeration (2 ^ 5) false 0, .interruptModeration 0 false (2 ^ 10),
      .sessionOpen { fn := 32 } 0 0 0 0 0 0 0 0 0 false false false,
      .sessionOpen {} (2 ^ 64) 0 0 0 0 0 0 0 0 false false false,
      .sessionOpen {} 0 (2 ^ 32) 0 0 0 0 0 0 0 false false false,
      .sessionOpen {} 0 0 (2 ^ 16) 0 0 0 0 0 0 false false false,
      .sessionOpen {} 0 0 0 (2 ^ 16) 0 0 0 0 0 false false false,
      .sessionOpen {} 0 0 0 0 (2 ^ 8) 0 0 0 0 false false false, .sessionOpen {} 0 0 0 0 0 (2 ^ 8) 0 0 0 false false false] : List Instr).all (fun c => !c.wf) = true := by
  decide +kernel
/-- Commands with one operand outside its field. -/
theorem test_wf_refuses_2 : (
    [.sessionOpen {} 0 0 0 0 0 0 (2 ^ 8) 0 0 false false false, .sessionOpen {} 0 0 0 0 0 0 0 (2 ^ 8) 0 false false false,
      .sessionOpen {} 0 0 0 0 0 0 0 0 (2 ^ 8) false false false, .sessionClose { fn := 32 } 0, .sessionClose {} (2 ^ 64),
      .turnBegin { fn := 32 } 0 false [] [] 0 0 0 false false false false false false false 0 0 0,
      .turnBegin {} (2 ^ 64) false [] [] 0 0 0 false false false false false false false 0 0 0,
      .turnBegin {} 0 false [] [] (2 ^ 64) 0 0 false false false false false false false 0 0 0,
      .turnBegin {} 0 false [] [] 0 (2 ^ 32) 0 false false false false false false false 0 0 0,
      .turnBegin {} 0 false [] [] 0 0 (2 ^ 32) false false false false false false false 0 0 0,
      .turnBegin {} 0 false [] [] 0 0 0 false false false false false false false (2 ^ 16) 0 0,
      .turnBegin {} 0 false [] [] 0 0 0 false false false false false false false 0 (2 ^ 16) 0,
      .turnBegin {} 0 false [] [] 0 0 0 false false false false false false false 0 0 (2 ^ 8),
      .turnCancel { fn := 32 } 0 0 false, .turnCancel {} (2 ^ 64) 0 false, .turnCancel {} 0 (2 ^ 32) false,
      .loadProfile { fn := 32 } false 0 0 0 [], .loadProfile {} false (2 ^ 64) 0 0 [],
      .loadProfile {} false 0 (2 ^ 64) 0 [], .loadProfile {} false 0 0 (2 ^ 8) [],
      .loadWeave { fn := 32 } 0 false false 0 [], .loadWeave {} (2 ^ 32) false false 0 [],
      .loadWeave {} 0 false false (2 ^ 8) [], .unload { fn := 32 } 0 0, .unload {} (2 ^ 8) 0, .unload {} 0 (2 ^ 16),
      .loadTokenizer { fn := 32 } 0 [], .loadTokenizer {} (2 ^ 8) [], .loadGrammar { fn := 32 } 0 [] 0 0,
      .loadGrammar {} (2 ^ 64) [] 0 0, .loadGrammar {} 0 [] (2 ^ 8) 0, .loadGrammar {} 0 [] 0 (2 ^ 8),
      .bindGrammar { fn := 32 } 0 false 0 0 0, .bindGrammar {} (2 ^ 64) false 0 0 0, .bindGrammar {} 0 false (2 ^ 16) 0 0,
      .bindGrammar {} 0 false 0 (2 ^ 8) 0, .bindGrammar {} 0 false 0 0 (2 ^ 8), .setStops { fn := 32 } 0 0 [],
      .setStops {} (2 ^ 64) 0 [], .setStops {} 0 (2 ^ 8) []] : List Instr).all (fun c => !c.wf) = true := by
  decide +kernel
/-- Commands with one operand outside its field. -/
theorem test_wf_refuses_3 : (
    [.park { fn := 32 } 0 {} 0, .park {} (2 ^ 64) {} 0, .park {} 0 { ctrl := 2 ^ 16 } 0, .park {} 0 {} (2 ^ 8),
      .revive { fn := 32 } 0 0, .revive {} (2 ^ 64) 0, .revive {} 0 (2 ^ 8), .hintPlace { fn := 32 } 0 0 0 false 0 0 0,
      .hintPlace {} (2 ^ 64) 0 0 false 0 0 0, .hintPlace {} 0 (2 ^ 32) 0 false 0 0 0,
      .hintPlace {} 0 0 (2 ^ 32) false 0 0 0, .hintPlace {} 0 0 0 false (2 ^ 8) 0 0, .hintPlace {} 0 0 0 false 0 (2 ^ 8) 0,
      .hintPlace {} 0 0 0 false 0 0 (2 ^ 8), .setParkPolicy { fn := 32 } 0 0 0, .setParkPolicy {} (2 ^ 64) 0 0,
      .setParkPolicy {} 0 (2 ^ 8) 0, .setParkPolicy {} 0 0 (2 ^ 8),
      .siftInsert { fn := 32 } 0 false 0 0 [] [] 0 0 0 0 0 0 0 0 0,
      .siftInsert {} (2 ^ 32) false 0 0 [] [] 0 0 0 0 0 0 0 0 0, .siftInsert {} 0 false (2 ^ 64) 0 [] [] 0 0 0 0 0 0 0 0 0,
      .siftInsert {} 0 false 0 (2 ^ 64) [] [] 0 0 0 0 0 0 0 0 0, .siftInsert {} 0 false 0 0 [] [] (2 ^ 64) 0 0 0 0 0 0 0 0,
      .siftInsert {} 0 false 0 0 [] [] 0 (2 ^ 32) 0 0 0 0 0 0 0, .siftInsert {} 0 false 0 0 [] [] 0 0 (2 ^ 32) 0 0 0 0 0 0,
      .siftInsert {} 0 false 0 0 [] [] 0 0 0 (2 ^ 32) 0 0 0 0 0, .siftInsert {} 0 false 0 0 [] [] 0 0 0 0 (2 ^ 16) 0 0 0 0,
      .siftInsert {} 0 false 0 0 [] [] 0 0 0 0 0 (2 ^ 16) 0 0 0, .siftInsert {} 0 false 0 0 [] [] 0 0 0 0 0 0 (2 ^ 8) 0 0,
      .siftInsert {} 0 false 0 0 [] [] 0 0 0 0 0 0 0 (2 ^ 8) 0, .siftInsert {} 0 false 0 0 [] [] 0 0 0 0 0 0 0 0 (2 ^ 8),
      .siftDelete { fn := 32 } 0 false 0, .siftDelete {} (2 ^ 32) false 0, .siftDelete {} 0 false (2 ^ 64),
      .siftQuery { fn := 32 } 0 false [] 0 0 0 0 0 0 0 0 0, .siftQuery {} (2 ^ 32) false [] 0 0 0 0 0 0 0 0 0,
      .siftQuery {} 0 false [] (2 ^ 64) 0 0 0 0 0 0 0 0, .siftQuery {} 0 false [] 0 (2 ^ 64) 0 0 0 0 0 0 0,
      .siftQuery {} 0 false [] 0 0 (2 ^ 64) 0 0 0 0 0 0, .siftQuery {} 0 false [] 0 0 0 (2 ^ 16) 0 0 0 0 0] : List Instr).all (fun c => !c.wf) = true := by
  decide +kernel
/-- Commands with one operand outside its field. -/
theorem test_wf_refuses_4 : (
    [.siftQuery {} 0 false [] 0 0 0 0 (2 ^ 16) 0 0 0 0, .siftQuery {} 0 false [] 0 0 0 0 0 (2 ^ 16) 0 0 0,
      .siftQuery {} 0 false [] 0 0 0 0 0 0 (2 ^ 16) 0 0, .siftQuery {} 0 false [] 0 0 0 0 0 0 0 (2 ^ 16) 0,
      .siftQuery {} 0 false [] 0 0 0 0 0 0 0 0 (2 ^ 8), .siftMerge { fn := 32 } 0, .siftMerge {} (2 ^ 32),
      .mergeDone (2 ^ 32), .partCreate { fn := 32 } 0 false 0 0 0 0 0, .partCreate {} (2 ^ 8) false 0 0 0 0 0,
      .partCreate {} 0 false (2 ^ 64) 0 0 0 0, .partCreate {} 0 false 0 (2 ^ 64) 0 0 0,
      .partCreate {} 0 false 0 0 (2 ^ 64) 0 0, .partCreate {} 0 false 0 0 0 (2 ^ 64) 0,
      .partCreate {} 0 false 0 0 0 0 (2 ^ 64), .partDestroy { fn := 32 } 0, .partDestroy {} (2 ^ 8),
      .partDestroyed (2 ^ 5), .shaperSet { fn := 32 } 0 0 0 0 0 0 0 0 0 0 false false false 0 0,
      .shaperSet {} (2 ^ 8) 0 0 0 0 0 0 0 0 0 false false false 0 0,
      .shaperSet {} 0 (2 ^ 8) 0 0 0 0 0 0 0 0 false false false 0 0,
      .shaperSet {} 0 0 (2 ^ 8) 0 0 0 0 0 0 0 false false false 0 0,
      .shaperSet {} 0 0 0 (2 ^ 8) 0 0 0 0 0 0 false false false 0 0,
      .shaperSet {} 0 0 0 0 (2 ^ 16) 0 0 0 0 0 false false false 0 0,
      .shaperSet {} 0 0 0 0 0 (2 ^ 16) 0 0 0 0 false false false 0 0,
      .shaperSet {} 0 0 0 0 0 0 (2 ^ 16) 0 0 0 false false false 0 0,
      .shaperSet {} 0 0 0 0 0 0 0 (2 ^ 16) 0 0 false false false 0 0,
      .shaperSet {} 0 0 0 0 0 0 0 0 (2 ^ 32) 0 false false false 0 0,
      .shaperSet {} 0 0 0 0 0 0 0 0 0 (2 ^ 32) false false false 0 0,
      .shaperSet {} 0 0 0 0 0 0 0 0 0 0 false false false (2 ^ 64) 0,
      .shaperSet {} 0 0 0 0 0 0 0 0 0 0 false false false 0 (2 ^ 64), .isoModeSet { fn := 32 } 0 0,
      .isoModeSet {} (2 ^ 8) 0, .isoModeSet {} 0 (2 ^ 8), .attest { fn := 32 } [] 0 0 false,
      .attest {} [] (2 ^ 64) 0 false, .attest {} [] 0 (2 ^ 32) false, .bindAuthority { fn := 32 } 0 [] [] [] [],
      .bindAuthority {} (2 ^ 32) [] [] [] [], .install { fn := 32 } 0 [] 0 [] [] []] : List Instr).all (fun c => !c.wf) = true := by
  decide +kernel
/-- Commands with one operand outside its field. -/
theorem test_wf_refuses_5 : (
    [.install {} (2 ^ 32) [] 0 [] [] [], .install {} 0 [] (2 ^ 32) [] [] [], .retire { fn := 32 } 0 [] [],
      .retire {} (2 ^ 32) [] [], .clear { fn := 32 } 0 [] [], .clear {} (2 ^ 32) [] [], .weightsUnwrap { fn := 32 } 0 0 [],
      .weightsUnwrap {} (2 ^ 64) 0 [], .weightsUnwrap {} 0 (2 ^ 64) [], .scrub { fn := 32 } 0, .scrub {} (2 ^ 8),
      .ckptBegin { fn := 32 } [], .ckptRestore { fn := 32 } [] 0 0 0 false [] [] [] 0 0,
      .ckptRestore {} [] (2 ^ 64) 0 0 false [] [] [] 0 0, .ckptRestore {} [] 0 (2 ^ 32) 0 false [] [] [] 0 0,
      .ckptRestore {} [] 0 0 (2 ^ 8) false [] [] [] 0 0, .ckptRestore {} [] 0 0 0 false [] [] [] (2 ^ 32) 0,
      .ckptRestore {} [] 0 0 0 false [] [] [] 0 (2 ^ 32), .composeMap { fn := 32 } 0 0 [], .composeMap {} (2 ^ 64) 0 [],
      .composeMap {} 0 (2 ^ 32) [], .ownerQuery { fn := 32 } 0 0 false, .ownerQuery {} (2 ^ 64) 0 false,
      .ownerQuery {} 0 (2 ^ 64) false, .blockReset { fn := 32 } 0 false, .blockReset {} (2 ^ 8) false,
      .blockIdleTimeout 12, .deviceReset { fn := 32 } 0, .deviceReset {} (2 ^ 8), .syncQuery { fn := 32 } 0 0 0,
      .syncQuery {} (2 ^ 64) 0 0, .syncQuery {} 0 (2 ^ 32) 0, .syncQuery {} 0 0 (2 ^ 8), .syncReplay { fn := 32 } 0 0 0 0,
      .syncReplay {} (2 ^ 64) 0 0 0, .syncReplay {} 0 (2 ^ 32) 0 0, .syncReplay {} 0 0 (2 ^ 32) 0,
      .syncReplay {} 0 0 0 (2 ^ 8), .syncReset { fn := 32 } 0 0, .syncReset {} (2 ^ 32) 0] : List Instr).all (fun c => !c.wf) = true := by
  decide +kernel
/-- Commands with one operand outside its field. -/
theorem test_wf_refuses_6 : (
    [.syncReset {} 0 (2 ^ 8), .faultReport { fn := 32 } 0 0 0, .faultReport {} (2 ^ 64) 0 0, .faultReport {} 0 (2 ^ 32) 0,
      .faultReport {} 0 0 (2 ^ 32), .healthRead { fn := 32 } 0 0, .healthRead {} (2 ^ 64) 0, .healthRead {} 0 (2 ^ 32),
      .functionLevelReset (2 ^ 5), .stakeDoorbell (2 ^ 6) 0 0, .stakeDoorbell 0 (2 ^ 9) 0, .stakeDoorbell 0 0 (2 ^ 64),
      .stakeTimeout (2 ^ 6), .rowTimeout (2 ^ 6), .rowBoundary (2 ^ 6), .boundaryReportSend (2 ^ 6),
      .boundaryReport (2 ^ 16) 0 0 0 0 0 false false false false false,
      .boundaryReport 0 (2 ^ 32) 0 0 0 0 false false false false false,
      .boundaryReport 0 0 (2 ^ 48) 0 0 0 false false false false false,
      .boundaryReport 0 0 0 (2 ^ 32) 0 0 false false false false false,
      .boundaryReport 0 0 0 0 (2 ^ 32) 0 false false false false false,
      .boundaryReport 0 0 0 0 0 (2 ^ 16) false false false false false, .memberLost (2 ^ 6),
      .beacon (2 ^ 16) 0 0 0 0 false false false false false 0, .beacon 0 (2 ^ 32) 0 0 0 false false false false false 0,
      .beacon 0 0 (2 ^ 48) 0 0 false false false false false 0, .beacon 0 0 0 (2 ^ 32) 0 false false false false false 0,
      .beacon 0 0 0 0 (2 ^ 32) false false false false false 0, .beacon 0 0 0 0 0 false false false false false (2 ^ 64),
      .rowBegin (2 ^ 6), .beaconQuery (2 ^ 16) 0 0 0 0, .beaconQuery 0 (2 ^ 32) 0 0 0, .beaconQuery 0 0 (2 ^ 48) 0 0,
      .beaconQuery 0 0 0 (2 ^ 32) 0, .beaconQuery 0 0 0 0 (2 ^ 32), .mapReady (2 ^ 16) 0 0 0 0, .mapReady 0 (2 ^ 32) 0 0 0,
      .mapReady 0 0 (2 ^ 48) 0 0, .mapReady 0 0 0 (2 ^ 32) 0, .mapReady 0 0 0 0 (2 ^ 32)] : List Instr).all (fun c => !c.wf) = true := by
  decide +kernel
/-- Commands with one operand outside its field. -/
theorem test_wf_refuses_7 : (
    [.beaconLimit (2 ^ 6), .takeover (2 ^ 6), .queryTile 0 0 (2 ^ 24) 0 [], .queryTile 0 0 0 (2 ^ 32) [],
      .tokenList (2 ^ 6) 0 0 [], .tokenList 0 (2 ^ 8) 0 [], .tokenList 0 0 (2 ^ 48) [], .pushTile 0 0 (2 ^ 24) 0 [],
      .pushTile 0 0 0 (2 ^ 32) [], .rangePartial (2 ^ 16) [], .selection (2 ^ 64) 0, .selection 0 (2 ^ 8),
      .cowCopy (2 ^ 22) 0 0, .cowCopy 0 (2 ^ 8) 0, .cowCopy 0 0 (2 ^ 17), .descriptorFetch (2 ^ 22) false,
      .stallWatchdog (2 ^ 6), .idleToPark (2 ^ 64), .parkDurable (2 ^ 64), .mirrorTimeout (2 ^ 64),
      .reviveComplete (2 ^ 64) [], .rebuildTimeout (2 ^ 64), .warmCopy (2 ^ 64) false [], .mirrorOpen (2 ^ 16) 0 0 0 0 0,
      .mirrorOpen 0 (2 ^ 64) 0 0 0 0, .mirrorOpen 0 0 (2 ^ 5) 0 0 0, .mirrorOpen 0 0 0 (2 ^ 3) 0 0,
      .mirrorOpen 0 0 0 0 (2 ^ 64) 0, .mirrorOpen 0 0 0 0 0 (2 ^ 32), .mirrorData ⟨2 ^ 16, 0⟩ 0 0 0 [], .mirrorData ⟨0, 2 ^ 3⟩ 0 0 0 [],
      .mirrorData ⟨0, 0⟩ (2 ^ 64) 0 0 [], .mirrorData ⟨0, 0⟩ 0 (2 ^ 3) 0 [], .mirrorData ⟨0, 0⟩ 0 0 (2 ^ 64) [],
      .mirrorSeal (2 ^ 16) 0 0 [], .mirrorSeal 0 (2 ^ 64) 0 [], .mirrorSeal 0 0 (2 ^ 3) [], .mirrorDesc (2 ^ 16) 0 0 0 [],
      .mirrorDesc 0 (2 ^ 64) 0 0 [], .mirrorDesc 0 0 (2 ^ 5) 0 [], .mirrorDesc 0 0 0 (2 ^ 32) []] : List Instr).all (fun c => !c.wf) = true := by
  decide +kernel
/-- Commands with one operand outside its field. -/
theorem test_wf_refuses_8 : (
    [.mirrorRelease (2 ^ 16) 0 0, .mirrorRelease 0 (2 ^ 64) 0, .mirrorRelease 0 0 (2 ^ 3), .mirrorAck (2 ^ 16) 0 0 0 0,
      .mirrorAck 0 (2 ^ 64) 0 0 0, .mirrorAck 0 0 (2 ^ 3) 0 0, .mirrorAck 0 0 0 (2 ^ 16) 0, .mirrorAck 0 0 0 0 (2 ^ 64),
      .mirrorRead (2 ^ 16) 0 0 0 0, .mirrorRead 0 (2 ^ 64) 0 0 0, .mirrorRead 0 0 (2 ^ 3) 0 0,
      .mirrorRead 0 0 0 (2 ^ 64) 0, .mirrorRead 0 0 0 0 (2 ^ 20), .mirrorReadData (2 ^ 16) 0 0 0 0 [],
      .mirrorReadData 0 (2 ^ 64) 0 0 0 [], .mirrorReadData 0 0 (2 ^ 3) 0 0 [], .mirrorReadData 0 0 0 (2 ^ 64) 0 [],
      .mirrorReadData 0 0 0 0 (2 ^ 16) [], .getDesc (2 ^ 16) 0, .getDesc 0 (2 ^ 64), .descReply (2 ^ 16) 0 0 [],
      .descReply 0 (2 ^ 64) 0 [], .descReply 0 0 (2 ^ 16) [], .objectRelease (2 ^ 1) 0, .objectRelease 0 (2 ^ 23),
      .garbageCollection (2 ^ 1) 0 0 false, .garbageCollection 0 (2 ^ 22) 0 false, .garbageCollection 0 0 (2 ^ 22) false,
      .refresh (2 ^ 1) 0 0 0 0, .refresh 0 (2 ^ 22) 0 0 0, .refresh 0 0 (2 ^ 22) 0 0, .refresh 0 0 0 (2 ^ 32) 0,
      .refresh 0 0 0 0 (2 ^ 16), .retentionScan (2 ^ 1) [] [], .rootWrite (2 ^ 1), .mapSegmentWrite (2 ^ 1) 0 0,
      .mapSegmentWrite 0 (2 ^ 22) 0, .mapSegmentWrite 0 0 (2 ^ 22), .uncorrectablePage (2 ^ 1) 0 0,
      .uncorrectablePage 0 (2 ^ 32) 0] : List Instr).all (fun c => !c.wf) = true := by
  decide +kernel
/-- Commands with one operand outside its field. -/
theorem test_wf_refuses_9 : (
    [.uncorrectablePage 0 0 (2 ^ 22), .programFailure (2 ^ 1) 0 0, .programFailure 0 (2 ^ 22) 0,
      .programFailure 0 0 (2 ^ 22), .eraseFailure (2 ^ 1) 0, .eraseFailure 0 (2 ^ 22), .hamperThermal (2 ^ 1) 0 0,
      .hamperThermal 0 (2 ^ 5) 0, .hamperThermal 0 0 (2 ^ 8), .hamperRestore (2 ^ 1), .messageSend (2 ^ 16) false,
      .write (2 ^ 4) false false false [] [], .readReq (2 ^ 4) false false false [], .readResp (2 ^ 4) false false [] [],
      .send (2 ^ 4) false false false [] [], .ack (2 ^ 4) false false [], .messageVisible (2 ^ 14), .ackTimer (2 ^ 14),
      .retransmission (2 ^ 14) 0, .retransmission 0 (2 ^ 48), .probeTimer (2 ^ 14) 0, .probeTimer 0 (2 ^ 4),
      .probe (2 ^ 4) false false [], .probeReply (2 ^ 4) false false [], .busyRetry (2 ^ 14) 0, .busyRetry 0 (2 ^ 32),
      .connReq (2 ^ 4) false [] [], .connAccept (2 ^ 4) false [] [], .connReject (2 ^ 4) [] 0, .connReject 0 [] (2 ^ 32),
      .connReqRetry (2 ^ 14), .close (2 ^ 4) false false [], .rekey (2 ^ 4) false false false [] [], .connIdle (2 ^ 14),
      .connFailed (2 ^ 14), .connFailedEnd (2 ^ 14), .pageFetch (2 ^ 16) 0 false, .pageFetch 0 (2 ^ 20) false,
      .pageStall false (2 ^ 16) 0, .pageStall false 0 (2 ^ 32)] : List Instr).all (fun c => !c.wf) = true := by
  decide +kernel
/-- Commands with one operand outside its field. -/
theorem test_wf_refuses_10 : (
    [.roceWrite (2 ^ 16) 0 0 0 none false [], .roceWrite 0 (2 ^ 24) 0 0 none false [],
      .roceWrite 0 0 (2 ^ 32) 0 none false [], .roceWrite 0 0 0 (2 ^ 64) none false [], .roceRead (2 ^ 16) 0 0 0 0 false,
      .roceRead 0 (2 ^ 24) 0 0 0 false, .roceRead 0 0 (2 ^ 32) 0 0 false, .roceRead 0 0 0 (2 ^ 64) 0 false,
      .roceRead 0 0 0 0 (2 ^ 32) false, .roceSend (2 ^ 16) 0 0 none false [], .roceSend 0 (2 ^ 24) 0 none false [],
      .roceSend 0 0 (2 ^ 3) none false [], .cnp (2 ^ 16), .rateIncrease (2 ^ 16), .roceAckTimeout (2 ^ 16),
      .linkUp (2 ^ 4), .linkDown (2 ^ 4), .neighbourSolicitation (2 ^ 4) 0 0, .neighbourSolicitation 0 (2 ^ 64) 0,
      .neighbourSolicitation 0 0 (2 ^ 64), .ptpMessage (2 ^ 4) 0 0 0, .ptpMessage 0 (2 ^ 8) 0 0,
      .ptpMessage 0 0 (2 ^ 64) 0, .ptpMessage 0 0 0 (2 ^ 32), .renewTimer (2 ^ 64), .renew (2 ^ 16) 0 0 0 0,
      .renew 0 (2 ^ 64) 0 0 0, .renew 0 0 (2 ^ 32) 0 0, .renew 0 0 0 (2 ^ 16) 0, .renew 0 0 0 0 (2 ^ 16),
      .renewAck (2 ^ 16) 0 0 0 0 0, .renewAck 0 (2 ^ 64) 0 0 0 0, .renewAck 0 0 (2 ^ 32) 0 0 0,
      .renewAck 0 0 0 (2 ^ 16) 0 0, .renewAck 0 0 0 0 (2 ^ 16) 0, .renewAck 0 0 0 0 0 (2 ^ 16), .fence (2 ^ 64),
      .leaseReclaim (2 ^ 64), .offer (2 ^ 16) 0 0 0, .offer 0 (2 ^ 64) 0 0] : List Instr).all (fun c => !c.wf) = true := by
  decide +kernel
/-- Commands with one operand outside its field. -/
theorem test_wf_refuses_11 : (
    [.offer 0 0 (2 ^ 32) 0, .offer 0 0 0 (2 ^ 16), .offerAck (2 ^ 16) 0 0, .offerAck 0 (2 ^ 64) 0, .offerAck 0 0 (2 ^ 16),
      .propose (2 ^ 16) 0 0 [] 0 0, .propose 0 (2 ^ 64) 0 [] 0 0, .propose 0 0 (2 ^ 32) [] 0 0,
      .propose 0 0 0 [] (2 ^ 64) 0, .propose 0 0 0 [] 0 (2 ^ 64), .accept (2 ^ 16) 0 0 0 0 0, .accept 0 (2 ^ 64) 0 0 0 0,
      .accept 0 0 (2 ^ 32) 0 0 0, .accept 0 0 0 (2 ^ 64) 0 0, .accept 0 0 0 0 (2 ^ 16) 0, .accept 0 0 0 0 0 (2 ^ 32),
      .refuse (2 ^ 16) 0, .refuse 0 (2 ^ 64), .commit (2 ^ 16) 0 0, .commit 0 (2 ^ 64) 0, .commit 0 0 (2 ^ 32),
      .committed (2 ^ 16) 0 0 0, .committed 0 (2 ^ 64) 0 0, .committed 0 0 (2 ^ 32) 0, .committed 0 0 0 (2 ^ 16),
      .notice (2 ^ 16) 0 0 0, .notice 0 (2 ^ 64) 0 0, .notice 0 0 (2 ^ 32) 0, .notice 0 0 0 (2 ^ 16),
      .offerDeadline (2 ^ 64), .abort (2 ^ 16) 0, .abort 0 (2 ^ 64), .commitResend (2 ^ 64), .handoffLost (2 ^ 64),
      .reclaimed (2 ^ 16) 0 0, .reclaimed 0 (2 ^ 64) 0, .reclaimed 0 0 (2 ^ 32), .stateSync (2 ^ 16) 0 0 0 0 0 [],
      .stateSync 0 (2 ^ 64) 0 0 0 0 [], .stateSync 0 0 (2 ^ 32) 0 0 0 []] : List Instr).all (fun c => !c.wf) = true := by
  decide +kernel
/-- Commands with one operand outside its field. -/
theorem test_wf_refuses_12 : (
    [.stateSync 0 0 0 (2 ^ 4) 0 0 [], .stateSync 0 0 0 0 (2 ^ 3) 0 [], .stateSync 0 0 0 0 0 (2 ^ 23) [],
      .syncAck (2 ^ 16) 0 0 0 0, .syncAck 0 (2 ^ 64) 0 0 0, .syncAck 0 0 (2 ^ 32) 0 0, .syncAck 0 0 0 (2 ^ 16) 0,
      .syncAck 0 0 0 0 (2 ^ 23), .redirect (2 ^ 16) 0 0 0, .redirect 0 (2 ^ 64) 0 0, .redirect 0 0 (2 ^ 32) 0,
      .redirect 0 0 0 (2 ^ 16), .dirPut (2 ^ 16) 0 0 0 0 0 0, .dirPut 0 (2 ^ 64) 0 0 0 0 0, .dirPut 0 0 (2 ^ 32) 0 0 0 0,
      .dirPut 0 0 0 (2 ^ 16) 0 0 0, .dirPut 0 0 0 0 (2 ^ 16) 0 0, .dirPut 0 0 0 0 0 (2 ^ 16) 0,
      .dirPut 0 0 0 0 0 0 (2 ^ 3), .dirDel (2 ^ 16) 0, .dirDel 0 (2 ^ 64), .dirAck (2 ^ 16) 0 0, .dirAck 0 (2 ^ 64) 0,
      .dirAck 0 0 (2 ^ 16), .dirGet (2 ^ 16) 0, .dirGet 0 (2 ^ 64), .dirReply (2 ^ 16) 0 0 0 0 0,
      .dirReply 0 (2 ^ 64) 0 0 0 0, .dirReply 0 0 (2 ^ 16) 0 0 0, .dirReply 0 0 0 (2 ^ 32) 0 0,
      .dirReply 0 0 0 0 (2 ^ 16) 0, .dirReply 0 0 0 0 0 (2 ^ 16), .partitionExpiry (2 ^ 5), .powerClamp (2 ^ 16),
      .frameBoundary (2 ^ 8) [] [], .sensorSample [] (2 ^ 16) 0 0 0 0, .sensorSample [] 0 (2 ^ 16) 0 0 0,
      .sensorSample [] 0 0 (2 ^ 16) 0 0, .sensorSample [] 0 0 0 (2 ^ 16) 0, .sensorSample [] 0 0 0 0 (2 ^ 16)] : List Instr).all (fun c => !c.wf) = true := by
  decide +kernel
/-- Commands with one operand outside its field. -/
theorem test_wf_refuses_13 : (
    [.thermalTrip 93, .stageHold (2 ^ 32), .getCapabilities false (2 ^ 8), .negotiateAlgorithms false (2 ^ 8) 0 0,
      .negotiateAlgorithms false 0 (2 ^ 32) 0, .negotiateAlgorithms false 0 0 (2 ^ 32), .getDigests false (2 ^ 8),
      .getCertificate false (2 ^ 8) 0 0 0 0, .getCertificate false 0 (2 ^ 8) 0 0 0, .getCertificate false 0 0 (2 ^ 16) 0 0,
      .getCertificate false 0 0 0 (2 ^ 16) 0, .getCertificate false 0 0 0 0 (2 ^ 32),
      .challenge false (2 ^ 8) 0 false [] 0, .challenge false 0 (2 ^ 8) false [] 0, .challenge false 0 0 false [] (2 ^ 32),
      .getMeasurements false (2 ^ 8) 0 false [] 0, .getMeasurements false 0 (2 ^ 8) false [] 0,
      .getMeasurements false 0 0 false [] (2 ^ 32), .chunkGet false (2 ^ 8) 0 0 0, .chunkGet false 0 (2 ^ 16) 0 0,
      .chunkGet false 0 0 (2 ^ 32) 0, .chunkGet false 0 0 0 (2 ^ 32), .pldmFirmwareUpdate false (2 ^ 1) [] 0 0 false false,
      .pldmFirmwareUpdate false 0 [] (2 ^ 16) 0 false false, .pldmFirmwareUpdate false 0 [] 0 (2 ^ 16) false false,
      .bankCharged false (2 ^ 32), .coreWatchdog (2 ^ 3) [], .correctedError (2 ^ 8) 0 0, .correctedError 0 (2 ^ 16) 0,
      .correctedError 0 0 (2 ^ 32), .transientFault (2 ^ 8) 0 0 0 0 0, .transientFault 0 (2 ^ 16) 0 0 0 0,
      .transientFault 0 0 (2 ^ 8) 0 0 0, .transientFault 0 0 0 (2 ^ 64) 0 0, .transientFault 0 0 0 0 (2 ^ 5) 0,
      .transientFault 0 0 0 0 0 (2 ^ 6), .engineFault (2 ^ 6) 0, .engineFault 0 (2 ^ 64), .ckptRequest (2 ^ 16) 0,
      .ckptRequest 0 (2 ^ 32)] : List Instr).all (fun c => !c.wf) = true := by
  decide +kernel
/-- Commands with one operand outside its field. -/
theorem test_wf_refuses_14 : (
    [.beginFwd (2 ^ 16) 0 [], .beginFwd 0 (2 ^ 32) [], .beginReply (2 ^ 16) 0 0 0 0, .beginReply 0 (2 ^ 32) 0 0 0,
      .beginReply 0 0 (2 ^ 16) 0 0, .beginReply 0 0 0 (2 ^ 64) 0, .beginReply 0 0 0 0 (2 ^ 48), .prepare (2 ^ 16) 0 0 0 0,
      .prepare 0 (2 ^ 32) 0 0 0, .prepare 0 0 (2 ^ 64) 0 0, .prepare 0 0 0 (2 ^ 48) 0, .prepare 0 0 0 0 (2 ^ 5),
      .prepared (2 ^ 16) 0 0 0, .prepared 0 (2 ^ 32) 0 0, .prepared 0 0 (2 ^ 64) 0, .prepared 0 0 0 (2 ^ 16),
      .shardOpen (2 ^ 16) 0 0 0 0, .shardOpen 0 (2 ^ 32) 0 0 0, .shardOpen 0 0 (2 ^ 64) 0 0, .shardOpen 0 0 0 (2 ^ 5) 0,
      .shardOpen 0 0 0 0 (2 ^ 64), .shardData (2 ^ 16) 0 0 0 [], .shardData 0 (2 ^ 64) 0 0 [], .shardData 0 0 (2 ^ 5) 0 [],
      .shardData 0 0 0 (2 ^ 64) [], .shardSeal (2 ^ 16) 0 0 0 [], .shardSeal 0 (2 ^ 32) 0 0 [],
      .shardSeal 0 0 (2 ^ 64) 0 [], .shardSeal 0 0 0 (2 ^ 5) [], .ckptAck (2 ^ 16) 0 0 0 0, .ckptAck 0 (2 ^ 32) 0 0 0,
      .ckptAck 0 0 (2 ^ 64) 0 0, .ckptAck 0 0 0 (2 ^ 5) 0, .ckptAck 0 0 0 0 (2 ^ 16), .shardDone (2 ^ 16) 0 0 [],
      .shardDone 0 (2 ^ 32) 0 [], .shardDone 0 0 (2 ^ 64) [], .commitGen (2 ^ 16) 0 0 0, .commitGen 0 (2 ^ 32) 0 0,
      .commitGen 0 0 (2 ^ 64) 0] : List Instr).all (fun c => !c.wf) = true := by
  decide +kernel
/-- Commands with one operand outside its field. -/
theorem test_wf_refuses_15 : (
    [.commitGen 0 0 0 (2 ^ 48), .ckptAbort (2 ^ 16) 0 0 0, .ckptAbort 0 (2 ^ 32) 0 0, .ckptAbort 0 0 (2 ^ 64) 0,
      .ckptAbort 0 0 0 (2 ^ 8), .shardRelease (2 ^ 16) 0, .shardRelease 0 (2 ^ 64), .flushComplete 251,
      .roceAck (2 ^ 16) 0 0, .roceAck 0 (2 ^ 24) 0, .roceAck 0 0 (2 ^ 2), .pfcPause (2 ^ 4) 0 false,
      .pfcPause 0 (2 ^ 3) false, .rxDrop (2 ^ 4) false, .forwardingExpiry (2 ^ 64), .vectorUnmask (2 ^ 5) 0,
      .vectorUnmask 0 (2 ^ 11), .unassignedOpcode { fn := 32 } 0, .unassignedOpcode {} (2 ^ 16),
      .unsupportedRequest false (2 ^ 8) 0, .unsupportedRequest false 0 (2 ^ 8), .warmHolding (2 ^ 16) 0 false 0 0,
      .warmHolding 0 (2 ^ 64) false 0 0, .warmHolding 0 0 false (2 ^ 47) 0, .warmHolding 0 0 false 0 (2 ^ 5),
      .nandProgramDone (2 ^ 1) ⟨0, 0⟩ [], .nandProgramDone 0 ⟨2 ^ 22, 0⟩ [], .nandProgramDone 0 ⟨0, 2 ^ 22⟩ []] : List Instr).all (fun c => !c.wf) = true := by
  decide +kernel
/-- Commands whose operands lie in their fields. -/
theorem test_wf_takes_1 : (
    [.registerWrite 0 0 0 false false, .blockEnable 0 0, .blockStop 0 0, .blockIdle 0, .regionRelayout 0 0 0,
      .groupRestart 0 0, .go 0, .commandDoorbell 0 0 0 false, .replyHeadWrite 0 0 0 false, .eventHeadWrite 0 0 0 false,
      .ringEnable 0 0 false, .ringDisable 0 0, .eventQueueEnable 0 0 false, .eventQueueDisable 0 0,
      .interruptModeration 0 false 0, .sessionOpen {} 0 0 0 0 0 0 0 0 0 false false false, .sessionClose {} 0,
      .turnBegin {} 0 false [] [] 0 0 0 false false false false false false false 0 0 0, .turnCancel {} 0 0 false,
      .loadProfile {} false 0 0 0 [], .loadWeave {} 0 false false 0 [], .unload {} 0 0, .loadTokenizer {} 0 [],
      .loadGrammar {} 0 [] 0 0, .bindGrammar {} 0 false 0 0 0, .setStops {} 0 0 [], .park {} 0 {} 0, .revive {} 0 0,
      .hintPlace {} 0 0 0 false 0 0 0, .setParkPolicy {} 0 0 0, .siftInsert {} 0 false 0 0 [] [] 0 0 0 0 0 0 0 0 0,
      .siftDelete {} 0 false 0, .siftQuery {} 0 false [] 0 0 0 0 0 0 0 0 0, .siftMerge {} 0, .mergeDone 0,
      .partCreate {} 0 false 0 0 0 0 0, .partDestroy {} 0, .partDestroyed 0,
      .shaperSet {} 0 0 0 0 0 0 0 0 0 0 false false false 0 0, .isoModeSet {} 0 0, .attest {} [] 0 0 false,
      .bindAuthority {} 0 [] [] [] [], .install {} 0 [] 0 [] [] [], .retire {} 0 [] [], .clear {} 0 [] [],
      .weightsUnwrap {} 0 0 [], .scrub {} 0, .scrubDone false, .ckptBegin {} [],
      .ckptRestore {} [] 0 0 0 false [] [] [] 0 0, .composeMap {} 0 0 [], .ownerQuery {} 0 0 false, .blockReset {} 0 false,
      .blockIdleTimeout 0, .deviceReset {} 0, .syncQuery {} 0 0 0, .syncReplay {} 0 0 0 0, .syncReset {} 0 0,
      .faultReport {} 0 0 0, .healthRead {} 0 0, .functionLevelReset 0, .perst, .stakeDoorbell 0 0 0, .stakeTimeout 0,
      .rowTimeout 0, .rowBoundary 0, .boundaryReportSend 0, .boundaryReport 0 0 0 0 0 0 false false false false false,
      .memberLost 0, .beacon 0 0 0 0 0 false false false false false 0, .rowBegin 0, .beaconQuery 0 0 0 0 0,
      .mapReady 0 0 0 0 0, .beaconLimit 0, .takeover 0, .queryTile 0 0 0 0 [], .tokenList 0 0 0 [], .pushTile 0 0 0 0 [],
      .rangePartial 0 [], .stepFire 0 0] : List Instr).all Instr.wf = true := by
  decide +kernel
/-- Commands whose operands lie in their fields. -/
theorem test_wf_takes_2 : (
    [.selection 0 0, .cowCopy 0 0 0, .descriptorFetch 0 false, .stallWatchdog 0, .taskComplete 0, .preemptionWait 0,
      .yield 0, .save 0, .restore 0, .idleToPark 0, .parkDurable 0, .mirrorTimeout 0, .reviveComplete 0 [],
      .rebuildTimeout 0, .warmCopy 0 false [], .spillScan, .mirrorOpen 0 0 0 0 0 0, .mirrorData ⟨0, 0⟩ 0 0 0 [],
      .mirrorSeal 0 0 0 [], .mirrorDesc 0 0 0 0 [], .mirrorRelease 0 0 0, .mirrorAck 0 0 0 0 0, .mirrorRead 0 0 0 0 0,
      .mirrorReadData 0 0 0 0 0 [], .getDesc 0 0, .descReply 0 0 0 [], .objectRelease 0 0, .garbageCollection 0 0 0 false,
      .refresh 0 0 0 0 0, .retentionScan 0 [] [], .rootWrite 0, .mapSegmentWrite 0 0 0, .uncorrectablePage 0 0 0,
      .programFailure 0 0 0, .eraseFailure 0 0, .hamperThermal 0 0 0, .powerFail false, .powerRestored, .hamperRestore 0,
      .messageSend 0 false, .write 0 false false false [] [], .readReq 0 false false false [],
      .readResp 0 false false [] [], .send 0 false false false [] [], .ack 0 false false [], .messageVisible 0,
      .ackTimer 0, .retransmission 0 0, .probeTimer 0 0, .probe 0 false false [], .probeReply 0 false false [],
      .busyRetry 0 0, .connReq 0 false [] [], .connAccept 0 false [] [], .connReject 0 [] 0, .connReqRetry 0,
      .close 0 false false [], .rekey 0 false false false [] [], .connIdle 0, .connFailed 0, .connFailedEnd 0,
      .pageFetch 0 0 false, .pageStall false 0 0, .roceWrite 0 0 0 0 none false [], .roceRead 0 0 0 0 0 false,
      .roceSend 0 0 0 none false [], .cnp 0, .rateIncrease 0, .roceAckTimeout 0, .linkUp 0, .linkDown 0,
      .neighbourSolicitation 0 0 0, .ptpMessage 0 0 0 0, .ppsPulse false, .holdover, .holdoverLimit, .renewTimer 0,
      .renew 0 0 0 0 0, .renewAck 0 0 0 0 0 0, .fence 0] : List Instr).all Instr.wf = true := by
  decide +kernel
/-- Commands whose operands lie in their fields. -/
theorem test_wf_takes_3 : (
    [.leaseReclaim 0, .offer 0 0 0 0, .offerAck 0 0 0, .propose 0 0 0 [] 0 0, .accept 0 0 0 0 0 0, .refuse 0 0,
      .commit 0 0 0, .committed 0 0 0 0, .notice 0 0 0 0, .offerDeadline 0, .abort 0 0, .commitResend 0, .handoffLost 0,
      .reclaimed 0 0 0, .stateSync 0 0 0 0 0 0 [], .syncAck 0 0 0 0 0, .redirect 0 0 0 0, .dirPut 0 0 0 0 0 0 0,
      .dirDel 0 0, .dirAck 0 0 0, .dirGet 0 0, .dirReply 0 0 0 0 0 0, .drainWindow, .partitionExpiry 0, .shedStep,
      .clockStep, .powerClamp 0, .frameBoundary 0 [] [], .sensorSample [] 0 0 0 0 0, .thermalTrip 0, .stageHold 0,
      .getVersion false, .getCapabilities false 0, .negotiateAlgorithms false 0 0 0, .getDigests false 0,
      .getCertificate false 0 0 0 0 0, .challenge false 0 0 false [] 0, .getMeasurements false 0 0 false [] 0,
      .chunkGet false 0 0 0 0, .pldmFirmwareUpdate false 0 [] 0 0 false false, .powerOn, .bankCharged false 0,
      .railTimeout, .rstN, .startUp [], .coreWatchdog 0 [], .correctedError 0 0 0, .transientFault 0 0 0 0 0 0,
      .engineFault 0 0, .faultWindow, .ckptPeriod 0, .ckptRequest 0 0, .beginFwd 0 0 [], .beginReply 0 0 0 0 0,
      .prepare 0 0 0 0 0, .prepared 0 0 0 0, .shardOpen 0 0 0 0 0, .shardData 0 0 0 0 [], .shardSeal 0 0 0 0 [],
      .ckptAck 0 0 0 0 0, .shardDurable 0, .shardDone 0 0 0 [], .manifestDurable 0, .commitGen 0 0 0 0, .ckptAbort 0 0 0 0,
      .shardRelease 0 0, .ckptBarrierTimeout 0, .ckptWriteTimeout 0, .flushComplete 0, .belowModuleMinimum, .rstNRelease,
      .railRetry, .ppsTimeout, .roceAck 0 0 0, .pfcPause 0 0 false, .rxDrop 0 false, .forwardingExpiry 0,
      .vectorUnmask 0 0, .unassignedOpcode {} 0, .unsupportedRequest false 0 0] : List Instr).all Instr.wf = true := by
  decide +kernel
/-- Commands whose operands lie in their fields. -/
theorem test_wf_takes_4 : (
    [.warmHolding 0 0 false 0 0, .nandProgramDone 0 ⟨0, 0⟩ []] : List Instr).all Instr.wf = true := by
  decide +kernel

/-! ## States to start from -/

/-- A controller in SERVICE with its dies laid out and every block disabled. -/
def idleDev : Dev := (State.reset.dev.s F.RST_STATE_PHASE 3).layOut
/-- A controller in SERVICE with every block enabled, one entry waiting on ring 0 of partition 0. -/
def svcDev : Dev :=
  let d := enableFields.foldl (fun (d : Dev) en => d.s en 1) idleDev
  ((d.sf F.CMD_RQ_CFG_EN 0 0 1).sf F.CMD_RQ_STATUS_STATE 0 0 1).sf F.CMD_RQ_DB_TAIL 0 0 1
/-- That controller, its memory empty. -/
def at_ (d : Dev) : State := { State.reset with dev := d }
def svc : State := at_ svcDev
/-- The id of the session that the tests use: slot 0, generation 1, home 0. -/
def sid0 : Nat := 0x400000
/-- The controller with an OPEN session in slot 0. -/
def openDev : Dev :=
  { svcDev with ses := { svcDev.ses with tab := [(0, { d := { sid := sid0, state := .open, ownerEpoch := 1 } })] } }
def opened : State := at_ openDev
/-- That controller with its session in another state. -/
def sessIn (st : SState) : State := at_ (openDev.updDesc 0 fun x => { x with state := st })
/-- With a profile, a tokenizer, a weave and a group bound to it. -/
def modelDev : Dev :=
  let d := openDev.si F.ATT_WV_STATUS_VALID 0 1
  { d with
    att := { d.att with profiles := [(0, {})], weaves := [(0, {})] }
    tok := { d.tok with tkz := [(0, { vocab := 10 })] }
    groups := [(0, { bound := some {} })] }
/-- With a turn queued. -/
def turnDev : Dev :=
  let d := modelDev.updDesc 0 fun x => { x with ctxValid := true, turnQueued := true, turnId := 1 }
  { d with ses := { d.ses with ctxs := [(0, { sid := sid0 })] } }
/-- A profile package of one layer with one head, written out field by field from the layout (R244). -/
def prfPkg : Bytes :=
  pack 192
    [⟨0, 0, 32, 0x51505246⟩, ⟨4, 0, 16, 1⟩, ⟨8, 0, 9, 1⟩, ⟨8, 11, 9, 1⟩, ⟨8, 20, 9, 32⟩, ⟨8, 29, 11, 64⟩,
     ⟨0x10, 0, 32, 0x3F800000⟩, ⟨0x10, 32, 8, 1⟩, ⟨0x10, 40, 8, 1⟩, ⟨0x10, 48, 8, 1⟩, ⟨0x28, 0, 32, 128⟩, ⟨0x38, 0, 64, 192⟩]
/-- The same of a weave image of one stake, one stream and one step, its digest aside (R224 to R228). -/
def wvBody : Bytes :=
  pack 32 [⟨0, 0, 32, 0x51575645⟩, ⟨4, 0, 16, 1⟩, ⟨8, 0, 32, 4096⟩, ⟨8, 32, 9, 1⟩, ⟨8, 42, 9, 1⟩] ++ List.replicate 48 7 ++
    List.replicate 16 0 ++
    pack 112
      [⟨0, 0, 32, 256⟩, ⟨4, 0, 32, 16⟩, ⟨8, 0, 32, 320⟩, ⟨12, 0, 32, 16⟩, ⟨24, 0, 32, 384⟩, ⟨28, 0, 32, 16⟩, ⟨48, 0, 32, 448⟩,
       ⟨52, 0, 32, 256⟩]
def wvTail : Bytes :=
  pack 16 [⟨0, 48, 16, 1⟩] ++ List.replicate 48 0 ++
    pack 64 [⟨0, 5, 2, 3⟩, ⟨0, 25, 9, 1⟩, ⟨8, 0, 8, 1⟩, ⟨8, 8, 8, 1⟩, ⟨8, 16, 8, 1⟩, ⟨8, 24, 8, 1⟩] ++
    pack 64 [⟨0, 0, 8, 0x11⟩, ⟨0, 21, 10, 0x3FF⟩, ⟨0, 31, 10, 0x3FF⟩] ++ List.replicate 256 0xFF ++ List.replicate 3392 0
def wvImg : Bytes := wvBody ++ Config.sha384 (wvBody ++ List.replicate 48 0 ++ wvTail) ++ wvTail
/-- With that profile, and group 0 in IDLE. -/
def weaveDev : Dev :=
  { svcDev.si F.TIM_GRP_SHAPE_MEMBERS 0 1 with att := { svcDev.att with profiles := [(0, { layers := 1, heads := 1, digest := List.replicate 48 7 })] } }
theorem wvImg_digest : Config.sha384 (digestBody wvImg) = slice wvImg 0xD0 48 := by
  have h1 : wvBody.length = 0xD0 := by decide +kernel
  have h2 : (Config.sha384 (wvBody ++ List.replicate 48 0 ++ wvTail)).length = 48 := by simp [Config.sha384, Config.bytesOf]
  have h5 : wvImg = wvBody ++ (Config.sha384 (wvBody ++ List.replicate 48 0 ++ wvTail) ++ wvTail) := List.append_assoc ..
  have h3 : digestBody wvImg = wvBody ++ List.replicate 48 0 ++ wvTail := by
    unfold digestBody
    rw [h5, List.take_left' h1, show 0x100 = 0xD0 + 48 from rfl, ← List.drop_drop, List.drop_left' h1, List.drop_left' h2]
  have h4 : slice wvImg 0xD0 48 = Config.sha384 (wvBody ++ List.replicate 48 0 ++ wvTail) := by
    unfold slice
    rw [h5, List.drop_left' h1, List.take_left' h2]
  rw [h3, h4]
theorem wvImg_check : ((at_ weaveDev).dev.entered {}).weaveCheck wvImg 4096 0 = none := by
  have hp : ((at_ weaveDev).dev.entered {}).att.profiles.find? (fun e => e.2.digest == slice wvImg 0x20 48) =
      some (0, { layers := 1, heads := 1, digest := List.replicate 48 7 }) := by decide +kernel
  unfold Dev.weaveCheck
  rw [if_neg (by decide +kernel), if_neg (by decide +kernel), if_neg (by simp [wvImg_digest])]
  simp only [hp]
  rw [if_neg (by decide +kernel)]
  exact if_neg (by decide +kernel)
/-- A grammar image of one accepting state without edges (R299 to R302), and a controller with its tokenizer. -/
def gramImg : Bytes :=
  pack 192
    [⟨0, 0, 32, 0x5147524D⟩, ⟨4, 0, 16, 1⟩, ⟨8, 0, 21, 1⟩, ⟨8, 41, 13, 1⟩, ⟨0x10, 0, 32, 128⟩, ⟨0x14, 0, 32, 144⟩, ⟨0x18, 0, 32, 3⟩,
     ⟨0x1C, 0, 32, 192⟩, ⟨0x28, 0, 64, 192⟩, ⟨128, 0, 1, 1⟩]
def gramDev : Dev :=
  { svcDev with tok := { svcDev.tok with tkz := [(0, { vocab := 256, digest := List.replicate 48 0 })] } }
/-- A controller with a session, its tokenizer and a grammar that fits. -/
def boundDev : Dev :=
  { openDev with tok := { openDev.tok with tkz := [(0, { vocab := 10, digest := [1] })], grams := [(0, { tokDigest := [1] })] } }
/-- A vector of 64 zeros, scales of 1.0, and an index with one such vector. -/
def zeroVec : Bytes := List.replicate 256 0
def unitScale : Bytes := List.replicate 256 0 ++ (List.replicate 64 ([0, 0, 0x80, 0x3F] : Bytes)).flatten
def newIndex : SIndex :=
  (({ centres := List.replicate 64 0, scales := List.replicate 64 0x3F800000, eq := 0xFFFF } : SIndex).insert 0 0
    (List.replicate 64 0)).elim {} (·.2)
def indexDev : Dev := { svcDev with sft := { svcDev.sft with idx := [(0, newIndex)] } }
/-- A session with a hamper that is ready. -/
def parkDev : Dev :=
  { (openDev.setHstate 0 .ready).setHstate 1 .ready with att := { openDev.att with profiles := [(0, {})] } }
/-- A hamper object, and a controller with it: as the image of a mirror, and as the image of its session. -/
def imageObj0 : HObj := { valid := true, kind := 3, pages := 4, extents := [(0, 4)] }
def mirrorDev : Dev := (parkDev.updHalf 0 fun y => { y with objs := [(0, imageObj0)] }).setMirror sid0 { image := some (mkHandle 0 3 1 0) }
def testBody : Bytes := [1, 2, 3]
def testImage : Bytes := List.replicate 64 0 ++ Config.sha384 testBody ++ List.replicate 16272 0 ++ testBody
theorem testImage_ok : imageOk testImage = true := by
  have h2 : (Config.sha384 testBody).length = 48 := by simp [Config.sha384, Config.bytesOf]
  have h3 : testImage.drop 16384 = testBody := by
    unfold testImage
    exact List.drop_left' (by rw [List.length_append, List.length_append, List.length_replicate, List.length_replicate, h2])
  have h4 : slice testImage 0x40 48 = Config.sha384 testBody := by
    unfold slice testImage
    rw [List.append_assoc, List.append_assoc, List.drop_left' List.length_replicate, List.take_left' h2]
  unfold imageOk padTo
  rw [h3, h4, List.take_of_length_le (by simp [h2]), h2]
  simp
def imageObj : HObj := { imageObj0 with kind := 1, data := testImage }
def imageDev : Dev :=
  ((parkDev.updHalf 0 fun y => { y with objs := [(0, imageObj)] }).updDesc 0 fun x => { x with imageHandle := mkHandle 0 1 1 0 }).setRevive 0
    { reserved := true }
/-- A controller whose session was lost and asked for at the buddy. -/
def lostDev : Dev :=
  { (openDev.updSess 0 fun x => { x with lost := true }) with flt := { openDev.flt with asked := [0] } }
/-- A hamper without room, with a PARKED session. -/
def spillDev : Dev :=
  let full (y : Half) : Half := { y with objs := [(0, { valid := true, pages := 3417968750 })] }
  ((((parkDev.s F.PRK_CTL_SPILL_EN 1).updHalf 0 full).updHalf 1 full).updDesc 0
    fun x => { x with state := .parked, tier := .parked })
/-- With a page region of few bins. -/
def smallDev : Dev := (parkDev.si F.PGS_REGION_BINS 0 8).si F.PGS_PTPOOL_BLOCKS 0 4096
/-- Group 0, with id 7, in row 5 with one member and one stake; this controller, 0, keeps its time. -/
def rowDev : Dev :=
  let d := ((((svcDev.si F.TIM_GRP_CFG_GROUP_ID 0 7).si F.TIM_GRP_SHAPE_MEMBERS 0 1).si F.TIM_GRP_SHAPE_STAKES 0 1).si F.TIM_ROW_ROW 0 5)
  ({ d with groups := [(0, { ctrls := [0] })] } : Dev).setPhase 0 .stakes
/-- That controller with an OPEN session whose position 0 the row decodes, and a weave of one stake with one stream. -/
def tileWeave : Weave :=
  { stakes := 1, stakeTab := [{ stepCount := 1 }], streams := [{ nheads := 1 }], steps := [{ op := 0x10, sub := 1, arg := 2 }],
    bufs := [{ credits := 1 }] }
def tileDev : Dev :=
  let d := ((rowDev.si F.ATT_GRP_SLOTS_SLOTS 0 4).si F.ATT_GRP_IN_SLOT_KIB 0 4).setGroup 0
    { rowDev.group 0 with bound := some {}, batch := [{ sid := sid0, npos := 1 }] }
  { d with
    ses := openDev.ses
    att := { d.att with profiles := [(0, { layers := 1, heads := 1, dh := 32, dc := 32, selGroups := 1 })], weaves := [(0, tileWeave)] } }
/-- A query tile for that position, written out field by field from the layout (R149 to R152). -/
def tileImg : Bytes :=
  let n := ((tileDev.prof (tileDev.sess 0)).tileBytes (QTile.ofBytes 0 0 (pack 64 [⟨0x10, 23, 7, 1⟩, ⟨0x10, 39, 9, 1⟩, ⟨0x10, 52, 1, 1⟩])) + 63) / 64 * 64
  pack 64 [⟨0, 0, 64, sid0⟩, ⟨8, 0, 48, 5⟩, ⟨0x10, 23, 7, 1⟩, ⟨0x10, 39, 9, 1⟩, ⟨0x10, 52, 1, 1⟩, ⟨0x18, 32, 32, 1⟩, ⟨0x28, 0, 32, n⟩] ++
    List.replicate n 0
/-- That controller with a push of the session's position 0 open, and a tile of it. -/
def pushDev : Dev :=
  let d := ((tileDev.si F.ATT_GRP_PUSH_LANES 0 1).si F.ATT_GRP_PUSH2_LANE_SLOTS 0 1).si F.ATT_GRP_PUSH_SLOT_4K 0 1
  { d with att := { d.att with pushes := [{ id := 1, lane := some 0, count := 1 }] } }
def pushImg : Bytes :=
  let n := ((pushDev.prof (pushDev.sess 0)).pushBytes { npos := 1 } + 63) / 64 * 64
  pack 64 [⟨0, 0, 64, sid0⟩, ⟨8, 0, 32, 1⟩, ⟨0x10, 23, 7, 1⟩, ⟨0x18, 32, 32, 1⟩, ⟨0x28, 0, 32, n⟩] ++ List.replicate n 0
/-- That controller with its engine 0 at the row's task, and with a copied page. -/
def engineDev : Dev := tileDev.setEngine 0 { running := some { level := some 3 } }
/-- That controller with a weave that waits for a push tile, another task ready and a save set. -/
def pushWeave : Weave := { tileWeave with steps := [{ op := 0x0E, inBuf := 0 }] }
def yieldDev : Dev :=
  let d := tileDev.setEngine 0 { running := some { level := some 3, yieldCc := 1 }, ready := [{}] }
  (({ d with att := { d.att with weaves := [(0, pushWeave)], saveSets := [(3, [])], pushes := [{ id := 1, lane := some 0, count := 1 }] } }).s F.ATT_PREEMPT_YIELD_CC 1)
/-- A wrapped package of generation 1 (R502), and a controller that holds that generation's key. -/
def wrapPkg : Bytes :=
  pack 128 [⟨0, 0, 32, 0x51575250⟩, ⟨4, 0, 16, 1⟩, ⟨0x18, 0, 32, 1⟩, ⟨0x18, 32, 8, 1⟩, ⟨0x70, 0, 64, 128⟩] ++ List.replicate 144 0
def keyDev : Dev := { svcDev.s F.SEC_KEYGEN_CUR 1 with sec := { svcDev.sec with setKey := some [1] } }
/-- A controller whose west half is `x`, restored and ready. -/
def halfDev (x : Half) : Dev := parkDev.setHalf 0 { x with restored := true }
/-- A half whose lun 0 has four ERASED blocks left: block 5 is FULL without a valid page, the others are open. -/
def openRun (k n : Nat) : NMap HBlock :=
  (List.range' k n).map fun b => (b, { state := if b = 5 then .full else .opened, nextPage := 1536 })
def wornHalf : Half :=
  { blocks := openRun 1 2482 ++ openRun 2484 2483 ++ openRun 4968 2483 ++ openRun 7452 2479, restored := true }
theorem filter_four_length (p : Nat × HBlock → Bool) (a b c e : NMap HBlock) :
    (List.filter p (a ++ b ++ c ++ e)).length =
      (List.filter p a).length + (List.filter p b).length + (List.filter p c).length + (List.filter p e).length := by
  simp only [List.filter_append, List.length_append]
theorem wornHalf_erased : wornHalf.erasedIn 0 = 4 := by
  unfold Half.erasedIn Half.freshIn wornHalf
  simp only [filter_four_length]
  decide +kernel
/-- A controller with a hall port and an OPEN connection 0 to controller 2, whose other end is connection 0 too. -/
def hallConn : Conn := { state := .opened, peer := 2, paths := [{}] }
def hallDev (x : Conn) : Dev :=
  let d := { svcDev with hall := { svcDev.hall with
    conns := [(0, x)]
    regions := [(1, { length := 65536, read := true, write := true, qht := true })] } }
  ({ d with sec := { d.sec with setKey := some [1] } }.si F.HLF_PORT_ROLE 0 2).s F.SEC_KEYGEN_CUR 1
/-- A QHT header of that peer for that connection: type, MSN, offset, total and data length of the packet, and region 1, written out
from the layout (R389). -/
def hallHdr (typ msn off total n : Nat) : Bytes :=
  pack 64
    [⟨0, 0, 4, 1⟩, ⟨0, 4, 4, typ⟩, ⟨0, 8, 1, b2n (off + n == total)⟩, ⟨8, 0, 16, 2⟩, ⟨0x18, 0, 32, msn⟩, ⟨0x18, 32, 24, off⟩,
     ⟨0x20, 0, 25, total⟩, ⟨0x20, 25, 13, n⟩, ⟨0x30, 0, 16, 1⟩, ⟨0x30, 16, 32, 1⟩]
/-- The body of a connection request of boot 1, epoch 7, under the current set key (R394, R504). -/
def connBody : Bytes := pack 176 [⟨0, 32, 32, 7⟩, ⟨8, 0, 64, 1⟩, ⟨0xA0, 0, 32, 1⟩]
/-- With a paged region whose page 0 is absent, and a queue pair; a read that waits there. -/
def pagedRegion : Region := { length := 65536, read := true, paged := true, roce := true, absent := [0], fetching := [0] }
def heldRead : Nat × Nat × Nat × Nat × Nat := (3, 1, 0, 64, 9)
def pagedDev (x : Qp) : Dev := { hallDev hallConn with hall := { (hallDev hallConn).hall with regions := [(1, pagedRegion)], qps := [(0, x)] } }
/-- A controller with a queue pair in RTS on an accelerator's port, and a region that it reaches. -/
def roceDev (x : Qp) : Dev :=
  { svcDev.si F.HLF_PORT_ROLE 0 1 with hall := { svcDev.hall with
    qps := [(0, { x with state := .rts })]
    regions := [(1, { length := 65536, read := true, write := true, roce := true })] } }
/-- A controller with the session in slot 0, and what ownership holds beside it. -/
def ownDev (f : Desc → Desc) (o : Own) : Dev := { openDev.updDesc 0 f with own := o }
/-- A controller with a guest: a session of home 2 in slot 3 that it owns at epoch 1. -/
def sidA : Nat := 2 ^ 49 + 0x400003
def guestDev (l : OwnLease) : Dev :=
  { svcDev with
    ses := { svcDev.ses with tab := [(3, { d := { sid := sidA, state := .open, ownerEpoch := 1, lease := .held } })] }
    own := { svcDev.own with guests := [(sidA, 3)], ownLeases := [(3, l)] } }
/-- A controller that is the target of a handoff of that session from controller 2. -/
def inDev (y : HandIn) : Dev := { svcDev with own := { svcDev.own with ins := [(sidA, { y with source := 2, epoch := 2 })] } }
def descA : Bytes := Desc.bytes { sid := sidA, state := .history, tier := .history, ownerEpoch := 1, ownerCtrl := 2 }
/-- A map of controller 3 alone, without a group (R525). -/
def mapImg : Bytes :=
  pack 64 [⟨0, 0, 32, 0x514D4150⟩, ⟨0, 32, 16, 1⟩, ⟨8, 0, 32, 1⟩, ⟨8, 32, 32, 1⟩, ⟨0x10, 0, 32, 80⟩] ++
    pack 16 [⟨0, 0, 16, 1⟩, ⟨0, 16, 32, 16⟩, ⟨8, 0, 16, 3⟩]
def mapRead : CompMap × List (Nat × Bytes) := (mapOf mapImg (svcDev.g F.TIM_LEASE_DRAIN_MS)).getD ({}, [])
def mapPut : CompMap × Dev := ((svcDev.entered {}).mapWindows mapRead.1).getD ({}, {})
/-- A target after it has given a proposed session its context. -/
def propDev : Dev :=
  let d := (svcDev.s F.TIM_STATUS_SYNC 2).resolve 2 svcOwner .ok
  let x := Desc.ofBytes descA
  ((d.newCtx 0
    { sid := sidA
      slot := 0
      kind := .migrateIn
      phase := .tierMove
      prio := x.prio
      group := x.group
      fn := x.partition
      eq := d.gi F.PRK_POLICY_EQ x.partition
      mapEpoch := d.own.current
      ownerEpoch := 2 }).map (·.2)).getD d
/-- A home whose session is owned by controller 2, and its history object made and grown for two tokens. -/
def awayDev : Dev := { (parkDev.updDesc 0 fun x => { x with ownerCtrl := 2 }) with own := {} }
def syncObj : Nat × Dev :=
  ((((awayDev.heard 2 svcOwner sid0).updDesc 0 fun x => { x with state := SState.ofCode 2, tier := Tier.ofCode 1, idleSince := 0 }).createObj 0 2
    sid0 0 0)).getD (0, {})
def syncGrown : Dev := (((syncObj.2.updDesc 0 fun y => { y with histHandle := syncObj.1 }).growObj syncObj.1 1)).getD {}
/-- Group 0 in row 5 with a checkpoint under way. -/
def ckptDev (p : CkpProg) : Dev := rowDev.setProg 0 { p with manifest := 7 * 2 ^ 32 + 1 }
/-- A mirror of one byte that is being received. -/
def ckptMirror : CkpMirror := { manifest := 1, sender := 2, length := 1, data := [9] }
/-- Group 0 in IDLE with a kept generation. -/
def manifest7 : Manifest := { id := 7 * 2 ^ 32 + 1, row := 3 }
def keptDev : Dev := { rowDev.setPhase 0 .idle with ckp := { rowDev.ckp with valid := [(0, [manifest7])] } }
def shardObj : Nat × Dev := (parkDev.createObj 0 5 1 0 1).getD (0, {})

/-! ## States that meet the statements' hypotheses -/

theorem test_meets_stepRunsTheFrontCommand :
    ∃ (c : Instr) (cs : List Instr) (s : State), s.pending = c :: cs :=
  ⟨.powerOn, [.rstN], { State.reset with pending := [.powerOn, .rstN] }, rfl⟩

theorem test_meets_emptyQueueTicks_1 : ∃ s : State, s.pending = [] ∧ s.safe = true ∧ s.runs = true :=
  ⟨svc, by decide +kernel⟩
theorem test_meets_emptyQueueTicks_2 : ∃ s : State, s.pending = [] ∧ s.safe = true ∧ s.runs = false :=
  ⟨{ State.reset with dev := { State.reset.dev with rst := { State.reset.dev.rst with held := true } } }, by decide +kernel⟩


theorem test_meets_everyStepKeepsSafe :
    ∃ s t : State, s.safe = true ∧ step s = .next t :=
  ⟨State.reset, _, by decide +kernel, rfl⟩

theorem test_meets_everyCommandAnswers_1 : ∃ c : Instr, c.fitted = true := ⟨.rowTimeout 63, by decide⟩
theorem test_meets_everyCommandAnswers_2 : ∃ c : Instr, c.fitted = false := ⟨.rowTimeout 64, by decide⟩

theorem test_meets_heldControllerWaits :
    ∃ (c : Instr) (s : State), c.supervised = false ∧ c.fitted = true ∧ s.runs = false ∧ s.safe = true :=
  ⟨.rowTimeout 0, { State.reset with dev := { State.reset.dev with rst := { State.reset.dev.rst with held := true } } },
    by decide +kernel⟩

theorem test_meets_entriesOutOfTurn_1 : ∃ (c : Instr) (h : Hdr) (op : Nat) (s : State),
    c.entry = some (h, op) ∧ op ≠ 0x0903 ∧ s.runs = true ∧ s.safe = true ∧ s.dev.takes h = false :=
  ⟨.scrub {} 0, {}, 0x0704, State.reset, by decide +kernel⟩
theorem test_meets_entriesOutOfTurn_2 : ∃ (c : Instr) (h : Hdr) (op : Nat) (s : State),
    c.entry = some (h, op) ∧ op ≠ 0x0903 ∧ s.runs = true ∧ s.safe = true ∧ s.dev.takes h = true ∧
      (s.dev.take h).seqDiff h = -256 :=
  ⟨.scrub { hseq := 0xFFFFFF00 } 0, { hseq := 0xFFFFFF00 }, 0x0704, svc, by decide +kernel⟩
theorem test_meets_entriesOutOfTurn_3 : ∃ (c : Instr) (h : Hdr) (op : Nat) (s : State),
    c.entry = some (h, op) ∧ op ≠ 0x0903 ∧ s.runs = true ∧ s.safe = true ∧ s.dev.takes h = true ∧
      (s.dev.take h).seqDiff h = 1 :=
  ⟨.scrub { hseq := 1 } 0, { hseq := 1 }, 0x0704, svc, by decide +kernel⟩

theorem test_meets_tenantsAreDenied : ∃ (c : Instr) (h : Hdr) (op : Nat) (s : State),
    c.entry = some (h, op) ∧ op ≠ 0x0903 ∧ assigned op = true ∧ s.runs = true ∧ s.dev.takes h = true ∧
      (s.dev.take h).seqDiff h = 0 ∧ h.fn ≠ 0 ∧ op ∈ systemOps :=
  ⟨.scrub { fn := 1 } 0, { fn := 1 }, 0x0704,
    at_ (((svcDev.sf F.CMD_RQ_CFG_EN 1 0 1).sf F.CMD_RQ_STATUS_STATE 1 0 1).sf F.CMD_RQ_DB_TAIL 1 0 1 |>.sf
      F.CMD_LIMITS_RINGS_MAX 1 0 4), by decide +kernel⟩

theorem test_meets_headersAreChecked : ∃ (c : Instr) (h : Hdr) (op : Nat) (s : State),
    c.entry = some (h, op) ∧ op ≠ 0x0903 ∧ assigned op = true ∧ s.runs = true ∧ s.dev.takes h = true ∧
      (s.dev.take h).seqDiff h = 0 ∧ h.clean = false :=
  ⟨.scrub { clean := false } 0, { clean := false }, 0x0704, svc, by decide +kernel⟩

theorem test_meets_blocksOffAreBusy :
    (∃ (s : State) (h : Hdr) (sid target : Nat),
      s.runs = true ∧
      s.dev.ready h false = true ∧
      s.dev.mayUse h.fn sid true = true ∧
      target ≤ 2 ∧
      let e := s.dev.entered h
      e.parkOn = false) ∧
    (∃ (s : State) (h : Hdr) (sid mode : Nat),
      s.runs = true ∧
      s.dev.ready h false = true ∧
      s.dev.mayUse h.fn sid true = true ∧
      mode ≤ 2 ∧
      let e := s.dev.entered h
      e.parkOn = false) ∧
    (∃ (s : State) (h : Hdr),
      s.runs = true ∧
      s.dev.ready h true = true ∧
      h.fn = 0 ∧
      let e := s.dev.entered h
      e.on F.GRM_CTL_EN = false ∧
      (e.rst.blocks.any fun b => b.row == 4) = false) ∧
    (∃ (s : State) (h : Hdr) (handle : Nat) (drop : Bool),
      s.runs = true ∧
      s.dev.ready h false = true ∧
      s.dev.mayIndex h.fn handle drop = true ∧
      let e := s.dev.entered h
      e.on F.SFT_CTL_EN = false ∧
      (e.rst.blocks.any fun b => b.row == 8) = false) ∧
    (∃ (s : State) (h : Hdr) (handle : Nat),
      s.runs = true ∧
      s.dev.ready h false = true ∧
      s.dev.mayIndex h.fn handle false = true ∧
      let e := s.dev.entered h
      e.on F.SFT_CTL_EN = false ∧
      (e.rst.blocks.any fun b => b.row == 8) = false) ∧
    (∃ (s : State) (h : Hdr) (mode : Nat),
      s.runs = true ∧
      s.dev.ready h false = true ∧
      h.fn = 0 ∧
      mode ≤ 2 ∧
      let e := s.dev.entered h
      e.on F.SEC_CTL_EN = false) ∧
    (∃ (s : State) (h : Hdr),
      s.runs = true ∧
      s.dev.ready h true = true ∧
      h.fn = 0 ∧
      let e := s.dev.entered h
      e.on F.SEC_CTL_EN = false) ∧
    (∃ (s : State) (h : Hdr) (req : Bytes),
      s.runs = true ∧
      s.dev.ready h true = true ∧
      h.fn = 0 ∧
      req.length = 32 ∧
      fieldAt req 0 35 29 = 0 ∧
      fieldAt req 8 48 16 = 0 ∧
      leAt req 0x10 16 = 0 ∧
      let e := s.dev.entered h
      (e.on F.CKP_CTL_EN && e.on F.HMP_CTL_EN) = false) :=
  ⟨⟨at_ (openDev.s F.PRK_CTL_EN 0), {}, sid0, 0, by decide +kernel⟩,
    ⟨at_ (openDev.s F.PRK_CTL_EN 0), {}, sid0, 0, by decide +kernel⟩,
    ⟨at_ (svcDev.s F.GRM_CTL_EN 0), { dma := true }, by decide +kernel⟩,
    ⟨at_ (svcDev.s F.SFT_CTL_EN 0), {}, 0, false, by decide +kernel⟩,
    ⟨at_ (svcDev.s F.SFT_CTL_EN 0), {}, 0, by decide +kernel⟩,
    ⟨at_ (svcDev.s F.SEC_CTL_EN 0), {}, 0, by decide +kernel⟩,
    ⟨at_ (svcDev.s F.SEC_CTL_EN 0), { dma := true }, by decide +kernel⟩,
    ⟨at_ (svcDev.s F.CKP_CTL_EN 0), { dma := true }, List.replicate 32 0, by decide +kernel⟩⟩

theorem test_meets_hbmReadsBack : ∃ m : Memory, Memory.wf m = true := ⟨[(5, 1)], by decide +kernel⟩


theorem test_meets_reportsChangeNothingElse : ∃ (h : Hdr) (c : Instr) (s t : State), s.safe = true ∧
    (∃ addr len frm, c = .faultReport h addr len frm) ∧ exec c s = .next t :=
  ⟨{ dma := true }, .faultReport { dma := true } 0 64 0, svc, _, by decide +kernel, ⟨_, _, _, rfl⟩, rfl⟩

theorem test_meets_crossingRequests :
    (∃ (s : State) (port : Nat) (mac : Bool) (hdr data : Bytes) (i : Nat),
      s.runs = true ∧
      s.dev.hallTakes port 5 hdr = true ∧
      let d := s.dev.wrap F.HLF_CNT0_PKTS_IN 1
      d.enrolled = true ∧
      mac = true ∧
      d.holdsGen (leAt data 0xA0 4) = true ∧
      d.connOf (srcOf hdr) (classOf hdr) = some i ∧
      let x := d.conn i
      x.state = .connecting ∧
      x.peer < d.self) ∧
    (∃ (s : State) (port : Nat) (mac : Bool) (hdr data : Bytes) (i : Nat),
      s.runs = true ∧
      s.dev.hallTakes port 5 hdr = true ∧
      let d := s.dev.wrap F.HLF_CNT0_PKTS_IN 1
      d.enrolled = true ∧
      mac = true ∧
      d.holdsGen (leAt data 0xA0 4) = true ∧
      d.connOf (srcOf hdr) (classOf hdr) = some i ∧
      let x := d.conn i
      x.state = .connecting ∧
      d.self < x.peer) ∧
    (∃ (s : State) (port : Nat) (hdr : Bytes) (reason : Nat),
      s.runs = true ∧
      s.dev.hallTakes port 7 hdr = true ∧
      let d := s.dev.wrap F.HLF_CNT0_PKTS_IN 1
      let i := hf hdr 8 32 14
      let x := d.conn i
      x.peer = srcOf hdr ∧
      x.bulk = classOf hdr ∧
      x.state = .connecting ∧
      reason = 1) :=
  ⟨⟨at_ ((hallDev { hallConn with state := .connecting }).s F.HLF_SELF_CTRL_ID 3), 0, true, pack 64 [⟨0, 0, 4, 1⟩, ⟨0, 4, 4, 5⟩, ⟨8, 0, 16, 2⟩, ⟨8, 16, 16, 3⟩], connBody, 0, by decide +kernel⟩,
    ⟨at_ (hallDev { hallConn with state := .connecting }), 0, true, hallHdr 5 0 0 1 0, connBody, 0, by decide +kernel⟩,
    ⟨at_ (hallDev { hallConn with state := .connecting }), 0, hallHdr 7 0 0 1 0, 1, by decide +kernel⟩⟩

theorem test_meets_restartedPeers :
    (∃ (s : State) (port : Nat) (mac : Bool) (hdr data : Bytes) (i : Nat),
      s.runs = true ∧
      s.dev.hallTakes port 5 hdr = true ∧
      let d := s.dev.wrap F.HLF_CNT0_PKTS_IN 1
      d.enrolled = true ∧
      mac = true ∧
      d.holdsGen (leAt data 0xA0 4) = true ∧
      d.connOf (srcOf hdr) (classOf hdr) = some i ∧
      let x := d.conn i
      (x.state = .opened ∨ x.state = .draining) ∧
      x.peerBoot < hf data 8 0 64) ∧
    (∃ (s : State) (port : Nat) (mac : Bool) (hdr data : Bytes) (i : Nat),
      s.runs = true ∧
      s.dev.hallTakes port 5 hdr = true ∧
      let d := s.dev.wrap F.HLF_CNT0_PKTS_IN 1
      d.enrolled = true ∧
      mac = true ∧
      d.holdsGen (leAt data 0xA0 4) = true ∧
      d.connOf (srcOf hdr) (classOf hdr) = some i ∧
      let x := d.conn i
      (x.state = .opened ∨ x.state = .draining) ∧
      hf data 8 0 64 < x.peerBoot) :=
  ⟨⟨at_ (hallDev hallConn), 0, true, hallHdr 5 0 0 1 0, connBody, 0, by decide +kernel⟩,
    ⟨at_ (hallDev { hallConn with peerBoot := 2 ^ 40 }), 0, true, hallHdr 5 0 0 1 0, connBody, 0, by decide +kernel⟩⟩

theorem test_meets_registerWriteByClass :
    (∃ (s : State) (off v : Nat) (f : Fld) (i : Nat),
      s.runs = true ∧
      s.dev.sole off f i = true ∧
      f.plain = true ∧
      f.lo = 0 ∧
      v < 2 ^ f.w ∧
      f.cls = .l ∧
      s.dev.pendS = [] ∧
      s.dev.inRange 0 v [(f, i)] (f, i) = true) ∧
    (∃ (s : State) (off v : Nat) (f : Fld) (i : Nat),
      s.runs = true ∧
      s.dev.sole off f i = true ∧
      f.plain = true ∧
      f.lo = 0 ∧
      v < 2 ^ f.w ∧
      f.cls = .s ∧
      s.dev.fieldRuns f 0 i = true ∧
      s.dev.inRange 0 v [(f, i)] (f, i) = true) ∧
    (∃ (s : State) (off v : Nat) (f : Fld) (i : Nat),
      s.runs = true ∧
      s.dev.sole off f i = true ∧
      f.plain = true ∧
      f.lo = 0 ∧
      v < 2 ^ f.w ∧
      (f.cls = .s ∨ f.cls = .k) ∧
      v ≠ s.dev.readField 0 f i ∧
      s.dev.fieldRuns f 0 i = false ∧
      s.dev.pendS = [] ∧
      s.dev.inRange 0 v [(f, i)] (f, i) = true) ∧
    (∃ (s : State) (off v : Nat) (f : Fld) (i : Nat),
      s.runs = true ∧
      s.dev.sole off f i = true ∧
      f.plain = true ∧
      f.lo = 0 ∧
      v < 2 ^ f.w ∧
      f.cls = .k ∧
      v ≠ s.dev.readField 0 f i ∧
      s.dev.fieldRuns f 0 i = true ∧
      s.dev.inRange 0 v [(f, i)] (f, i) = true) ∧
    (∃ (s : State) (off v : Nat) (f : Fld) (i : Nat),
      s.runs = true ∧
      s.dev.sole off f i = true ∧
      f.plain = true ∧
      f.lo = 0 ∧
      v < 2 ^ f.w ∧
      f.cls = .c ∧
      v ≠ s.dev.readField 0 f i ∧
      s.dev.inRange 0 v [(f, i)] (f, i) = true) ∧
    (∃ (s : State) (off v : Nat) (f : Fld) (i : Nat),
      s.runs = true ∧
      s.dev.sole off f i = true ∧
      f.plain = true ∧
      f.lo = 0 ∧
      v < 2 ^ f.w ∧
      v ≠ s.dev.readField 0 f i ∧
      s.dev.inRange 0 v [(f, i)] (f, i) = false) ∧
    (∃ (s : State) (fn : Nat),
      s.runs = true ∧
      s.dev.mapped = true ∧
      fn < 32) :=
  ⟨⟨svc, 0x200030, 500, F.TIM_SESS_IDLE_PARK_MS, 0, by decide +kernel⟩,
    ⟨svc, 0x800010, 7, F.PGS_BRIM_PAGES, 0, by decide +kernel⟩,
    ⟨at_ idleDev, 0x800010, 7, F.PGS_BRIM_PAGES, 0, by decide +kernel⟩,
    ⟨svc, 0x401000, 4096, F.CMD_RQ_BASE_ADDR, 0, by decide +kernel⟩,
    ⟨svc, 0x3800030, 3, F.SEC_BOOT_COUNT, 0, by decide +kernel⟩,
    ⟨svc, 0x200030, 5, F.TIM_SESS_IDLE_PARK_MS, 0, by decide +kernel⟩,
    ⟨svc, 0, by decide +kernel⟩⟩

theorem test_meets_tenantWritesNotGranted :
    (∃ (s : State) (fn off : Nat) (f : Fld) (i : Nat) (fs : List (Fld × Nat)),
      s.runs = true ∧
      s.dev.mapped = true ∧
      0 < fn ∧
      fn < 32 ∧
      fieldsAt off = (f, i) :: fs ∧
      f.grant ≠ .fnWrite ∧
      f.grant ≠ .ownWrite) ∧
    (∃ (s : State) (fn block : Nat),
      s.runs = true ∧
      s.dev.mapped = true ∧
      0 < fn ∧
      fn < 32 ∧
      block < 14) ∧
    (∃ (s : State) (fn block : Nat),
      s.runs = true ∧
      s.dev.mapped = true ∧
      0 < fn ∧
      fn < 32 ∧
      block < 14) ∧
    (∃ (s : State) (fn field : Nat),
      s.runs = true ∧
      s.dev.mapped = true ∧
      0 < fn ∧
      fn < 32 ∧
      field < 5) ∧
    (∃ (s : State) (fn g : Nat),
      s.runs = true ∧
      s.dev.mapped = true ∧
      0 < fn ∧
      fn < 32 ∧
      g < 64) ∧
    (∃ (s : State) (fn : Nat),
      s.runs = true ∧
      s.dev.mapped = true ∧
      0 < fn ∧
      fn < 32) :=
  ⟨⟨svc, 1, 0x200030, F.TIM_SESS_IDLE_PARK_MS, 0, [], by decide +kernel⟩,
    ⟨svc, 1, 13, by decide +kernel⟩,
    ⟨svc, 31, 0, by decide +kernel⟩,
    ⟨svc, 1, 4, by decide +kernel⟩,
    ⟨svc, 1, 63, by decide +kernel⟩,
    ⟨svc, 1, by decide +kernel⟩⟩

theorem test_meets_blocksEnableAndStop :
    (∃ (s : State) (block : Nat),
      s.runs = true ∧
      s.dev.mapped = true ∧
      block < 14 ∧
      let en := enableAt block
      s.dev.on en = false ∧
      s.dev.stopping en = false ∧
      (prereqs en).all (fun p => s.dev.on p) = true ∧
      (en = F.PGS_CTL_EN → (s.dev.dieLaidOut 0 && s.dev.dieLaidOut 1) = true)) ∧
    (∃ (s : State) (block : Nat),
      s.runs = true ∧
      s.dev.mapped = true ∧
      block < 14 ∧
      let en := enableAt block
      s.dev.on en = true) ∧
    (∃ (s : State) (block : Nat),
      s.runs = true ∧
      block < 14 ∧
      let en := enableAt block
      s.dev.rst.stopping.contains en.addr = true ∧
      s.dev.idle en = true) :=
  ⟨⟨at_ (svcDev.s F.CKP_CTL_EN 0), 12, by decide +kernel⟩,
    ⟨svc, 4, by decide +kernel⟩,
    ⟨at_ { svcDev with rst := { svcDev.rst with stopping := [F.GRM_CTL_EN.addr] } }, 4, by decide +kernel⟩⟩

theorem test_meets_controlRegisterCommands :
    (∃ (s : State) (field gib : Nat),
      s.runs = true ∧
      s.dev.mapped = true ∧
      field < 5 ∧
      let f := regionFields.getD field F.ATT_PRF_REGION_GIB
      gib < 2 ^ f.w ∧
      s.dev.instLimit f 0 = 1 ∧
      s.dev.inRange 0 (gib * 2 ^ f.lo) [(f, 0)] (f, 0) = true ∧
      gib ≠ s.dev.readField 0 f 0 ∧
      s.dev.fieldRuns f 0 0 = false ∧
      s.dev.resident = false ∧
      let e := (s.dev.s f gib).layOut
      e.pageBins 0 ≠ 0 ∧
      e.pageBins 1 ≠ 0) ∧
    (∃ (s : State) (g : Nat),
      s.runs = true ∧
      s.dev.mapped = true ∧
      g < 64 ∧
      s.dev.phase g = 4) ∧
    (∃ (s : State),
      s.runs = true ∧
      (s.dev.bootPhase = 1 ∨ s.dev.bootPhase = 2)) :=
  ⟨⟨at_ idleDev, 0, 100, by decide +kernel⟩,
    ⟨at_ (svcDev.setPhase 0 .stalled), 0, by decide +kernel⟩,
    ⟨at_ (svcDev.s F.RST_STATE_PHASE 1), by decide +kernel⟩⟩

theorem test_meets_ringCommands :
    (∃ (s : State) (fn ring tail : Nat),
      s.runs = true ∧
      s.dev.mapped = true ∧
      fn < 32 ∧
      ring < s.dev.gf F.CMD_LIMITS_RINGS_MAX fn 0 ∧
      ring < 64 ∧
      tail < 2 ^ 32 ∧
      s.dev.gf F.CMD_RQ_CFG_EN fn ring = 1 ∧
      (tail + 2 ^ 32 - s.dev.gf F.CMD_RQ_STATUS_TAKEN fn ring) % 2 ^ 32 ≤ 2 ^ s.dev.gf F.CMD_RQ_CFG_RQ_LOG2 fn ring) ∧
    (∃ (s : State) (fn ring head : Nat),
      s.runs = true ∧
      s.dev.mapped = true ∧
      fn < 32 ∧
      ring < s.dev.gf F.CMD_LIMITS_RINGS_MAX fn 0 ∧
      ring < 64 ∧
      head < 2 ^ 32) ∧
    (∃ (s : State) (fn ring : Nat),
      s.runs = true ∧
      s.dev.mapped = true ∧
      fn < 32 ∧
      ring < s.dev.gf F.CMD_LIMITS_RINGS_MAX fn 0 ∧
      ring < 64 ∧
      s.dev.gf F.CMD_RQ_CFG_EN fn ring ≠ 1 ∧
      s.dev.gf F.CMD_RQ_STATUS_STATE fn ring ≠ 2) ∧
    (∃ (s : State) (fn ring : Nat),
      s.runs = true ∧
      s.dev.mapped = true ∧
      fn < 32 ∧
      ring < s.dev.gf F.CMD_LIMITS_RINGS_MAX fn 0 ∧
      ring < 64 ∧
      s.dev.gf F.CMD_RQ_CFG_EN fn ring = 1) :=
  ⟨⟨svc, 0, 0, 5, by decide +kernel⟩,
    ⟨svc, 0, 0, 0, by decide +kernel⟩,
    ⟨svc, 0, 1, by decide +kernel⟩,
    ⟨svc, 0, 0, by decide +kernel⟩⟩

theorem test_meets_eventQueueCommands :
    (∃ (s : State) (fn queue head : Nat),
      s.runs = true ∧
      s.dev.mapped = true ∧
      fn < 32 ∧
      queue < s.dev.gf F.CMD_LIMITS_EQS_MAX fn 0 ∧
      queue < 1024 ∧
      head < 2 ^ 32) ∧
    (∃ (s : State) (fn queue : Nat),
      s.runs = true ∧
      s.dev.mapped = true ∧
      fn < 32 ∧
      queue < s.dev.gf F.CMD_LIMITS_EQS_MAX fn 0 ∧
      queue < 1024 ∧
      s.dev.gf F.CMD_EQ_CFG_EN fn queue ≠ 1) ∧
    (∃ (s : State) (fn queue : Nat),
      s.runs = true ∧
      s.dev.mapped = true ∧
      fn < 32 ∧
      queue < s.dev.gf F.CMD_LIMITS_EQS_MAX fn 0 ∧
      queue < 1024 ∧
      s.dev.gf F.CMD_EQ_CFG_EN fn queue = 1) ∧
    (∃ (s : State) (fn : Nat) (isRing : Bool) (index t : Nat),
      s.runs = true ∧
      fn < 32 ∧
      isRing = true ∧
      (s.dev.ring fn index).arm.due = some t) ∧
    (∃ (s : State) (fn : Nat) (isRing : Bool) (index t : Nat),
      s.runs = true ∧
      fn < 32 ∧
      isRing = false ∧
      (s.dev.queue fn index).arm.due = some t) ∧
    (∃ (s : State) (fn vec : Nat),
      s.runs = true ∧
      fn < 32 ∧
      vec < s.dev.gf F.CMD_LIMITS_VECTORS fn 0 ∧
      s.dev.cmd.unmasked.contains (fn, vec) = false) :=
  ⟨⟨svc, 0, 0, 0, by decide +kernel⟩,
    ⟨svc, 0, 0, by decide +kernel⟩,
    ⟨at_ (svcDev.sf F.CMD_EQ_CFG_EN 0 0 1), 0, 0, by decide +kernel⟩,
    ⟨at_ (svcDev.setRing 0 0 { arm := { due := some 9 } }), 0, true, 0, 9, by decide +kernel⟩,
    ⟨at_ (svcDev.setQueue 0 0 { arm := { due := some 9 } }), 0, false, 0, 9, by decide +kernel⟩,
    ⟨svc, 0, 0, by decide +kernel⟩⟩

theorem test_meets_sessionCommandsComplete :
    (∃ (s : State) (h : Hdr) (src sub srv prof prio tkz port g : Nat) (compat cls select : Bool) (p : Profile) (t :
      Tokenizer) (slot : Nat),
      s.runs = true ∧
      s.dev.ready h false = true ∧
      src = 0 ∧
      g < 64 ∧
      levelOf compat cls prio < 8 ∧
      let e := s.dev.entered h
      NMap.get? e.att.profiles prof = some p ∧
      NMap.get? e.tok.tkz tkz = some t ∧
      p.endToken < t.vocab ∧
      (select && p.selGroups == 0) = false ∧
      e.levelOk h.fn (levelOf compat cls prio) = true ∧
      e.nodesOk h.fn sub srv port = true ∧
      overLimit h.fn (e.useSessions h.fn) 1 (e.limits h.fn).sessions = false ∧
      e.openSlot (e.openDie p.cls) = some slot) ∧
    (∃ (s : State) (h : Hdr) (sid slot : Nat),
      s.runs = true ∧
      s.dev.ready h false = true ∧
      s.dev.mayUse h.fn sid true = true ∧
      let e := s.dev.asked h slot
      (s.dev.entered h).serves h sid slot = true ∧
      (e.sess slot).d.state ∉ [SState.closed, .migrating]) ∧
    (∃ (s : State) (h : Hdr) (sid slot : Nat),
      s.runs = true ∧
      s.dev.ready h false = true ∧
      s.dev.mayUse h.fn sid true = true ∧
      let e := s.dev.asked h slot
      (s.dev.entered h).serves h sid slot = true ∧
      (e.sess slot).d.state = .migrating) ∧
    (∃ (s : State) (h : Hdr) (sid slot : Nat),
      s.runs = true ∧
      s.dev.ready h false = true ∧
      s.dev.mayUse h.fn sid true = true ∧
      let e := s.dev.asked h slot
      (s.dev.entered h).serves h sid slot = true ∧
      (e.sess slot).d.state = .closed) ∧
    (∃ (s : State) (slot : Nat),
      s.runs = true ∧
      slot < 4194304 ∧
      NMap.has s.dev.ses.tab slot = true ∧
      (s.dev.sess slot).lost = false ∧
      ((s.dev.lines (slotDie slot)).any fun l => l.slot == slot) = false) :=
  ⟨⟨at_ modelDev, {}, 0, 0, 0, 0, 0, 0, 0, 0, true, false, false, {}, { vocab := 10 }, 2097152, by decide +kernel⟩,
    ⟨opened, {}, sid0, 0, by decide +kernel⟩,
    ⟨sessIn .migrating, {}, sid0, 0, by decide +kernel⟩,
    ⟨sessIn .closed, {}, sid0, 0, by decide +kernel⟩,
    ⟨opened, 0, by decide +kernel⟩⟩

theorem test_meets_turnCommandsComplete :
    (∃ (s : State) (h : Hdr) (sid : Nat) (isText : Bool) (ids : List Nat) (text : Bytes) (textAddr textLen maxNew : Nat)
      (push fallback compat cls setPrio setRet select : Bool) (batch batchSize prio slot i : Nat) (c : Dev),
      s.runs = true ∧
      s.dev.ready h (if isText then !text.isEmpty else !ids.isEmpty) = true ∧
      s.dev.mayUse h.fn sid false = true ∧
      (!setPrio || compat || prio < 8) = true ∧
      let e := s.dev.asked h slot
      (s.dev.entered h).serves h sid slot = true ∧
      (isText = true → e.on F.TOK_CTL_EN = true) ∧
      let x := (e.sess slot).d
      let t : TurnBegin := {
          prompt := if isText then (e.tkzOf slot).encode text else ids, textAddr := textAddr, textLen := textLen,
          maxNew := maxNew, push := push, fallback := fallback,
          prio := if compat || setPrio then some (levelOf compat cls prio) else none,
          select := if setRet then some select else none, batch := batch, batchSize := batchSize }
      (x.state = .open ∨ x.state = .waiting) ∧
      x.tier = .hot ∧
      e.isWarm slot = false ∧
      (x.turnQueued || x.ctxValid) = false ∧
      (e.own.moves.any fun y => y.1 == x.sid) = false ∧
      e.budgetOut slot = false ∧
      ((compat || setPrio) && !e.levelOk h.fn (levelOf compat cls prio)) = false ∧
      e.turnOk slot t = true ∧
      overLimit x.partition (e.useContexts x.partition) 1 (e.limits x.partition).contexts = false ∧
      e.newCtx (slotDie slot) {
          sid := x.sid, slot := slot, fn := h.fn, hseq := h.hseq, prio := x.prio, mapEpoch := e.own.current,
          ownerEpoch := x.ownerEpoch, group := x.group } = some (i, c)) ∧
    (∃ (s : State) (h : Hdr) (sid turn slot i : Nat),
      s.runs = true ∧
      s.dev.ready h false = true ∧
      s.dev.mayUse h.fn sid false = true ∧
      let e := s.dev.asked h slot
      (s.dev.entered h).serves h sid slot = true ∧
      (e.sess slot).d.state ∉ [SState.closed, .migrating] ∧
      e.turnCtx slot = some i ∧
      turn = (e.sess slot).d.turnId ∧
      e.justEnded slot turn = false ∧
      (e.ctx i).kill = false) ∧
    (∃ (s : State) (h : Hdr) (sid turn slot i : Nat),
      s.runs = true ∧
      s.dev.ready h false = true ∧
      s.dev.mayUse h.fn sid false = true ∧
      let e := s.dev.asked h slot
      (s.dev.entered h).serves h sid slot = true ∧
      (e.sess slot).d.state ∉ [SState.closed, .migrating] ∧
      e.turnCtx slot = some i ∧
      turn = (e.sess slot).d.turnId ∧
      e.justEnded slot turn = false ∧
      (e.ctx i).kill = true) :=
  ⟨⟨at_ modelDev, {}, sid0, false, [3], [], 0, 0, 0, false, false, false, false, false, false, false, 0, 0, 0, 0, 0, ((modelDev.asked {} 0).newCtx 0 { sid := sid0, ownerEpoch := 1 }).elim {} (·.2), by decide +kernel⟩,
    ⟨at_ turnDev, {}, sid0, 1, 0, 0, by decide +kernel⟩,
    ⟨at_ (turnDev.updCtx 0 fun c => { c with kill := true }), {}, sid0, 1, 0, 0, by decide +kernel⟩⟩

theorem test_meets_hintAndPolicyComplete :
    (∃ (s : State) (h : Hdr) (sid posLo posHi layerLo layerHi code slot : Nat),
      s.runs = true ∧
      s.dev.ready h false = true ∧
      s.dev.mayUse h.fn sid false = true ∧
      code ≤ 3 ∧
      posLo < posHi ∧
      layerLo ≤ layerHi ∧
      let e := s.dev.asked h slot
      (s.dev.entered h).serves h sid slot = true ∧
      (e.sess slot).d.state ≠ .closed) ∧
    (∃ (s : State) (h : Hdr) (sid hint fidelity slot : Nat),
      s.runs = true ∧
      s.dev.ready h false = true ∧
      s.dev.mayUse h.fn sid true = true ∧
      hint ≤ 3 ∧
      fidelity ≤ 1 ∧
      let e := s.dev.asked h slot
      (s.dev.entered h).serves h sid slot = true ∧
      let x := e.sess slot
      x.d.state ∉ [SState.closed, .migrating] ∧
      (hint ≠ 0 → bitOf (e.gi F.PRK_POLICY_HINTS_OK x.d.partition) (hint - 1) = true) ∧
      (fidelity = 1 → e.gi F.PRK_POLICY_MX4_OK x.d.partition ≠ 0) ∧
      (hint = 1 → x.hintNext = 1 ∨ e.pinned x.d.partition + 1 ≤ e.gi F.PRK_POLICY_PIN_MAX x.d.partition)) :=
  ⟨⟨opened, {}, sid0, 0, 64, 0, 0, 0, 0, by decide +kernel⟩,
    ⟨opened, {}, sid0, 0, 0, 0, by decide +kernel⟩⟩

theorem test_meets_profileAndWeaveLoad :
    (∃ (s : State) (h : Hdr) (staged : Bool) (len slot : Nat) (pkg : Bytes),
      s.runs = true ∧
      s.dev.ready h true = true ∧
      staged = false ∧
      h.fn = 0 ∧
      slot < 64 ∧
      let e := s.dev.entered h
      e.on F.SEC_CTL_REQUIRE_WRAPPED = false ∧
      pkg.length = len ∧
      profileOk pkg = true ∧
      NMap.has e.att.profiles slot = false ∧
      e.prfUsed + (profileOf pkg).paramLen ≤ e.g F.ATT_PRF_REGION_GIB * 2 ^ 30) ∧
    (∃ (s : State) (h : Hdr) (staged : Bool) (handle slot : Nat) (x : Staged),
      s.runs = true ∧
      s.dev.ready h false = true ∧
      staged = true ∧
      h.fn = 0 ∧
      slot < 64 ∧
      let e := s.dev.entered h
      e.sec.staged.find? (·.handle == handle) = some x ∧
      profileOk x.body = true ∧
      NMap.has e.att.profiles slot = false ∧
      e.prfUsed + (profileOf x.body).paramLen ≤ e.g F.ATT_PRF_REGION_GIB * 2 ^ 30) :=
  ⟨⟨svc, {}, false, 192, 3, prfPkg, by decide +kernel⟩,
    ⟨at_ { svcDev with sec := { svcDev.sec with staged := [{ handle := 5, body := prfPkg }] } }, {}, true, 5, 3, { handle := 5, body := prfPkg }, by decide +kernel⟩⟩
theorem test_meets_profileAndWeaveLoad_3 :
    ∃ (s : State) (h : Hdr) (len g : Nat) (img : Bytes) (i pi : Nat) (p : Profile) (rw re : List (Nat × Nat)),
      s.runs = true ∧
      s.dev.ready h true = true ∧
      h.fn = 0 ∧
      g < 64 ∧
      let e := s.dev.entered h
      e.weaveCheck img len g = none ∧
      e.att.profiles.find? (fun y => y.2.digest == slice img 0x20 48) = some (pi, p) ∧
      let w := weaveOf img pi
      e.att.weaves.any (fun y => y.2.imageDigest == w.imageDigest) = false ∧
      NMap.freeFrom e.att.weaves 128 0 = some i ∧
      let c := e.updGroup g fun x => { x with nextBinding := none }
      takeRuns (c.counterFree 0) w.counterNeed = some rw ∧
      takeRuns (c.counterFree 1) w.counterNeed = some re := by
  refine ⟨at_ weaveDev, {}, 4096, 0, wvImg, 0, 0, { layers := 1, heads := 1, digest := List.replicate 48 7 }, [], [], ?_⟩
  exact ⟨by decide +kernel, by decide +kernel, by decide +kernel, by decide +kernel, wvImg_check, by decide +kernel, by decide +kernel, by decide +kernel, by decide +kernel, by decide +kernel⟩

theorem test_meets_unloadComplete :
    (∃ (s : State) (h : Hdr) (kind slot : Nat),
      s.runs = true ∧
      s.dev.ready h false = true ∧
      kind = 1 ∧
      h.fn = 0 ∧
      slot < 64 ∧
      let e := s.dev.entered h
      NMap.has e.att.profiles slot = true ∧
      e.att.weaves.any (fun y => y.2.profile == slot) = false) ∧
    (∃ (s : State) (h : Hdr) (kind slot : Nat),
      s.runs = true ∧
      s.dev.ready h false = true ∧
      kind = 2 ∧
      h.fn = 0 ∧
      slot < 128 ∧
      let e := s.dev.entered h
      NMap.has e.att.weaves slot = true ∧
      e.weaveGone slot = false ∧
      let next (x : Group) : Bool := match x.nextBinding with
        | some (some b) => b.slot == slot
        | _ => false
      let gs := (e.groups.filter fun y => y.2.bound.any (·.slot == slot) || next y.2).map (·.1)
      gs.any e.groupBusy = false) ∧
    (∃ (s : State) (h : Hdr) (kind slot : Nat) (t : Tokenizer),
      s.runs = true ∧
      s.dev.ready h false = true ∧
      kind = 3 ∧
      h.fn = 0 ∧
      slot < 64 ∧
      let e := s.dev.entered h
      NMap.get? e.tok.tkz slot = some t ∧
      e.ses.tab.any (fun y => y.2.d.tokenizer == slot) = false ∧
      e.tok.grams.any (fun y => y.2.tokDigest == t.digest) = false) ∧
    (∃ (s : State) (h : Hdr) (kind slot : Nat) (g : Grammar),
      s.runs = true ∧
      s.dev.ready h false = true ∧
      kind = 4 ∧
      slot < 1024 ∧
      (h.fn = 0 ∨ NMap.get? s.dev.tok.grams slot = some g ∧ g.partition = h.fn) ∧
      let e := s.dev.entered h
      NMap.has e.tok.grams slot = true ∧
      e.ses.tab.any (fun y => y.2.d.grammarBound && y.2.d.grammarId == slot) = false) :=
  ⟨⟨at_ weaveDev, {}, 1, 0, by decide +kernel⟩,
    ⟨at_ { weaveDev.si F.ATT_WV_STATUS_VALID 0 1 with att := { weaveDev.att with weaves := [(0, {})] } }, {}, 2, 0, by decide +kernel⟩,
    ⟨at_ { svcDev with tok := { svcDev.tok with tkz := [(2, {})] } }, {}, 3, 2, {}, by decide +kernel⟩,
    ⟨at_ { svcDev with tok := { svcDev.tok with grams := [(2, {})] } }, {}, 4, 2, {}, by decide +kernel⟩⟩

theorem test_meets_tokenizerStopsAndGrammarsComplete :
    (∃ (s : State) (h : Hdr) (slot : Nat) (pkg : Bytes) (chip : Bool),
      s.runs = true ∧
      s.dev.ready h true = true ∧
      h.fn = 0 ∧
      slot < 64 ∧
      let e := s.dev.entered h
      NMap.has e.tok.tkz slot = false ∧
      let t := tkzOf pkg
      e.placeTkz t = some chip) ∧
    (∃ (s : State) (h : Hdr) (sid count : Nat) (data : Bytes) (slot : Nat) (strs : List Bytes) (i : Nat),
      s.runs = true ∧
      s.dev.ready h true = true ∧
      s.dev.mayUse h.fn sid false = true ∧
      count ≤ 64 ∧
      let e := s.dev.asked h slot
      (s.dev.entered h).serves h sid slot = true ∧
      unpackStops count data = some strs ∧
      (strs.map (·.length)).foldl (· + ·) 0 ≤ 4096 ∧
      let x := (e.sess slot).d
      x.state ≠ .closed ∧
      (x.ctxValid || x.turnQueued) = false ∧
      strs ≠ [] ∧
      e.tok.stops.any (fun y => sameStops y.2.strs strs) = false ∧
      NMap.freeFrom e.tok.stops 16383 1 = some i) ∧
    (∃ (s : State) (h : Hdr) (sid : Nat) (img : Bytes) (i : Nat),
      s.runs = true ∧
      s.dev.ready h true = true ∧
      sid = 0 ∧
      h.fn = 0 ∧
      let e := s.dev.entered h
      e.on F.GRM_CTL_EN = true ∧
      e.grammarOk img = true ∧
      let g := grammarOf img 0
      e.tok.grams.any (fun y => y.2.partition == 0 && y.2.digest == g.digest) = false ∧
      g.imageLen ≤ e.grmFree ∧
      NMap.freeFrom e.tok.grams 1024 0 = some i) ∧
    (∃ (s : State) (h : Hdr) (sid : Nat) (unbind : Bool) (grammar pol n slot : Nat) (g : Grammar),
      s.runs = true ∧
      s.dev.ready h false = true ∧
      s.dev.mayUse h.fn sid false = true ∧
      unbind = false ∧
      pol ≤ 2 ∧
      1 ≤ n ∧
      n ≤ 64 ∧
      grammar < 1024 ∧
      let e := s.dev.asked h slot
      (s.dev.entered h).serves h sid slot = true ∧
      NMap.get? e.tok.grams grammar = some g ∧
      e.bindCheck slot g = .ok ∧
      (e.sess slot).d.grammarBound = false ∧
      (e.takeArea slot).isSome = true) ∧
    (∃ (s : State) (h : Hdr) (sid : Nat) (unbind : Bool) (slot : Nat),
      s.runs = true ∧
      s.dev.ready h false = true ∧
      s.dev.mayUse h.fn sid false = true ∧
      unbind = true ∧
      let e := s.dev.asked h slot
      (s.dev.entered h).serves h sid slot = true ∧
      let x := (e.sess slot).d
      (x.state = .open ∨ x.state = .waiting) ∧
      (x.turnQueued || x.ctxValid) = false ∧
      x.grammarBound = true) :=
  ⟨⟨svc, {}, 0, [], true, by decide +kernel⟩,
    ⟨opened, {}, sid0, 1, [1, 65], 0, [[65]], 1, by decide +kernel⟩,
    ⟨at_ gramDev, {}, 0, gramImg, 0, by decide +kernel⟩,
    ⟨at_ boundDev, {}, sid0, false, 0, 0, 1, 0, { tokDigest := [1] }, by decide +kernel⟩,
    ⟨at_ (boundDev.updDesc 0 fun x => { x with grammarBound := true }), {}, sid0, true, 0, by decide +kernel⟩⟩

theorem test_meets_searchCommandsComplete :
    (∃ (s : State) (h : Hdr) (handle key tags : Nat) (vec param : Bytes) (bind nodesMax sideMax sideMerge dim efBuild degree
      metric fmt : Nat) (v : List Rat) (k i : Nat) (y : SIndex),
      s.runs = true ∧
      s.dev.ready h true = true ∧
      handle = 0 ∧
      bind = 0 ∧
      s.dev.mayIndex h.fn handle false = true ∧
      vecFmtOk fmt = true ∧
      createOk dim degree metric nodesMax sideMax sideMerge efBuild = true ∧
      let e := s.dev.entered h
      e.on F.SFT_CTL_EN = true ∧
      let cs := readElems param 32 (2 * dim)
      cs.all Elem.fp32.finite = true ∧
      (cs.drop dim).all (fun c => decide (0 < ofF32 c)) = true ∧
      readVec fmt dim vec = some v ∧
      let die := e.indexPlace none
      indexSize dim degree nodesMax sideMax ≤ e.sftFree die ∧
      overLimit h.fn (e.useIndexes h.fn) 1 (e.limits h.fn).indexes = false ∧
      NMap.freeFrom e.sft.idx 32768 (die * 32768) = some k ∧
      let gen := NMap.getD e.sft.gens k 1
      let x : SIndex := {
          dim := dim, degree := degree, ip := metric == 1, nodesMax := nodesMax, sideMax := sideMax, sideMerge := sideMerge,
          efBuild := efBuild, gen := gen, partition := h.fn, fn := h.fn, eq := h.eq, centres := cs.take dim,
          scales := cs.drop dim }
      x.insert key tags v = some (i, y)) ∧
    (∃ (s : State) (h : Hdr) (handle key tags : Nat) (vec : Bytes) (fmt : Nat) (x y : SIndex) (v : List Rat) (i c : Nat),
      s.runs = true ∧
      s.dev.ready h true = true ∧
      handle ≠ 0 ∧
      s.dev.mayIndex h.fn handle false = true ∧
      vecFmtOk fmt = true ∧
      let e := s.dev.entered h
      e.on F.SFT_CTL_EN = true ∧
      e.sindex handle = some x ∧
      readVec fmt x.dim vec = some v ∧
      x.keyed key = none ∧
      x.side.length < x.sideMax ∧
      x.insert key tags v = some (i, y) ∧
      e.indexEngine handle = some c) ∧
    (∃ (s : State) (h : Hdr) (handle : Nat) (drop : Bool) (x : SIndex),
      s.runs = true ∧
      s.dev.ready h false = true ∧
      drop = true ∧
      s.dev.mayIndex h.fn handle true = true ∧
      let e := s.dev.entered h
      e.on F.SFT_CTL_EN = true ∧
      e.sindex handle = some x) ∧
    (∃ (s : State) (h : Hdr) (handle : Nat) (drop : Bool) (key : Nat) (x : SIndex) (i c : Nat),
      s.runs = true ∧
      s.dev.ready h false = true ∧
      drop = false ∧
      s.dev.mayIndex h.fn handle false = true ∧
      let e := s.dev.entered h
      e.on F.SFT_CTL_EN = true ∧
      e.sindex handle = some x ∧
      x.keyed key = some i ∧
      e.indexEngine handle = some c) ∧
    (∃ (s : State) (h : Hdr) (handle : Nat) (widen : Bool) (vec : Bytes) (k ef maxProbes rerank widenProbes fmt : Nat) (x :
      SIndex) (v : List Rat),
      s.runs = true ∧
      s.dev.ready h true = true ∧
      s.dev.mayIndex h.fn handle false = true ∧
      vecFmtOk fmt = true ∧
      1 ≤ k ∧
      k ≤ 1024 ∧
      k ≤ ef ∧
      ef ≤ 4096 ∧
      1 ≤ maxProbes ∧
      (rerank = 0 ∨ k ≤ rerank ∧ rerank ≤ 4096) ∧
      (widen = true → 1 ≤ widenProbes ∧ widenProbes ≤ s.dev.g F.SFT_CTL_WIDEN_MAX) ∧
      let e := s.dev.entered h
      e.on F.SFT_CTL_EN = true ∧
      e.sindex handle = some x ∧
      readVec fmt x.dim vec = some v) ∧
    (∃ (s : State) (h : Hdr) (handle : Nat) (x : SIndex),
      s.runs = true ∧
      s.dev.ready h false = true ∧
      s.dev.mayIndex h.fn handle false = true ∧
      let e := s.dev.entered h
      e.on F.SFT_CTL_EN = true ∧
      e.sindex handle = some x ∧
      x.merging = none ∧
      (e.indexEngine handle).isSome = true) ∧
    (∃ (s : State) (handle : Nat) (x : SIndex) (t : SMerge),
      s.runs = true ∧
      s.dev.sindex handle = some x ∧
      x.merging = some t) :=
  ⟨⟨svc, {}, 0, 0, 0, zeroVec, unitScale, 0, 1024, 1024, 1, 64, 16, 8, 0, 0, List.replicate 64 0, 0, 0, newIndex, by decide +kernel⟩,
    ⟨at_ indexDev, {}, 65536, 9, 0, zeroVec, 0, newIndex, (newIndex.insert 9 0 (List.replicate 64 0)).elim {} (·.2), List.replicate 64 0, 1, 0, by decide +kernel⟩,
    ⟨at_ indexDev, {}, 65536, true, newIndex, by decide +kernel⟩,
    ⟨at_ indexDev, {}, 65536, false, 0, newIndex, 0, 0, by decide +kernel⟩,
    ⟨at_ indexDev, {}, 65536, false, zeroVec, 2, 2, 1, 0, 0, 0, newIndex, List.replicate 64 0, by decide +kernel⟩,
    ⟨at_ indexDev, {}, 65536, newIndex, by decide +kernel⟩,
    ⟨at_ (indexDev.setIndex 65536 { newIndex with merging := some {} }), 65536, { newIndex with merging := some {} }, {}, by decide +kernel⟩⟩

theorem test_meets_parkAndReviveComplete :
    (∃ (s : State) (h : Hdr) (sid target slot : Nat) (holder : WarmHolder),
      s.runs = true ∧
      s.dev.ready h false = true ∧
      s.dev.mayUse h.fn sid true = true ∧
      target ≤ 2 ∧
      let e := s.dev.asked h slot
      e.parkOn = true ∧
      (s.dev.entered h).serves h sid slot = true ∧
      let x := (e.sess slot).d
      ((x.state = .open ∨ x.state = .waiting) ∧ (x.turnQueued || x.ctxValid) = false ∨ x.state = .parked ∧ target = 1 ∧
        x.histDurable < x.histLen) ∧
      (target = 2 → x.tier ≠ .warm ∧ holder.room = true ∧ holder.ctrl ≠ e.self ∧ (e.own.domains.any fun a => a.1 ==
        holder.ctrl && e.own.domains.any fun b => b.1 == e.self && b.2 == a.2) = true) ∧
      e.hready (slotDie slot) = true ∧
      (if target = 1 then (if e.histBlocked slot then some 3 else none) else e.parkBlocked slot) = none ∧
      ((e.supersede slot).beginPark s.hbm slot target holder h.fn h.eq h.hseq).isSome = true) ∧
    (∃ (s : State) (h : Hdr) (sid target slot : Nat),
      s.runs = true ∧
      s.dev.ready h false = true ∧
      s.dev.mayUse h.fn sid true = true ∧
      target = 1 ∧
      let e := s.dev.asked h slot
      e.parkOn = true ∧
      (s.dev.entered h).serves h sid slot = true ∧
      (e.sess slot).d.state = .parked ∧
      (e.sess slot).d.histLen ≤ (e.sess slot).d.histDurable) ∧
    (∃ (s : State) (h : Hdr) (sid mode slot : Nat),
      s.runs = true ∧
      s.dev.ready h false = true ∧
      s.dev.mayUse h.fn sid true = true ∧
      mode ≤ 2 ∧
      let e := s.dev.asked h slot
      e.parkOn = true ∧
      (s.dev.entered h).serves h sid slot = true ∧
      let x := (e.sess slot).d
      (x.state = .parked ∨ x.state = .history ∧ mode ≠ 1 ∨ (x.state = .open ∨ x.state = .waiting) ∧ x.tier = .warm) ∧
      e.hready (slotDie slot) = true ∧
      let d := if (e.park slot).isSome then e.abandonPark slot 2 else e
      (d.beginRevive s.hbm slot mode h.fn h.eq h.hseq).isSome = true) ∧
    (∃ (s : State) (h : Hdr) (sid mode slot : Nat),
      s.runs = true ∧
      s.dev.ready h false = true ∧
      s.dev.mayUse h.fn sid true = true ∧
      mode ≤ 2 ∧
      let e := s.dev.asked h slot
      e.parkOn = true ∧
      (s.dev.entered h).serves h sid slot = true ∧
      (e.sess slot).d.state = .parking ∧
      ((e.abandonPark slot 2).isWarm slot || ((e.abandonPark slot 2).sess slot).d.tier == .parked) = false) ∧
    (∃ (s : State) (h : Hdr) (sid mode slot : Nat),
      s.runs = true ∧
      s.dev.ready h false = true ∧
      s.dev.mayUse h.fn sid true = true ∧
      mode ≤ 2 ∧
      let e := s.dev.asked h slot
      e.parkOn = true ∧
      (s.dev.entered h).serves h sid slot = true ∧
      ((e.sess slot).d.state ∈ [SState.running, .reviving] ∨ ((e.sess slot).d.state ∈ [SState.open, .waiting] ∧ (e.sess
        slot).d.tier ≠ .warm ∧ (e.sess slot).coldest = .hot))) :=
  ⟨⟨at_ parkDev, {}, sid0, 0, 0, {}, by decide +kernel⟩,
    ⟨sessIn .parked, {}, sid0, 1, 0, by decide +kernel⟩,
    ⟨at_ ((parkDev.updDesc 0 fun x => { x with state := .history, tier := .history })), {}, sid0, 0, 0, by decide +kernel⟩,
    ⟨sessIn .parking, {}, sid0, 0, 0, by decide +kernel⟩,
    ⟨opened, {}, sid0, 0, 0, by decide +kernel⟩⟩

theorem test_meets_parkEventsComplete :
    (∃ (s : State) (sid slot : Nat) (p : Park),
      s.runs = true ∧
      s.dev.slotOf sid = some slot ∧
      s.dev.noteDurable slot = s.dev ∧
      s.dev.park slot = some p ∧
      p.durable = false ∧
      s.dev.parkReady slot p = true ∧
      p.target = 1 ∧
      s.dev.noGroupRuns = true) ∧
    (∃ (s : State) (sid slot : Nat) (p : Park) (t : Nat),
      s.runs = true ∧
      s.dev.slotOf sid = some slot ∧
      s.dev.park slot = some p ∧
      p.mirrorDeadline = some t ∧
      p.mirrored = false ∧
      p.needMirror = true) ∧
    (∃ (s : State) (sid slot : Nat) (p : Park),
      s.runs = true ∧
      s.dev.slotOf sid = some slot ∧
      s.dev.park slot = some p ∧
      p.target = 2) ∧
    (∃ (s : State) (sid slot : Nat) (p : Park),
      s.runs = true ∧
      s.dev.slotOf sid = some slot ∧
      s.dev.park slot = some p ∧
      p.target = 0 ∧
      p.handle = 0 ∧
      p.fromWarm = true) ∧
    (∃ (s : State) (sid slot : Nat),
      s.runs = true ∧
      s.dev.slotOf sid = some slot ∧
      s.dev.park slot = none ∧
      (s.dev.sess slot).d.tier = .warm ∧
      s.dev.owns slot = true) ∧
    (∃ (s : State) (sid slot : Nat),
      s.runs = true ∧
      s.dev.slotOf sid = some slot ∧
      let x := s.dev.sess slot
      idleCond x.d = true ∧
      x.d.idleSince ≠ 0 ∧
      s.dev.on F.PRK_CTL_EN = true ∧
      s.dev.park slot = none ∧
      s.dev.owns slot = true ∧
      s.dev.hready (slotDie slot) = true) ∧
    (∃ (s : State) (slot : Nat),
      s.runs = true ∧
      s.dev.on F.PRK_CTL_EN = true ∧
      s.dev.on F.PRK_CTL_SPILL_EN = true ∧
      s.dev.hamperReady = true ∧
      s.dev.hamperBelow (s.dev.g (if s.dev.prk.spillSeen = 1 then F.PRK_SPILL_HIGH_PCT else F.PRK_SPILL_LOW_PCT)) = true ∧
      s.dev.spillNext = some slot) ∧
    (∃ (s : State) (sid slot : Nat) (r : Revive) (o : HObj),
      s.runs = true ∧
      s.dev.slotOf sid = some slot ∧
      s.dev.revive slot = some r ∧
      r.reserved = true ∧
      r.wants = 0 ∧
      r.mode = 1 ∧
      let x := (s.dev.sess slot).d
      s.dev.readObj x.imageHandle = some o ∧
      o.lacks 0 o.length = true ∧
      x.mirrorValid = true ∧
      x.buddy ≠ 0 ∧
      r.staged = false) ∧
    (∃ (s : State) (sid slot : Nat) (r : Revive),
      s.runs = true ∧
      s.dev.slotOf sid = some slot ∧
      s.dev.revive slot = some r ∧
      r.reserved = true ∧
      r.wants = 0 ∧
      r.mode = 3) ∧
    (∃ (s : State) (sid slot t : Nat) (r : Revive),
      s.runs = true ∧
      s.dev.slotOf sid = some slot ∧
      s.dev.revive slot = some r ∧
      r.mode = 2 ∧
      r.deadline = some t) :=
  ⟨⟨at_ (parkDev.setPark 0 { target := 1 }), sid0, 0, { target := 1 }, by decide +kernel⟩,
    ⟨at_ (parkDev.setPark 0 { needMirror := true, mirrorDeadline := some 7 }), sid0, 0, { needMirror := true, mirrorDeadline := some 7 }, 7, by decide +kernel⟩,
    ⟨at_ (parkDev.setPark 0 { target := 2 }), sid0, 0, { target := 2 }, by decide +kernel⟩,
    ⟨at_ (parkDev.setPark 0 { fromWarm := true }), sid0, 0, { fromWarm := true }, by decide +kernel⟩,
    ⟨at_ (parkDev.updDesc 0 fun x => { x with tier := .warm }), sid0, 0, by decide +kernel⟩,
    ⟨at_ (parkDev.updDesc 0 fun x => { x with idleSince := 1 }), sid0, 0, by decide +kernel⟩,
    ⟨at_ (spillDev), 0, by decide +kernel⟩,
    ⟨at_ (((parkDev.updHalf 0 fun y => { y with objs := [(0, { imageObj0 with kind := 1, length := 16384, holes := [0] })] }).updDesc 0 fun x => { x with imageHandle := mkHandle 0 1 1 0, mirrorValid := true, buddy := 2 }).setRevive 0 { reserved := true }), sid0, 0, { reserved := true }, { imageObj0 with kind := 1, length := 16384, holes := [0] }, by decide +kernel⟩,
    ⟨at_ { parkDev with prk := { parkDev.prk with revives := [(0, { reserved := true, mode := 3 })] } }, sid0, 0, { reserved := true, mode := 3 }, by decide +kernel⟩,
    ⟨at_ { parkDev with prk := { parkDev.prk with revives := [(0, { mode := 2, deadline := some 5 })] } }, sid0, 0, 5, { mode := 2, deadline := some 5 }, by decide +kernel⟩⟩
theorem test_meets_parkEventsComplete_8 :
    ∃ (s : State) (sid slot : Nat) (r : Revive) (o : HObj),
      s.runs = true ∧
      s.dev.slotOf sid = some slot ∧
      s.dev.revive slot = some r ∧
      r.reserved = true ∧
      r.wants = 0 ∧
      r.mode = 1 ∧
      s.dev.readObj (s.dev.sess slot).d.imageHandle = some o ∧
      o.lacks 0 o.length = false ∧
      imageOk o.data = true := by
  refine ⟨at_ (imageDev), sid0, 0, { reserved := true }, imageObj, ?_⟩
  refine ⟨by decide +kernel, by decide +kernel, by decide +kernel, by decide +kernel, by decide +kernel, by decide +kernel, rfl, rfl, ?_⟩
  rw [show imageObj.data = testImage from rfl, testImage_ok]

theorem test_meets_mirrorMessagesComplete :
    (∃ (s : State) (src sid partition obj length epoch hd : Nat) (c : Dev),
      s.runs = true ∧
      (obj = 3 ∨ obj = 4) ∧
      let d := s.dev.resolve src 5 .ok
      let x := d.mirror sid
      x.handle obj = 0 ∧
      let y := { x with partition := partition, ownerEpoch := epoch }
      d.createObj (mirrorHalf sid) obj sid partition (if obj = 3 then ceilDiv length 16384 else 64) = some (hd, c)) ∧
    (∃ (s : State) (src prio sid obj offset : Nat) (data : Bytes) (o : HObj),
      s.runs = true ∧
      obj ≠ 4 ∧
      let d := s.dev.resolve src 5 .ok
      let hd := (d.mirror sid).handle obj
      d.obj hd = some o ∧
      ceilDiv (offset + data.length) 16384 ≤ o.pages) ∧
    (∃ (s : State) (src sid obj : Nat) (o : HObj),
      s.runs = true ∧
      let d := s.dev.resolve src 5 .ok
      d.obj ((d.mirror sid).handle obj) = some o) ∧
    (∃ (s : State),
      s.runs = true) ∧
    (∃ (s : State) (obj : Nat),
      s.runs = true ∧
      obj = 0) ∧
    (∃ (s : State) (obj : Nat),
      s.runs = true ∧
      obj = 3) ∧
    (∃ (s : State) (src sid obj status length slot : Nat) (p : Park) (o : HObj),
      s.runs = true ∧
      s.dev.oldId sid = false ∧
      let d := s.dev.heard src 5 sid
      d.slotOf sid = some slot ∧
      let x := (d.sess slot).d
      x.buddy = src ∧
      x.state ≠ .closed ∧
      d.park slot = some p ∧
      p.target = 0 ∧
      status = 0 ∧
      obj = 3 ∧
      d.obj p.handle = some o ∧
      p.handle ≠ 0 ∧
      o.length ≤ length) ∧
    (∃ (s : State) (src sid obj offset length : Nat) (o : HObj),
      s.runs = true ∧
      let d := s.dev.resolve src 5 .ok
      let x := d.mirror sid
      d.readObj (x.handle obj) = some o ∧
      o.lacks offset length = false) ∧
    (∃ (s : State) (src sid obj offset status : Nat) (data : Bytes) (slot l : Nat) (o : HObj) (p : Nat × Nat),
      s.runs = true ∧
      s.dev.oldId sid = false ∧
      let d := s.dev.heard src 5 sid
      d.slotOf sid = some slot ∧
      let hd := if obj = 3 then (d.sess slot).d.imageHandle else (d.sess slot).d.histHandle
      d.obj hd = some o ∧
      (obj = 3 → ((d.revive slot).map (·.wants)).getD 0 = 0) ∧
      lpnAt o.extents (offset / 16384) = some l ∧
      ((d.half (handleHalf hd)).repairs.find? fun e => e.1 == l) = some p ∧
      let y := d.half (handleHalf hd)
      NMap.get? y.map l = some p.2 ∧
      ((y.queued ++ y.buffer).all fun b => b.lpn != l) = true) ∧
    (∃ (s : State) (src sid obj status : Nat) (data : Bytes) (slot : Nat) (o : HObj) (r : Revive),
      s.runs = true ∧
      s.dev.oldId sid = false ∧
      let d := s.dev.heard src 5 sid
      d.slotOf sid = some slot ∧
      obj = 3 ∧
      let hd := (d.sess slot).d.imageHandle
      d.obj hd = some o ∧
      d.revive slot = some r ∧
      0 < r.wants ∧
      status = 0 ∧
      data.length < r.wants ∧
      data ≠ []) ∧
    (∃ (s : State) (sid : Nat) (x : Mirror),
      s.runs = true ∧
      s.dev.prk.mirrors = [(sid, x)] ∧
      x.desc ≠ []) ∧
    (∃ (s : State) (src sid : Nat),
      s.runs = true ∧
      s.dev.oldId sid = false ∧
      let slot := sidSlot sid
      let d := s.dev.heard src 5 sid
      d.flt.asked.contains slot = true ∧
      sidHome sid = d.self ∧
      src = d.myBuddy) :=
  ⟨⟨at_ parkDev, 0, sid0, 0, 3, 16384, 0, ((parkDev.resolve 0 5 .ok).createObj 0 3 sid0 0 1).elim 0 (·.1), ((parkDev.resolve 0 5 .ok).createObj 0 3 sid0 0 1).elim {} (·.2), by decide +kernel⟩,
    ⟨at_ mirrorDev, 0, 7, sid0, 3, 0, [1, 2], imageObj0, by decide +kernel⟩,
    ⟨at_ mirrorDev, 0, sid0, 3, imageObj0, by decide +kernel⟩,
    ⟨svc, by decide +kernel⟩,
    ⟨at_ mirrorDev, 0, by decide +kernel⟩,
    ⟨at_ mirrorDev, 3, by decide +kernel⟩,
    ⟨at_ (mirrorDev.setPark 0 { handle := mkHandle 0 3 1 0 }), 0, sid0, 3, 0, 99999, 0, { handle := mkHandle 0 3 1 0 }, imageObj0, by decide +kernel⟩,
    ⟨at_ mirrorDev, 0, sid0, 3, 0, 4096, imageObj0, by decide +kernel⟩,
    ⟨at_ ((mirrorDev.updDesc 0 fun x => { x with imageHandle := mkHandle 0 3 1 0 }).updHalf 0 fun y => { y with repairs := [(0, 0)], map := [(0, 0)] }), 0, sid0, 3, 0, 0, [], 0, 0, imageObj0, (0, 0), by decide +kernel⟩,
    ⟨at_ ((mirrorDev.updDesc 0 fun x => { x with imageHandle := mkHandle 0 3 1 0 }).setRevive 0 { wants := 9 }), 0, sid0, 3, 0, [1], 0, imageObj0, { wants := 9 }, by decide +kernel⟩,
    ⟨at_ (parkDev.setMirror sid0 { desc := [1] }), sid0, { desc := [1] }, by decide +kernel⟩,
    ⟨at_ lostDev, 0, sid0, by decide +kernel⟩⟩

theorem test_meets_warmHoldingComplete :
    (∃ (s : State) (src sid : Nat) (release : Bool) (length partition b i : Nat) (c : Dev),
      s.runs = true ∧
      release = false ∧
      (s.dev.prk.holdings.find? fun h => h.sid == sid && h.holder == src) = none ∧
      let die := slotDie (sidSlot sid)
      let n := max 1 (ceilDiv length (2 ^ 24))
      s.dev.binRun die n = some b ∧
      s.dev.newRegion (holdingRegion s.dev die b length partition) = some (i, c)) ∧
    (∃ (s : State) (src sid : Nat) (release : Bool) (h : Holding),
      s.runs = true ∧
      release = true ∧
      (s.dev.prk.holdings.find? fun h => h.sid == sid && h.holder == src) = some h) :=
  ⟨⟨at_ smallDev, 0, sid0, false, 0, 0, 0, 0, (smallDev.newRegion (holdingRegion smallDev 0 0 0 0)).elim {} (·.2), by decide +kernel⟩,
    ⟨at_ { parkDev with prk := { parkDev.prk with holdings := [{ sid := sid0 }] } }, 0, sid0, true, { sid := sid0 }, by decide +kernel⟩⟩

theorem test_meets_doorbellsAndTimeoutsComplete :
    (∃ (s : State) (g member word : Nat),
      s.runs = true ∧
      g < 64 ∧
      member < s.dev.gi F.TIM_GRP_SHAPE_MEMBERS g ∧
      s.dev.phase g = 1 ∧
      bits word 0 48 = s.dev.row g ∧
      bits word 56 2 = 0 ∧
      let stake := bits word 48 8
      stake < s.dev.stakes g ∧
      (NMap.get? (s.dev.group g).announced member).any (fun a => decide (stake < a)) = false) ∧
    (∃ (s : State) (g member word : Nat),
      s.runs = true ∧
      g < 64 ∧
      member < s.dev.gi F.TIM_GRP_SHAPE_MEMBERS g ∧
      s.dev.phase g = 1 ∧
      bits word 0 48 = s.dev.row g ∧
      bits word 56 2 = 1) ∧
    (∃ (s : State) (g member word : Nat),
      s.runs = true ∧
      g < 64 ∧
      member < s.dev.gi F.TIM_GRP_SHAPE_MEMBERS g ∧
      s.dev.phase g ≠ 0 ∧
      s.dev.phase g ≠ 4 ∧
      bits word 0 48 = s.dev.row g + 1 ∧
      bits word 56 2 < 2) ∧
    (∃ (s : State) (g t : Nat),
      s.runs = true ∧
      g < 64 ∧
      (s.dev.group g).stakeDeadline = some t ∧
      s.dev.phase g = 1) ∧
    (∃ (s : State) (g t : Nat),
      s.runs = true ∧
      g < 64 ∧
      (s.dev.group g).rowDeadline = some t ∧
      s.dev.phase g = 1) ∧
    (∃ (s : State) (g : Nat),
      s.runs = true ∧
      g < 64 ∧
      s.dev.rowOver g = true) ∧
    (∃ (s : State) (g member row : Nat) (entries : List (Nat × Nat)),
      s.runs = true ∧
      g < 64 ∧
      member < s.dev.gi F.TIM_GRP_SHAPE_MEMBERS g ∧
      entries.length ≤ s.dev.gi F.TOK_GRP_IN_ENTRIES g ∧
      s.dev.phase g = 1 ∧
      row = s.dev.row g) ∧
    (∃ (s : State) (g member row : Nat) (entries : List (Nat × Nat)),
      s.runs = true ∧
      g < 64 ∧
      member < s.dev.gi F.TIM_GRP_SHAPE_MEMBERS g ∧
      entries.length ≤ s.dev.gi F.TOK_GRP_IN_ENTRIES g ∧
      s.dev.phase g ≠ 0 ∧
      s.dev.phase g ≠ 4 ∧
      row = s.dev.row g + 1) :=
  ⟨⟨at_ rowDev, 0, 0, 5, by decide +kernel⟩,
    ⟨at_ rowDev, 0, 0, 5 + 2 ^ 56, by decide +kernel⟩,
    ⟨at_ rowDev, 0, 0, 6, by decide +kernel⟩,
    ⟨at_ (rowDev.updGroup 0 fun x => { x with stakeDeadline := some 9 }), 0, 9, by decide +kernel⟩,
    ⟨at_ (rowDev.updGroup 0 fun x => { x with rowDeadline := some 9 }), 0, 9, by decide +kernel⟩,
    ⟨at_ ((rowDev.updGroup 0 fun x => { x with rowEnds := [0] }).si F.TIM_STAKE_ANY_CLOSED 0 1), 0, by decide +kernel⟩,
    ⟨at_ rowDev, 0, 0, 5, [], by decide +kernel⟩,
    ⟨at_ rowDev, 0, 0, 6, [], by decide +kernel⟩⟩

theorem test_meets_boundaryRoundsComplete :
    (∃ (s : State) (g : Nat) (r : Report),
      s.runs = true ∧
      g < 64 ∧
      (s.dev.group g).reportPending = some r ∧
      s.dev.phase g = 2 ∧
      (s.dev.group g).boundaryDone = true ∧
      (s.dev.group g).acksWanted = []) ∧
    (∃ (s : State) (src gid row : Nat) (restart : Bool) (g : Nat),
      s.runs = true ∧
      s.dev.groupOf gid = some g ∧
      (s.dev.group g).ctrls.contains src = true ∧
      let d := s.dev.resolve src svcTime .ok
      let x := s.dev.group g
      d.isTk g = true ∧
      (row = x.roundRow ∨ restart = true ∨ (x.tookOver = true ∧ x.roundRow < row))) ∧
    (∃ (s : State) (g t : Nat),
      s.runs = true ∧
      g < 64 ∧
      (s.dev.group g).lostDeadline = some t ∧
      s.dev.issues g = true ∧
      s.dev.phase g = 3 ∧
      (s.dev.group g).heldBeacon = none) ∧
    (∃ (s : State) (src gid epoch g : Nat),
      s.runs = true ∧
      s.dev.groupOf gid = some g ∧
      s.dev.phase g ≠ 0 ∧
      s.dev.phase g ≠ 4 ∧
      epoch = s.dev.tkEpoch g ∧
      src = s.dev.tk g) ∧
    (∃ (s : State) (src gid row epoch : Nat) (resync reconf : Bool) (g : Nat),
      s.runs = true ∧
      s.dev.groupOf gid = some g ∧
      s.dev.phase g = 0 ∧
      epoch = s.dev.tkEpoch g ∧
      src = s.dev.tk g ∧
      reconf = true ∧
      resync = true ∧
      s.dev.row g < row) ∧
    (∃ (s : State) (g src : Nat) (b : Beacon),
      s.runs = true ∧
      g < 64 ∧
      (s.dev.group g).heldBeacon = some (src, b) ∧
      (s.dev.phase g = 0 ∨ s.dev.phase g = 3) ∧
      s.dev.on F.TIM_CTL_EN = true) ∧
    (∃ (s : State) (src gid g : Nat) (b : Beacon),
      s.runs = true ∧
      s.dev.groupOf gid = some g ∧
      let d := s.dev.resolve src svcTime .ok
      d.issues g = true ∧
      (d.group g).lastBeacon = some b ∧
      d.phase g ≠ 4) ∧
    (∃ (s : State) (gid g : Nat),
      s.runs = true ∧
      s.dev.groupOf gid = some g) ∧
    (∃ (s : State) (g t : Nat),
      s.runs = true ∧
      g < 64 ∧
      (s.dev.group g).beaconDeadline = some t ∧
      s.dev.phase g = 3) ∧
    (∃ (s : State) (g t : Nat),
      s.runs = true ∧
      g < 64 ∧
      (s.dev.group g).takeoverDeadline = some t ∧
      s.dev.phase g = 3 ∧
      (s.dev.group g).heldBeacon = none ∧
      let d := (s.dev.reach t).updGroup g fun x => { x with takeoverDeadline := none }
      d.deputy g = d.self ∧
      d.self ≠ 0 ∧
      (d.group g).querySeen ≠ []) :=
  ⟨⟨at_ ((rowDev.setPhase 0 .boundary).updGroup 0 fun x => { x with reportPending := some {}, boundaryDone := true }), 0, {}, by decide +kernel⟩,
    ⟨at_ rowDev, 0, 7, 0, false, 0, by decide +kernel⟩,
    ⟨at_ ((rowDev.setPhase 0 .waitBeacon).updGroup 0 fun x => { x with lostDeadline := some 9 }), 0, 9, by decide +kernel⟩,
    ⟨at_ (rowDev.setPhase 0 .waitBeacon), 0, 7, 0, 0, by decide +kernel⟩,
    ⟨at_ (rowDev.setPhase 0 .idle), 0, 7, 6, 0, true, true, 0, by decide +kernel⟩,
    ⟨at_ ((rowDev.setPhase 0 .waitBeacon).updGroup 0 fun x => { x with heldBeacon := some (0, { row := 6 }) }), 0, 0, { row := 6 }, by decide +kernel⟩,
    ⟨at_ (rowDev.updGroup 0 fun x => { x with lastBeacon := some {} }), 0, 7, 0, {}, by decide +kernel⟩,
    ⟨at_ rowDev, 7, 0, by decide +kernel⟩,
    ⟨at_ ((rowDev.setPhase 0 .waitBeacon).updGroup 0 fun x => { x with beaconDeadline := some 9 }), 0, 9, by decide +kernel⟩,
    ⟨at_ (((((rowDev.s F.HLF_SELF_CTRL_ID 3).si F.TIM_GRP_CFG_DEPUTY 0 3).setPhase 0 .waitBeacon)).updGroup 0 fun x => { x with takeoverDeadline := some 9, querySeen := [3] }), 0, 9, by decide +kernel⟩⟩

theorem test_meets_tilesComplete :
    (∃ (s : State) (g m qp imm : Nat) (bytes : Bytes) (slot : Nat) (e : BatchEntry),
      s.runs = true ∧
      g < 64 ∧
      s.dev.on F.ATT_CTL_EN = true ∧
      imm < s.dev.gi F.ATT_GRP_SLOTS_SLOTS g ∧
      max bytes.length (64 + leAt bytes 0x28 4) ≤ s.dev.gi F.ATT_GRP_IN_SLOT_KIB g * 1024 ∧
      let t := QTile.ofBytes qp (imm % 65536) bytes
      let d := s.dev.cntP F.ATT_CNT0_TILES_IN (s.dev.partOf t.sid) 1 true
      d.slotOf t.sid = some slot ∧
      let d := d.touch slot
      d.epochs slot t.mapEpoch t.ownerEpoch = .accept ∧
      t.row = d.row g ∧
      d.phase g = 1 ∧
      d.closed g t.stake = false ∧
      d.feeds g slot = some e ∧
      (d.liveEngines (slotDie slot)).isEmpty = false ∧
      (d.sess slot).d.kill = false ∧
      ((d.turnCtx slot).map fun i => (d.ctx i).kill).getD false = false ∧
      (d.sess slot).voided = none ∧
      d.tileOk g m slot t e = true ∧
      (d.worksOf g slot t).any (fun w => w.got.contains (t.pos, t.head0)) = false) ∧
    (∃ (s : State) (g die qp imm : Nat) (bytes : Bytes) (slot : Nat) (u : Push),
      s.runs = true ∧
      g < 64 ∧
      die < 2 ∧
      let lane := imm / 65536 % 256
      lane < s.dev.gi F.ATT_GRP_PUSH_LANES g ∧
      imm % 65536 < s.dev.gi F.ATT_GRP_PUSH2_LANE_SLOTS g ∧
      max bytes.length (64 + leAt bytes 0x28 4) ≤ s.dev.gi F.ATT_GRP_PUSH_SLOT_4K g * 4096 ∧
      let t := PTile.ofBytes qp (imm % 65536) bytes
      s.dev.slotOf t.sid = some slot ∧
      let d := s.dev.touch slot
      d.epochs slot t.mapEpoch t.ownerEpoch = .accept ∧
      d.pushOf slot = some u ∧
      u.lane.isSome = true ∧
      u.id = t.pushId ∧
      t.pushId ≠ 0 ∧
      d.pushOk g die lane u t = true ∧
      u.placed.contains (pieceKey t.layer t.pos) = false) ∧
    (∃ (s : State) (tile : Bytes) (slot : Nat),
      s.runs = true ∧
      let t := OTile.ofBytes tile
      s.dev.oldId t.sid = false ∧
      s.dev.slotOf t.sid = some slot ∧
      let d := s.dev.touch slot
      let g := (d.sess slot).d.group
      d.epochs slot t.mapEpoch t.ownerEpoch = .accept ∧
      t.row = d.row g ∧
      d.phase g = 1 ∧
      (d.sess slot).voided = none) :=
  ⟨⟨at_ tileDev, 0, 0, 0, 0, tileImg, 0, { sid := sid0, npos := 1 }, by decide +kernel⟩,
    ⟨at_ pushDev, 0, 0, 0, 0, pushImg, 0, { id := 1, lane := some 0, count := 1 }, by decide +kernel⟩,
    ⟨at_ tileDev, pack 64 [⟨0, 0, 64, sid0⟩, ⟨8, 0, 48, 5⟩, ⟨0x10, 54, 1, 1⟩, ⟨0x18, 6, 6, 2⟩, ⟨0x18, 32, 32, 1⟩], 0, by decide +kernel⟩⟩

theorem test_meets_enginesComplete :
    (∃ (s : State) (e station : Nat) (t : Task) (v : Weave) (i : Inst),
      s.runs = true ∧
      e < 64 ∧
      station < 6 ∧
      (s.dev.engine e).running = some t ∧
      s.dev.weaveOf t.group = some v ∧
      s.dev.phase t.group = 1 ∧
      s.dev.nextInst v e station t = some i ∧
      let x := (v.stepsOf t.stake).getD i.step {}
      let works := s.dev.needed v e t x i
      s.dev.headOf v e t x i = true ∧
      s.dev.mayFire v e t x i works = true) ∧
    (∃ (s : State) (sid stake slot : Nat) (v : Weave) (w : Work),
      s.runs = true ∧
      s.dev.slotOf sid = some slot ∧
      (s.dev.siftFor slot).isSome = true ∧
      let g := (s.dev.sess slot).d.group
      s.dev.weaveOf g = some v ∧
      (s.dev.att.work.find? fun w => w.group == g && w.slot == slot && w.stake == stake && w.selAsked && w.sel.isNone) = some
        w) ∧
    (∃ (s : State) (slot layer page : Nat) (c : Nat × Nat × Nat × Nat × Nat) (r : Resv),
      s.runs = true ∧
      (s.dev.pgs.copies.find? fun c => c.1 == slot && c.2.1 == layer && c.2.2.1 == page) = some c ∧
      let before := (s.dev.pgs.copies.filter fun k => slotDie k.1 == slotDie slot).takeWhile (· != c)
      before.length < s.dev.moveEngines (slotDie slot) ∧
      let src := c.2.2.2.1
      let x := s.dev.sess slot
      let n := min 64 (x.d.committed - 64 * page)
      let fs := s.dev.frame src
      let d := s.dev.heatFrame src (s.dev.row x.d.group)
      let d := d.poke (d.frameAddr c.2.2.2.2) (Memory.readN s.hbm (d.frameAddr src) (n * (s.dev.prof x).slotBytes))
      let d := { d with pgs := { d.pgs with copies := d.pgs.copies.erase c } }.sat F.PGS_CNT_COW 1
      (x.resv.find? fun r => r.layer == layer && r.page == page) = some r) ∧
    (∃ (s : State) (e : Nat) (t : Task) (v : Weave),
      s.runs = true ∧
      e < 64 ∧
      let x := s.dev.engine e
      x.running = some t ∧
      s.dev.weaveOf t.group = some v ∧
      s.dev.firstInst v e t = none ∧
      s.dev.selecting v e t = false) ∧
    (∃ (s : State) (e : Nat) (t : Task) (l till : Nat),
      s.runs = true ∧
      e < 64 ∧
      (s.dev.engine e).running = some t ∧
      (s.dev.engine e).request = some (l, till)) ∧
    (∃ (s : State) (e : Nat) (t : Task) (l what : Nat) (v : Weave),
      s.runs = true ∧
      e < 64 ∧
      let x := s.dev.engine e
      x.running = some t ∧
      t.level = some l ∧
      s.dev.weaveOf t.group = some v ∧
      s.dev.tileWait v e t = some what ∧
      t.yieldCc ≠ 0 ∧
      (!x.ready.isEmpty || x.saved.any fun u => u.awaits.isNone) = true ∧
      NMap.has s.dev.att.saveSets (saveKey (engDie e) l) = true ∧
      (x.saved.any fun u => u.level == some l) = false) ∧
    (∃ (s : State) (e : Nat) (t : Task),
      s.runs = true ∧
      e < 64 ∧
      let x := s.dev.engine e
      x.saving = some t) ∧
    (∃ (s : State) (e : Nat) (t : Task),
      s.runs = true ∧
      e < 64 ∧
      let x := s.dev.engine e
      x.restoring = some t) :=
  ⟨⟨at_ engineDev, 0, 1, { level := some 3 }, tileWeave, {}, by decide +kernel⟩,
    ⟨at_ { tileDev with att := { tileDev.att with work := [{ selAsked := true }] } }, sid0, 0, 0, tileWeave, { selAsked := true }, by decide +kernel⟩,
    ⟨at_ { tileDev.updSess 0 (fun x => { x with resv := [{ pageId := 2 }] }) with pgs := { tileDev.pgs with copies := [(0, 0, 0, 1, 2)] } }, 0, 0, 0, (0, 0, 0, 1, 2), { pageId := 2 }, by decide +kernel⟩,
    ⟨at_ (tileDev.setEngine 0 { running := some { issued := [({} : Inst).key] } }), 0, { issued := [({} : Inst).key] }, tileWeave, by decide +kernel⟩,
    ⟨at_ (tileDev.setEngine 0 { running := some {}, request := some (1, 9) }), 0, {}, 1, 9, by decide +kernel⟩,
    ⟨at_ yieldDev, 0, { level := some 3, yieldCc := 1 }, 3, 2 ^ 22, pushWeave, by decide +kernel⟩,
    ⟨at_ (tileDev.setEngine 0 { saving := some {} }), 0, {}, by decide +kernel⟩,
    ⟨at_ (tileDev.setEngine 0 { restoring := some {} }), 0, {}, by decide +kernel⟩⟩

theorem test_meets_unitFaultsComplete :
    (∃ (s : State) (kind idx : Nat),
      s.runs = true ∧
      unitFitted kind idx = true ∧
      unitCount kind ≠ 0) ∧
    (∃ (s : State) (kind idx failed fn : Nat),
      s.runs = true ∧
      unitFitted kind idx = true ∧
      fn < 32 ∧
      kind ≠ 1 ∧
      failed ≠ 0 ∧
      failed ≤ s.dev.g F.FLT_CTL_RETRIES) ∧
    (∃ (s : State) (kind idx failed fn : Nat),
      s.runs = true ∧
      unitFitted kind idx = true ∧
      fn < 32 ∧
      kind ≠ 1 ∧
      kind < 11 ∧
      s.dev.g F.FLT_CTL_RETRIES < failed) ∧
    (∃ (s : State) (e : Nat),
      s.runs = true ∧
      e < 64) ∧
    (∃ (s : State) (e : Nat),
      s.runs = true ∧
      e < 64 ∧
      s.dev.stalls e = true) ∧
    (∃ (s : State) (core : Nat) (held : List (Nat × Nat)),
      s.runs = true ∧
      core < 8 ∧
      let busy := held.dedup.filter fun e => (s.dev.ring e.1 e.2).busy.isSome
      let d := (busy.foldl (fun (d : Dev) e => (d.faultRes 2).answer e.1 e.2) s.dev).countUnit 11 core 0 1
      d.transWin 11 core < d.g F.FLT_CTL_RETRIES + 1) ∧
    (∃ (s : State),
      s.runs = true) :=
  ⟨⟨svc, 6, 0, by decide +kernel⟩,
    ⟨svc, 6, 0, 1, 0, by decide +kernel⟩,
    ⟨svc, 2, 0, 99, 0, by decide +kernel⟩,
    ⟨at_ engineDev, 0, by decide +kernel⟩,
    ⟨at_ engineDev, 0, by decide +kernel⟩,
    ⟨at_ (svcDev.setRing 0 0 { busy := some (5, 0x101, true) }), 0, [(0, 0)], by decide +kernel⟩,
    ⟨at_ (svcDev.countUnit 6 0 1 0), by decide +kernel⟩⟩

theorem test_meets_lostDescriptorsComplete :
    (∃ (s : State) (slot : Nat),
      s.runs = true ∧
      slot < 4194304 ∧
      NMap.has s.dev.ses.tab slot = true ∧
      (s.dev.sess slot).lost = false ∧
      ((s.dev.lines (slotDie slot)).any fun l => l.slot == slot) = false) ∧
    (∃ (s : State) (slot : Nat),
      s.runs = true ∧
      slot < 4194304 ∧
      NMap.has s.dev.ses.tab slot = true ∧
      (s.dev.sess slot).lost = false ∧
      ((s.dev.lines (slotDie slot)).any fun l => l.slot == slot) = false ∧
      (s.dev.ses.fetches.any fun f => f.slot == slot) = false) ∧
    (∃ (s : State) (slot : Nat),
      s.runs = true ∧
      slot < 4194304 ∧
      NMap.has s.dev.ses.tab slot = true ∧
      (s.dev.sess slot).lost = false ∧
      ((s.dev.lines (slotDie slot)).any fun l => l.slot == slot) = false ∧
      (s.dev.ses.fetches.any fun f => f.slot == slot) = true) ∧
    (∃ (s : State) (slot : Nat),
      s.runs = true ∧
      slot < 4194304 ∧
      (NMap.has s.dev.ses.tab slot = false ∨ (s.dev.sess slot).lost = true ∨ ((s.dev.lines (slotDie slot)).any fun l =>
        l.slot == slot) = true)) ∧
    (∃ (s : State) (src sid status : Nat) (body : Bytes),
      s.runs = true ∧
      s.dev.oldId sid = false ∧
      let d := s.dev.heard src 5 sid
      let slot := sidSlot sid
      d.flt.asked.contains slot = true ∧
      sidHome sid = d.self ∧
      src = d.myBuddy ∧
      (status ≠ 0 ∨ body.length ≠ 256 ∨ (d.sess slot).d.state = .closed)) ∧
    (∃ (s : State) (src sid status : Nat) (body : Bytes),
      s.runs = true ∧
      s.dev.oldId sid = false ∧
      let d := s.dev.heard src 5 sid
      let slot := sidSlot sid
      d.flt.asked.contains slot = true ∧
      sidHome sid = d.self ∧
      src = d.myBuddy ∧
      status = 0 ∧
      body.length = 256 ∧
      (d.sess slot).d.state ≠ .closed) :=
  ⟨⟨opened, 0, by decide +kernel⟩,
    ⟨opened, 0, by decide +kernel⟩,
    ⟨at_ { openDev with ses := { openDev.ses with fetches := [{ slot := 0, tries := 1 }] } }, 0, by decide +kernel⟩,
    ⟨svc, 0, by decide +kernel⟩,
    ⟨at_ lostDev, 0, sid0, 1, [], by decide +kernel⟩,
    ⟨at_ lostDev, 0, sid0, 0, List.replicate 256 0, by decide +kernel⟩⟩

theorem test_meets_blockAndDeviceResets :
    (∃ (s : State) (h : Hdr) (block : Nat) (asserted : Bool),
      s.runs = true ∧
      s.dev.fits h false = true ∧
      h.fn = 0 ∧
      block < 12 ∧
      asserted = true ∧
      let e := s.dev.entered h
      e.bootPhase ≠ 3) ∧
    (∃ (s : State) (h : Hdr) (block : Nat),
      s.runs = true ∧
      s.dev.ready h false = true ∧
      h.fn = 0 ∧
      block < 12 ∧
      let e := s.dev.entered h
      e.bootPhase = 3 ∧
      (e.rst.blocks.any fun b => b.row == block) = false ∧
      ((NMap.keys e.groups).filter fun g => e.phase g == 2) = [] ∧
      e.rowIdle block = true) ∧
    (∃ (s : State) (h : Hdr) (block : Nat),
      s.runs = true ∧
      s.dev.ready h false = true ∧
      h.fn = 0 ∧
      block < 12 ∧
      let e := s.dev.entered h
      e.bootPhase = 3 ∧
      (e.rst.blocks.any fun b => b.row == block) = false ∧
      let gs := (NMap.keys e.groups).filter fun g => e.phase g == 2
      (gs ≠ [] ∨ e.rowIdle block = false)) ∧
    (∃ (s : State) (row : Nat) (b : BlkReset),
      s.runs = true ∧
      row < 12 ∧
      (s.dev.rst.blocks.find? fun b => b.row == row && b.groups.isEmpty) = some b) ∧
    (∃ (s : State) (h : Hdr) (kind : Nat),
      s.runs = true ∧
      s.dev.ready h false = true ∧
      h.fn = 0 ∧
      kind ≤ 2) ∧
    (∃ (s : State),
      s.dev.rst.pinHeld = false) :=
  ⟨⟨at_ (svcDev.s F.RST_STATE_PHASE 2), {}, 0, true, by decide +kernel⟩,
    ⟨svc, {}, 9, by decide +kernel⟩,
    ⟨at_ (rowDev.setPhase 0 .boundary), {}, 0, by decide +kernel⟩,
    ⟨at_ { svcDev with rst := { svcDev.rst with blocks := [{ deadline := 9 }] } }, 0, { deadline := 9 }, by decide +kernel⟩,
    ⟨svc, {}, 1, by decide +kernel⟩,
    ⟨svc, by decide +kernel⟩⟩

theorem test_meets_startUpComplete :
    (∃ (s : State),
      s.runs = true ∧
      s.dev.bootPhase = 0 ∧
      s.dev.bootStep = 1) ∧
    (∃ (s : State),
      s.runs = true ∧
      s.dev.bootPhase = 0 ∧
      s.dev.bootStep = 2) ∧
    (∃ (s : State),
      s.runs = true ∧
      s.dev.bootPhase = 0 ∧
      s.dev.bootStep = 3) ∧
    (∃ (s : State),
      s.runs = true ∧
      s.dev.bootPhase = 0 ∧
      s.dev.bootStep = 4) ∧
    (∃ (s : State),
      s.runs = true ∧
      s.dev.bootPhase = 0 ∧
      s.dev.bootStep = 5) ∧
    (∃ (s : State),
      s.runs = true ∧
      s.dev.bootPhase = 0 ∧
      s.dev.bootStep = 6 ∧
      (s.dev.halves.all fun e => e.2.restored) = true) ∧
    (∃ (s : State),
      s.runs = true ∧
      s.dev.bootPhase = 0 ∧
      s.dev.bootStep = 7) ∧
    (∃ (s : State),
      s.runs = true ∧
      s.dev.bootPhase = 0 ∧
      s.dev.bootStep = 8) ∧
    (∃ (s : State) (half : Nat),
      s.runs = true ∧
      half < 2 ∧
      s.dev.hstate half = 1 ∧
      (if s.dev.bootPhase = 0 then s.dev.bootStep == 6 || s.dev.bootStep == 7 else s.dev.on F.HMP_CTL_EN) = true ∧
      let x := s.dev.half half
      x.thermal ≠ 2) ∧
    (∃ (s : State) (image : Bool),
      s.runs = true ∧
      (s.dev.bootPhase ≠ 0 ∨ 2 ≤ s.dev.bootStep) ∧
      image = true) ∧
    (∃ (s : State) (image : Bool) (opts : Bytes),
      s.runs = true ∧
      (s.dev.bootPhase ≠ 0 ∨ 2 ≤ s.dev.bootStep) ∧
      image = false ∧
      opts.length = 64) :=
  ⟨⟨State.reset, by decide +kernel⟩,
    ⟨at_ (State.reset.dev.s F.RST_STATE_STEP 2), by decide +kernel⟩,
    ⟨at_ (State.reset.dev.s F.RST_STATE_STEP 3), by decide +kernel⟩,
    ⟨at_ (State.reset.dev.s F.RST_STATE_STEP 4), by decide +kernel⟩,
    ⟨at_ (State.reset.dev.s F.RST_STATE_STEP 5), by decide +kernel⟩,
    ⟨at_ { (State.reset.dev.s F.RST_STATE_STEP 6) with halves := [] }, by decide +kernel⟩,
    ⟨at_ (State.reset.dev.s F.RST_STATE_STEP 7), by decide +kernel⟩,
    ⟨at_ (State.reset.dev.s F.RST_STATE_STEP 8), by decide +kernel⟩,
    ⟨at_ (((State.reset.dev.s F.RST_STATE_STEP 6).layOut).setHstate 0 .recovering), 0, by decide +kernel⟩,
    ⟨svc, true, by decide +kernel⟩,
    ⟨svc, false, List.replicate 64 0, by decide +kernel⟩⟩

theorem test_meets_reportAndSyncCommands :
    (∃ (s : State) (h : Hdr),
      s.runs = true ∧
      s.dev.fits h true = true ∧
      h.fn = 0) ∧
    (∃ (s : State) (h : Hdr),
      s.runs = true ∧
      s.dev.fits h true = true ∧
      h.fn = 0) ∧
    (∃ (s : State) (h : Hdr) (outLen ring : Nat),
      s.runs = true ∧
      s.dev.fits h true = true ∧
      (s.dev.ring h.fn h.ring).busy = none ∧
      let e := s.dev.entered h
      s.dev.syncRing h ring = true ∧
      let rings := (List.range (e.gf F.CMD_LIMITS_RINGS_MAX h.fn 0)).flatMap (e.ringEntry h.fn)
      let queues := (List.range (e.gf F.CMD_LIMITS_EQS_MAX h.fn 0)).flatMap (e.queueEntry h.fn)
      let body := if ring = 0xFF then rings ++ queues else e.ringEntry h.fn ring
      let about := if ring = 0xFF then h.ring else ring
      body.length ≤ outLen) ∧
    (∃ (s : State) (h : Hdr) (frm outLen ring : Nat),
      s.runs = true ∧
      s.dev.fits h true = true ∧
      (s.dev.ring h.fn h.ring).busy = none ∧
      let e := s.dev.entered h
      ring ≠ 0xFF ∧
      s.dev.syncRing h ring = true ∧
      e.gf F.CMD_RQ_CFG_EN h.fn ring ≠ 0 ∧
      e.logHolds h.fn ring frm = true ∧
      32 ≤ outLen) ∧
    (∃ (s : State) (h : Hdr) (ring : Nat),
      s.runs = true ∧
      s.dev.fits h false = true ∧
      (s.dev.ring h.fn h.ring).busy = none ∧
      let e := s.dev.entered h
      ring ≠ 0xFF ∧
      s.dev.syncRing h ring = true ∧
      e.ringRuns h.fn ring = false) ∧
    (∃ (s : State) (h : Hdr) (op : Nat),
      s.runs = true ∧
      assigned op = false ∧
      s.dev.takes h = true ∧
      (s.dev.take h).seqDiff h = 0) ∧
    (∃ (s : State) (fn : Nat),
      s.runs = true ∧
      fn < 32 ∧
      fn ≠ 0) ∧
    (∃ (s : State) (fn : Nat),
      s.runs = true ∧
      fn = 0) ∧
    (∃ (s : State),
      s.runs = true) :=
  ⟨⟨at_ (svcDev.faultRecord { cls := 1 }), {}, by decide +kernel⟩,
    ⟨svc, {}, by decide +kernel⟩,
    ⟨svc, {}, 64, 0, by decide +kernel⟩,
    ⟨svc, {}, 0, 64, 0, by decide +kernel⟩,
    ⟨svc, {}, 1, by decide +kernel⟩,
    ⟨svc, {}, 0x0A01, by decide +kernel⟩,
    ⟨svc, 1, by decide +kernel⟩,
    ⟨svc, 0, by decide +kernel⟩,
    ⟨svc, by decide +kernel⟩⟩

theorem test_meets_powerTransitionsComplete :
    (∃ (s : State),
      s.dev.pwr.pstate = 0) ∧
    (∃ (s : State) (measured : Bool),
      s.dev.pwr.pstate = 1 ∧
      s.dev.pwr.charging = true ∧
      measured = true) ∧
    (∃ (s : State) (measured : Bool),
      s.dev.pwr.pstate = 1 ∧
      s.dev.pwr.charging = true ∧
      measured = false) ∧
    (∃ (s : State),
      s.dev.pwr.pstate = 2 ∧
      s.dev.bootPhase = 0 ∧
      s.dev.bootStep = 1 ∧
      s.dev.rst.held = false) ∧
    (∃ (s : State),
      s.dev.pwr.pstate = 1 ∧
      s.dev.pwr.railTries = 1 ∧
      s.dev.pwr.charging = false) ∧
    (∃ (s : State) (rail : Bool),
      s.dev.pwr.pstate = 2 ∧
      let counted := if rail then { s.dev.pwr with pfRail := satAdd 16 s.dev.pwr.pfRail 1 } else
        { s.dev.pwr with pfPfw := satAdd 16 s.dev.pwr.pfPfw 1 }
      (!s.dev.rst.held && s.dev.afterStep6) = true) ∧
    (∃ (s : State) (rail : Bool),
      s.dev.pwr.pstate = 2 ∧
      let counted := if rail then { s.dev.pwr with pfRail := satAdd 16 s.dev.pwr.pfRail 1 } else
        { s.dev.pwr with pfPfw := satAdd 16 s.dev.pwr.pfPfw 1 }
      (!s.dev.rst.held && s.dev.afterStep6) = false) ∧
    (∃ (s : State),
      s.dev.pwr.pstate = 1) ∧
    (∃ (s : State),
      s.dev.pwr.pstate = 3 ∧
      let e := s.dev.flushHalves fun _ => false
      let halves := NMap.mapV e.halves fun _ x => { x with restored := false }
      s.dev.pwr.restored = true) ∧
    (∃ (s : State),
      s.dev.pwr.pstate = 3 ∧
      let e := s.dev.flushHalves fun _ => false
      let halves := NMap.mapV e.halves fun _ x => { x with restored := false }
      s.dev.pwr.restored = false) ∧
    (∃ (s : State),
      s.dev.pwr.pstate = 3) ∧
    (∃ (s : State),
      s.dev.pwr.pstate = 4) ∧
    (∃ (s : State),
      s.dev.pwr.pstate = 2) ∧
    (∃ (s : State),
      s.dev.pwr.pstate = 1) :=
  ⟨⟨at_ (svcDev.setPower 0), by decide +kernel⟩,
    ⟨at_ (Dev.setPower { svcDev with pwr := { svcDev.pwr with charging := true } } 1), true, by decide +kernel⟩,
    ⟨at_ (Dev.setPower { svcDev with pwr := { svcDev.pwr with charging := true } } 1), false, by decide +kernel⟩,
    ⟨State.reset, by decide +kernel⟩,
    ⟨at_ (Dev.setPower { svcDev with pwr := { svcDev.pwr with railTries := 1 } } 1), by decide +kernel⟩,
    ⟨svc, false, by decide +kernel⟩,
    ⟨State.reset, true, by decide +kernel⟩,
    ⟨at_ (svcDev.setPower 1), by decide +kernel⟩,
    ⟨at_ (Dev.setPower { svcDev with pwr := { svcDev.pwr with restored := true } } 3), by decide +kernel⟩,
    ⟨at_ (svcDev.setPower 3), by decide +kernel⟩,
    ⟨at_ (svcDev.setPower 3), by decide +kernel⟩,
    ⟨at_ (svcDev.setPower 4), by decide +kernel⟩,
    ⟨at_ { svcDev with rst := { svcDev.rst with held := true, pinHeld := true } }, by decide +kernel⟩,
    ⟨at_ (Dev.setPower { svcDev with rst := { svcDev.rst with held := true, pinHeld := true } } 1), by decide +kernel⟩⟩

theorem test_meets_thermalAndClockComplete :
    (∃ (s : State),
      s.runs = true ∧
      let n := s.dev.g F.ISO_SHED_ST_STAGE
      s.dev.iso.throttle = true ∧
      n < 7) ∧
    (∃ (s : State),
      s.runs = true ∧
      let n := s.dev.g F.ISO_SHED_ST_STAGE
      s.dev.iso.throttle = false ∧
      0 < n ∧
      s.dev.pwr.loopMhz = 1800) ∧
    (∃ (s : State),
      s.runs = true ∧
      s.dev.iso.throttle = true ∧
      s.dev.g F.ISO_SHED_ST_STAGE = 7 ∧
      900 < s.dev.pwr.loopMhz) ∧
    (∃ (s : State),
      s.runs = true ∧
      s.dev.iso.throttle = false ∧
      s.dev.pwr.loopMhz < 1800) ∧
    (∃ (s : State) (watts : Nat),
      s.runs = true ∧
      (2000 < watts ∨ s.dev.capWatts < watts)) ∧
    (∃ (s : State) (temps : List (Nat × Nat)) (avg peak vin iin bankMv : Nat),
      s.runs = true ∧
      s.dev.pwr.pstate = 2 ∧
      let p := s.dev.pwr.sample temps
      let p := { p with pAvg := avg, pPeak := max p.pPeak peak, vinMv := vin, iin := iin, bankMv := bankMv }
      p.tripped = none) ∧
    (∃ (s : State) (sensor : Nat),
      s.runs = true ∧
      s.dev.pwr.pstate = 2 ∧
      2 ≤ NMap.getD s.dev.pwr.overs sensor 0) :=
  ⟨⟨at_ { svcDev with iso := { svcDev.iso with throttle := true, nextShed := 9 } }, by decide +kernel⟩,
    ⟨at_ (svcDev.s F.ISO_SHED_ST_STAGE 3), by decide +kernel⟩,
    ⟨at_ (Dev.s { svcDev with iso := { svcDev.iso with throttle := true } } F.ISO_SHED_ST_STAGE 7), by decide +kernel⟩,
    ⟨at_ { svcDev with pwr := { svcDev.pwr with loopMhz := 1000 } }, by decide +kernel⟩,
    ⟨svc, 2100, by decide +kernel⟩,
    ⟨svc, [(0, 40)], 900, 1000, 0, 0, 0, by decide +kernel⟩,
    ⟨at_ { svcDev with pwr := { svcDev.pwr with overs := [(0, 2)] } }, 0, by decide +kernel⟩⟩

theorem test_meets_partitionsComplete :
    (∃ (s : State) (h : Hdr) (p : Nat) (upd : Bool) (w0 w1 w2 w3 w4 : Nat),
      s.runs = true ∧
      s.dev.ready h false = true ∧
      h.fn = 0 ∧
      1 ≤ p ∧
      p ≤ 31 ∧
      let l := limitsOf w0 w1 w2 w3 w4
      let e := s.dev.entered h
      s.dev.limitsOk p l = true ∧
      (e.strict = false ∨ e.strictLimits p (some l) = true) ∧
      e.gi F.ISO_PART_STATE p = 0 ∧
      upd = false) ∧
    (∃ (s : State) (h : Hdr) (p : Nat) (upd : Bool) (w0 w1 w2 w3 w4 : Nat),
      s.runs = true ∧
      s.dev.ready h false = true ∧
      h.fn = 0 ∧
      1 ≤ p ∧
      p ≤ 31 ∧
      let l := limitsOf w0 w1 w2 w3 w4
      let e := s.dev.entered h
      s.dev.limitsOk p l = true ∧
      (e.strict = false ∨ e.strictLimits p (some l) = true) ∧
      e.gi F.ISO_PART_STATE p = 1 ∧
      upd = true) ∧
    (∃ (s : State) (h : Hdr) (p : Nat),
      s.runs = true ∧
      s.dev.ready h false = true ∧
      h.fn = 0 ∧
      1 ≤ p ∧
      p ≤ 31 ∧
      let e := s.dev.entered h
      e.gi F.ISO_PART_STATE p ≠ 0 ∧
      e.gi F.ISO_PART_STATE p ≠ 2) ∧
    (∃ (s : State) (p : Nat),
      s.runs = true ∧
      1 ≤ p ∧
      p < 32 ∧
      s.dev.iso.destroying.contains p = true ∧
      s.dev.partGone p = true ∧
      s.dev.running F.SEC_CTL_EN = true) ∧
    (∃ (s : State) (p : Nat),
      s.runs = true ∧
      1 ≤ p ∧
      p < 32 ∧
      let t := s.dev.gi F.ISO_PART_IDLE_EXPIRE_S p
      s.dev.active p = true ∧
      t ≠ 0) ∧
    (∃ (s : State) (h : Hdr) (kind levelMode budgetOp owner index promptW rebuildW overhead rate partMask : Nat) (valid shape
      budgetOn : Bool) (burst budget : Nat),
      s.runs = true ∧
      s.dev.ready h false = true ∧
      h.fn = 0 ∧
      let e := s.dev.entered h
      let x : ShaperSet := {
          kind := kind, index := index, valid := valid, shape := shape, rate := rate, burst := burst, owner := owner,
          budgetOn := budgetOn, budget := signed 64 budget, partMask := partMask, promptW := promptW, rebuildW := rebuildW,
          overhead := overhead, levelMode := levelMode, budgetOp := budgetOp }
      let users := e.nodeUsers kind index
      shaperOk x = true ∧
      (e.strict && kind != 0 && shape && decide (1 < popcount partMask 32)) = false ∧
      (kind ≠ 0 ∨ users = [] ∨ (valid = true ∧ (e.node kind index).owner = owner)) ∧
      (kind = 0 ∨ (users.any fun u => bitOf (e.node kind index).partMask u.d.partition && !bitOf partMask u.d.partition) =
        false)) ∧
    (∃ (s : State) (h : Hdr) (mode frameExp : Nat),
      s.runs = true ∧
      s.dev.ready h false = true ∧
      h.fn = 0 ∧
      mode ≤ 1 ∧
      16 ≤ frameExp ∧
      frameExp ≤ 24 ∧
      let e := s.dev.entered h
      (e.g F.ISO_MODE_MODE ≠ mode ∨ e.g F.ISO_MODE_FRAME_EXP ≠ frameExp) ∧
      (mode = 0 ∨ e.strict = true ∨ (e.strictLimits 0 none && e.strictNodes) = true)) ∧
    (∃ (s : State),
      s.runs = true ∧
      s.dev.iso.pendArb = none ∧
      s.dev.iso.arbStrict = true) ∧
    (∃ (s : State),
      s.runs = true ∧
      s.dev.iso.pendArb = none ∧
      s.dev.iso.arbStrict = false) ∧
    (∃ (s : State) (n : Nat),
      s.runs = true ∧
      s.dev.iso.pendArb = some (true, n)) :=
  ⟨⟨svc, {}, 1, false, 0, 0, 0, 2 ^ 23 + 5, 0, by decide +kernel⟩,
    ⟨at_ (svcDev.si F.ISO_PART_STATE 1 1), {}, 1, true, 0, 0, 0, 0, 0, by decide +kernel⟩,
    ⟨at_ (svcDev.si F.ISO_PART_STATE 1 1), {}, 1, by decide +kernel⟩,
    ⟨{ at_ { svcDev with iso := { svcDev.iso with destroying := [1], scrubs := [(1, 64, 64)] } } with hbm := [⟨64, 9⟩] }, 1, by decide +kernel⟩,
    ⟨at_ ((svcDev.si F.ISO_PART_STATE 1 1).si F.ISO_PART_IDLE_EXPIRE_S 1 60), 1, by decide +kernel⟩,
    ⟨svc, {}, 0, 0, 0, 0, 5, 0, 0, 0, 10, 0, true, false, false, 1, 0, by decide +kernel⟩,
    ⟨svc, {}, 1, 20, by decide +kernel⟩,
    ⟨at_ { svcDev with iso := { svcDev.iso with arbStrict := true } }, by decide +kernel⟩,
    ⟨at_ { svcDev with iso := { svcDev.iso with slotOwner := [1, 0] } }, by decide +kernel⟩,
    ⟨at_ { svcDev with iso := { svcDev.iso with pendArb := some (true, 20) } }, 20, by decide +kernel⟩⟩

theorem test_meets_keysAndScrubsComplete :
    (∃ (s : State) (h : Hdr) (len : Nat) (pkg sk : Bytes),
      s.runs = true ∧
      s.dev.ready h true = true ∧
      h.fn = 0 ∧
      let e := s.dev.entered h
      e.on F.SEC_CTL_EN = true ∧
      wrapOk pkg len = true ∧
      slice pkg 8 16 = e.setId ∧
      let gen := leAt pkg 0x18 4
      e.heldKey gen = some sk) ∧
    (∃ (s : State) (handle : Nat) (x : Staged),
      s.runs = true ∧
      s.dev.sec.staged.find? (·.handle == handle) = some x) ∧
    (∃ (s : State) (h : Hdr) (mode : Nat),
      s.runs = true ∧
      s.dev.ready h false = true ∧
      h.fn = 0 ∧
      mode ≤ 2 ∧
      let e := s.dev.entered h
      e.on F.SEC_CTL_EN = true ∧
      e.scrubOk mode = true) ∧
    (∃ (s : State) (mode : Nat),
      s.runs = true ∧
      s.dev.sec.scrub = some mode) :=
  ⟨⟨at_ keyDev, {}, 272, wrapPkg, [1], by decide +kernel⟩,
    ⟨at_ { svcDev with sec := { svcDev.sec with staged := [{ handle := 1, deadline := 9 }] } }, 1, { handle := 1, deadline := 9 }, by decide +kernel⟩,
    ⟨svc, {}, 1, by decide +kernel⟩,
    ⟨at_ { svcDev with sec := { svcDev.sec with scrub := some 1 } }, 1, by decide +kernel⟩⟩
theorem test_meets_keysAndScrubsComplete_1 :
    ∃ (s : State) (h : Hdr) (nonce : Bytes) (len : Nat) (chain : Bool),
      s.runs = true ∧
      s.dev.fits h true = true ∧
      (h.fn = 0 ∨ s.dev.on F.SEC_CTL_TENANT_ATTEST = true) ∧
      nonce.length = 32 ∧
      let e := s.dev.entered h
      let r := e.report h.fn nonce
      let all := r ++ signed384 r ++ (if chain then Config.certChain else [])
      all.length ≤ len := by
  refine ⟨svc, {}, List.replicate 32 1, 4096, false, ?_⟩
  refine ⟨by decide +kernel, by decide +kernel, by decide +kernel, by decide +kernel, ?_⟩
  decide +kernel
theorem test_meets_keysAndScrubsComplete_2 :
    ∃ (s : State) (h : Hdr) (seq : Nat) (digest key setId sig : Bytes),
      s.runs = true ∧
      s.dev.ready h true = true ∧
      h.fn = 0 ∧
      key.length = 96 ∧
      setId.length = 16 ∧
      sig.length = 96 ∧
      digest = Config.deviceIdDigest ∧
      let e := s.dev.entered h
      e.sec.authority = none ∧
      let ok := Config.ecdsaVerify key (Config.sha384 (enrolBody 0 seq digest (key ++ setId))) sig
      e.g F.SEC_ENROL_SEQ < seq := by
  refine ⟨svc, {}, 1, Config.deviceIdDigest, List.replicate 96 1, List.replicate 16 1, List.replicate 96 1, ?_⟩
  and_intros <;> first | decide +kernel | rfl
theorem test_meets_keysAndScrubsComplete_3 :
    ∃ (s : State) (h : Hdr) (seq : Nat) (digest : Bytes) (gen : Nat) (eph wrapped sig key : Bytes),
      s.runs = true ∧
      s.dev.ready h true = true ∧
      h.fn = 0 ∧
      eph.length = 96 ∧
      wrapped.length = 48 ∧
      sig.length = 96 ∧
      digest = Config.deviceIdDigest ∧
      let e := s.dev.entered h
      e.on F.SEC_CTL_EN = true ∧
      e.g F.SEC_KEYGEN_CUR < gen ∧
      e.sec.authority = some key ∧
      let ok := Config.ecdsaVerify key (Config.sha384 (enrolBody 1 seq digest (leBytes 4 gen ++ eph ++ wrapped))) sig
      e.g F.SEC_ENROL_SEQ < seq := by
  refine ⟨at_ { svcDev with sec := { svcDev.sec with authority := some [] } }, {}, 1, Config.deviceIdDigest, 1, List.replicate
    96 1, List.replicate 48 1, List.replicate 96 1, [], ?_⟩
  and_intros <;> first | decide +kernel | rfl
theorem test_meets_keysAndScrubsComplete_4 :
    ∃ (s : State) (h : Hdr) (seq : Nat) (digest sig key : Bytes),
      s.runs = true ∧
      s.dev.ready h true = true ∧
      h.fn = 0 ∧
      sig.length = 96 ∧
      digest = Config.deviceIdDigest ∧
      let e := s.dev.entered h
      e.sec.authority = some key ∧
      let ok := Config.ecdsaVerify key (Config.sha384 (enrolBody 2 seq digest [])) sig
      e.g F.SEC_ENROL_SEQ < seq := by
  refine ⟨at_ { svcDev with sec := { svcDev.sec with authority := some [] } }, {}, 1, Config.deviceIdDigest, List.replicate 96
    1, [], ?_⟩
  and_intros <;> first | decide +kernel | rfl
theorem test_meets_keysAndScrubsComplete_5 :
    ∃ (s : State) (h : Hdr) (seq : Nat) (digest sig key : Bytes),
      s.runs = true ∧
      s.dev.ready h true = true ∧
      h.fn = 0 ∧
      sig.length = 96 ∧
      digest = Config.deviceIdDigest ∧
      let e := s.dev.entered h
      e.sec.authority = some key ∧
      let ok := Config.ecdsaVerify key (Config.sha384 (enrolBody 3 seq digest [])) sig
      e.g F.SEC_ENROL_SEQ < seq := by
  refine ⟨at_ { svcDev with sec := { svcDev.sec with authority := some [] } }, {}, 1, Config.deviceIdDigest, List.replicate 96
    1, [], ?_⟩
  and_intros <;> first | decide +kernel | rfl

theorem test_meets_spdmComplete :
    (∃ (s : State) (doe : Bool),
      s.runs = true ∧
      s.dev.spdmOn doe = true) ∧
    (∃ (s : State) (doe : Bool) (ver : Nat),
      s.runs = true ∧
      s.dev.spdmOn doe = true ∧
      spdmVersion ver = true) ∧
    (∃ (s : State) (doe : Bool) (ver asym hash : Nat),
      s.runs = true ∧
      s.dev.spdmOn doe = true ∧
      spdmVersion ver = true ∧
      bitOf asym 7 = true ∧
      bitOf hash 1 = true) ∧
    (∃ (s : State) (doe : Bool) (ver : Nat),
      s.runs = true ∧
      s.dev.spdmOn doe = true ∧
      spdmVersion ver = true) ∧
    (∃ (s : State) (doe : Bool) (ver slot : Nat),
      s.runs = true ∧
      s.dev.spdmOn doe = true ∧
      spdmVersion ver = true ∧
      slot = 0) ∧
    (∃ (s : State) (doe : Bool) (ver slot : Nat) (nonce : Bytes),
      s.runs = true ∧
      s.dev.spdmOn doe = true ∧
      spdmVersion ver = true ∧
      slot = 0 ∧
      nonce.length = 32) ∧
    (∃ (s : State) (doe : Bool) (ver index : Nat) (sign : Bool) (nonce : Bytes),
      s.runs = true ∧
      s.dev.spdmOn doe = true ∧
      spdmVersion ver = true ∧
      (index ≤ 12 ∨ index = 255) ∧
      (sign = false ∨ nonce.length = 32)) ∧
    (∃ (s : State) (doe : Bool) (ver off : Nat),
      s.runs = true ∧
      s.dev.spdmOn doe = true ∧
      spdmVersion ver = true ∧
      off < s.dev.sec.spdmLarge.length) ∧
    (∃ (s : State) (doe : Bool),
      s.runs = true ∧
      s.dev.spdmOn doe = true) :=
  ⟨⟨svc, false, by decide +kernel⟩,
    ⟨svc, false, 0x12, by decide +kernel⟩,
    ⟨svc, false, 0x12, 0x80, 2, by decide +kernel⟩,
    ⟨svc, false, 0x13, by decide +kernel⟩,
    ⟨svc, false, 0x13, 0, by decide +kernel⟩,
    ⟨svc, false, 0x13, 0, List.replicate 32 1, by decide +kernel⟩,
    ⟨svc, false, 0x13, 255, false, [], by decide +kernel⟩,
    ⟨at_ { svcDev with sec := { svcDev.sec with spdmLarge := [1, 2, 3] } }, false, 0x13, 0, by decide +kernel⟩,
    ⟨svc, false, by decide +kernel⟩⟩

theorem test_meets_hamperWritesComplete :
    (∃ (s : State) (half index : Nat) (o : HObj),
      s.runs = true ∧
      half < 2 ∧
      NMap.get? (s.dev.half half).objs index = some o ∧
      o.valid = true ∧
      o.releasing = true ∧
      o.reads = 0) ∧
    (∃ (s : State) (half block twin : Nat) (lpns : List Nat),
      s.runs = true ∧
      half < 2 ∧
      let x := s.dev.half half
      let bufs := lpns.filterMap fun l => x.buffer.find? fun b => b.lpn == l && b.done.isEmpty
      let kinds := bufs.map fun b => streamOf (x.tagOf b).kind
      let stream := kinds.head?.getD 2
      1 ≤ lpns.length ∧
      bufs.length = lpns.length ∧
      lpns.Nodup ∧
      kinds.all (· == stream) = true ∧
      x.thermal ≠ 2 ∧
      (if stream = 0 then x.takesPair block twin lpns.length && x.fitsLine twin lpns.length else x.takesNext block
        lpns.length stream) = true ∧
      x.fitsLine block lpns.length = true ∧
      s.dev.hready half = true) ∧
    (∃ (s : State) (half b1 b2 seg : Nat) (rest : List Nat),
      s.runs = true ∧
      half < 2 ∧
      let x := s.dev.half half
      x.dirty = seg :: rest ∧
      s.dev.hready half = true ∧
      x.thermal ≠ 2 ∧
      x.takesPair b1 b2 1 = true) ∧
    (∃ (s : State) (half : Nat),
      s.runs = true ∧
      half < 2 ∧
      s.dev.hready half = true ∧
      let x := s.dev.half half
      x.thermal ≠ 2) :=
  ⟨⟨at_ (halfDev { objs := [(0, { valid := true, releasing := true })] }), 0, 0, { valid := true, releasing := true }, by decide +kernel⟩,
    ⟨at_ (halfDev { objs := [(0, imageObj0)], buffer := [{ lpn := recordLpn 0, system := true }] }), 0, 1, 16 * 4 * 2484, [recordLpn 0], by decide +kernel⟩,
    ⟨at_ (halfDev { dirty := [7] }), 0, 1, 16 * 4 * 2484, 7, [], by decide +kernel⟩,
    ⟨at_ (halfDev { dirtyDir := [1] }), 0, by decide +kernel⟩⟩

theorem test_meets_hamperUpkeepComplete_1 :
    ∃ (s : State) (half victim dst : Nat),
      s.runs = true ∧
      half < 2 ∧
      let x := s.dev.half half
      let lun := lunOf victim
      let level := s.dev.wearApart x
      let below (n l : Nat) : Bool := !x.retired.contains l && decide (x.erasedIn l < n)
      let due (n : Nat) : Bool := if level then (List.range 256).any (below n) else below n lun
      let urgent := due (s.dev.g F.HMP_GC_URGENT_BLK)
      s.dev.hready half = true ∧
      (urgent || (s.dev.on F.HMP_CTL_GC_EN && due (s.dev.g F.HMP_GC_START_BLK))) = true ∧
      (if level then x.coldest == some victim && (x.hottestErased dst || (x.validOf victim).isEmpty) else x.victim lun
        s.dev.now == some victim) = true ∧
      (x.validOf victim = [] ∨ (victim ≠ dst ∧ (if level then x.takesPages dst 1 3 else x.takesNext dst 1 3) = true)) ∧
      x.thermal ≠ 2 := by
  refine ⟨at_ ((halfDev wornHalf).s F.HMP_CTL_WL_EN 0), 0, 5, 1, rfl, by decide, by decide +kernel, ?_, by decide +kernel, Or.inl (by decide +kernel),
    by decide +kernel⟩
  have hw : (at_ ((halfDev wornHalf).s F.HMP_CTL_WL_EN 0)).dev.wearApart wornHalf = false := by decide +kernel
  have hg : (at_ ((halfDev wornHalf).s F.HMP_CTL_WL_EN 0)).dev.g F.HMP_GC_URGENT_BLK = 6 := by decide +kernel
  have hh : (at_ ((halfDev wornHalf).s F.HMP_CTL_WL_EN 0)).dev.half 0 = wornHalf := rfl
  have hl : lunOf 5 = 0 := rfl
  have hr : wornHalf.retired = [] := rfl
  rw [hh]
  simp only [hl, hw, hg, hr, wornHalf_erased]
  rfl

theorem test_meets_hamperUpkeepComplete :
    (∃ (s : State) (half block dst reads bits : Nat),
      s.runs = true ∧
      half < 2 ∧
      let x := s.dev.half half
      let n := (x.block block).reads + reads
      let limit := 1000 * s.dev.g F.HMP_RD_LIMIT_K
      let worn := decide (limit ≤ n) || decide (s.dev.g F.HMP_RD_ECC_THRESH < bits)
      let inUse := ((x.block block).state == .full || (x.block block).state == .opened) && !isRoot block &&
        !x.retired.contains (lunOf block)
      s.dev.hready half = true ∧
      x.evacQ.contains block = false ∧
      (x.refreshQ.contains block || x.retainQ.contains block || (worn && inUse)) = true ∧
      (s.dev.on F.HMP_CTL_REFRESH_EN = true ∨ 2 * limit ≤ n) ∧
      (x.validOf block = [] ∨ (block ≠ dst ∧ x.takesNext dst 1 3 = true)) ∧
      x.thermal ≠ 2) ∧
    (∃ (s : State) (half block dst : Nat),
      s.runs = true ∧
      half < 2 ∧
      let x := s.dev.half half
      s.dev.hready half = true ∧
      x.evacQ.contains block = true ∧
      (x.validOf block = [] ∨ (block ≠ dst ∧ x.takesNext dst 1 3 = true)) ∧
      x.thermal ≠ 2) ∧
    (∃ (s : State) (half t : Nat),
      s.runs = true ∧
      half < 2 ∧
      (s.dev.half half).scanDue = some t) ∧
    (∃ (s : State) (half ppa : Nat) (t : HTag) (i : Nat) (o : HObj),
      s.runs = true ∧
      half < 2 ∧
      let x := s.dev.half half
      NMap.get? x.tags ppa = some t ∧
      let lun := lunOf (ppa / blockPages)
      let y := { x with
          uncorr := x.uncorr + 1, unread := x.unread ++ [ppa],
          unc := NMap.put x.unc lun (NMap.getD x.unc lun [] ++ [s.dev.now]) }
      let d := s.dev.setHalf half y
      NMap.get? x.map t.lpn = some ppa ∧
      1 ≤ t.kind ∧
      t.kind ≤ 5 ∧
      x.inBuffer ppa = false ∧
      (d.half half).ownerOf t.lpn = some (i, o)) ∧
    (∃ (s : State) (half block : Nat),
      s.runs = true ∧
      half < 2 ∧
      block < 256 * lunBlocks) ∧
    (∃ (s : State) (half block : Nat),
      s.runs = true ∧
      half < 2 ∧
      block < 256 * lunBlocks) ∧
    (∃ (s : State) (half pkg : Nat),
      s.runs = true ∧
      half < 2 ∧
      pkg < 32) :=
  ⟨⟨at_ ((halfDev { blocks := [(5, { state := .full, nextPage := 1536 })], retainQ := [5] }).s F.HMP_CTL_REFRESH_EN 1), 0, 5, 1, 0, 0, by decide +kernel⟩,
    ⟨at_ (halfDev { blocks := [(5, { state := .full, nextPage := 1536 })], evacQ := [5] }), 0, 5, 1, by decide +kernel⟩,
    ⟨at_ (halfDev { blocks := [(5, { state := .full })], scanDue := some 9 }), 0, 9, by decide +kernel⟩,
    ⟨at_ (halfDev { objs := [(0, imageObj0)], map := [(1, 20000)], tags := [(20000, { lpn := 1, kind := 1 })], blocks := [(13, { state := .full })] }), 0, 20000, { lpn := 1, kind := 1 }, 0, imageObj0, by decide +kernel⟩,
    ⟨at_ (halfDev { blocks := [(0, { state := .opened })] }), 0, 0, by decide +kernel⟩,
    ⟨at_ (halfDev {}), 0, 0, by decide +kernel⟩,
    ⟨at_ (halfDev {}), 0, 0, by decide +kernel⟩⟩

theorem test_meets_hallMessagesComplete :
    (∃ (s : State) (peer : Nat) (bulk : Bool) (i : Nat),
      s.runs = true ∧
      s.dev.connOf peer bulk = some i) ∧
    (∃ (s : State) (peer : Nat) (bulk : Bool),
      s.runs = true ∧
      s.dev.connOf peer bulk = none ∧
      s.dev.on F.HLF_CTL_EN = true ∧
      s.dev.enrolled = true ∧
      s.dev.hall.wait.any (fun e => e.1 == peer && e.2.1 == bulk) = true) ∧
    (∃ (s : State) (port : Nat) (ce tag room : Bool) (hdr data : Bytes) (i : Nat),
      s.runs = true ∧
      s.dev.hallIn port 0 tag hdr i = true ∧
      let d := (s.dev.arrived).rxPacket i ce hdr
      let q := qinOf 0 hdr
      let ahead := signed 32 (q.msn + 2 ^ 32 - (d.conn i).next)
      0 ≤ ahead ∧
      ahead < 64 ∧
      q.shape data = true ∧
      d.track i q.msn = none ∧
      d.checkMsg q = .ok ∧
      (d.pageWaits q data || d.roomFor port q.part room true data.length) = true) ∧
    (∃ (s : State) (port : Nat) (ce tag room : Bool) (hdr data : Bytes) (i : Nat) (t : QTrack),
      s.runs = true ∧
      s.dev.hallIn port 0 tag hdr i = true ∧
      let d := (s.dev.arrived).rxPacket i ce hdr
      let q := qinOf 0 hdr
      let ahead := signed 32 (q.msn + 2 ^ 32 - (d.conn i).next)
      0 ≤ ahead ∧
      ahead < 64 ∧
      q.shape data = true ∧
      d.track i q.msn = some t ∧
      t.status = none ∧
      t.total = q.total ∧
      (d.pageWaits q data || d.roomFor port t.partition room false data.length) = true) ∧
    (∃ (s : State) (port : Nat) (ce tag room : Bool) (hdr : Bytes) (i : Nat),
      s.runs = true ∧
      s.dev.hallIn port 1 tag hdr i = true ∧
      let d := (s.dev.arrived).rxPacket i ce hdr
      let q := qinOf 1 hdr
      let ahead := signed 32 (q.msn + 2 ^ 32 - (d.conn i).next)
      0 ≤ ahead ∧
      ahead < 64 ∧
      q.shape [] = true ∧
      d.track i q.msn = none ∧
      d.checkMsg q = .ok ∧
      (d.pageWaits q [] || d.roomFor port q.part room true ([] : Bytes).length) = true) ∧
    (∃ (s : State) (port : Nat) (ce tag room : Bool) (hdr data : Bytes) (i : Nat),
      s.runs = true ∧
      s.dev.hallIn port 3 tag hdr i = true ∧
      let d := (s.dev.arrived).rxPacket i ce hdr
      let q := qinOf 3 hdr
      let ahead := signed 32 (q.msn + 2 ^ 32 - (d.conn i).next)
      0 ≤ ahead ∧
      ahead < 64 ∧
      q.shape data = true ∧
      d.track i q.msn = none ∧
      d.checkMsg q = .ok ∧
      (d.pageWaits q data || d.roomFor port q.part room true data.length) = true) ∧
    (∃ (s : State) (port : Nat) (ce tag room : Bool) (hdr data : Bytes) (i : Nat) (t : QTrack),
      s.runs = true ∧
      s.dev.hallIn port 3 tag hdr i = true ∧
      let d := (s.dev.arrived).rxPacket i ce hdr
      let q := qinOf 3 hdr
      let ahead := signed 32 (q.msn + 2 ^ 32 - (d.conn i).next)
      0 ≤ ahead ∧
      ahead < 64 ∧
      q.shape data = true ∧
      d.track i q.msn = some t ∧
      t.status = none ∧
      t.total = q.total ∧
      (d.pageWaits q data || d.roomFor port t.partition room false data.length) = true) ∧
    (∃ (s : State) (port : Nat) (ce tag : Bool) (hdr data : Bytes) (i : Nat) (y : QMsg),
      s.runs = true ∧
      s.dev.hallIn port 2 tag hdr i = true ∧
      let d := (s.dev.arrived).rxPacket i ce hdr
      let q := qinOf 2 hdr
      (d.conn i).msgs.find? (fun y => y.msn == some q.msn && y.type == 1 && !y.ended) = some y ∧
      q.shape data = true ∧
      q.total = y.len ∧
      y.placed.any (fun e => e.1 == q.off) = false) ∧
    (∃ (s : State) (port : Nat) (tag : Bool) (hdr : Bytes) (i : Nat),
      s.runs = true ∧
      s.dev.hallIn port 4 tag hdr i = true) ∧
    (∃ (s : State) (conn : Nat) (t : QTrack),
      s.runs = true ∧
      s.dev.track conn (s.dev.conn conn).next = some t ∧
      t.status.isSome = true) ∧
    (∃ (s : State) (conn t : Nat),
      s.runs = true ∧
      (s.dev.conn conn).ackDue = some t) ∧
    (∃ (s : State) (conn tsn : Nat) (k : QPkt),
      s.runs = true ∧
      (s.dev.conn conn).pkts.find? (fun k => k.tsn == tsn && !k.queued) = some k) ∧
    (∃ (s : State) (conn path : Nat) (p : QPath),
      s.runs = true ∧
      let x := s.dev.conn conn
      x.paths[path]? = some p ∧
      p.live = false ∧
      (x.state = .opened ∨ x.state = .draining)) ∧
    (∃ (s : State) (port : Nat) (tag : Bool) (hdr : Bytes) (i : Nat),
      s.runs = true ∧
      s.dev.hallIn port 9 tag hdr i = true) ∧
    (∃ (s : State) (port : Nat) (tag : Bool) (hdr : Bytes) (i : Nat),
      s.runs = true ∧
      s.dev.hallIn port 10 tag hdr i = true) ∧
    (∃ (s : State) (conn msn : Nat) (y : QMsg),
      s.runs = true ∧
      (s.dev.conn conn).msgs.find? (fun y => y.msn == some msn && y.type != 2 && y.retryAt.isSome) = some y) :=
  ⟨⟨at_ (hallDev { hallConn with msgs := [{ len := 4, body := [1, 2, 3, 4] }] }), 2, false, 0, by decide +kernel⟩,
    ⟨at_ { hallDev hallConn with hall := { (hallDev hallConn).hall with wait := [(3, false, {})] } }, 3, false, by decide +kernel⟩,
    ⟨at_ (hallDev hallConn), 0, false, true, true, hallHdr 0 0 0 100 100, List.replicate 100 7, 0, by decide +kernel⟩,
    ⟨at_ (hallDev { hallConn with tracks := [(0, { type := 0, total := 4196, region := 1, regionGen := 1 })] }), 0, false, true, true, hallHdr 0 0 4096 4196 100, List.replicate 100 7, 0, { type := 0, total := 4196, region := 1, regionGen := 1 }, by decide +kernel⟩,
    ⟨at_ (hallDev hallConn), 0, false, true, true, hallHdr 1 0 0 100 0, 0, by decide +kernel⟩,
    ⟨at_ (hallDev hallConn), 0, false, true, true, hallHdr 3 0 0 100 100, List.replicate 100 7, 0, by decide +kernel⟩,
    ⟨at_ (hallDev { hallConn with tracks := [(0, { type := 3, total := 4196, region := 1, regionGen := 1 })] }), 0, false, true, true, hallHdr 3 0 4096 4196 100, List.replicate 100 7, 0, { type := 3, total := 4196, region := 1, regionGen := 1 }, by decide +kernel⟩,
    ⟨at_ (hallDev { hallConn with msgs := [{ msn := some 0, type := 1, len := 100, dest := 4096 }] }), 0, false, true, hallHdr 2 0 0 100 100, List.replicate 100 7, 0, { msn := some 0, type := 1, len := 100, dest := 4096 }, by decide +kernel⟩,
    ⟨at_ (hallDev { hallConn with tsn := 1, pkts := [{}] }), 0, true, hallHdr 4 0 0 1 0, 0, by decide +kernel⟩,
    ⟨at_ (hallDev { hallConn with tracks := [(0, { type := 3, total := 1, status := some .ok })] }), 0, { type := 3, total := 1, status := some .ok }, by decide +kernel⟩,
    ⟨at_ (hallDev { hallConn with ackDue := some 9 }), 0, 9, by decide +kernel⟩,
    ⟨at_ (hallDev { hallConn with pkts := [{ limit := 3, rto := 10 }] }), 0, 0, { limit := 3, rto := 10 }, by decide +kernel⟩,
    ⟨at_ (hallDev { hallConn with paths := [{ live := false }] }), 0, 0, { live := false }, by decide +kernel⟩,
    ⟨at_ (hallDev hallConn), 0, true, hallHdr 9 0 0 1 0, 0, by decide +kernel⟩,
    ⟨at_ (hallDev { hallConn with paths := [{ live := false, replies := 2 }] }), 0, true, hallHdr 10 0 0 1 0, 0, by decide +kernel⟩,
    ⟨at_ (hallDev { hallConn with msgs := [{ msn := some 0, body := [1], len := 1, cut := 1, retryAt := some 9 }] }), 0, 0, { msn := some 0, body := [1], len := 1, cut := 1, retryAt := some 9 }, by decide +kernel⟩⟩

theorem test_meets_hallConnectionsComplete :
    (∃ (s : State) (port : Nat) (mac : Bool) (hdr data : Bytes),
      s.runs = true ∧
      s.dev.hallTakes port 5 hdr = true ∧
      let d := s.dev.wrap F.HLF_CNT0_PKTS_IN 1
      d.enrolled = true ∧
      mac = true ∧
      d.holdsGen (leAt data 0xA0 4) = true ∧
      d.connOf (srcOf hdr) (classOf hdr) = none) ∧
    (∃ (s : State) (port : Nat) (mac : Bool) (hdr data : Bytes) (i : Nat),
      s.runs = true ∧
      s.dev.hallTakes port 5 hdr = true ∧
      let d := s.dev.wrap F.HLF_CNT0_PKTS_IN 1
      d.enrolled = true ∧
      mac = true ∧
      d.holdsGen (leAt data 0xA0 4) = true ∧
      d.connOf (srcOf hdr) (classOf hdr) = some i ∧
      let x := d.conn i
      x.state = .connecting ∧
      x.peer ≤ d.self) ∧
    (∃ (s : State) (port : Nat) (mac : Bool) (hdr data : Bytes) (i : Nat),
      s.runs = true ∧
      s.dev.hallTakes port 5 hdr = true ∧
      let d := s.dev.wrap F.HLF_CNT0_PKTS_IN 1
      d.enrolled = true ∧
      mac = true ∧
      d.holdsGen (leAt data 0xA0 4) = true ∧
      d.connOf (srcOf hdr) (classOf hdr) = some i ∧
      let x := d.conn i
      (x.state = .opened ∨ x.state = .draining)) ∧
    (∃ (s : State) (port : Nat) (mac : Bool) (hdr data : Bytes),
      s.runs = true ∧
      s.dev.hallTakes port 6 hdr = true ∧
      let d := s.dev.wrap F.HLF_CNT0_PKTS_IN 1
      mac = true ∧
      let i := hf hdr 8 32 14
      let x := d.conn i
      x.peer = srcOf hdr ∧
      x.bulk = classOf hdr ∧
      let e := hf data 0 32 32
      x.state = .connecting) ∧
    (∃ (s : State) (port : Nat) (mac : Bool) (hdr data : Bytes),
      s.runs = true ∧
      s.dev.hallTakes port 6 hdr = true ∧
      let d := s.dev.wrap F.HLF_CNT0_PKTS_IN 1
      mac = true ∧
      let i := hf hdr 8 32 14
      let x := d.conn i
      x.peer = srcOf hdr ∧
      x.bulk = classOf hdr ∧
      let e := hf data 0 32 32
      x.state = .opened ∧
      x.rekeying = true) ∧
    (∃ (s : State) (port : Nat) (hdr : Bytes),
      s.runs = true ∧
      s.dev.hallTakes port 7 hdr = true ∧
      let d := s.dev.wrap F.HLF_CNT0_PKTS_IN 1
      let i := hf hdr 8 32 14
      let x := d.conn i
      x.peer = srcOf hdr ∧
      x.bulk = classOf hdr ∧
      x.state = .connecting) ∧
    (∃ (s : State) (conn : Nat),
      s.runs = true ∧
      let x := s.dev.conn conn
      x.state = .connecting) ∧
    (∃ (s : State) (port : Nat) (tag : Bool) (hdr : Bytes) (i : Nat),
      s.runs = true ∧
      s.dev.hallIn port 8 tag hdr i = true) ∧
    (∃ (s : State) (port : Nat) (ce tag mac : Bool) (hdr data : Bytes) (i : Nat),
      s.runs = true ∧
      s.dev.hallIn port 11 tag hdr i = true ∧
      let d := (s.dev.arrived).rxPacket i ce hdr
      mac = true ∧
      d.enrolled = true ∧
      d.holdsGen (leAt data 0xA0 4) = true) ∧
    (∃ (s : State) (conn : Nat),
      s.runs = true ∧
      let x := s.dev.conn conn
      x.state = .opened ∧
      x.quiet = true) ∧
    (∃ (s : State) (conn t : Nat),
      s.runs = true ∧
      let x := s.dev.conn conn
      (x.state = .opened ∨ x.state = .draining) ∧
      let ms := s.dev.g F.HLF_CONN_CFG_FAIL_MS * 1000000
      let sooner (b : Option Nat) (k : QPkt) : Option Nat := some (b.elim k.first fun t => min t k.first)
      x.pkts.foldl sooner none = some t ∧
      x.noPathSince = none) ∧
    (∃ (s : State) (conn t u : Nat),
      s.runs = true ∧
      let x := s.dev.conn conn
      (x.state = .opened ∨ x.state = .draining) ∧
      let ms := s.dev.g F.HLF_CONN_CFG_FAIL_MS * 1000000
      let sooner (b : Option Nat) (k : QPkt) : Option Nat := some (b.elim k.first fun t => min t k.first)
      x.pkts.foldl sooner none = some t ∧
      x.noPathSince = some u) ∧
    (∃ (s : State) (conn u : Nat),
      s.runs = true ∧
      let x := s.dev.conn conn
      (x.state = .opened ∨ x.state = .draining) ∧
      let ms := s.dev.g F.HLF_CONN_CFG_FAIL_MS * 1000000
      x.pkts = [] ∧
      x.noPathSince = some u) ∧
    (∃ (s : State) (conn : Nat),
      s.runs = true ∧
      let x := s.dev.conn conn
      x.state = .failed) :=
  ⟨⟨at_ { hallDev hallConn with hall := {} }, 0, true, hallHdr 5 0 0 1 0, connBody, by decide +kernel⟩,
    ⟨at_ ((hallDev { hallConn with state := .connecting }).s F.HLF_SELF_CTRL_ID 3), 0, true, pack 64 [⟨0, 0, 4, 1⟩, ⟨0, 4, 4, 5⟩, ⟨8, 0, 16, 2⟩, ⟨8, 16, 16, 3⟩], connBody, 0, by decide +kernel⟩,
    ⟨at_ (hallDev hallConn), 0, true, hallHdr 5 0 0 1 0, connBody, 0, by decide +kernel⟩,
    ⟨at_ (hallDev { hallConn with state := .connecting }), 0, true, hallHdr 6 0 0 1 0, connBody, by decide +kernel⟩,
    ⟨at_ (hallDev { hallConn with rekeying := true }), 0, true, hallHdr 6 0 0 1 0, connBody, by decide +kernel⟩,
    ⟨at_ (hallDev { hallConn with state := .connecting }), 0, hallHdr 7 0 0 1 0, by decide +kernel⟩,
    ⟨at_ (hallDev { hallConn with state := .connecting, reqTries := 1 }), 0, by decide +kernel⟩,
    ⟨at_ (hallDev hallConn), 0, true, hallHdr 8 0 0 1 0, 0, by decide +kernel⟩,
    ⟨at_ (hallDev hallConn), 0, false, true, true, hallHdr 11 0 0 1 0, connBody, 0, by decide +kernel⟩,
    ⟨at_ (hallDev hallConn), 0, by decide +kernel⟩,
    ⟨at_ (hallDev { hallConn with pkts := [{ first := 5 }, { first := 3 }] }), 0, 3, by decide +kernel⟩,
    ⟨at_ (hallDev { hallConn with pkts := [{ first := 5 }], noPathSince := some 4 }), 0, 5, 4, by decide +kernel⟩,
    ⟨at_ (hallDev { hallConn with noPathSince := some 9 }), 0, 9, by decide +kernel⟩,
    ⟨at_ (hallDev { hallConn with state := .failed }), 0, by decide +kernel⟩⟩

theorem test_meets_pagedRegionsComplete :
    (∃ (s : State) (region page : Nat) (r : Region),
      s.runs = true ∧
      s.dev.region region = some r ∧
      r.mayArrive page = true) ∧
    (∃ (s : State) (index seq : Nat) (x : Qp) (e : Nat × Nat × Nat × Nat × Nat),
      s.runs = true ∧
      NMap.get? s.dev.hall.qps index = some x ∧
      x.held.find? (fun e => e.1 == seq) = some e) ∧
    (∃ (s : State) (index seq : Nat) (t : QTrack) (u : Nat),
      s.runs = true ∧
      s.dev.track index seq = some t ∧
      t.heldUntil = some u) :=
  ⟨⟨at_ (pagedDev {}), 1, 0, pagedRegion, by decide +kernel⟩,
    ⟨at_ (pagedDev { held := [heldRead] }), 0, 3, { held := [heldRead] }, heldRead, by decide +kernel⟩,
    ⟨at_ (hallDev { hallConn with tracks := [(0, { total := 1, held := [(0, [1])], heldUntil := some 9 })] }), 0, 0, { total := 1, held := [(0, [1])], heldUntil := some 9 }, 9, by decide +kernel⟩⟩

theorem test_meets_roceComplete :
    (∃ (s : State) (qp psn key addr : Nat) (ce : Bool) (data : Bytes) (x : Qp) (k : Nat) (r : Region),
      s.runs = true ∧
      NMap.get? s.dev.hall.qps qp = some x ∧
      s.dev.on F.RCE_CTL_EN = true ∧
      x.state = .rts ∧
      s.dev.gi F.HLF_PORT_ROLE x.port = 1 ∧
      let n := packets data.length
      let d := (s.dev.wrap F.RCE_CNT0_PKTS_IN n).cnp qp ce
      let x := NMap.getD d.hall.qps qp x
      signed 24 (psn + 2 ^ 24 - x.rqPsn) = 0 ∧
      let y := { x with rqPsn := (x.rqPsn + n) % 2 ^ 24 }
      let d := d.setQp qp y
      y.ran psn = false ∧
      d.roceRegion y key addr data.length true = some (k, r)) ∧
    (∃ (s : State) (qp psn : Nat) (ce : Bool) (data : Bytes) (x : Qp),
      s.runs = true ∧
      NMap.get? s.dev.hall.qps qp = some x ∧
      s.dev.on F.RCE_CTL_EN = true ∧
      x.state = .rts ∧
      s.dev.gi F.HLF_PORT_ROLE x.port = 1 ∧
      let n := packets data.length
      let d := (s.dev.wrap F.RCE_CNT0_PKTS_IN n).cnp qp ce
      let x := NMap.getD d.hall.qps qp x
      signed 24 (psn + 2 ^ 24 - x.rqPsn) = 0 ∧
      let y := { x with rqPsn := (x.rqPsn + n) % 2 ^ 24 }
      y.ran psn = true) ∧
    (∃ (s : State) (qp psn key addr len : Nat) (ce : Bool) (x : Qp) (k : Nat) (r : Region),
      s.runs = true ∧
      NMap.get? s.dev.hall.qps qp = some x ∧
      s.dev.on F.RCE_CTL_EN = true ∧
      x.state = .rts ∧
      s.dev.gi F.HLF_PORT_ROLE x.port = 1 ∧
      let n := packets len
      let d := (s.dev.wrap F.RCE_CNT0_PKTS_IN 1).cnp qp ce
      let x := NMap.getD d.hall.qps qp x
      signed 24 (psn + 2 ^ 24 - x.rqPsn) = 0 ∧
      let y := { x with rqPsn := (x.rqPsn + n) % 2 ^ 24 }
      let d := d.setQp qp y
      y.reads < 16 ∧
      d.roceRegion y key addr len false = some (k, r) ∧
      let a := addr % 2 ^ 48
      r.touches r.failed a len = false ∧
      r.touches r.absent a len = false) ∧
    (∃ (s : State) (qp psn key addr len : Nat) (ce : Bool) (x : Qp) (k : Nat) (r : Region),
      s.runs = true ∧
      NMap.get? s.dev.hall.qps qp = some x ∧
      s.dev.on F.RCE_CTL_EN = true ∧
      x.state = .rts ∧
      s.dev.gi F.HLF_PORT_ROLE x.port = 1 ∧
      let n := packets len
      let d := (s.dev.wrap F.RCE_CNT0_PKTS_IN 1).cnp qp ce
      let x := NMap.getD d.hall.qps qp x
      signed 24 (psn + 2 ^ 24 - x.rqPsn) = 0 ∧
      let y := { x with rqPsn := (x.rqPsn + n) % 2 ^ 24 }
      let d := d.setQp qp y
      y.reads < 16 ∧
      d.roceRegion y key addr len false = some (k, r) ∧
      let a := addr % 2 ^ 48
      r.touches r.failed a len = false ∧
      r.touches r.absent a len = true) ∧
    (∃ (s : State) (qp psn op : Nat) (ce : Bool) (data : Bytes) (x : Qp),
      s.runs = true ∧
      NMap.get? s.dev.hall.qps qp = some x ∧
      s.dev.on F.RCE_CTL_EN = true ∧
      x.state = .rts ∧
      s.dev.gi F.HLF_PORT_ROLE x.port = 1 ∧
      let n := packets data.length
      let d := (s.dev.wrap F.RCE_CNT0_PKTS_IN n).cnp qp ce
      let x := NMap.getD d.hall.qps qp x
      signed 24 (psn + 2 ^ 24 - x.rqPsn) = 0 ∧
      let y := { x with rqPsn := (x.rqPsn + n) % 2 ^ 24 }
      let d := d.setQp qp y
      op = 0 ∧
      data.length ≤ 16777216) ∧
    (∃ (s : State) (qp nak : Nat) (x : Qp),
      s.runs = true ∧
      NMap.get? s.dev.hall.qps qp = some x ∧
      s.dev.qpUp x = true ∧
      nak = 0) ∧
    (∃ (s : State) (qp nak : Nat) (x : Qp),
      s.runs = true ∧
      NMap.get? s.dev.hall.qps qp = some x ∧
      s.dev.qpUp x = true ∧
      nak ≠ 0) ∧
    (∃ (s : State) (qp : Nat) (x : Qp) (t : Nat),
      s.runs = true ∧
      NMap.get? s.dev.hall.qps qp = some x ∧
      x.ackAt = some t ∧
      s.dev.qpUp x = true) ∧
    (∃ (s : State) (qp : Nat) (x : Qp),
      s.runs = true ∧
      NMap.get? s.dev.hall.qps qp = some x ∧
      s.dev.qpUp x = true) ∧
    (∃ (s : State) (qp : Nat) (x : Qp) (t : Nat),
      s.runs = true ∧
      NMap.get? s.dev.hall.qps qp = some x ∧
      x.incAt = some t) :=
  ⟨⟨at_ (roceDev {}), 0, 0, 2 ^ 24 + 1, 0, false, [1, 2, 3], { state := .rts }, 1, { length := 65536, read := true, write := true, roce := true }, by decide +kernel⟩,
    ⟨at_ (roceDev { done := some 1 }), 0, 0, false, [1], { state := .rts, done := some 1 }, by decide +kernel⟩,
    ⟨at_ (roceDev {}), 0, 0, 2 ^ 24 + 1, 0, 64, false, { state := .rts }, 1, { length := 65536, read := true, write := true, roce := true }, by decide +kernel⟩,
    ⟨at_ { roceDev {} with hall := { (roceDev {}).hall with regions := [(1, pagedRegion)] } }, 0, 0, 2 ^ 24 + 1, 0, 64, false, { state := .rts }, 1, pagedRegion, by decide +kernel⟩,
    ⟨at_ (roceDev {}), 0, 0, 0, false, [], { state := .rts }, by decide +kernel⟩,
    ⟨at_ (roceDev { sent := [(0, 1, 0)] }), 0, 0, { state := .rts, sent := [(0, 1, 0)] }, by decide +kernel⟩,
    ⟨at_ (roceDev { retry := 3 }), 0, 2, { state := .rts, retry := 3 }, by decide +kernel⟩,
    ⟨at_ (roceDev { retry := 3, ackAt := some 9 }), 0, { state := .rts, retry := 3, ackAt := some 9 }, 9, by decide +kernel⟩,
    ⟨at_ (roceDev {}), 0, { state := .rts }, by decide +kernel⟩,
    ⟨at_ (roceDev { incAt := some 9, rate := 100 }), 0, { state := .rts, incAt := some 9, rate := 100 }, 9, by decide +kernel⟩⟩

theorem test_meets_linksComplete :
    (∃ (s : State),
      s.runs = true) ∧
    (∃ (s : State),
      s.runs = true) ∧
    (∃ (s : State) (port hi lo : Nat),
      s.runs = true ∧
      hi = s.dev.gi F.HLF_PORT_IP1_ADDR_HI port ∧
      lo = s.dev.gi F.HLF_PORT_IP0_ADDR_LO port ∧
      (hi ≠ 0 ∨ lo ≠ 0)) ∧
    (∃ (s : State) (port prio : Nat),
      s.runs = true ∧
      bitOf (s.dev.gi F.HLF_PORT_PFC_PRIOS port) prio = true) ∧
    (∃ (s : State),
      s.runs = true) ∧
    (∃ (s : State),
      s.runs = true) :=
  ⟨⟨svc, by decide +kernel⟩,
    ⟨at_ (hallDev hallConn), by decide +kernel⟩,
    ⟨at_ (svcDev.si F.HLF_PORT_IP0_ADDR_LO 0 5), 0, 0, 5, by decide +kernel⟩,
    ⟨at_ (svcDev.si F.HLF_PORT_PFC_PRIOS 0 255), 0, 0, by decide +kernel⟩,
    ⟨svc, by decide +kernel⟩,
    ⟨svc, by decide +kernel⟩⟩

theorem test_meets_clockSynchronisationComplete :
    (∃ (s : State) (port domain : Nat),
      s.runs = true ∧
      s.dev.on F.TIM_CTL_EN = true ∧
      bitOf (s.dev.g F.TIM_CTL_PTP_PORTS) port = true ∧
      domain = s.dev.g F.TIM_CTL_PTP_DOMAIN) ∧
    (∃ (s : State) (wide : Bool),
      s.runs = true ∧
      wide = true) ∧
    (∃ (s : State) (t : Nat),
      s.runs = true ∧
      s.dev.sync.ppsAt = some t ∧
      s.dev.on F.TIM_STATUS_PPS_OK = true) ∧
    (∃ (s : State),
      s.runs = true ∧
      s.dev.g F.TIM_STATUS_SYNC = 2) ∧
    (∃ (s : State),
      s.runs = true ∧
      s.dev.g F.TIM_STATUS_SYNC = 3) :=
  ⟨⟨at_ (svcDev.s F.TIM_CTL_PTP_PORTS 1), 0, 0, by decide +kernel⟩,
    ⟨svc, true, by decide +kernel⟩,
    ⟨at_ (Dev.s { svcDev with sync := { svcDev.sync with ppsAt := some 9 } } F.TIM_STATUS_PPS_OK 1), 9, by decide +kernel⟩,
    ⟨at_ (svcDev.s F.TIM_STATUS_SYNC 2), by decide +kernel⟩,
    ⟨at_ (svcDev.s F.TIM_STATUS_SYNC 3), by decide +kernel⟩⟩

theorem test_meets_handoffComplete :
    (∃ (s : State) (src sid epoch slot : Nat),
      s.runs = true ∧
      let d := s.dev.heard src svcOwner sid
      d.slotOf sid = some slot ∧
      let x := (d.sess slot).d
      x.ownerEpoch = epoch ∧
      x.ownerCtrl = src ∧
      x.lease ≠ .offered ∧
      x.ownerEpoch ≠ 0xFFFFFFFF ∧
      d.fenced slot = false ∧
      d.g F.TIM_STATUS_SYNC ≠ 0) ∧
    (∃ (s : State) (src sid status slot : Nat) (o : HandOut),
      s.runs = true ∧
      s.dev.oldId sid = false ∧
      let d := s.dev.heard src svcOwner sid
      d.slotOf sid = some slot ∧
      d.handOut sid = some o ∧
      o.phase = 0 ∧
      d.homeOf sid = src ∧
      status = 0 ∧
      d.mayOffer slot = true) ∧
    (∃ (s : State) (src sid epoch : Nat) (desc : Bytes) (slot i : Nat) (d1 : Dev),
      s.runs = true ∧
      s.dev.oldId sid = false ∧
      let d := s.dev.heard src svcOwner sid
      let desc := padTo 256 desc
      let x := Desc.ofBytes desc
      NMap.get? d.own.ins sid = none ∧
      (d.own.guests.any fun e => sidHome e.1 == sidHome sid && sidSlot e.1 == sidSlot sid && decide (sidGen sid < sidGen
        e.1)) = false ∧
      (x.isRange src && (d.slotOf sid).isSome || !d.isHome sid && NMap.has d.own.guests sid) = false ∧
      x.rangeOk = true ∧
      d.g F.TIM_STATUS_SYNC ≠ 0 ∧
      let home := d.isHome sid
      let die := slotDie (sidSlot sid)
      let other := d.lowestSlot 2097152 ((1 - die) * 2097152)
      (if home then d.slotOf sid else (d.lowestSlot 2097152 (die * 2097152)).orElse fun _ => other) = some slot ∧
      let c : Ctx := {
          sid := sid, slot := slot, kind := .migrateIn, phase := .tierMove, prio := x.prio, group := x.group, fn := x.partition,
          eq := d.gi F.PRK_POLICY_EQ x.partition, mapEpoch := d.own.current, ownerEpoch := epoch, baseCommitted := x.committed,
          baseHist := x.histLen }
      d.newCtx (slotDie slot) c = some (i, d1)) ∧
    (∃ (s : State) (src sid epoch : Nat) (y : HandIn),
      s.runs = true ∧
      s.dev.oldId sid = false ∧
      let d := s.dev.heard src svcOwner sid
      NMap.get? d.own.ins sid = some y ∧
      y.source = src ∧
      y.epoch = epoch) ∧
    (∃ (s : State) (src sid epoch slot : Nat) (o : HandOut),
      s.runs = true ∧
      s.dev.oldId sid = false ∧
      let d := s.dev.heard src svcOwner sid
      d.slotOf sid = some slot ∧
      d.handOut sid = some o ∧
      let x := d.sess slot
      o.phase = 2 ∧
      o.target = src ∧
      epoch = o.epoch + 1 ∧
      d.mayOffer slot = true) ∧
    (∃ (s : State) (src sid slot : Nat) (o : HandOut),
      s.runs = true ∧
      s.dev.oldId sid = false ∧
      let d := s.dev.heard src svcOwner sid
      d.slotOf sid = some slot ∧
      d.handOut sid = some o ∧
      o.target = src) ∧
    (∃ (s : State) (src sid epoch slot : Nat),
      s.runs = true ∧
      let d := s.dev.heard src svcOwner sid
      d.slotOf sid = some slot ∧
      let x := (d.sess slot).d
      let l := d.homeLease sid
      ((NMap.get? d.own.dirWrites sid).map fun w => w.commit == some (src, epoch)).getD false = false ∧
      x.lease = .offered ∧
      l.offerTo = some src ∧
      epoch = x.ownerEpoch + 1 ∧
      d.now ≤ l.offerDeadline ∧
      d.g F.TIM_STATUS_SYNC ≠ 0 ∧
      src ≠ d.self ∧
      d.holdersUp sid = true) ∧
    (∃ (s : State) (src sid epoch status : Nat) (y : HandIn),
      s.runs = true ∧
      s.dev.oldId sid = false ∧
      let d := s.dev.heard src svcOwner sid
      NMap.get? d.own.ins sid = some y ∧
      y.epoch = epoch ∧
      y.commitAt.isSome = true ∧
      d.homeOf sid = src ∧
      status = 0) ∧
    (∃ (s : State) (src sid epoch target slot : Nat) (o : HandOut),
      s.runs = true ∧
      s.dev.oldId sid = false ∧
      let d := s.dev.heard src svcOwner sid
      d.slotOf sid = some slot ∧
      d.handOut sid = some o ∧
      d.homeOf sid = src ∧
      o.target = target ∧
      epoch = o.epoch + 1) ∧
    (∃ (s : State) (sid slot : Nat),
      s.runs = true ∧
      s.dev.slotOf sid = some slot ∧
      s.dev.isHome sid = true ∧
      (s.dev.sess slot).d.lease = .offered ∧
      ((NMap.get? s.dev.own.dirWrites sid).map fun w => w.commit.isSome).getD false = false) ∧
    (∃ (s : State) (sid : Nat) (y : HandIn),
      s.runs = true ∧
      NMap.get? s.dev.own.ins sid = some y ∧
      y.accepted = false ∧
      s.dev.isHome sid = false) ∧
    (∃ (s : State) (src sid : Nat),
      s.runs = true ∧
      s.dev.oldId sid = false ∧
      let d := s.dev.heard src svcOwner sid
      d.homeOf sid = src ∧
      (NMap.get? d.own.ins sid).isSome = true) ∧
    (∃ (s : State) (src sid slot : Nat),
      s.runs = true ∧
      s.dev.oldId sid = false ∧
      let d := s.dev.heard src svcOwner sid
      d.homeOf sid = src ∧
      NMap.get? d.own.ins sid = none ∧
      d.slotOf sid = some slot ∧
      (d.handOut sid).isSome = true) ∧
    (∃ (s : State) (sid : Nat) (y : HandIn) (t : Nat),
      s.runs = true ∧
      NMap.get? s.dev.own.ins sid = some y ∧
      y.commitAt = some t) ∧
    (∃ (s : State) (sid : Nat) (y : HandIn),
      s.runs = true ∧
      NMap.get? s.dev.own.ins sid = some y ∧
      y.commitAt.isSome = true) :=
  ⟨⟨at_ ((ownDev id {}).s F.TIM_STATUS_SYNC 2), 0, sid0, 1, 0, by decide +kernel⟩,
    ⟨at_ (ownDev id { outs := [(sid0, { target := 2, epoch := 1 })] }), 0, sid0, 0, 0, { target := 2, epoch := 1 }, by decide +kernel⟩,
    ⟨at_ (svcDev.s F.TIM_STATUS_SYNC 2), 2, sidA, 2, descA, 0, 0, propDev, by decide +kernel⟩,
    ⟨at_ (inDev { slot := 3 }), 2, sidA, 2, { source := 2, epoch := 2, slot := 3 }, by decide +kernel⟩,
    ⟨at_ (ownDev id { outs := [(sid0, { target := 2, epoch := 1, phase := 2 })] }), 2, sid0, 2, 0, { target := 2, epoch := 1, phase := 2 }, by decide +kernel⟩,
    ⟨at_ (ownDev id { outs := [(sid0, { target := 2 })] }), 2, sid0, 0, { target := 2 }, by decide +kernel⟩,
    ⟨at_ ((ownDev (fun x => { x with lease := .offered }) { homeLeases := [(sid0, { offerTo := some 2, offerDeadline := 9 })], shards := [(0, 2, 3)] }).s F.TIM_STATUS_SYNC 2), 2, sid0, 2, 0, by decide +kernel⟩,
    ⟨at_ (inDev { slot := 3, commitAt := some 1 }), 2, sidA, 2, 0, { source := 2, epoch := 2, slot := 3, commitAt := some 1 }, by decide +kernel⟩,
    ⟨at_ (ownDev id { outs := [(sid0, { target := 2, epoch := 1 })] }), 0, sid0, 2, 2, 0, { target := 2, epoch := 1 }, by decide +kernel⟩,
    ⟨at_ (ownDev (fun x => { x with lease := .offered }) { homeLeases := [(sid0, { offerTo := some 2, offerDeadline := 9 })] }), sid0, 0, by decide +kernel⟩,
    ⟨at_ (inDev { slot := 3 }), sidA, { source := 2, epoch := 2, slot := 3 }, by decide +kernel⟩,
    ⟨at_ (inDev { slot := 3 }), 2, sidA, by decide +kernel⟩,
    ⟨at_ (ownDev id { outs := [(sid0, { target := 2 })] }), 0, sid0, 0, by decide +kernel⟩,
    ⟨at_ (inDev { slot := 3, commitAt := some 1 }), sidA, { source := 2, epoch := 2, slot := 3, commitAt := some 1 }, 1, by decide +kernel⟩,
    ⟨at_ (inDev { slot := 3, commitAt := some 1 }), sidA, { source := 2, epoch := 2, slot := 3, commitAt := some 1 }, by decide +kernel⟩⟩

theorem test_meets_leasesComplete :
    (∃ (s : State) (sid slot : Nat) (l : OwnLease),
      s.runs = true ∧
      s.dev.slotOf sid = some slot ∧
      NMap.get? s.dev.own.ownLeases slot = some l ∧
      s.dev.away slot = true) ∧
    (∃ (s : State) (src sid epoch renewMs expiryMs slot : Nat),
      s.runs = true ∧
      let d := s.dev.heard src svcOwner sid
      d.samePeriods renewMs expiryMs = true ∧
      d.slotOf sid = some slot ∧
      d.isHome sid = true ∧
      (d.sess slot).d.ownerEpoch = epoch ∧
      (d.sess slot).d.ownerCtrl = src) ∧
    (∃ (s : State) (src sid epoch status renewMs expiryMs slot : Nat) (l : OwnLease),
      s.runs = true ∧
      s.dev.oldId sid = false ∧
      s.dev.samePeriods renewMs expiryMs = true ∧
      let d := s.dev.heard src svcOwner sid
      d.slotOf sid = some slot ∧
      NMap.get? d.own.ownLeases slot = some l ∧
      d.away slot = true ∧
      d.homeOf sid = src ∧
      (d.sess slot).d.ownerEpoch = epoch ∧
      status = 0) ∧
    (∃ (s : State) (src sid epoch status renewMs expiryMs slot : Nat) (l : OwnLease),
      s.runs = true ∧
      s.dev.oldId sid = false ∧
      s.dev.samePeriods renewMs expiryMs = true ∧
      let d := s.dev.heard src svcOwner sid
      d.slotOf sid = some slot ∧
      NMap.get? d.own.ownLeases slot = some l ∧
      d.away slot = true ∧
      d.homeOf sid = src ∧
      (d.sess slot).d.ownerEpoch = epoch ∧
      status = Status.staleGen.code) ∧
    (∃ (s : State) (sid slot : Nat) (l : OwnLease),
      s.runs = true ∧
      s.dev.slotOf sid = some slot ∧
      NMap.get? s.dev.own.ownLeases slot = some l ∧
      l.fenced = false ∧
      s.dev.away slot = true) ∧
    (∃ (s : State) (sid slot t : Nat),
      s.runs = true ∧
      s.dev.slotOf sid = some slot ∧
      s.dev.isHome sid = true ∧
      (s.dev.sess slot).d.state ≠ .closed ∧
      s.dev.leaseEnd slot = some t) ∧
    (∃ (s : State) (src sid epoch slot : Nat),
      s.runs = true ∧
      s.dev.oldId sid = false ∧
      let d := s.dev.heard src svcOwner sid
      d.homeOf sid = src ∧
      NMap.get? d.own.ins sid = none ∧
      d.slotOf sid = some slot ∧
      d.owns slot = true ∧
      (d.sess slot).d.ownerEpoch < epoch) ∧
    (∃ (s : State) (src sid : Nat),
      s.runs = true ∧
      s.dev.oldId sid = false ∧
      let d := s.dev.heard src svcOwner sid
      d.homeOf sid = src ∧
      (NMap.get? d.own.ins sid).isSome = true) ∧
    (∃ (s : State) (src sid epoch slot : Nat),
      s.runs = true ∧
      let d := s.dev.heard src svcOwner sid
      d.slotOf sid = some slot ∧
      d.isHome sid = true ∧
      let x := (d.sess slot).d
      x.ownerCtrl = src ∧
      x.ownerEpoch = epoch ∧
      x.state = .closed) ∧
    (∃ (s : State) (src sid epoch state slot : Nat),
      s.runs = true ∧
      let d := s.dev.heard src svcOwner sid
      d.slotOf sid = some slot ∧
      d.isHome sid = true ∧
      let x := (d.sess slot).d
      x.ownerCtrl = src ∧
      x.ownerEpoch = epoch ∧
      x.state ≠ .closed ∧
      SState.ofCode state = .closed) ∧
    (∃ (s : State) (src sid epoch state : Nat) (tokens : List Nat) (slot : Nat),
      s.runs = true ∧
      let d := s.dev.heard src svcOwner sid
      d.slotOf sid = some slot ∧
      d.isHome sid = true ∧
      let x := (d.sess slot).d
      x.ownerCtrl = src ∧
      x.ownerEpoch = epoch ∧
      x.state ≠ .closed ∧
      SState.ofCode state ≠ .closed ∧
      tokens = []) ∧
    (∃ (s : State) (src sid epoch state tier histLen : Nat) (tokens : List Nat) (slot hd : Nat) (d1 d2 : Dev),
      s.runs = true ∧
      let d := s.dev.heard src svcOwner sid
      d.slotOf sid = some slot ∧
      d.isHome sid = true ∧
      let x := (d.sess slot).d
      x.ownerCtrl = src ∧
      x.ownerEpoch = epoch ∧
      x.state ≠ .closed ∧
      SState.ofCode state ≠ .closed ∧
      tokens ≠ [] ∧
      let st (x : Desc) : SState := if SState.ofCode state = .free then x.state else SState.ofCode state
      let d := (d.updDesc slot fun x => { x with state := st x, tier := Tier.ofCode tier, idleSince := 0 }).refresh slot
      let lo := histLen - tokens.length
      (if (d.obj x.histHandle).isSome then some (x.histHandle, d) else d.createObj (slotDie slot) 2 sid x.partition 0) = some
        (hd, d1) ∧
      (d1.updDesc slot fun y => { y with histHandle := hd }).growObj hd (ceilDiv (4 * histLen) 16384) = some d2) ∧
    (∃ (s : State) (src sid epoch status slot : Nat),
      s.runs = true ∧
      s.dev.oldId sid = false ∧
      let d := s.dev.heard src svcOwner sid
      d.slotOf sid = some slot ∧
      status = 0 ∧
      d.away slot = true ∧
      d.homeOf sid = src ∧
      (d.sess slot).d.ownerEpoch = epoch) ∧
    (∃ (s : State) (sid : Nat),
      s.runs = true ∧
      s.dev.oldId sid = true) :=
  ⟨⟨at_ (guestDev {}), sidA, 3, {}, by decide +kernel⟩,
    ⟨at_ (ownDev (fun x => { x with ownerCtrl := 2 }) {}), 2, sid0, 1, svcDev.g F.TIM_LEASE_RENEW_MS, svcDev.g F.TIM_LEASE_EXPIRY_MS, 0, by decide +kernel⟩,
    ⟨at_ (guestDev {}), 2, sidA, 1, 0, svcDev.g F.TIM_LEASE_RENEW_MS, svcDev.g F.TIM_LEASE_EXPIRY_MS, 3, {}, by decide +kernel⟩,
    ⟨at_ (guestDev {}), 2, sidA, 1, Status.staleGen.code, svcDev.g F.TIM_LEASE_RENEW_MS, svcDev.g F.TIM_LEASE_EXPIRY_MS, 3, {}, by decide +kernel⟩,
    ⟨at_ (guestDev {}), sidA, 3, {}, by decide +kernel⟩,
    ⟨at_ (ownDev (fun x => { x with ownerCtrl := 2 }) { homeLeases := [(sid0, { expiry := 9 })] }), sid0, 0, 1000009, by decide +kernel⟩,
    ⟨at_ (guestDev {}), 2, sidA, 2, 3, by decide +kernel⟩,
    ⟨at_ (inDev { slot := 3 }), 2, sidA, by decide +kernel⟩,
    ⟨at_ (ownDev (fun x => { x with ownerCtrl := 2, state := .closed }) {}), 2, sid0, 1, 0, by decide +kernel⟩,
    ⟨at_ (ownDev (fun x => { x with ownerCtrl := 2 }) {}), 2, sid0, 1, 9, 0, by decide +kernel⟩,
    ⟨at_ (ownDev (fun x => { x with ownerCtrl := 2 }) {}), 2, sid0, 1, 2, [], 0, by decide +kernel⟩,
    ⟨at_ awayDev, 2, sid0, 1, 2, 1, 2, [5, 6], 0, syncObj.1, syncObj.2, syncGrown, by decide +kernel⟩,
    ⟨at_ (guestDev {}), 2, sidA, 1, 0, 3, by decide +kernel⟩,
    ⟨opened, sid0 - 2 ^ 22, by decide +kernel⟩⟩

theorem test_meets_directoryAndMapsComplete :
    (∃ (s : State) (sid : Nat),
      s.runs = true ∧
      s.dev.oldId sid = false) ∧
    (∃ (s : State) (sid : Nat),
      s.runs = true ∧
      s.dev.oldId sid = false) ∧
    (∃ (s : State) (src sid : Nat) (w : DirWrite),
      s.runs = true ∧
      s.dev.oldId sid = false ∧
      let d := s.dev.heard src svcDir sid
      NMap.get? d.own.dirWrites sid = some w ∧
      w.waits.contains src = true) ∧
    (∃ (s : State) (sid : Nat),
      s.runs = true ∧
      s.dev.oldId sid = false) ∧
    (∃ (s : State) (src sid : Nat),
      s.runs = true ∧
      s.dev.oldId sid = false ∧
      let d := s.dev.heard src svcDir sid
      d.own.asked.contains sid = true) ∧
    (∃ (s : State) (src sid target : Nat),
      s.runs = true ∧
      s.dev.oldId sid = false ∧
      let d := s.dev.heard src svcOwner sid
      d.slotOf sid = none ∧
      d.isHome sid = false ∧
      target ≠ d.self) ∧
    (∃ (s : State) (sid : Nat) (f : Nat × Nat × Nat × Nat),
      s.runs = true ∧
      s.dev.own.forwards.find? (fun f => f.1 == sid) = some f) ∧
    (∃ (s : State) (p : Nat × Nat),
      s.runs = true ∧
      s.dev.own.previous = some p) ∧
    (∃ (s : State) (h : Hdr) (outLen : Nat) (img : Bytes) (c c1 : CompMap) (rs : List (Nat × Bytes)) (e1 : Dev),
      s.runs = true ∧
      s.dev.ready h true = true ∧
      h.fn = 0 ∧
      let e := s.dev.entered h
      mapOf img (e.g F.TIM_LEASE_DRAIN_MS) = some (c, rs) ∧
      (e.own.installed.map fun o => o.epoch == c.epoch && o.image == img).getD false = false ∧
      e.installedEpoch < c.epoch ∧
      mapOk c rs = true ∧
      e.strands c = false ∧
      e.mapBusy c rs = false ∧
      e.mapWindows c = some (c1, e1) ∧
      let es := e1.mapEntries c1 rs
      32 * es.length ≤ outLen) ∧
    (∃ (s : State) (h : Hdr) (sid : Nat) (desc : Bool) (slot : Nat),
      s.runs = true ∧
      s.dev.ready h desc = true ∧
      s.dev.mayUse h.fn sid false = true ∧
      let e := s.dev.entered h
      e.slotOf sid = some slot ∧
      (e.sess slot).lost = false) :=
  ⟨⟨svc, sidA, by decide +kernel⟩,
    ⟨svc, sidA, by decide +kernel⟩,
    ⟨at_ (ownDev id { dirWrites := [(sid0, { waits := [2] })] }), 2, sid0, { waits := [2] }, by decide +kernel⟩,
    ⟨at_ (ownDev id { dir := [(sidA, {})] }), sidA, by decide +kernel⟩,
    ⟨at_ (ownDev id { asked := [sidA] }), 2, sidA, by decide +kernel⟩,
    ⟨svc, 2, sidA, 3, by decide +kernel⟩,
    ⟨at_ (ownDev id { forwards := [(sidA, 3, 1, 9)] }), sidA, (sidA, 3, 1, 9), by decide +kernel⟩,
    ⟨at_ (ownDev id { previous := some (1, 9) }), (1, 9), by decide +kernel⟩,
    ⟨svc, {}, 64, mapImg, mapRead.1, mapPut.1, mapRead.2, mapPut.2, by decide +kernel⟩,
    ⟨opened, {}, sid0, false, 0, by decide +kernel⟩⟩

theorem test_meets_checkpointBeginAndPrepare :
    (∃ (s : State) (h : Hdr) (req : Bytes) (g : Nat),
      s.runs = true ∧
      s.dev.ready h true = true ∧
      h.fn = 0 ∧
      req.length = 32 ∧
      fieldAt req 0 35 29 = 0 ∧
      fieldAt req 8 48 16 = 0 ∧
      leAt req 0x10 16 = 0 ∧
      let e := s.dev.entered h
      e.on F.CKP_CTL_EN = true ∧
      e.on F.HMP_CTL_EN = true ∧
      e.groupOf (leAt req 0 4) = some g ∧
      e.prog g = none ∧
      NMap.has e.ckp.fwd g = false ∧
      e.isTk g = true) ∧
    (∃ (s : State) (h : Hdr) (req : Bytes) (g : Nat),
      s.runs = true ∧
      s.dev.ready h true = true ∧
      h.fn = 0 ∧
      req.length = 32 ∧
      fieldAt req 0 35 29 = 0 ∧
      fieldAt req 8 48 16 = 0 ∧
      leAt req 0x10 16 = 0 ∧
      let e := s.dev.entered h
      e.on F.CKP_CTL_EN = true ∧
      e.on F.HMP_CTL_EN = true ∧
      let gid := leAt req 0 4
      e.groupOf gid = some g ∧
      e.prog g = none ∧
      NMap.has e.ckp.fwd g = false ∧
      e.isTk g = false) ∧
    (∃ (s : State) (g : Nat),
      s.runs = true ∧
      g < 64 ∧
      s.dev.gid g ≠ 0 ∧
      s.dev.isTk g = true ∧
      s.dev.seen g F.CKP_CFG_PERIOD_S ≠ 0 ∧
      s.dev.on F.CKP_CTL_EN = true ∧
      s.dev.on F.CKP_CTL_AUTO_EN = true ∧
      bitOf (s.dev.g F.CKP_TRIG_MASK) 0 = true) ∧
    (∃ (s : State) (gid g : Nat),
      s.runs = true ∧
      s.dev.groupOf gid = some g ∧
      s.dev.isTk g = true ∧
      s.dev.on F.CKP_CTL_EN = true ∧
      s.dev.on F.CKP_CTL_AUTO_EN = true) ∧
    (∃ (s : State) (gid g : Nat),
      s.runs = true ∧
      s.dev.groupOf gid = some g ∧
      s.dev.isTk g = true ∧
      s.dev.on F.CKP_CTL_EN = true ∧
      s.dev.prog g = none) ∧
    (∃ (s : State) (gid g fn ring eq hseq : Nat),
      s.runs = true ∧
      s.dev.groupOf gid = some g ∧
      NMap.get? s.dev.ckp.fwd g = some (fn, ring, eq, hseq)) ∧
    (∃ (s : State) (src gid g : Nat),
      s.runs = true ∧
      s.dev.groupOf gid = some g ∧
      src = s.dev.tk g ∧
      s.dev.prog g = none ∧
      s.dev.on F.CKP_CTL_EN = true) ∧
    (∃ (s : State) (src gid manifest g : Nat) (p : CkpProg),
      s.runs = true ∧
      s.dev.groupOf gid = some g ∧
      src = s.dev.tk g ∧
      s.dev.prog g = some p ∧
      p.manifest = manifest) ∧
    (∃ (s : State) (gid manifest status g : Nat) (p : CkpProg),
      s.runs = true ∧
      s.dev.groupOf gid = some g ∧
      s.dev.isTk g = true ∧
      s.dev.on F.CKP_CTL_EN = true ∧
      s.dev.prog g = some p ∧
      p.manifest = manifest ∧
      p.timekeeper = true ∧
      status = 0) ∧
    (∃ (s : State) (gid manifest status g : Nat) (p : CkpProg),
      s.runs = true ∧
      s.dev.groupOf gid = some g ∧
      s.dev.isTk g = true ∧
      s.dev.on F.CKP_CTL_EN = true ∧
      s.dev.prog g = some p ∧
      p.manifest = manifest ∧
      p.timekeeper = true ∧
      status ≠ 0) ∧
    (∃ (s : State) (g : Nat) (p : CkpProg) (t : Nat),
      s.runs = true ∧
      g < 64 ∧
      s.dev.prog g = some p ∧
      p.barrier = some t) ∧
    (∃ (s : State) (g : Nat) (p : CkpProg) (t : Nat),
      s.runs = true ∧
      g < 64 ∧
      s.dev.prog g = some p ∧
      p.writeBy = some t ∧
      p.timekeeper = true ∧
      (s.dev.group g).ctrls.all (NMap.has p.dones) = false) :=
  ⟨⟨at_ rowDev, {}, pack 32 [⟨0, 0, 32, 7⟩], 0, by decide +kernel⟩,
    ⟨at_ (rowDev.si F.TIM_GRP_CFG_TK_CTRL 0 2), {}, pack 32 [⟨0, 0, 32, 7⟩], 0, by decide +kernel⟩,
    ⟨at_ (((rowDev.s F.CKP_CTL_AUTO_EN 1).s F.CKP_CFG_PERIOD_S 60).s F.CKP_TRIG_MASK 1), 0, by decide +kernel⟩,
    ⟨at_ (rowDev.s F.CKP_CTL_AUTO_EN 1), 7, 0, by decide +kernel⟩,
    ⟨at_ rowDev, 7, 0, by decide +kernel⟩,
    ⟨at_ { rowDev with ckp := { rowDev.ckp with fwd := [(0, (0, 0, 0, 0))] } }, 7, 0, 0, 0, 0, 0, by decide +kernel⟩,
    ⟨at_ rowDev, 0, 7, 0, by decide +kernel⟩,
    ⟨at_ (ckptDev {}), 0, 7, 7 * 2 ^ 32 + 1, 0, { manifest := 7 * 2 ^ 32 + 1 }, by decide +kernel⟩,
    ⟨at_ (ckptDev { timekeeper := true }), 7, 7 * 2 ^ 32 + 1, 0, 0, { manifest := 7 * 2 ^ 32 + 1, timekeeper := true }, by decide +kernel⟩,
    ⟨at_ (ckptDev { timekeeper := true }), 7, 7 * 2 ^ 32 + 1, 1, 0, { manifest := 7 * 2 ^ 32 + 1, timekeeper := true }, by decide +kernel⟩,
    ⟨at_ (ckptDev { barrier := some 9 }), 0, { manifest := 7 * 2 ^ 32 + 1, barrier := some 9 }, 9, by decide +kernel⟩,
    ⟨at_ (ckptDev { writeBy := some 9, timekeeper := true }), 0, { manifest := 7 * 2 ^ 32 + 1, writeBy := some 9, timekeeper := true }, 9, by decide +kernel⟩⟩

theorem test_meets_shardsAndManifests :
    (∃ (s : State) (src manifest flags length hd : Nat) (d : Dev),
      s.runs = true ∧
      (s.dev.ckp.mirrors.any fun x => ckptKey x src manifest flags) = false ∧
      let die := bits flags 3 1
      s.dev.createObj die 5 manifest 0 (ceilDiv length 16384) = some (hd, d)) ∧
    (∃ (s : State) (src manifest flags offset : Nat) (data : Bytes) (x : CkpMirror),
      s.runs = true ∧
      s.dev.ckp.mirrors.find? (fun x => ckptKey x src manifest flags) = some x ∧
      offset + data.length ≤ x.length ∧
      x.sealed = false) ∧
    (∃ (s : State) (src manifest flags : Nat) (x : CkpMirror),
      s.runs = true ∧
      s.dev.ckp.mirrors.find? (fun x => ckptKey x src manifest flags) = some x ∧
      x.data.length = x.length) ∧
    (∃ (s : State) (gid flags status g : Nat),
      s.runs = true ∧
      s.dev.groupOf gid = some g ∧
      (status = 0 ∨ status = Status.dup.code) ∧
      bitOf flags 4 = false) ∧
    (∃ (s : State) (src gid manifest flags status g : Nat) (p : CkpProg),
      s.runs = true ∧
      s.dev.groupOf gid = some g ∧
      (status = 0 ∨ status = Status.dup.code) ∧
      bitOf flags 4 = true ∧
      let d := s.dev.resolve src svcCkpt .ok
      d.prog g = some p ∧
      p.manifest = manifest ∧
      p.manifestWritten = true) ∧
    (∃ (s : State) (g : Nat) (p : CkpProg),
      s.runs = true ∧
      g < 64 ∧
      s.dev.prog g = some p ∧
      let mine (k : Shard) : Bool := k.manifest == p.manifest && k.ctrl == s.dev.self
      p.cutTaken = true ∧
      p.sentDone = false ∧
      (s.dev.ckp.shards.filter mine).all (fun k => s.dev.objDurable k.handle && (!k.wantMirror || k.mirrored)) = true) ∧
    (∃ (s : State) (src gid manifest g : Nat) (p : CkpProg),
      s.runs = true ∧
      s.dev.groupOf gid = some g ∧
      s.dev.isTk g = true ∧
      s.dev.on F.CKP_CTL_EN = true ∧
      s.dev.prog g = some p ∧
      p.manifest = manifest ∧
      (s.dev.group g).ctrls.contains src = true) ∧
    (∃ (s : State) (g : Nat) (p : CkpProg) (x : Manifest),
      s.runs = true ∧
      g < 64 ∧
      s.dev.prog g = some p ∧
      p.pending = some x ∧
      s.dev.objDurable p.manifestHandle = true ∧
      (s.dev.deputy g = s.dev.self ∨ s.dev.deputy g = 0 ∨ p.manifestMirrored = true)) ∧
    (∃ (s : State) (src gid manifest cutRow g : Nat),
      s.runs = true ∧
      s.dev.groupOf gid = some g ∧
      src = s.dev.tk g ∧
      let d := s.dev.commitGen g manifest cutRow
      (d.prog g).any (fun p => p.manifest == manifest) = false) ∧
    (∃ (s : State) (src gid manifest cutRow g : Nat) (p : CkpProg),
      s.runs = true ∧
      s.dev.groupOf gid = some g ∧
      src = s.dev.tk g ∧
      let d := s.dev.commitGen g manifest cutRow
      d.prog g = some p ∧
      p.manifest = manifest) ∧
    (∃ (s : State) (src gid g : Nat),
      s.runs = true ∧
      s.dev.groupOf gid = some g ∧
      src = s.dev.tk g) ∧
    (∃ (s : State),
      s.runs = true) :=
  ⟨⟨at_ parkDev, 2, 1, 0, 1, shardObj.1, shardObj.2, by decide +kernel⟩,
    ⟨at_ { parkDev with ckp := { parkDev.ckp with mirrors := [ckptMirror] } }, 2, 1, 0, 0, [8], ckptMirror, by decide +kernel⟩,
    ⟨at_ { parkDev with ckp := { parkDev.ckp with mirrors := [ckptMirror] } }, 2, 1, 0, ckptMirror, by decide +kernel⟩,
    ⟨at_ { ckptDev {} with ckp := { (ckptDev {}).ckp with shards := [{ manifest := 7 * 2 ^ 32 + 1, wantMirror := true }] } }, 7, 0, 0, 0, by decide +kernel⟩,
    ⟨at_ (ckptDev { manifestWritten := true }), 2, 7, 7 * 2 ^ 32 + 1, 16, 0, 0, { manifest := 7 * 2 ^ 32 + 1, manifestWritten := true }, by decide +kernel⟩,
    ⟨at_ (ckptDev { cutTaken := true }), 0, { manifest := 7 * 2 ^ 32 + 1, cutTaken := true }, by decide +kernel⟩,
    ⟨at_ (ckptDev {}), 0, 7, 7 * 2 ^ 32 + 1, 0, { manifest := 7 * 2 ^ 32 + 1 }, by decide +kernel⟩,
    ⟨at_ (((halfDev { objs := [(0, imageObj0)] }).si F.TIM_GRP_CFG_GROUP_ID 0 7).setProg 0 { manifest := 7 * 2 ^ 32 + 1, pending := some manifest7, manifestHandle := mkHandle 0 3 1 0 }), 0, { manifest := 7 * 2 ^ 32 + 1, pending := some manifest7, manifestHandle := mkHandle 0 3 1 0 }, manifest7, by decide +kernel⟩,
    ⟨at_ rowDev, 0, 7, 7 * 2 ^ 32 + 4, 9, 0, by decide +kernel⟩,
    ⟨at_ (ckptDev {}), 0, 7, 7 * 2 ^ 32 + 1, 9, 0, { manifest := 7 * 2 ^ 32 + 1 }, by decide +kernel⟩,
    ⟨at_ (ckptDev {}), 0, 7, 0, by decide +kernel⟩,
    ⟨at_ { parkDev with ckp := { parkDev.ckp with mirrors := [ckptMirror] } }, by decide +kernel⟩⟩

theorem test_meets_checkpointRestoreCompletes :
    ∃ (s : State) (h : Hdr) (req : Bytes) (gen : Nat) (busy : Bool) (bad fails : List (Nat × Nat)) (mirrors : List Nat) (x :
      Manifest) (place g : Nat),
      s.runs = true ∧
      s.dev.ready h true = true ∧
      h.fn = 0 ∧
      req.length = 16 ∧
      leAt req 4 4 = 0 ∧
      let e := s.dev.entered h
      e.on F.CKP_CTL_EN = true ∧
      e.on F.HMP_CTL_EN = true ∧
      let gid := leAt req 0 4
      e.pickGen (e.manifests gid) (leAt req 8 8) gen bad mirrors = some (x, place) ∧
      x.digestOk = true ∧
      e.groupOf gid = some g ∧
      (e.phase g = 0 ∨ e.phase g = 4) ∧
      (e.ses.tab.any fun a => a.2.d.group == g && a.2.d.state != .free) = false ∧
      busy = false ∧
      e.headerFaults x place bad mirrors = [] ∧
      let agrees (k : ShardInfo) (b : Bytes) : Bool := padTo 48 (Config.sha384 (b.drop 16384)) == k.digest
      let sound (k : ShardInfo) : Bool := if e.loadsHere k then ((e.shardHere x k).map (agrees k)).getD true else (reportOf
        fails place k).isNone
      x.shards.all sound = true ∧
      let saved := e.savedHere x
      (saved.any fun a => e.isHome a.desc.sid && NMap.has e.ses.tab (sidSlot a.desc.sid)) = false :=
  ⟨at_ keptDev, {}, pack 16 [⟨0, 0, 32, 7⟩], 0, false, [], [], [], manifest7, 0, 0, by decide +kernel⟩

end
end

section
/-! Every command answers a next state (R21, R513), and nothing happens where a unit that it names is not fitted (log entry 9). -/
namespace Sys2Proof.Machine
open Sys2Proof

/-- An event that names a unit that is not fitted puts the present block. -/
theorem onUnit_of_unfitted {fitted : Bool} (f : Memory → Dev → Dev) (s : State) (h : fitted = false) :
    onUnit fitted f s = .next (s.put s.dev) := by
  subst h
  exact onUnit_unfitted f s

/-- Every arm of the dispatch computes a block and puts it in the state. -/
theorem exec_answers (c : Instr) (s : State) : ∃ d, exec c s = .next (s.put d) := by
  cases c with
  | _ => exact ⟨_, rfl⟩

/-- Every command that names units guards its meaning with their being fitted. -/
theorem exec_unfitted (c : Instr) (s : State) (h : c.fitted = false) : exec c s = .next (s.put s.dev) := by
  unfold Instr.fitted at h
  split at h
  case h_62 => exact absurd h.symm Bool.false_ne_true
  all_goals
    unfold exec
    exact onUnit_of_unfitted _ s h

/-- Settles O5: every arm of the dispatch puts a block in the state, the present one where a unit that it names is not fitted. -/
theorem everyCommandAnswers : Obligations.EveryCommandAnswers := by
  intro c s
  obtain ⟨d, hd⟩ := exec_answers c s
  exact ⟨⟨d, hd, rfl⟩, exec_unfitted c s⟩

end Sys2Proof.Machine
end

section
/-! What a register field reads after another was stored, and what fields read at reset. -/
namespace Sys2Proof.Machine
open Sys2Proof

/-- A field reads what was stored under its key, cut to the width of the field stored, and else what it read before. -/
theorem Dev.gf_sf (d : Dev) (f g : Fld) (fn i fn' j v : Nat) :
    (d.sf f fn i v).gf g fn' j = if g.key fn' j = f.key fn i then v % 2 ^ f.w else d.gf g fn' j := by
  by_cases h : g.key fn' j = f.key fn i
  · simp [Dev.gf, Dev.sf, h]
  · simp [Dev.gf, Dev.sf, h, NMap.getD_put_ne]

/-- Settles O12: a store changes the register file alone, under the field's key. -/
theorem fieldsReadBack : Obligations.FieldsReadBack :=
  fun d f g fn i fn' j v => ⟨d.gf_sf f g fn i fn' j v, rest_sf d f fn i v⟩

/-- Refutes O3: RST_CAUSE.CAUSE is 1 in State.reset (a first power-on, R566), while the field's reset value is 0. -/
theorem not_resetState : ¬ Obligations.ResetState := by
  rintro ⟨-, -, -, -, -, hreads⟩
  have hcause : State.reset.dev.gf F.RST_CAUSE_CAUSE 0 0 = F.RST_CAUSE_CAUSE.resetAt 0 0 :=
    hreads F.RST_CAUSE_CAUSE 0 0 (by decide +kernel)
  exact absurd hcause (by decide)

end Sys2Proof.Machine
end

section
/-! A command of a block that is off: it passes its checks and is answered BUSY (R13, R523). -/
namespace Sys2Proof.Machine
open Sys2Proof

/-- A disabled block answers BUSY unless a reset of its own row, of the token, grammar or search block, drains it (R574, R576). -/
theorem offAnswer_busy (d : Dev) (en : Fld)
    (h : ∀ row, row = 3 ∨ row = 4 ∨ row = 8 → en ∈ rowEnables row → (d.rst.blocks.any fun b => b.row == row) = false) :
    d.offAnswer en = d.res .busy := by
  unfold Dev.offAnswer
  rw [if_neg]
  simp only [List.any_eq_true, Bool.and_eq_true, Bool.or_eq_true, beq_iff_eq, List.contains_iff_mem, not_exists, not_and]
  intro b hb hrow hen
  have hnone := h b.row (by omega) hen
  simp only [List.any_eq_false, beq_iff_eq] at hnone
  exact hnone b hb rfl

/-- A command that needs blocks of which one is off is answered as that block answers. -/
theorem needs_busy (d : Dev) (ens : List Fld) (run : Dev → Res) (hp : d.bootPhase ≠ 0) (hoff : ens.all (fun e => d.on e) = false)
    (hbusy : ∀ en ∈ ens, d.offAnswer en = d.res .busy) : d.needs ens run = d.res .busy := by
  unfold Dev.needs
  rw [if_neg hp]
  cases hfind : ens.find? (fun en => !d.on en) with
  | none =>
    obtain ⟨en, hen, hdis⟩ := List.all_eq_false.1 hoff
    exact absurd (by simpa using List.find?_eq_none.1 hfind en hen) hdis
  | some en => exact hbusy en (List.mem_of_find?_eq_some hfind)

/-- A ready entry whose command needs a block that is off does nothing but be answered BUSY. -/
theorem command_busy (d : Dev) (h : Hdr) (op : Nat) (may params data : Bool) (ens : List Fld) (run : Dev → Res)
    (hr : d.ready h data = true) (hmay : may = true) (hparams : params = true)
    (hoff : ens.all (fun e => (d.entered h).on e) = false)
    (hbusy : ∀ en ∈ ens, (d.entered h).offAnswer en = (d.entered h).res .busy) :
    d.command h op may params data (fun e => e.needs ens run) = (d.entered h).answered h op .busy [] := by
  rw [command_ready d h op may params data _ hr hmay hparams, needs_busy _ ens run (ready_phase d h data hr) hoff hbusy]
  rfl

/-- A block that only one of the rows that drain can stop answers BUSY while no reset of that row is under way. -/
theorem offAnswer_busy_of_row (d : Dev) (en : Fld) (row : Nat) (hrow : ∀ r ∈ [3, 4, 8], en ∈ rowEnables r → r = row)
    (h : (d.rst.blocks.any fun b => b.row == row) = false) : d.offAnswer en = d.res .busy :=
  offAnswer_busy d en fun r hr hen => hrow r (by simpa using hr) hen ▸ h

/-- A ready entry whose command needs a block that is off is answered BUSY, whatever is being reset, where none of its blocks is of a
row that drains. -/
theorem command_busy_of_undrained (d : Dev) (h : Hdr) (op : Nat) (may params data : Bool) (ens : List Fld) (run : Dev → Res)
    (hr : d.ready h data = true) (hmay : may = true) (hparams : params = true)
    (hoff : ens.all (fun e => (d.entered h).on e) = false) (hens : ∀ en ∈ ens, ∀ r ∈ [3, 4, 8], en ∉ rowEnables r) :
    d.command h op may params data (fun e => e.needs ens run) = (d.entered h).answered h op .busy [] :=
  command_busy d h op may params data ens run hr hmay hparams hoff fun en hen =>
    offAnswer_busy _ en fun r hr hrow => absurd hrow (hens en hen r (by simpa using hr))

/-- Parks and revives need the two blocks of their row. -/
theorem parkBlocks_all_on (d : Dev) : parkBlocks.all (fun e => d.on e) = d.parkOn := by simp [parkBlocks, Dev.parkOn]

/-- A meaning of the controller that runs puts the block that it computes. -/
theorem onDev_eq {f : Memory → Dev → Dev} {s : State} {d : Dev} (hrun : s.runs = true) (hd : f s.hbm s.dev = d) :
    onDev f s = .next (s.put d) := hd ▸ onDev_runs f s hrun

/-- Settles O10: each command needs its blocks only after its checks, and the first block that is off answers BUSY. -/
theorem blocksOffAreBusy : Obligations.BlocksOffAreBusy := by
  refine ⟨?park, ?revive, ?loadGrammar, ?siftDelete, ?siftMerge, ?scrub, ?weightsUnwrap, ?ckptBegin⟩
  case park =>
    intro s h sid target holder hrun hready hmay htarget e hoff
    show execPark h sid holder target s = _
    exact onDev_eq hrun (command_busy_of_undrained _ h _ _ _ _ parkBlocks _ hready hmay (decide_eq_true htarget)
      ((parkBlocks_all_on e).trans hoff) (by decide))
  case revive =>
    intro s h sid mode hrun hready hmay hmode e hoff
    show execRevive h sid mode s = _
    exact onDev_eq hrun (command_busy_of_undrained _ h _ _ _ _ parkBlocks _ hready hmay (decide_eq_true hmode)
      ((parkBlocks_all_on e).trans hoff) (by decide))
  case loadGrammar =>
    intro s h sid pol n img hrun hready hmay e hoff hdrain
    show execLoadGrammar h sid img pol n s = _
    refine onDev_eq hrun (command_busy _ h _ _ _ _ loadBlocks _ hready ?may ?params (by simpa [loadBlocks] using hoff) ?busy)
    case may => by_cases hsid : sid = 0 <;> simp_all [fromZero]
    case params => by_cases hsid : sid = 0 <;> simp_all
    case busy =>
      intro en hen
      obtain rfl := List.mem_singleton.1 hen
      exact offAnswer_busy_of_row e _ 4 (by decide) hdrain
  case siftDelete =>
    intro s h handle drop key hrun hready hmay e hoff hdrain
    show execSiftDelete h handle drop key s = _
    refine onDev_eq hrun (command_busy _ h _ _ _ _ [F.SFT_CTL_EN] _ hready hmay rfl (by simpa using hoff) fun en hen => ?_)
    obtain rfl := List.mem_singleton.1 hen
    exact offAnswer_busy_of_row e _ 8 (by decide) hdrain
  case siftMerge =>
    intro s h handle hrun hready hmay e hoff hdrain
    show execSiftMerge h handle s = _
    refine onDev_eq hrun (command_busy _ h _ _ _ _ [F.SFT_CTL_EN] _ hready hmay rfl (by simpa using hoff) fun en hen => ?_)
    obtain rfl := List.mem_singleton.1 hen
    exact offAnswer_busy_of_row e _ 8 (by decide) hdrain
  case scrub =>
    intro s h mode hrun hready hfn hmode e hoff
    show execScrub h mode s = _
    exact onDev_eq hrun (command_busy_of_undrained _ h _ _ _ _ [F.SEC_CTL_EN] _ hready (beq_iff_eq.2 hfn) (decide_eq_true hmode)
      (by simpa using hoff) (by decide))
  case weightsUnwrap =>
    intro s h addr len pkg hrun hready hfn e hoff
    show execWeightsUnwrap h addr len pkg s = _
    exact onDev_eq hrun (command_busy_of_undrained _ h _ _ _ _ [F.SEC_CTL_EN] _ hready (beq_iff_eq.2 hfn) rfl
      (by simpa using hoff) (by decide))
  case ckptBegin =>
    intro s h req hrun hready hfn hlen hflags hrow hrest e hoff
    show execCkptBegin h req s = _
    exact onDev_eq hrun (command_busy_of_undrained _ h _ _ _ _ [F.CKP_CTL_EN, F.HMP_CTL_EN] _ hready (beq_iff_eq.2 hfn)
      (by simp [hlen, hflags, hrow, hrest]) (by simpa using hoff) (by decide))

end Sys2Proof.Machine
end

section
/-! Register writes (R12 to R19): what a window does not grant is denied, and what a write of one plain field does by its class. -/
namespace Sys2Proof.Machine
open Sys2Proof

/-- REGISTER_WRITE of a function that is fitted, once the registers are mapped. -/
theorem exec_registerWrite (s : State) (fn off whole : Nat) (wide io : Bool) (hrun : s.runs = true) (hm : s.dev.mapped = true)
    (hfn : fn < 32) :
    exec (.registerWrite fn off whole wide io) s = .next (s.put (Dev.acts (s.dev.writeReg fn off whole wide) fn off io)) := by
  show execRegisterWrite fn off whole wide io s = _
  unfold execRegisterWrite
  rw [onUnit_runs _ _ s (decide_eq_true hfn) hrun]
  simp [hm]

/-! Writes that are not granted (R19) -/

/-- A write of a tenant to a register that its window does not grant comes to its rejection, before range and class. -/
theorem writeSome_not_granted (d : Dev) (fn off whole : Nat) (f : Fld) (i : Nat) (fs : List (Fld × Nat)) (hfn : 0 < fn)
    (hw : f.grant ≠ .fnWrite) (ho : f.grant ≠ .ownWrite) :
    d.writeSome fn off whole ((f, i) :: fs) = (d.reject fn off .denied, []) := by
  have hgrant : fn ≠ 0 ∧ f.grant ≠ .fnWrite ∧ f.grant ≠ .ownWrite := ⟨hfn.ne', hw, ho⟩
  simp only [Dev.writeSome, if_pos hgrant, ite_self]

/-- A row that writes one field that the window does not grant comes to the rejection. -/
theorem onUnit_writeOne_not_granted {fitted : Bool} {s : State} {fn : Nat} (f : Fld) (i whole : Nat) (io : Bool) (hrun : s.runs = true)
    (hm : s.dev.mapped = true) (hfit : fitted = true) (hfn : 0 < fn) (hg : f.grant ≠ .fnWrite ∧ f.grant ≠ .ownWrite) :
    onUnit fitted (fun _ d => d.writeOne fn f i whole io) s = .next (s.put (s.dev.reject fn (f.off i) .denied)) := by
  rw [onUnit_runs _ _ s hfit hrun]
  simp [Dev.writeOne, hm, writeSome_not_granted _ fn _ whole f i [] hfn hg.1 hg.2, Dev.acts]

/-- No window grants the enable fields of the blocks. -/
theorem enableAt_not_granted : ∀ block < 14, (enableAt block).grant ≠ .fnWrite ∧ (enableAt block).grant ≠ .ownWrite := by
  decide

/-- No window grants the region sizes. -/
theorem regionFields_not_granted : ∀ k < 5, (regionFields.getD k F.ATT_PRF_REGION_GIB).grant ≠ .fnWrite ∧
    (regionFields.getD k F.ATT_PRF_REGION_GIB).grant ≠ .ownWrite := by
  decide

/-- Settles O17: the grant is checked before class, range and lock, so that the write comes to the rejection alone. -/
theorem tenantWritesNotGranted : Obligations.TenantWritesNotGranted := by
  refine ⟨?register, ?enable, ?stop, ?relayout, ?restart, ?go⟩
  case register =>
    intro s fn off whole io f i fs hrun hm hfn hlt hfs hw ho
    rw [exec_registerWrite s fn off whole true io hrun hm hlt]
    simp [Dev.writeReg, hfs, writeSome_not_granted _ fn off whole f i fs hfn hw ho, Dev.acts]
  case enable =>
    intro s fn block hrun hm hfn hlt hblock
    show execBlockEnable fn block s = _
    exact onUnit_writeOne_not_granted _ 0 1 true hrun hm (by simp [hlt, hblock]) hfn (enableAt_not_granted block hblock)
  case stop =>
    intro s fn block hrun hm hfn hlt hblock
    show execBlockStop fn block s = _
    exact onUnit_writeOne_not_granted _ 0 0 true hrun hm (by simp [hlt, hblock]) hfn (enableAt_not_granted block hblock)
  case relayout =>
    intro s fn field gib hrun hm hfn hlt hfield
    show execRegionRelayout fn field gib s = _
    exact onUnit_writeOne_not_granted _ 0 _ true hrun hm (by simp [hlt, hfield]) hfn (regionFields_not_granted field hfield)
  case restart =>
    intro s fn g hrun hm hfn hlt hg
    show execGroupRestart fn g s = _
    exact onUnit_writeOne_not_granted _ g 1 true hrun hm (by simp [hlt, hg]) hfn (by decide)
  case go =>
    intro s fn hrun hm hfn hlt
    show execGo fn s = _
    exact onUnit_writeOne_not_granted _ 0 1 true hrun hm (decide_eq_true hlt) hfn (by decide)

/-! Writes of a plain field (R12 to R18) -/

/-- A plain field enables no block, is no mere action, and lies in no register of the page region or the page-table pool. -/
theorem plain_apart {f : Fld} (hp : f.plain = true) : enableFields.contains f = false ∧ actionOnly f = false ∧
    f.addr ≠ F.PGS_REGION_BINS.addr ∧ f.addr ≠ F.PGS_PTPOOL_BLOCKS.addr := by
  simp [Fld.plain] at hp
  simp [hp]

/-- The write of a plain field starts no action. -/
theorem actOf_plain (d : Dev) (f : Fld) (fn i v whole : Nat) (hp : f.plain = true) : d.actOf f fn i v whole = none := by
  simp [Fld.plain, actionOnly] at hp
  simp [Dev.actOf, hp]

/-- A plain field of bit 0 changes nothing beside its value: PPS_EN, which does, lies in bit 1. -/
theorem wrote_plain (d : Dev) (f : Fld) (hp : f.plain = true) (hlo : f.lo = 0) : d.wrote f = d := by
  have hpps : f ≠ F.TIM_CTL_PPS_EN := fun h => absurd (h ▸ hlo) (by decide)
  simp [Fld.plain] at hp
  simp [Dev.wrote, hp, hpps]

/-- What a write of a plain field does, by its class (R12 to R18). -/
theorem writeField_plain {d : Dev} {fn off : Nat} {f : Fld} {i v whole : Nat} {ok : Bool} (hp : f.plain = true) (hlo : f.lo = 0) :
    d.writeField fn off f i v whole ok =
      if (f.cls = .c ∨ f.cls = .k) ∧ v = d.readField fn f i then (d, none)
      else if ok = false then (d.reject fn off .badParam, none)
      else if f.cls = .c then (d.reject fn off .denied, none)
      else if f.cls = .k ∧ d.fieldRuns f fn i = true then (d.reject fn off .busy, none)
      else if f.cls = .s ∧ d.fieldRuns f fn i = true then ({ d with pendS := d.pendS ++ [(f.key fn i, normal f v)] }, none)
      else
        let e := { d with pendS := d.pendS.filter fun e => e.1 != f.key fn i }
        let e := if f.cls = .s then e.seeNow (· == f.key fn i) else e
        (e.sf f fn i (normal f v), none) := by
  obtain ⟨henable, haction, -, hpool⟩ := plain_apart hp
  simp only [Dev.writeField, actOf_plain d f fn i v whole hp, wrote_plain _ f hp hlo, henable, haction, hpool]
  simp

/-- REGISTER_WRITE by partition 0 of a register of one plain field is the write of that field. -/
theorem exec_registerWrite_sole {s : State} {off v : Nat} (io : Bool) {f : Fld} {i : Nat} (hrun : s.runs = true)
    (hs : s.dev.sole off f i = true) (hp : f.plain = true) (hlo : f.lo = 0) (hv : v < 2 ^ f.w) :
    exec (.registerWrite 0 off v true io) s =
      .next (s.put (s.dev.writeField 0 off f i v v (s.dev.inRange 0 v [(f, i)] (f, i))).1) := by
  simp only [Dev.sole, Bool.and_eq_true, beq_iff_eq, decide_eq_true_eq] at hs
  obtain ⟨⟨hm, hfs⟩, hi⟩ := hs
  obtain ⟨-, -, hregion, -⟩ := plain_apart hp
  have hbits : bits v f.lo f.w = v := by simp [bits, hlo, Nat.mod_eq_of_lt hv]
  have hnone : (s.dev.writeField 0 off f i v v (s.dev.inRange 0 v [(f, i)] (f, i))).2 = none := by
    rw [writeField_plain hp hlo]
    split_ifs <;> rfl
  rw [exec_registerWrite s 0 off v true io hrun hm (by decide)]
  simp [Dev.writeReg, Dev.writeSome, Dev.writeFields, Dev.maySelect, Dev.acts, hfs, Nat.not_le.2 hi, hregion, hbits, hnone]

/-- Where no S value is pending, none is superseded. -/
theorem pendS_filter_of_nil (d : Dev) (p : Nat × Nat → Bool) (h : d.pendS = []) : { d with pendS := d.pendS.filter p } = d := by
  cases d
  simp_all

/-- Settles O16: each class of a plain field is one branch of the write. -/
theorem registerWriteByClass : Obligations.RegisterWriteByClass := by
  refine ⟨?live, ?shadowed, ?stopped, ?locked, ?command, ?range, ?narrow⟩
  case live =>
    intro s off v io f i hrun hs hp hlo hv hc hnil hok
    rw [exec_registerWrite_sole io hrun hs hp hlo hv, writeField_plain hp hlo]
    simp [hc, hok, pendS_filter_of_nil _ _ hnil]
  case shadowed =>
    intro s off v io f i hrun hs hp hlo hv hc hruns hok
    rw [exec_registerWrite_sole io hrun hs hp hlo hv, writeField_plain hp hlo]
    simp [hc, hok, hruns]
  case stopped =>
    intro s off v io f i hrun hs hp hlo hv hc hne hstop hnil hok d
    rw [exec_registerWrite_sole io hrun hs hp hlo hv, writeField_plain hp hlo]
    rcases hc with hc | hc
    · simp [d, hc, hok, hstop, pendS_filter_of_nil _ _ hnil]
    · simp [d, hc, hok, hstop, hne, pendS_filter_of_nil _ _ hnil]
  case locked =>
    intro s off v io f i hrun hs hp hlo hv hc hne hruns hok
    rw [exec_registerWrite_sole io hrun hs hp hlo hv, writeField_plain hp hlo]
    simp [hc, hok, hruns, hne]
  case command =>
    intro s off v io f i hrun hs hp hlo hv hc hne hok
    rw [exec_registerWrite_sole io hrun hs hp hlo hv, writeField_plain hp hlo]
    simp [hc, hok, hne]
  case range =>
    intro s off v io f i hrun hs hp hlo hv hne hbad
    rw [exec_registerWrite_sole io hrun hs hp hlo hv, writeField_plain hp hlo]
    simp [hbad, hne]
  case narrow =>
    intro s fn off whole io hrun hm hfn
    rw [exec_registerWrite s fn off whole false io hrun hm hfn]
    simp [Dev.writeReg, Dev.acts]

end Sys2Proof.Machine
end

section
/-! A write of the present value to a field of class C or K does nothing (R12). -/
namespace Sys2Proof.Machine
open Sys2Proof

/-- Partition 0's write of the value that a field of class C or K reads changes nothing. -/
theorem writeOne_present_value (d : Dev) (f : Fld) (i whole : Nat) (io : Bool) (hc : f.cls = .c ∨ f.cls = .k)
    (hi : i < d.instLimit f 0) (hr : f.addr ≠ F.PGS_REGION_BINS.addr) (hv : bits whole f.lo f.w = d.readField 0 f i) :
    d.writeOne 0 f i whole io = d := by
  have hw (ok : Bool) : d.writeField 0 (f.off i) f i (bits whole f.lo f.w) whole ok = (d, none) := by
    simp [Dev.writeField, hc, hv]
  simp [Dev.writeOne, Dev.writeSome, Dev.writeFields, Dev.maySelect, Dev.acts, Nat.not_le.2 hi, hr, hw]

/-- The enable fields are one-bit fields of class K at bit 0 of registers that stand once, none of a ring, a queue or the page region. -/
theorem enableAt_fields : ∀ block < 14, (enableAt block).cls = .k ∧ (enableAt block).lo = 0 ∧ (enableAt block).w = 1 ∧
    (enableAt block).count = 1 ∧ ¬(0x401000 ≤ (enableAt block).addr ∧ (enableAt block).addr < 0x402000) ∧
    ¬(0x410000 ≤ (enableAt block).addr ∧ (enableAt block).addr < 0x420000) ∧
    (enableAt block).addr ≠ F.PGS_REGION_BINS.addr := by
  decide

/-- BLOCK_ENABLE of a block whose enable field reads 1 changes nothing. -/
theorem exec_blockEnable_of_reads_one (s : State) (block : Nat) (hrun : s.runs = true) (hblock : block < 14)
    (hone : s.dev.readField 0 (enableAt block) 0 = 1) : exec (.blockEnable 0 block) s = .next (s.put s.dev) := by
  obtain ⟨hcls, hlo, hw, hcount, hring, hqueue, hregion⟩ := enableAt_fields block hblock
  show execBlockEnable 0 block s = _
  unfold execBlockEnable
  rw [onUnit_runs _ _ s (by simp [hblock]) hrun,
    writeOne_present_value s.dev _ 0 1 true (.inr hcls) (by simp [Dev.instLimit, hring, hqueue, hcount]) hregion
      (by rw [hone, hlo, hw]; rfl)]

/-- Refutes O18: the store of the registers may hold 3 under CMD_CTL.EN, a field of one bit. The field is then not 1, so that the
statement has the write of 1 set it, but it reads 1 in its width, and a write of the value that a field reads does nothing (R12).
`Dev.sf` cuts what it stores to the field's width; the statement lacks the hypothesis that EN holds 0 or 1. -/
theorem not_blocksEnableAndStop : ¬ Obligations.BlocksEnableAndStop := by
  rintro ⟨henable, -, -⟩
  have hset := henable { dev := { regs := [(F.RST_STATE_PHASE.key 0 0, 3), (F.CMD_CTL_EN.key 0 0, 3)] } } 13
    (by decide +kernel) (by decide +kernel) (by decide) (by decide +kernel) (by decide +kernel) (by decide +kernel)
    (by decide +kernel)
  rw [exec_blockEnable_of_reads_one _ 13 (by decide +kernel) (by decide) (by decide +kernel)] at hset
  injection hset with hstate
  exact absurd (congrArg (fun t => t.dev.g F.CMD_CTL_EN) hstate) (by decide +kernel)

end Sys2Proof.Machine
end

section
/-! Session commands: a ready entry's rules answer it, and an open, a close and a descriptor fetch are carried out (R33, R77, R89). -/
namespace Sys2Proof.Machine
open Sys2Proof

/-- A ready entry whose command runs on blocks that are enabled is answered as its rules decide at once. -/
theorem command_answers {d : Dev} {h : Hdr} {data may params : Bool} {ens : List Fld} {run : Dev → Res} {x : Dev} {st : Status}
    {result : Bytes} (op : Nat) (hr : d.ready h data = true) (hmay : may = true) (hparams : params = true)
    (hens : ens.all (fun en => (d.entered h).on en) = true)
    (hrun : run (d.entered h) = { dev := x, st := st, result := result }) :
    d.command h op may params data (fun e => e.needs ens run) = x.answered h op st result := by
  rw [command_ready d h op may params data _ hr hmay hparams, needs_on _ ens run (ready_phase d h data hr) hens, hrun]
  rfl

/-- SESSION_OPEN without a prefix, once its profile, tokenizer, level, nodes and limit are in order and a slot is free, makes an OPEN
HOT session in that slot and answers its id. -/
theorem openSession_fresh {d : Dev} {fn sub srv prof prio tkz port : Nat} (q g : Nat) {select : Bool} {p : Profile} {t : Tokenizer}
    {slot : Nat} (hprof : NMap.get? d.att.profiles prof = some p) (htkz : NMap.get? d.tok.tkz tkz = some t)
    (hend : p.endToken < t.vocab) (hselect : (select && p.selGroups == 0) = false) (hlevel : d.levelOk fn prio = true)
    (hnodes : d.nodesOk fn sub srv port = true) (hlimit : overLimit fn (d.useSessions fn) 1 (d.limits fn).sessions = false)
    (hslot : d.openSlot (d.openDie p.cls) = some slot) :
    let x : Desc := {
        sid := mkSid d.self (d.nextGen slot) slot, state := .open, partition := fn, prio := prio,
        profile := prof, group := g, select := select, buddy := d.myBuddy, ownerEpoch := 1, ownerCtrl := d.self,
        subscriber := sub, service := srv, port := port, tokenizer := tkz, opened := d.wall }
    d.openSession fn 0 q sub srv prof prio tkz port g select =
      { dev := ((((d.setSess slot { d := x }).setState slot .open .hot).cacheIn slot false).writeBack slot).refresh slot,
        result := leBytes 8 x.sid } := by
  simp [Dev.openSession, hprof, htkz, Nat.not_le.2 hend, hselect, hlevel, hnodes, hlimit, hslot]

/-- A ready entry that reaches its session is answered as the rules on that session decide at once. -/
theorem command_serves {d : Dev} {h : Hdr} {sid slot : Nat} {data may params : Bool} {ens : List Fld} {run : Nat → Dev → Res} {x : Dev}
    {st : Status} {result : Bytes} (op : Nat) (hr : d.ready h data = true) (hmay : may = true) (hparams : params = true)
    (hens : ens.all (fun en => (d.entered h).on en) = true) (hs : (d.entered h).serves h sid slot = true)
    (hrun : run slot (d.asked h slot) = { dev := x, st := st, result := result }) :
    d.command h op may params data (fun e => e.needs ens fun e => e.onSession h sid run) = x.answered h op st result :=
  command_answers op hr hmay hparams hens ((serves_run _ h sid slot run hs).trans hrun)

/-- Settles O22: an open meets none of its refusals, a close goes by the state of the session that its line holds, and a fetch of a
descriptor that no line holds goes by its outcome and by whether one failed before. -/
theorem sessionCommandsComplete : Obligations.SessionCommandsComplete := by
  refine ⟨?opens, ?closes, ?migrating, ?closed, ?fetch⟩
  case opens =>
    intro s h src len sub srv prof prio tkz port g compat cls select p t slot hrun hready hsrc hg hlevel e hprof htkz hend hselect
      hmayLevel hnodes hlimit hslot x
    subst hsrc
    show execSessionOpen h 0 len sub srv prof prio tkz port g compat cls select s = _
    exact onDev_eq hrun (command_answers 0x0101 hready rfl (by simp [hg, hlevel]) rfl
      (openSession_fresh len g hprof htkz hend hselect hmayLevel hnodes hlimit hslot))
  case closes =>
    intro s h sid slot hrun hready hmay e hserves hstate
    show execSessionClose h sid s = _
    refine onDev_eq hrun (command_serves 0x0102 hready hmay rfl rfl hserves ?_)
    split
    case h_1 hclosed => simp [e, hclosed] at hstate
    case h_2 hmigrating => simp [e, hmigrating] at hstate
    case h_3 => rfl
  case migrating =>
    intro s h sid slot hrun hready hmay e hserves hstate
    show execSessionClose h sid s = _
    exact onDev_eq hrun (command_serves 0x0102 hready hmay rfl rfl hserves (by rw [hstate]; rfl))
  case closed =>
    intro s h sid slot hrun hready hmay e hserves hstate
    show execSessionClose h sid s = _
    exact onDev_eq hrun (command_serves 0x0102 hready hmay rfl rfl hserves (by rw [hstate]; rfl))
  case fetch =>
    intro s slot ok hrun hslot hhas hlost hline tried rest d again
    show execDescriptorFetch slot ok s = _
    unfold execDescriptorFetch
    rw [onUnit_runs _ _ s (decide_eq_true hslot) hrun, if_neg (by simp [hhas, hlost, hline])]
    cases ok
    case true => rfl
    case false =>
      cases htried : s.dev.ses.fetches.any fun f => f.slot == slot <;> simp [tried, htried, d, rest, again]

end Sys2Proof.Machine
end

section
/-! The step on an empty queue: the tick of a running controller, nothing for one that is held (R63, R69; log entry 4). -/
namespace Sys2Proof.Machine
open Sys2Proof

/-- With no command waiting, a step is the controller's tick. -/
theorem step_of_empty_queue {s : State} (h : s.pending = []) : step s = onDev (fun _ d => d.tick) s := by
  simp only [step, h]

/-- A safe state has no HBM write left over. -/
theorem State.wr_of_safe {s : State} (h : s.safe = true) : s.dev.wr = [] := by
  simp only [State.safe, Bool.and_eq_true, List.isEmpty_iff] at h
  exact h.2

/-- A block without HBM writes takes the place of the present one, and the HBM stays. -/
theorem put_of_no_writes (s : State) {d : Dev} (h : d.wr = []) : s.put d = { s with dev := d } := by
  cases d
  simp_all [State.put, Memory.apply]

/-- Settles O2: the step is the tick, which makes no HBM write; a held controller puts the block that it found. -/
theorem emptyQueueTicks : Obligations.EmptyQueueTicks := by
  intro s hempty hsafe
  have hwr : s.dev.wr = [] := State.wr_of_safe hsafe
  rw [step_of_empty_queue hempty]
  refine ⟨fun hrun => ?runs, fun hheld => ?held⟩
  case runs => rw [onDev_runs _ s hrun, put_of_no_writes s (d := s.dev.tick) hwr, Dev.tick]
  case held => rw [onDev_held _ s (by simpa [State.runs] using hheld), put_self s hwr]

end Sys2Proof.Machine
end

section
/-! Register writes that act on the controller or a group: region sizes, RESTART and GO (R61, R572, R624). -/
namespace Sys2Proof.Machine
open Sys2Proof

/-- A meaning of a fitted unit's event on a controller that runs puts the block that it computes. -/
theorem onUnit_eq {fitted : Bool} {f : Memory → Dev → Dev} {s : State} {d : Dev} (hfit : fitted = true) (hrun : s.runs = true)
    (hd : f s.hbm s.dev = d) : onUnit fitted f s = .next (s.put d) := hd ▸ onUnit_runs _ f s hfit hrun

/-- A value shifted to a field's low bit is the value of the field (R6). -/
theorem bits_mul_two_pow {v lo w : Nat} (h : v < 2 ^ w) : bits (v * 2 ^ lo) lo w = v := by
  rw [bits, Nat.mul_div_cancel _ (Nat.two_pow_pos lo), Nat.mod_eq_of_lt h]

/-- The region sizes are K fields that enable no block, in registers apart from those that a write treats by their address. -/
theorem regionFields_fields : ∀ k < 5, regionFields.contains (regionFields.getD k F.ATT_PRF_REGION_GIB) = true ∧
    enableFields.contains (regionFields.getD k F.ATT_PRF_REGION_GIB) = false ∧
    (regionFields.getD k F.ATT_PRF_REGION_GIB).cls = .k ∧
    (regionFields.getD k F.ATT_PRF_REGION_GIB).off 0 ≠ F.SHP_NODE_SEL_KIND.addr ∧
    (regionFields.getD k F.ATT_PRF_REGION_GIB).addr ≠ F.PGS_REGION_BINS.addr ∧
    (regionFields.getD k F.ATT_PRF_REGION_GIB).addr ≠ F.PGS_PTPOOL_BLOCKS.addr := by
  decide

/-- A new size that leaves page bins on both dies, with nothing resident, lays both dies out (R624). -/
theorem relayout_of_free {d : Dev} (fn off : Nat) {f : Fld} {v : Nat} (hfree : d.resident = false)
    (hwest : (d.s f v).layOut.pageBins 0 ≠ 0) (heast : (d.s f v).layOut.pageBins 1 ≠ 0) :
    d.relayout fn off f v = (d.s f v).layOut := by
  simp [Dev.relayout, hfree, hwest, heast]

/-- Writing 1 to RESTART acts as RESTART. -/
theorem writeOne_restart {d : Dev} {g : Nat} (hm : d.mapped = true) (hg : g < 64) :
    d.writeOne 0 F.TIM_GRP_CTL_RESTART g 1 true = d.act 0 (F.TIM_GRP_CTL_RESTART.off g) true (.restart g) := by
  have hoff : F.TIM_GRP_CTL_RESTART.off g ≠ F.SHP_NODE_SEL_KIND.addr := by
    simp only [Fld.off, F.TIM_GRP_CTL_RESTART, F.SHP_NODE_SEL_KIND]
    omega
  exact writeOne_act d 0 _ g 1 true (.restart g) hm hg (.inl rfl) hoff (by decide) (by decide)
    (inRange_sole d 0 1 _ g fun _ => rfl) (.inl rfl) rfl

/-- Writing 1 to GO acts as GO. -/
theorem writeOne_go {d : Dev} (hm : d.mapped = true) : d.writeOne 0 F.RST_CTL_GO 0 1 true = d.act 0 (F.RST_CTL_GO.off 0) true .go :=
  writeOne_act d 0 _ 0 1 true .go hm (by decide : 0 < 1) (.inl rfl) (by decide) (by decide) (by decide)
    (inRange_sole d 0 1 _ 0 fun _ => rfl) (.inl rfl) rfl

/-- The registers take writes in TEST and in RECOVERY. -/
theorem mapped_of_test_or_recovery {d : Dev} (h : d.bootPhase = 1 ∨ d.bootPhase = 2) : d.mapped = true := by
  rcases h with h | h <;> simp [Dev.mapped, h]

/-- Settles O19: each write starts its field's action, which the hypotheses let through. -/
theorem controlRegisterCommands : Obligations.ControlRegisterCommands := by
  refine ⟨?relayout, ?restart, ?go⟩
  case relayout =>
    intro s field gib hrun hm hfield f hgib hinst hrange hnew hstopped hfree e hwest heast
    obtain ⟨hregion, hno, hk, hsel, hbins, hpool⟩ := regionFields_fields field hfield
    have hbits : bits (gib * 2 ^ f.lo) f.lo f.w = gib := bits_mul_two_pow hgib
    have hact : s.dev.actOf f 0 0 (bits (gib * 2 ^ f.lo) f.lo f.w) (gib * 2 ^ f.lo) = some (.relayout f gib) := by
      simp only [hbits, Dev.actOf, f, hno, hregion, if_true, if_false, Bool.false_eq_true]
    show execRegionRelayout 0 field gib s = _
    refine onUnit_eq (by simpa using hfield) hrun ?_
    exact (writeOne_act s.dev 0 f 0 _ true _ hm (hinst ▸ Nat.one_pos) (.inl rfl) hsel hbins hpool hrange
      (.inr ⟨hk, hbits.symm ▸ hnew, .inr hstopped⟩) hact).trans (relayout_of_free 0 _ hfree hwest heast)
  case restart =>
    intro s g hrun hm hg hstalled
    show execGroupRestart 0 g s = _
    exact onUnit_eq (by simpa using hg) hrun ((writeOne_restart hm hg).trans (if_pos hstalled))
  case go =>
    intro s hrun hphase
    show execGo 0 s = _
    exact onUnit_eq rfl hrun ((writeOne_go (mapped_of_test_or_recovery hphase)).trans (if_pos hphase))

end Sys2Proof.Machine
end

section
/-! Doorbells of the members, token lists, and the limits of a row (R44 to R50, R57, R58, R291). -/
namespace Sys2Proof.Machine
open Sys2Proof

/-- A stake of the row in progress, not below the member's announced position, moves that position, and stakes may close (R47, R48). -/
theorem bell_stake {d : Dev} {g member word : Nat} (hphase : d.phase g = 1) (hrow : bits word 0 48 = d.row g)
    (hkind : bits word 56 2 = 0) (hstake : bits word 48 8 < d.stakes g)
    (hann : (NMap.get? (d.group g).announced member).any (fun a => decide (bits word 48 8 < a)) = false) :
    d.bell g member word =
      (d.updGroup g fun x => { x with announced := NMap.put x.announced member (bits word 48 8) }).closeStakes g 256 := by
  simp [Dev.bell, hphase, hrow, hkind, Nat.not_le.2 hstake, hann]

/-- A ROW_END of the row in progress is noted once (R46, R50). -/
theorem bell_rowEnd {d : Dev} {g member word : Nat} (hphase : d.phase g = 1) (hrow : bits word 0 48 = d.row g)
    (hkind : bits word 56 2 = 1) :
    d.bell g member word = d.updGroup g fun x =>
      { x with rowEnds := if x.rowEnds.contains member then x.rowEnds else x.rowEnds ++ [member] } := by
  simp [Dev.bell, hphase, hrow, hkind]

/-- A doorbell of the next row is held (R47; log entry 14). -/
theorem bell_nextRow {d : Dev} {g member word : Nat} (hidle : d.phase g ≠ 0) (hstalled : d.phase g ≠ 4)
    (hrow : bits word 0 48 = d.row g + 1) (hkind : bits word 56 2 < 2) :
    d.bell g member word = d.updGroup g fun x => { x with heldBells := NMap.put x.heldBells member word } := by
  simp [Dev.bell, hidle, hstalled, hrow, Nat.not_le.2 hkind]

/-- The doorbell of a member of a group is judged by its record. -/
theorem exec_stakeDoorbell {s : State} {g member word : Nat} {d : Dev} (hrun : s.runs = true) (hg : g < 64)
    (hmember : member < s.dev.gi F.TIM_GRP_SHAPE_MEMBERS g) (hd : s.dev.bell g member word = d) :
    exec (.stakeDoorbell g member word) s = .next (s.put d) := by
  show execStakeDoorbell g member word s = _
  exact onUnit_eq (decide_eq_true hg) hrun ((if_neg (Nat.not_le.2 hmember)).trans hd)

/-- Settles O33: doorbells go by their row and kind, token lists by their row, and a limit acts where its deadline is set and the
group is in its row. -/
theorem doorbellsAndTimeoutsComplete : Obligations.DoorbellsAndTimeoutsComplete := by
  refine ⟨?stake, ?rowEnd, ?held, ?stakeTimeout, ?rowTimeout, ?boundary, ?list, ?heldList⟩
  case stake =>
    intro s g member word hrun hg hmember hphase hrow hkind stake hstake hann
    exact exec_stakeDoorbell hrun hg hmember (bell_stake hphase hrow hkind hstake hann)
  case rowEnd =>
    intro s g member word hrun hg hmember hphase hrow hkind
    exact exec_stakeDoorbell hrun hg hmember (bell_rowEnd hphase hrow hkind)
  case held =>
    intro s g member word hrun hg hmember hidle hstalled hrow hkind
    exact exec_stakeDoorbell hrun hg hmember (bell_nextRow hidle hstalled hrow hkind)
  case stakeTimeout =>
    intro s g t hrun hg hdeadline hphase d n ev parts
    show execStakeTimeout g s = _
    refine onUnit_eq (decide_eq_true hg) hrun ?_
    simp only [hdeadline]
    exact if_neg (not_not.2 hphase)
  case rowTimeout =>
    intro s g t hrun hg hdeadline hphase
    show execRowTimeout g s = _
    exact onUnit_eq (decide_eq_true hg) hrun (by simp only [hdeadline, if_pos hphase])
  case boundary =>
    intro s g hrun hg hover
    show execRowBoundary g s = _
    exact onUnit_eq (decide_eq_true hg) hrun (if_pos hover)
  case list =>
    intro s g member row entries hrun hg hmember hlen hphase hrow list
    show execTokenList g member row entries s = _
    refine onUnit_eq (decide_eq_true hg) hrun ?_
    simp [Nat.not_le.2 hmember, Nat.not_lt.2 hlen, hphase, hrow, list]
  case heldList =>
    intro s g member row entries hrun hg hmember hlen hidle hstalled hrow list
    show execTokenList g member row entries s = _
    refine onUnit_eq (decide_eq_true hg) hrun ?_
    simp [Nat.not_le.2 hmember, Nat.not_lt.2 hlen, hidle, hstalled, hrow, list]

end Sys2Proof.Machine
end

section
/-! Between two rows: reports, beacons, queries, readiness and takeover (R51 to R61, R625). -/
namespace Sys2Proof.Machine
open Sys2Proof

/-- A TIME message that names a group held here acts on that group (R53). -/
theorem asGroup_held {d : Dev} {gid g : Nat} (src mapEpoch : Nat) (f : Nat → Dev → Dev) (h : d.groupOf gid = some g) :
    d.asGroup src gid mapEpoch f = f g d := by
  simp only [Dev.asGroup, h]

/-- The timekeeper's RESYNC beacon with RECONF for a later row is held for an IDLE group (R625). -/
theorem idleBeacon_first {d : Dev} {g src : Nat} {b : Beacon} (hepoch : b.tkEpoch = d.tkEpoch g) (hsrc : src = d.tk g)
    (hreconf : b.reconf = true) (hresync : b.resync = true) (hrow : d.row g < b.row) :
    d.idleBeacon g src b = (d.updGroup g fun x => { x with heldBeacon := some (src, b) }).resolve src svcTime .ok := by
  simp [Dev.idleBeacon, hepoch, hsrc, hreconf, hresync, hrow]

/-- Settles O34: each message finds its group, and each message and limit then meets the conditions of its effect. -/
theorem boundaryRoundsComplete : Obligations.BoundaryRoundsComplete := by
  refine ⟨?send, ?report, ?lost, ?beacon, ?idle, ?begins, ?query, ?ready, ?limit, ?takeover⟩
  case send =>
    intro s g r hrun hg hpending hphase hdone hacks d
    show execBoundaryReportSend g s = _
    refine onUnit_eq (decide_eq_true hg) hrun ?_
    simp only [hpending]
    exact if_neg (by simp [hphase, hdone, hacks])
  case report =>
    intro s src gid row epoch mapEpoch status void cutOk cutFail owns restart g hrun hgroup hctrl d x htk hrow r
    show execBoundaryReport src gid row epoch mapEpoch status void cutOk cutFail owns restart s = _
    refine onDev_eq hrun ((asGroup_held src mapEpoch _ hgroup).trans ?_)
    have hcounts : (d.isTk g && (row == x.roundRow || restart || (x.tookOver && decide (x.roundRow < row)))) = true := by
      simpa [htk, or_assoc] using hrow
    exact (if_neg (by simpa using hctrl)).trans (if_pos hcounts)
  case lost =>
    intro s g t hrun hg hdeadline hissues hphase hheld
    show execMemberLost g s = _
    refine onUnit_eq (decide_eq_true hg) hrun ?_
    simp [hdeadline, hissues, hphase, hheld]
  case beacon =>
    intro s src gid row epoch mapEpoch void resync cut reconf memberLost voidMap g hrun hgroup hidle hstalled hepoch hsrc b
    show execBeacon src gid row epoch mapEpoch void resync cut reconf memberLost voidMap s = _
    refine onDev_eq hrun ((asGroup_held src mapEpoch _ hgroup).trans ?_)
    simp [hidle, hstalled, hepoch, hsrc, b]
  case idle =>
    intro s src gid row epoch mapEpoch void resync cut reconf memberLost voidMap g hrun hgroup hidle hepoch hsrc hreconf hresync
      hrow b
    show execBeacon src gid row epoch mapEpoch void resync cut reconf memberLost voidMap s = _
    refine onDev_eq hrun ((asGroup_held src mapEpoch _ hgroup).trans ?_)
    have hmoves : s.dev.phase g ≠ 4 := by omega
    exact (if_neg hmoves).trans ((if_pos hidle).trans (idleBeacon_first hepoch hsrc hreconf hresync hrow))
  case begins =>
    intro s g src b hrun hg hheld hphase hon
    show execRowBegin g s = _
    refine onUnit_eq (decide_eq_true hg) hrun ?_
    simp only [hheld]
    exact if_pos (by simpa [hon] using hphase)
  case query =>
    intro s src gid row epoch mapEpoch g b hrun hgroup d hissues hlast hstalled
    show execBeaconQuery src gid row epoch mapEpoch s = _
    refine onDev_eq hrun ((asGroup_held src mapEpoch _ hgroup).trans ((if_pos hissues).trans ?_))
    simp only [d, hlast] at hstalled ⊢
    exact if_neg hstalled
  case ready =>
    intro s src gid row epoch mapEpoch g hrun hgroup d
    show execMapReady src gid row epoch mapEpoch s = _
    exact onDev_eq hrun (asGroup_held src mapEpoch _ hgroup)
  case limit =>
    intro s g t hrun hg hdeadline hphase d again till own d' ask
    show execBeaconLimit g s = _
    refine onUnit_eq (decide_eq_true hg) hrun ?_
    simp only [hdeadline]
    exact if_neg (not_not.2 hphase)
  case takeover =>
    intro s g t hrun hg hdeadline hphase hheld d hdeputy hself hseen d' n lost keep
    show execTakeover g s = _
    refine onUnit_eq (decide_eq_true hg) hrun ?_
    simp only [hdeadline]
    refine (if_neg (by simp [hphase, hheld])).trans ((if_neg ?named).trans (if_neg ?queried))
    case named => exact fun hnone => hself (hdeputy.symm.trans hnone)
    case queried => exact not_or.2 ⟨not_not.2 hdeputy, hseen⟩

end Sys2Proof.Machine
end

section
/-! The synchronisation of the wall clock by PTP and the pulse per second, and holdover (R62 to R64). -/
namespace Sys2Proof.Machine
open Sys2Proof

/-- Settles O54: each message, pulse and limit meets the conditions of its effect. An offset that is not near clears the count
whatever the gap, and the first pulse is valid as the model's match on the last one says. -/
theorem clockSynchronisationComplete : Obligations.ClockSynchronisationComplete := by
  refine ⟨?ptp, ?pulse, ?timeout, ?holdover, ?limit⟩
  case ptp =>
    intro s port domain interval offset hrun hon hport hdomain off gap good fix d d' st
    show execPtpMessage port domain interval offset s = _
    refine onDev_eq hrun ((if_neg (by simp [hon, hport, hdomain])).trans ?_)
    by_cases hnear : -1000 ≤ off ∧ off ≤ 1000 <;> simp [d', d, st, fix, good, gap, off, hnear]
  case pulse =>
    intro s wide hrun hwide near ok d used
    subst hwide
    show execPpsPulse true s = _
    refine onDev_eq hrun ?_
    cases hlast : s.dev.sync.ppsAt with
    | none => simp [used, d, ok, hlast]
    | some t => simp [used, d, ok, near, hlast]
  case timeout =>
    intro s t hrun hlast hon
    show execPpsTimeout s = _
    exact onDev_eq hrun (by simp only [hlast, if_pos hon])
  case holdover =>
    intro s hrun hlocked d d'
    show execHoldover s = _
    exact onDev_eq hrun (if_neg (not_not.2 hlocked))
  case limit =>
    intro s hrun hheld
    show execHoldoverLimit s = _
    exact onDev_eq hrun (if_pos hheld)

end Sys2Proof.Machine
end

section
/-! Leases at the owner and at the home, the state that the home keeps, and messages of an older generation (R65, R68, R73, R427 to
R437). -/
namespace Sys2Proof.Machine
open Sys2Proof

/-- A message that names an old id of this home is answered STALE_GEN and does nothing else (R31, R73). -/
theorem onHall_old {d : Dev} (src service : Nat) {sid : Nat} (run : Dev → Dev) (h : d.oldId sid = true) :
    d.onHall src service sid run = d.resolve src service .staleGen := if_pos h

/-- A message that names no old id is acted on in the block that has heard it. -/
theorem onHall_current {d : Dev} (src service : Nat) {sid : Nat} (run : Dev → Dev) (h : d.oldId sid = false) :
    d.onHall src service sid run = run (d.heard src service sid) := if_neg (by simp [h])

/-- A meaning that is such a message puts the block with the STALE_GEN answer. -/
theorem onDev_onHall_old {s : State} (hrun : s.runs = true) {src service sid : Nat} (run : Memory → Dev → Dev)
    (h : s.dev.oldId sid = true) :
    onDev (fun m d => d.onHall src service sid (run m)) s = .next (s.put (s.dev.resolve src service .staleGen)) :=
  onDev_eq hrun (onHall_old src service (run s.hbm) h)

/-- A meaning that is a message naming no old id puts the block that the message leads to. -/
theorem onDev_onHall_current {s : State} (hrun : s.runs = true) {src service sid : Nat} {run : Memory → Dev → Dev} {d : Dev}
    (h : s.dev.oldId sid = false) (hd : run s.hbm (s.dev.heard src service sid) = d) :
    onDev (fun m d => d.onHall src service sid (run m)) s = .next (s.put d) :=
  onDev_eq hrun ((onHall_current src service (run s.hbm) h).trans hd)

/-- A STATE_SYNC that the home takes from the session's owner, at the owner's epoch, meets none of its refusals (R428). -/
theorem ownerSync_at_home {d : Dev} {src sid epoch slot : Nat} {a b c e : Dev} (hhome : d.isHome sid = true)
    (hepoch : (d.sess slot).d.ownerEpoch = epoch) (howner : (d.sess slot).d.ownerCtrl = src) :
    (if d.homeOf sid = src ∧ !d.isHome sid ∧ (d.sess slot).d.ownerEpoch = epoch ∧ d.serving slot then a
     else if !d.isHome sid ∨ (d.sess slot).d.ownerEpoch ≠ epoch then b
     else if (d.sess slot).d.ownerCtrl ≠ src then c else e) = e := by
  simp [hhome, hepoch, howner]

/-- Settles O56: each message and timer finds its session and its lease, and then meets the conditions of its effect. -/
theorem leasesComplete : Obligations.LeasesComplete := by
  refine ⟨?renewTimer, ?renew, ?answered, ?refused, ?fence, ?reclaim, ?former, ?target, ?again, ?closes, ?state, ?history, ?ack, ?old⟩
  case renewTimer =>
    intro s sid slot l hrun hslot hlease haway d l' d' d''
    show execRenewTimer sid s = _
    refine onDev_eq hrun ?_
    simp only [hslot, hlease]
    exact if_neg (by simp [haway])
  case renew =>
    intro s src sid epoch renewMs expiryMs slot hrun d hperiods hslot hhome hepoch howner l
    show execRenew src sid epoch renewMs expiryMs s = _
    refine onDev_eq hrun ((if_neg (by simpa using hperiods)).trans ?_)
    simp only [d] at hslot hhome hepoch howner
    simp only [hslot]
    exact if_pos ⟨hhome, hepoch, howner⟩
  case answered =>
    intro s src sid epoch status renewMs expiryMs slot l hrun hold hperiods d hslot hlease haway hhome hepoch hstatus now l'
    subst hstatus
    show execRenewAck src sid epoch 0 renewMs expiryMs s = _
    refine onDev_eq hrun ((if_neg (by simp [hperiods])).trans ((onHall_current src svcOwner _ hold).trans ?_))
    simp only [d] at hslot hlease haway hhome hepoch
    simp only [hslot, hlease]
    exact (if_neg (by simp [haway, hhome, hepoch])).trans ((if_neg (by decide)).trans (if_pos trivial))
  case refused =>
    intro s src sid epoch status renewMs expiryMs slot l hrun hold hperiods d hslot hlease haway hhome hepoch hstatus
    show execRenewAck src sid epoch status renewMs expiryMs s = _
    refine onDev_eq hrun ((if_neg (by simp [hperiods])).trans ((onHall_current src svcOwner _ hold).trans ?_))
    simp only [d] at hslot hlease haway hhome hepoch
    simp only [hslot, hlease]
    exact (if_neg (by simp [haway, hhome, hepoch])).trans (if_pos hstatus)
  case fence =>
    intro s sid slot l hrun hslot hlease hunfenced haway d d' d'' x
    show execFence sid s = _
    refine onDev_eq hrun ?_
    simp only [hslot, hlease]
    exact if_neg (by simp [hunfenced, haway])
  case reclaim =>
    intro s sid slot t hrun hslot hhome hopen hend
    show execLeaseReclaim sid s = _
    refine onDev_eq hrun ?_
    simp [hslot, hhome, hopen, hend]
  case former =>
    intro s src sid epoch slot hrun hold d hhome hnone hslot howns hepoch
    show execReclaimed src sid epoch s = _
    refine onDev_onHall_current hrun hold ((if_neg (not_not.2 hhome)).trans ((if_neg (by simp [d, hnone])).trans ?_))
    simp only [d] at hslot howns hepoch
    simp only [hslot]
    exact if_pos ⟨by simp [Dev.serving, howns], hepoch⟩
  case target =>
    intro s src sid epoch hrun hold d hhome hin
    show execReclaimed src sid epoch s = _
    exact onDev_onHall_current hrun hold ((if_neg (not_not.2 hhome)).trans (if_pos hin))
  case again =>
    intro s src sid epoch state tier histLen tokens slot hrun d hslot hhome x howner hepoch hclosed
    show execStateSync src sid epoch state tier histLen tokens s = _
    refine onDev_eq hrun ?_
    simp only [d] at hslot hhome
    simp only [hslot]
    exact (ownerSync_at_home hhome hepoch howner).trans (if_pos hclosed)
  case closes =>
    intro s src sid epoch state tier histLen tokens slot hrun d hslot hhome x howner hepoch hopen hcloses d'
    show execStateSync src sid epoch state tier histLen tokens s = _
    refine onDev_eq hrun ?_
    simp only [d] at hslot hhome
    simp only [hslot]
    exact (ownerSync_at_home hhome hepoch howner).trans ((if_neg hopen).trans (if_pos hcloses))
  case state =>
    intro s src sid epoch state tier histLen tokens slot hrun d hslot hhome x howner hepoch hopen hstays hnone st d' d''
    subst hnone
    show execStateSync src sid epoch state tier histLen [] s = _
    refine onDev_eq hrun ?_
    simp only [d] at hslot hhome
    simp only [hslot]
    refine (ownerSync_at_home hhome hepoch howner).trans ((if_neg hopen).trans ((if_neg hstays).trans ((if_pos rfl).trans ?_)))
    simp [d'', d', st, x, d]
  case history =>
    intro s src sid epoch state tier histLen tokens slot hd d1 d2 hrun d hslot hhome x howner hepoch hopen hstays hsome st d' lo hmade
      hgrown kept e e'
    show execStateSync src sid epoch state tier histLen tokens s = _
    refine onDev_eq hrun ?_
    simp only [d] at hslot hhome
    simp only [hslot]
    refine (ownerSync_at_home hhome hepoch howner).trans ((if_neg hopen).trans ((if_neg hstays).trans ?_))
    have hempty : tokens.isEmpty = false := by simpa using hsome
    simp only [d', st, x, d] at hmade
    simp only [hempty, Bool.false_eq_true, and_false, if_false, hmade, hgrown]
    rfl
  case ack =>
    intro s src sid epoch status histLen slot hrun hold d hslot hstatus haway hhome hepoch
    show execSyncAck src sid epoch status histLen s = _
    refine onDev_onHall_current hrun hold ?_
    simp only [d] at hslot haway hhome hepoch
    simp only [hslot]
    exact if_neg (by simp [hstatus, haway, hhome, hepoch])
  case old =>
    intro s src sid epoch status target addr region gen want image renewMs expiryMs histLen obj offset data hrun hold stale
    have hall (service : Nat) (run : Memory → Dev → Dev) :
        onDev (fun m d => d.onHall src service sid (run m)) s = stale service := onDev_onHall_old hrun run hold
    refine ⟨
      show execOfferAck src sid status s = _ from hall svcOwner _,
      show execPropose src sid epoch data want image s = _ from hall svcOwner _,
      show execAccept src sid epoch addr region gen s = _ from hall svcOwner _,
      show execRefuse src sid s = _ from hall svcOwner _,
      show execCommitted src sid epoch status s = _ from hall svcOwner _,
      show execNotice src sid epoch target s = _ from hall svcOwner _,
      show execAbort src sid s = _ from hall svcOwner _,
      show execReclaimed src sid epoch s = _ from hall svcOwner _,
      show execSyncAck src sid epoch status histLen s = _ from hall svcOwner _,
      show execRedirect src sid epoch target s = _ from hall svcOwner _,
      show execMirrorAck src sid obj status histLen s = _ from hall 5 _,
      show execMirrorReadData src sid obj offset status data s = _ from hall 5 _,
      show execDescReply src sid status data s = _ from hall 5 _,
      show execDirPut src sid epoch target addr region gen s = _ from hall svcDir _,
      show execDirDel src sid s = _ from hall svcDir _,
      show execDirAck src sid status s = _ from hall svcDir _,
      show execDirGet src sid s = _ from hall svcDir _,
      show execDirReply src sid status epoch target addr s = _ from hall svcDir _,
      fun hperiods => ?_⟩
    show execRenewAck src sid epoch status renewMs expiryMs s = _
    exact onDev_eq hrun ((if_neg (by simp [hperiods])).trans (onHall_old src svcOwner _ hold))

end Sys2Proof.Machine
end

section
/-! What is written to the HBM reads back (R7, R35; log entry 3). -/
namespace Sys2Proof.Machine
open Sys2Proof

/-- Each byte of a string that is written reads back where it lies in the HBM, and every other byte is as before. -/
theorem Memory.read_writeAll (m : Memory) (a i : Nat) (bs : Bytes) (hm : Memory.wf m = true) :
    Memory.read (Memory.writeAll m a bs) i =
      if h : a ≤ i ∧ i - a < bs.length ∧ inHbm i = true then bs[i - a]'h.2.1 else Memory.read m i := by
  induction bs generalizing m a with
  | nil => simp [Memory.writeAll]
  | cons b bs ih =>
    have hrest := ih (Memory.writeIn m a b) (a + 1) (Memory.wf_writeIn m a b hm)
    rw [Memory.writeAll, hrest, Memory.read_writeIn m a i b hm]
    rcases Nat.lt_trichotomy i a with hbelow | rfl | habove
    case inl => simp [Nat.not_le.2 hbelow, show ¬ a + 1 ≤ i by omega, Nat.ne_of_lt hbelow]
    case inr.inl => by_cases hin : inHbm i = true <;> simp [hin]
    case inr.inr =>
      obtain ⟨k, rfl⟩ : ∃ k, i = a + 1 + k := ⟨i - (a + 1), by omega⟩
      have hindex : a + 1 + k - a = k + 1 := by omega
      simp [hindex, show ¬ a + 1 + k = a by omega, show a ≤ a + 1 + k by omega]

/-- Settles O11: the bytes are written one by one, each of which keeps the canonical form and reads back. -/
theorem hbmReadsBack : Obligations.HbmReadsBack := fun m a i bs hm =>
  ⟨Memory.wf_writeAll m a bs hm, Memory.read_writeAll m a i bs hm⟩

end Sys2Proof.Machine
end

section
/-! Lost descriptors: the fetch of a descriptor, and the buddy's answer to GET_DESC (R77, R81, R587). -/
namespace Sys2Proof.Machine
open Sys2Proof

/-- A slot that is not held, whose descriptor is lost or stands in its die's cache needs no fetch (R77, R81). -/
theorem exec_descriptorFetch_needless {s : State} {slot : Nat} (ok : Bool) (hrun : s.runs = true) (hslot : slot < 4194304)
    (hneedless : NMap.has s.dev.ses.tab slot = false ∨ (s.dev.sess slot).lost = true ∨
      ((s.dev.lines (slotDie slot)).any fun l => l.slot == slot) = true) :
    exec (.descriptorFetch slot ok) s = .next (s.put s.dev) := by
  show execDescriptorFetch slot ok s = _
  unfold execDescriptorFetch
  rw [onUnit_runs _ _ s (decide_eq_true hslot) hrun, if_pos]
  rcases hneedless with hfree | hlost | hline
  · simp [hfree]
  · simp [hlost]
  · simp [hline]

/-- The buddy's answer for a slot of this home that was asked for is not ignored (R587). -/
theorem descReply_heeded {d : Dev} {src sid : Nat} {a b : Dev} (hasked : d.flt.asked.contains (sidSlot sid) = true)
    (hhome : sidHome sid = d.self) (hsrc : src = d.myBuddy) :
    (if !d.flt.asked.contains (sidSlot sid) || sidHome sid != d.self || src != d.myBuddy then a else b) = b := by
  rw [hasked, hhome, hsrc]
  simp

/-- Settles O38: a fetch goes by its outcome and by whether one failed before, and a DESC_REPLY that answers a question asked of the
buddy ends it, and reinstates the session that it describes. -/
theorem lostDescriptorsComplete : Obligations.LostDescriptorsComplete := by
  obtain ⟨-, -, -, -, hfetch⟩ := sessionCommandsComplete
  refine ⟨?fetched, ?first, ?second, ?needless, ?ended, ?reinstated⟩
  case fetched =>
    intro s slot hrun hslot hhas hlost hline rest
    exact hfetch s slot true hrun hslot hhas hlost hline
  case first =>
    intro s slot hrun hslot hhas hlost hline htried rest
    simpa [htried] using hfetch s slot false hrun hslot hhas hlost hline
  case second =>
    intro s slot hrun hslot hhas hlost hline htried rest
    simpa [htried] using hfetch s slot false hrun hslot hhas hlost hline
  case needless =>
    intro s slot ok hrun hslot hneedless
    exact exec_descriptorFetch_needless ok hrun hslot hneedless
  case ended =>
    intro s src sid status body hrun hold d slot hasked hhome hsrc hends
    show execDescReply src sid status body s = _
    exact onDev_onHall_current hrun hold ((descReply_heeded hasked hhome hsrc).trans (if_pos hends))
  case reinstated =>
    intro s src sid status body hrun hold d slot hasked hhome hsrc hstatus hbody hopen
    show execDescReply src sid status body s = _
    have hbrings : ¬(status ≠ 0 ∨ body.length ≠ 256 ∨ (d.sess slot).d.state = .closed) := by simp [hstatus, hbody, hopen]
    exact onDev_onHall_current hrun hold ((descReply_heeded hasked hhome hsrc).trans (if_neg hbrings))

end Sys2Proof.Machine
end

section
/-! TURN_BEGIN on a split session with a range that is not HOT (R27, R92, R333, R338). -/
namespace Sys2Proof.Machine
open Sys2Proof

/-- A controller in SERVICE that takes commands, with an entry waiting on ring 0 of partition 0, and with what a turn needs: a profile, a
tokenizer of 10 ids, a weave, and group 0 bound to it. -/
def servingDev : Dev :=
  let d := ((State.reset.dev.s F.RST_STATE_PHASE 3).s F.CMD_CTL_EN 1).si F.ATT_WV_STATUS_VALID 0 1
  let d := ((d.sf F.CMD_RQ_CFG_EN 0 0 1).sf F.CMD_RQ_STATUS_STATE 0 0 1).sf F.CMD_RQ_DB_TAIL 0 0 1
  { d with
    att := { d.att with profiles := [(0, {})], weaves := [(0, {})] }
    tok := { d.tok with tkz := [(0, { vocab := 10 })] }
    groups := [(0, { bound := some {} })] }

/-- The id of slot 0's session of generation 1 of home 0. -/
def splitSid : Nat := mkSid 0 1 0

/-- That controller as the home of a split session in slot 0: OPEN and HOT here, PARKED on the range that controller 1 holds, with the
hint PREFER_PARK, which has AUTO choose the image (R325, R338). -/
def coldRangeDev : Dev :=
  { servingDev with ses := { servingDev.ses with tab := [(0,
    { d := { sid := splitSid, state := .open, ownerEpoch := 1, split := true, hint := 2 }
      ranges := [{ ctrl := 1, tier := .parked }] })] } }
def coldRange : State := { dev := coldRangeDev }

/-- Context 0 given to that session's turn, and the controller with it. -/
def coldRangeCtx : Option (Nat × Dev) := (coldRangeDev.asked {} 0).newCtx 0 { sid := splitSid, ownerEpoch := 1 }

/-- The bodies of the OWNER messages that an answer has sent, behind their 48-byte header: of a decision of the home of a split session,
the decision and its argument (R432; log entry 37). -/
def toldBodies : Host.Outcome State Fault Refusal → List Bytes
  | .next s => s.dev.out.filterMap fun
    | .send _ 2 false body => some (body.drop 48)
    | _ => none
  | _ => []

/-- TURN_BEGIN has that range revived by its image: decision 3 with argument 1. -/
theorem toldBodies_turnBegin_coldRange :
    toldBodies (exec (.turnBegin {} splitSid false [3] [] 0 0 0 false false false false false false false 0 0 0) coldRange) =
      [leBytes 4 3 ++ leBytes 8 1] := by decide +kernel

/-- Refutes O23: the home of a split session tells the ranges that are not HOT whether to revive by the image, 1, or by a rebuild, 2
(R333, R338; log entry 37). The statement's `tellRanges slot 3` leaves that argument at 0, and lacks the hypothesis that no range is
colder than the session at its home. -/
theorem not_turnCommandsComplete : ¬ Obligations.TurnCommandsComplete := by
  rintro ⟨hbegin, -, -⟩
  have htold := toldBodies_turnBegin_coldRange
  rw [hbegin coldRange {} splitSid false [3] [] 0 0 0 false false false false false false false 0 0 0 0 0 (coldRangeCtx.elim {} (·.2))
    (by decide +kernel) (by decide +kernel) (by decide +kernel) (by decide +kernel) (by decide +kernel) (by decide +kernel)
    (by decide +kernel) (by decide +kernel) (by decide +kernel) (by decide +kernel) (by decide +kernel) (by decide +kernel)
    (by decide +kernel) (by decide +kernel) (by decide +kernel) (by decide +kernel)] at htold
  exact absurd htold (by decide +kernel)

end Sys2Proof.Machine
end

section
/-! Placement hints and park policies: what is asked for waits for the row boundary, or takes effect at once where no group runs (R126,
R127, R329; log entry 17). -/
namespace Sys2Proof.Machine
open Sys2Proof

/-- SET_PARK_POLICY of a session that is neither closed nor migrating, as the partition's policy and its limit of PIN_HOT sessions allow,
records hint and fidelity (R329, R344). -/
theorem parkPolicy_allowed {d : Dev} {slot hint : Nat} {mx4 : Bool}
    (hstate : (d.sess slot).d.state ∉ [SState.closed, .migrating])
    (hhint : hint ≠ 0 → bitOf (d.gi F.PRK_POLICY_HINTS_OK (d.sess slot).d.partition) (hint - 1) = true)
    (hmx4 : mx4 = true → d.gi F.PRK_POLICY_MX4_OK (d.sess slot).d.partition ≠ 0)
    (hpin : hint = 1 → (d.sess slot).hintNext = 1 ∨
      d.pinned (d.sess slot).d.partition + 1 ≤ d.gi F.PRK_POLICY_PIN_MAX (d.sess slot).d.partition) :
    let e := d.updSess slot fun x => { x with pendHint := some hint, pendMx4 := some mx4 }
    d.parkPolicy slot hint mx4 = { dev := if e.noGroupRuns then e.applyPolicy slot else e } := by
  simp only [List.mem_cons, List.not_mem_nil, or_false, not_or] at hstate
  obtain ⟨hopen, hstays⟩ := hstate
  have hroom : ¬(hint = 1 ∧ (d.sess slot).hintNext ≠ 1 ∧
      d.gi F.PRK_POLICY_PIN_MAX (d.sess slot).d.partition < d.pinned (d.sess slot).d.partition + 1) := by
    rintro ⟨hone, hnew, hfull⟩
    exact (hpin hone).elim hnew (Nat.not_le.2 hfull)
  unfold Dev.parkPolicy
  rw [if_neg hopen, if_neg (by simpa using hhint), if_neg fun hdenied => hmx4 hdenied.1 hdenied.2, if_neg hroom, if_neg hstays]
  rfl

/-- Settles O24: each command passes its checks and meets none of its refusals. -/
theorem hintAndPolicyComplete : Obligations.HintAndPolicyComplete := by
  refine ⟨?hint, ?policy⟩
  case hint =>
    intro s h sid posLo posHi dflt layerLo layerHi code slot hrun hready hmay hcode hpos hlayer e hserves hopen p e' d
    show execHintPlace h sid posLo posHi dflt layerLo layerHi code s = _
    exact onDev_eq hrun (command_serves 0x0403 hready hmay (by simp [hcode, hpos, hlayer]) rfl hserves (if_neg hopen))
  case policy =>
    intro s h sid hint fidelity slot hrun hready hmay hhint hfidelity e hserves x hstate hallowed hmx4 hpin d
    show execSetParkPolicy h sid hint fidelity s = _
    exact onDev_eq hrun (command_serves 0x0404 hready hmay (by simp [hhint, hfidelity]) rfl hserves
      (parkPolicy_allowed hstate hallowed (fun hone => hmx4 (beq_iff_eq.1 hone)) hpin))

end Sys2Proof.Machine
end

section
/-! The attention engines: steps, selections, page copies, and the events of tasks (R122, R211, R223, R230, R235, R271 to R276; log
entries 35 and 78). -/
namespace Sys2Proof.Machine
open Sys2Proof

/-- Settles O36: each event finds its task, selection or copy, whose conditions let it through. -/
theorem enginesComplete : Obligations.EnginesComplete := by
  refine ⟨?step, ?selection, ?copy, ?complete, ?wait, ?yield, ?save, ?restore⟩
  case step =>
    intro s e station t v i hrun he hstation htask hweave hphase hnext x works hhead hfire waited d d'
    show execStepFire e station s = _
    refine onUnit_eq (by simp [he, hstation]) hrun ?_
    simp only [htask, hweave, hnext]
    exact (if_neg (not_not.2 hphase)).trans (if_pos (Bool.and_eq_true_iff.2 ⟨hhead, hfire⟩))
  case selection =>
    intro s sid stake slot v w hrun hslot hsift g hweave hasked d engines
    show execSelection sid stake s = _
    refine onDev_eq hrun ?_
    simp only [g] at hweave hasked
    simp only [hslot, hweave, hasked]
    exact if_neg (by simp [Option.isNone_eq_false_iff.2 hsift])
  case copy =>
    intro s slot layer page c r hrun hcopy before htaken src x n fs d d' d'' hresv copied
    show execCowCopy slot layer page s = _
    refine onDev_eq hrun ?_
    simp only [x] at hresv
    simp only [hcopy, hresv]
    exact if_neg (Nat.not_le.2 htaken)
  case complete =>
    intro s e t v hrun he x htask hweave hissued hselected d
    show execTaskComplete e s = _
    refine onUnit_eq (decide_eq_true he) hrun ?_
    simp only [x] at htask
    simp only [htask, hweave]
    exact if_neg (by simp [hissued, hselected])
  case wait =>
    intro s e t l till hrun he htask hrequest
    show execPreemptionWait e s = _
    refine onUnit_eq (decide_eq_true he) hrun ?_
    simp only [htask, hrequest]
  case yield =>
    intro s e t l what v hrun he x htask hlevel hweave htile hset hother harea hfree d d'
    show execYield e s = _
    refine onUnit_eq (decide_eq_true he) hrun ?_
    simp only [x] at htask
    simp only [htask, hlevel, hweave, htile]
    exact (if_neg (by simp [x, hset, hother, harea, hfree])).trans (by simp only [d', d, x, hlevel])
  case save =>
    intro s e t hrun he x hsaving
    show execSave e s = _
    refine onUnit_eq (decide_eq_true he) hrun ?_
    simp only [x] at hsaving
    simp only [hsaving]
    rfl
  case restore =>
    intro s e t hrun he x hrestoring d woken
    show execRestore e s = _
    refine onUnit_eq (decide_eq_true he) hrun ?_
    simp only [x] at hrestoring
    simp only [hrestoring]
    rfl

end Sys2Proof.Machine
end

section
/-! Tiles that pass their checks: query tiles, push tiles and range partials (R153, R158, R163 to R165, R260 to R263, R275). -/
namespace Sys2Proof.Machine
open Sys2Proof

/-- Fields at different lowest bits have different keys, whatever their registers, functions and instances. -/
theorem Fld.key_ne_of_lo_ne {f f' : Fld} (hlo : f.lo < 64) (hlo' : f'.lo < 64) (hne : f.lo ≠ f'.lo) (fn i fn' i' : Nat) :
    f.key fn i ≠ f'.key fn' i' := by
  intro hkey
  unfold Fld.key at hkey
  omega

/-- A counter that counts for the device and a partition leaves what is stored under other keys as it was (R484). -/
theorem Dev.gf_cntP {f f' : Fld} {fn i : Nat} (hkey : ∀ k, f'.key fn i ≠ f.key k 0) (d : Dev) (p n : Nat) (wraps : Bool) :
    (d.cntP f p n wraps).gf f' fn i = d.gf f' fn i := by
  have hone (d : Dev) (k v : Nat) : (d.sf f k 0 v).gf f' fn i = d.gf f' fn i := by rw [Dev.gf_sf, if_neg (hkey k)]
  unfold Dev.cntP
  by_cases hdevice : p = 0
  · simp only [hdevice, if_true, hone]
  · simp only [hdevice, if_false, hone]

/-- The count of tiles that came in leaves the size of a group's slots as it was. -/
theorem gi_inSlotKib_cntP_tilesIn (d : Dev) (p n g : Nat) (wraps : Bool) :
    (d.cntP F.ATT_CNT0_TILES_IN p n wraps).gi F.ATT_GRP_IN_SLOT_KIB g = d.gi F.ATT_GRP_IN_SLOT_KIB g :=
  Dev.gf_cntP (fun k => Fld.key_ne_of_lo_ne (by decide) (by decide) (by decide) 0 g k 0) d p n wraps

/-- A tile of the row in progress, whose stake is open, is not late (R153). -/
theorem not_late {d : Dev} {g row stake : Nat} (hrow : row = d.row g) (hphase : d.phase g = 1) (hopen : d.closed g stake = false) :
    ¬(row < d.row g ∨ row = d.row g ∧ (d.phase g ≠ 1 ∨ d.closed g stake = true)) := by
  simp [hrow, hphase, hopen]

/-- A query tile of the row in progress that passes the checks of R153 is taken. -/
theorem checkTile_taken {d : Dev} {g m slot : Nat} {t : QTile} {e : BatchEntry} (hslot : d.slotOf t.sid = some slot)
    (haccept : (d.touch slot).epochs slot t.mapEpoch t.ownerEpoch = .accept) (hrow : t.row = (d.touch slot).row g)
    (hphase : (d.touch slot).phase g = 1) (hopen : (d.touch slot).closed g t.stake = false)
    (hfeeds : (d.touch slot).feeds g slot = some e) (hlive : ((d.touch slot).liveEngines (slotDie slot)).isEmpty = false)
    (hkill : ((d.touch slot).sess slot).d.kill = false)
    (hturn : (((d.touch slot).turnCtx slot).map fun i => ((d.touch slot).ctx i).kill).getD false = false)
    (hvoided : ((d.touch slot).sess slot).voided = none) (hok : (d.touch slot).tileOk g m slot t e = true)
    (hnew : ((d.touch slot).worksOf g slot t).any (fun w => w.got.contains (t.pos, t.head0)) = false) :
    d.checkTile g m t = (d.touch slot).takeTile g m slot t e := by
  unfold Dev.checkTile
  simp only [hslot, haccept, hfeeds]
  rw [if_neg (not_late hrow hphase hopen), if_neg (by omega), if_neg (by omega), if_neg (by simp [hlive]),
    if_neg (by simp [hkill, hturn]), if_neg (by simp [hvoided]), if_neg (by simp [hok]), if_neg (Bool.eq_false_iff.1 hnew)]

/-- A push tile that passes the checks of R262 waits for its step, in this row if its layer's stake has not closed (R263). -/
theorem checkPush_waits {d : Dev} {g die lane slot : Nat} {t : PTile} {u : Push} (hslot : d.slotOf t.sid = some slot)
    (haccept : (d.touch slot).epochs slot t.mapEpoch t.ownerEpoch = .accept) (hpush : (d.touch slot).pushOf slot = some u)
    (hlane : u.lane.isSome = true) (hid : u.id = t.pushId) (hid0 : t.pushId ≠ 0)
    (hok : (d.touch slot).pushOk g die lane u t = true) (hnew : u.placed.contains (pieceKey t.layer t.pos) = false) :
    d.checkPush g die lane t =
      let d := d.touch slot
      let stake := d.layerStake g t.layer
      let row := if d.phase g = 1 ∧ !d.closed g stake then d.row g else d.row g + 1
      let t := { t with row := row, tag := (d.sess u.slot).d.partition }
      ((d.setPush { u with waiting := u.waiting ++ [t] }).stagePush g die stake slot).wakeTasks g stake (2 ^ 22) (some die) := by
  have hnamed : ¬(u.lane.isNone || u.id ≠ t.pushId || t.pushId = 0) = true := by
    simp [hid, hid0, Option.isNone_eq_false_iff.2 hlane]
  unfold Dev.checkPush
  simp only [hslot, haccept, hpush]
  rw [if_neg hnamed, if_neg (by simp [hok]), if_neg (Bool.eq_false_iff.1 hnew)]

/-- A partial of the row in progress, of a session whose row is not void, is kept and merged (R164, R165). -/
theorem keepPartial_merges {d : Dev} {g slot : Nat} {t : OTile} (hrow : t.row = d.row g) (hphase : d.phase g = 1)
    (hvoided : (d.sess slot).voided = none) :
    d.keepPartial g slot t =
      ({ d with att := { d.att with partials := d.att.partials ++ [(g, t)] } } : Dev).mergePartials g slot t := by
  unfold Dev.keepPartial
  rw [if_neg (by simp [hrow]), if_neg (by simp [hrow, hphase, hvoided])]

/-- Settles O35: each tile arrives in a slot that it fits and passes its checks. -/
theorem tilesComplete : Obligations.TilesComplete := by
  refine ⟨?query, ?push, ?rangePartial⟩
  case query =>
    intro s g m qp imm bytes slot e hrun hg hon hslots hfits t d hslot d' haccept hrow hphase hopen hfeeds hlive hkill hturn hvoided
      hok hnew
    show execQueryTile g m qp imm bytes s = _
    refine onUnit_eq (decide_eq_true hg) hrun ?_
    have htaken : d.checkTile g m t = d'.takeTile g m slot t e :=
      checkTile_taken hslot haccept hrow hphase hopen hfeeds hlive hkill hturn hvoided hok hnew
    refine (if_neg (by simp [hon, hslots])).trans ((if_neg ?_).trans htaken)
    rw [gi_inSlotKib_cntP_tilesIn]
    exact Nat.not_lt.2 hfits
  case push =>
    intro s g die qp imm bytes slot u hrun hg hdie lane hlanes hslots hfits t hslot d haccept hpush hlane hid hid0 hok hnew stake row
      t' d'
    show execPushTile g die qp imm bytes s = _
    refine onUnit_eq (by simp [hg, hdie]) hrun ?_
    have hwaits : s.dev.checkPush g die lane t = d' := checkPush_waits hslot haccept hpush hlane hid hid0 hok hnew
    refine (if_neg ?_).trans ((if_neg ?_).trans (congrArg (·.placeLate g die t.layer) hwaits))
    · exact not_or.2 ⟨Nat.not_le.2 hlanes, Nat.not_le.2 hslots⟩
    · exact Nat.not_lt.2 hfits
  case rangePartial =>
    intro s src tile slot hrun t hold hslot d g haccept hrow hphase hvoided d'
    show execRangePartial src tile s = _
    refine onDev_eq hrun ((if_neg (by simp [t, hold])).trans ?_)
    have hmerges : d.keepPartial g slot t = d'.mergePartials g slot t := keepPartial_merges hrow hphase hvoided
    simp only [t, d, g] at hslot haccept hmerges
    simp only [hslot, haccept, hmerges]
    rfl

end Sys2Proof.Machine
end

section
/-! Profiles and weaves are loaded, and profiles, weaves, tokenizers and grammars are unloaded (R240 to R245, R282, R299, R503). -/
namespace Sys2Proof.Machine
open Sys2Proof

/-! What is loaded -/

/-- A package that passes the checks, for a free slot and with room in the profile region, becomes resident there, with the generation
of its key if it was staged (R245, R503). -/
theorem loadProfile_free {d : Dev} {slot : Nat} {pkg : Bytes} (keyGen : Option Nat) (hok : profileOk pkg = true)
    (hfree : NMap.has d.att.profiles slot = false)
    (hroom : d.prfUsed + (profileOf pkg).paramLen ≤ d.g F.ATT_PRF_REGION_GIB * 2 ^ 30) :
    d.loadProfile slot pkg keyGen =
      { dev := { d with
          att := { d.att with profiles := NMap.put d.att.profiles slot (profileOf pkg) }
          sec := { d.sec with wrapped := match keyGen with
            | some k => NMap.put d.sec.wrapped slot k
            | none => NMap.del d.sec.wrapped slot } }.showProfile slot
        result := (profileOf pkg).digest } := by
  unfold Dev.loadProfile
  exact (if_neg (by simp [hok])).trans ((if_neg (by simp [hfree])).trans (if_neg (Nat.not_lt.2 hroom)))

/-- The count of staged packages is not the size of the profile region. -/
theorem profileRegion_staged (d : Dev) (n : Nat) : (d.s F.SEC_STAGE_STAGED n).g F.ATT_PRF_REGION_GIB = d.g F.ATT_PRF_REGION_GIB :=
  (Dev.gf_sf d _ _ 0 0 0 0 n).trans (if_neg (by decide))

/-- A group runs no rows in phases IDLE and STALLED (R70, R242). -/
theorem noRows_iff (d : Dev) (g : Nat) : d.noRows g = true ↔ d.phase g = 0 ∨ d.phase g = 4 := by simp [Dev.noRows]

/-- An image of a weave that is not resident, for which a slot and sync counters are free, becomes resident, and the group is bound to
it, at once if it runs no rows (R240 to R242). -/
theorem loadWeave_new {d : Dev} {g len : Nat} (thr hb : Bool) {img : Bytes} {i pi : Nat} {p : Profile} {rw re : List (Nat × Nat)}
    (hcheck : d.weaveCheck img len g = none)
    (hprof : d.att.profiles.find? (fun y => y.2.digest == slice img 0x20 48) = some (pi, p))
    (hnew : d.att.weaves.any (fun y => y.2.imageDigest == (weaveOf img pi).imageDigest) = false)
    (hslot : NMap.freeFrom d.att.weaves 128 0 = some i)
    (hwest : takeRuns ((d.updGroup g fun x => { x with nextBinding := none }).counterFree 0) (weaveOf img pi).counterNeed = some rw)
    (heast : takeRuns ((d.updGroup g fun x => { x with nextBinding := none }).counterFree 1) (weaveOf img pi).counterNeed = some re) :
    let w := weaveOf img pi
    let c := d.updGroup g fun x => { x with nextBinding := none }
    let e := ({ c with att := { c.att with weaves := NMap.put c.att.weaves i w } }).showWeave i true
    let b : Binding := { slot := i, throughput := thr, hostBatch := hb, runsW := rw, runsE := re }
    let e := (e.updGroup g fun x => { x with nextBinding := some (some b) }).showBound g
    d.loadWeave g len thr hb img =
      { dev := if e.phase g = 0 ∨ e.phase g = 4 then e.takeBinding g b else e.showSync, small := i, result := w.imageDigest } := by
  have hnone : (d.att.weaves.find? fun y => y.2.imageDigest == (weaveOf img pi).imageDigest) = none := by simpa using hnew
  simp only [Dev.loadWeave, hcheck, hprof, Option.map_some, Option.getD_some, hnone, Option.map_none, hslot, hwest, heast, noRows_iff]
  rfl

/-- The reply of a ready entry whose command runs on blocks that are enabled is the one its rules decide at once. -/
theorem command_decides {d : Dev} {h : Hdr} {data may params : Bool} {ens : List Fld} {run : Dev → Res} {x : Res} (op : Nat)
    (hr : d.ready h data = true) (hmay : may = true) (hparams : params = true)
    (hens : ens.all (fun en => (d.entered h).on en) = true) (hrun : run (d.entered h) = x) (hnow : x.later = false) :
    d.command h op may params data (fun e => e.needs ens run) = x.decideAs h.fn h.ring h.hseq op true := by
  rw [command_ready d h op may params data _ hr hmay hparams, needs_on _ ens run (ready_phase d h data hr) hens, hrun, hnow]
  rfl

/-- Settles O25: a package or an image that passes its checks meets none of the refusals that follow them. -/
theorem profileAndWeaveLoad : Obligations.ProfileAndWeaveLoad := by
  refine ⟨?host, ?staged, ?weave⟩
  case host =>
    intro s h staged handle len slot pkg hrun hready hhost hfn hslot e hplain hlen hok hfree hroom d d'
    subst hhost
    show execLoadProfile h false handle len slot pkg s = _
    refine onDev_eq hrun (command_answers 0x0201 hready (beq_iff_eq.2 hfn) (decide_eq_true hslot) rfl ?_)
    refine (if_neg Bool.false_ne_true).trans ((if_neg (ne_true_of_eq_false hplain)).trans ((if_neg (not_not.2 hlen)).trans ?_))
    exact loadProfile_free none hok hfree hroom
  case staged =>
    intro s h staged handle len slot pkg x hrun hready hstaged hfn hslot e hfound hok hfree hroom left d d' d''
    subst hstaged
    show execLoadProfile h true handle len slot pkg s = _
    refine onDev_eq hrun (command_answers 0x0201 hready (beq_iff_eq.2 hfn) (decide_eq_true hslot) rfl ?_)
    simp only [e] at hfound
    simp only [if_true, hfound]
    refine loadProfile_free (some x.keyGen) hok hfree ?_
    rw [profileRegion_staged]
    exact hroom
  case weave =>
    intro s h len thr hb g img i pi p rw re hrun hready hfn hg e hcheck hprof w hnew hslot c hwest heast d b d' d''
    show execLoadWeave h len thr hb g img s = _
    exact onDev_eq hrun (command_decides 0x0202 hready (beq_iff_eq.2 hfn) (decide_eq_true hg) rfl
      (loadWeave_new thr hb hcheck hprof hnew hslot hwest heast) rfl)

/-! What is unloaded -/

/-- Settles O26: each kind's rules find the slot resident and nothing that keeps it. -/
theorem unloadComplete : Obligations.UnloadComplete := by
  refine ⟨?profile, ?weave, ?tokenizer, ?grammar⟩
  case profile =>
    intro s h kind slot hrun hready hkind hfn hslot e hhas hnamed
    subst hkind
    show execUnload h 1 slot s = _
    refine onDev_eq hrun (command_answers 0x0203 hready (by simp [fromZero, hfn]) (decide_eq_true hslot) rfl ?_)
    exact (if_neg (by simp [e, hhas])).trans (if_neg (ne_true_of_eq_false hnamed))
  case weave =>
    intro s h kind slot hrun hready hkind hfn hslot e hhas hvalid next gs hidle d
    subst hkind
    show execUnload h 2 slot s = _
    refine onDev_eq hrun (command_answers 0x0203 hready (by simp [fromZero, hfn]) (decide_eq_true hslot) rfl ?_)
    exact (if_neg (by simp [e, hhas, hvalid])).trans (if_neg (ne_true_of_eq_false hidle))
  case tokenizer =>
    intro s h kind slot t hrun hready hkind hfn hslot e hheld hses hgrams
    subst hkind
    show execUnload h 3 slot s = _
    refine onDev_eq hrun (command_answers 0x0203 hready (by simp [fromZero, hfn]) (decide_eq_true hslot) rfl ?_)
    simp only [e] at hheld
    simp only [Dev.unloadTokenizer, hheld]
    exact if_neg (ne_true_of_eq_false (Bool.or_eq_false_iff.2 ⟨hses, hgrams⟩))
  case grammar =>
    intro s h kind slot g hrun hready hkind hslot hmay e hhas hbound
    subst hkind
    show execUnload h 4 slot s = _
    refine onDev_eq hrun (command_answers 0x0203 hready ?may (decide_eq_true hslot) rfl ?_)
    case may => rcases hmay with hfn | ⟨hheld, hown⟩ <;> simp [fromZero, *]
    exact (if_neg (by simp [e, hhas])).trans (if_neg (ne_true_of_eq_false hbound))

end Sys2Proof.Machine
end

section
/-! Corrected errors, transient faults and the watchdogs of units (R232, R580 to R591; log entry 59). -/
namespace Sys2Proof.Machine
open Sys2Proof

/-- Settles O37: each event of a unit that is fitted meets the conditions of its effect. A transient fault goes by whether the failures
that count, of RETRIES + 1 at most, are all cured. -/
theorem unitFaultsComplete : Obligations.UnitFaultsComplete := by
  refine ⟨?corrected, ?cured, ?uncured, ?engine, ?stall, ?core, ?window⟩
  case corrected =>
    intro s kind idx n hrun hfit hcounted d
    show execCorrectedError kind idx n s = _
    exact onUnit_eq hfit hrun (if_neg hcounted)
  case cured =>
    intro s kind idx failed loc fn ring hrun hfit hfn hkind hfailed hcured d cured
    have hn : min failed (s.dev.g F.FLT_CTL_RETRIES + 1) = failed := Nat.min_eq_left (Nat.le_succ_of_le hcured)
    show execTransientFault kind idx failed loc fn ring s = _
    refine onUnit_eq (Bool.and_eq_true_iff.2 ⟨hfit, decide_eq_true hfn⟩) hrun ?_
    simp only [hn]
    refine (if_neg hfailed).trans ((if_neg hkind).trans ((if_neg (by simp [hcured])).trans ?_))
    simp [d, cured, hcured]
  case uncured =>
    intro s kind idx failed loc fn ring hrun hfit hfn hkind hretired hlost n hit served d sid lost
    have hn : min failed (s.dev.g F.FLT_CTL_RETRIES + 1) = n := Nat.min_eq_right hlost
    have huncured : ¬ n ≤ s.dev.g F.FLT_CTL_RETRIES := Nat.not_succ_le_self _
    show execTransientFault kind idx failed loc fn ring s = _
    refine onUnit_eq (Bool.and_eq_true_iff.2 ⟨hfit, decide_eq_true hfn⟩) hrun ?_
    simp only [hn]
    refine (if_neg (Nat.succ_ne_zero _)).trans ((if_neg hkind).trans ((if_neg (by simp [hretired])).trans ?_))
    simp only [huncured, decide_false, Bool.not_false, and_true, Bool.false_eq_true, if_false]
    rfl
  case engine =>
    intro s e loc hrun he
    show execEngineFault e loc s = _
    exact onUnit_eq (decide_eq_true he) hrun rfl
  case stall =>
    intro s e hrun he hstalls
    show execStallWatchdog e s = _
    exact onUnit_eq (decide_eq_true he) hrun (if_pos hstalls)
  case core =>
    intro s core held hrun hcore busy d hfew fails status
    show execCoreWatchdog core held s = _
    refine onUnit_eq (decide_eq_true hcore) hrun ?_
    simp only [d, busy] at hfew
    simp only [Nat.not_le.2 hfew, decide_false, Bool.false_eq_true, if_false]
    rfl
  case window =>
    intro s hrun t d aged kept d'
    show execFaultWindow s = _
    exact onDev_eq hrun rfl

end Sys2Proof.Machine
end

section
/-! Parks and revives that the hamper takes: what PARK and REVIVE begin, move or abandon at once (R89, R330, R336 to R338; log entry
40). -/
namespace Sys2Proof.Machine
open Sys2Proof

/-! The enables of the hamper's blocks stay as they were when a descriptor is read -/

/-- A reference to a descriptor changes the sessions and their cache alone. -/
theorem regs_touch (d : Dev) (slot : Nat) : (d.touch slot).regs = d.regs := by
  unfold Dev.touch Dev.cacheIn
  dsimp only
  repeat' split
  all_goals rfl

/-- The read of a descriptor whose line carries the session's partition comes to the reference to it. -/
theorem readLine_of_seen {d : Dev} {slot : Nat} (hseen : (d.readLine slot).1 = true) : (d.readLine slot).2 = d.touch slot := by
  unfold Dev.readLine at hseen ⊢
  dsimp only at hseen ⊢
  split at hseen
  next l hline =>
    simp only [Dev.readTagged] at hseen ⊢
    split at hseen
    next htag => rw [if_pos htag]
    next => exact absurd hseen Bool.false_ne_true
  next => rfl

/-- A command that reaches its session finds the registers as they were when it was entered. -/
theorem regs_asked {d : Dev} {h : Hdr} {sid slot : Nat} (hserves : (d.entered h).serves h sid slot = true) :
    (d.asked h slot).regs = (d.entered h).regs := by
  simp only [Dev.serves, Bool.and_eq_true] at hserves
  obtain ⟨⟨⟨-, hseen⟩, -⟩, -⟩ := hserves
  exact (congrArg Dev.regs (readLine_of_seen hseen)).trans (regs_touch _ slot)

/-- Whether parks and revives can run is in the registers. -/
theorem parkOn_of_regs_eq {d e : Dev} (hregs : d.regs = e.regs) : d.parkOn = e.parkOn := by
  simp only [Dev.parkOn, Dev.on, Dev.g, Dev.gf, hregs]

/-- A ready PARK or REVIVE that reaches its session is answered as its rules on that session decide at once. -/
theorem parkCommand_serves {d : Dev} {h : Hdr} {sid slot : Nat} {may params : Bool} {run : Nat → Dev → Res} {x : Dev} {st : Status}
    (op : Nat) (hr : d.ready h false = true) (hmay : may = true) (hparams : params = true)
    (hs : (d.entered h).serves h sid slot = true) (hon : (d.asked h slot).parkOn = true) (hrun : run slot (d.asked h slot) = x.res st) :
    d.command h op may params false (fun e => e.needs parkBlocks fun e => e.onSession h sid run) = x.answered h op st [] :=
  command_serves op hr hmay hparams ((parkBlocks_all_on _).trans ((parkOn_of_regs_eq (regs_asked hs)).symm.trans hon)) hs hrun

/-! PARK -/

/-- PARK of a session that rests is not refused for its state. -/
theorem parkState_of_resting {x : Session} (target : Nat) (hstate : x.d.state = .open ∨ x.d.state = .waiting)
    (hidle : (x.d.turnQueued || x.d.ctxValid) = false) : parkState x target = none := by
  rcases hstate with hstate | hstate <;> simp only [parkState, hstate, hidle] <;> rfl

/-- A PARKED session may be moved to HISTORY. -/
theorem parkState_of_parked {x : Session} (hstate : x.d.state = .parked) : parkState x 1 = none := by
  simp only [parkState, hstate]
  rfl

/-- PARK of a session whose state allows it, with room in the hamper, and at the holder for WARM, begins the park in the place of a
pending one. -/
theorem parkCmd_begins {d c : Dev} {m : Memory} {h : Hdr} {slot target : Nat} {holder : WarmHolder}
    (hstate : parkState (d.sess slot) target = none)
    (hpending : ¬((d.sess slot).d.state = .parked ∧ (d.sess slot).d.histLen ≤ (d.sess slot).d.histDurable))
    (hholder : target = 2 → (d.sess slot).d.tier ≠ .warm ∧ holder.room = true ∧ holder.ctrl ≠ d.self ∧
      (d.own.domains.any fun a => a.1 == holder.ctrl && d.own.domains.any fun b => b.1 == d.self && b.2 == a.2) = true)
    (hready : d.hready (slotDie slot) = true)
    (hroom : (if target = 1 then (if d.histBlocked slot then some 3 else none) else d.parkBlocked slot) = none)
    (hbegun : (d.supersede slot).beginPark m slot target holder h.fn h.eq h.hseq = some c) :
    d.parkCmd m h slot holder target = c.res .ok := by
  have hcold : ¬((d.sess slot).d.tier = .warm ∧ target = 2) := fun ⟨hwarm, htwo⟩ => (hholder htwo).1 hwarm
  have hpeer : ¬(target = 2 ∧ (holder.ctrl = d.self ∨ !(d.own.domains.any fun a => a.1 == holder.ctrl &&
      d.own.domains.any fun b => b.1 == d.self && b.2 == a.2))) := by
    rintro ⟨htwo, hself⟩
    obtain ⟨-, -, hother, hdomain⟩ := hholder htwo
    simp [hother, hdomain] at hself
  have hplace : ¬(target = 2 ∧ !holder.room) := by
    rintro ⟨htwo, hfull⟩
    simp [(hholder htwo).2.1] at hfull
  unfold Dev.parkCmd
  simp only [hstate, if_neg hcold, if_neg hpending, if_neg hpeer, hready, Bool.not_true, Bool.false_eq_true, if_false, hroom,
    if_neg hplace, hbegun]

/-- PARK of a PARKED session with target HISTORY moves it there at once when its history is durable (R336). -/
theorem parkCmd_toHistory {d : Dev} {m : Memory} {h : Hdr} {slot : Nat} {holder : WarmHolder} (hstate : (d.sess slot).d.state = .parked)
    (hdurable : (d.sess slot).d.histLen ≤ (d.sess slot).d.histDurable) :
    d.parkCmd m h slot holder 1 =
      (((d.supersede slot).tellRanges slot 1).toHistory slot (d.sess slot).d.lastRow h.fn h.eq h.hseq).res .ok := by
  unfold Dev.parkCmd
  simp only [parkState_of_parked hstate]
  exact (if_neg (by simp)).trans (if_pos ⟨hstate, hdurable⟩)

/-! REVIVE -/

/-- REVIVE of a session that is cold begins the revive, once a park under way is abandoned. -/
theorem reviveCmd_begins {d c : Dev} {m : Memory} {h : Hdr} {slot mode : Nat}
    (hcold : (d.sess slot).d.state = .parked ∨ (d.sess slot).d.state = .history ∧ mode ≠ 1 ∨
      ((d.sess slot).d.state = .open ∨ (d.sess slot).d.state = .waiting) ∧ (d.sess slot).d.tier = .warm)
    (hready : d.hready (slotDie slot) = true)
    (hbegun : (if (d.park slot).isSome then d.abandonPark slot 2 else d).beginRevive m slot mode h.fn h.eq h.hseq = some c) :
    d.reviveCmd m h slot mode = c.res .ok := by
  have hwarm : ¬(((d.sess slot).d.state = .open ∨ (d.sess slot).d.state = .waiting) ∧ (d.sess slot).d.tier ≠ .warm) := by
    rintro ⟨hopen, htier⟩
    rcases hcold with hparked | ⟨hhistory, -⟩ | ⟨-, hwarm⟩
    · simp [hparked] at hopen
    · simp [hhistory] at hopen
    · exact htier hwarm
  have himage : ¬((d.sess slot).d.state = .history ∧ mode = 1) := by
    rintro ⟨hhistory, hone⟩
    simp [hhistory, hone] at hcold
  unfold Dev.reviveCmd
  dsimp only
  split
  case h_7 => simp only [if_neg hwarm, if_neg himage, hready, Bool.not_true, Bool.false_eq_true, if_false, hbegun]
  all_goals next hother => simp [hother] at hcold

/-- REVIVE of a PARKING session abandons the park, which may leave the session HOT (R332). -/
theorem reviveCmd_abandons {d : Dev} {m : Memory} {h : Hdr} {slot mode : Nat} (hstate : (d.sess slot).d.state = .parking)
    (hhot : ((d.abandonPark slot 2).isWarm slot || ((d.abandonPark slot 2).sess slot).d.tier == .parked) = false) :
    d.reviveCmd m h slot mode = (d.abandonPark slot 2).res .ok := by
  unfold Dev.reviveCmd
  simp only [hstate]
  exact if_neg (ne_true_of_eq_false hhot)

/-- REVIVE of a session that is HOT with all its ranges, or that is being revived, is a duplicate (R89). -/
theorem reviveCmd_dup {d : Dev} {m : Memory} {h : Hdr} {slot mode : Nat}
    (hhot : (d.sess slot).d.state ∈ [SState.running, .reviving] ∨
      ((d.sess slot).d.state ∈ [SState.open, .waiting] ∧ (d.sess slot).d.tier ≠ .warm ∧ (d.sess slot).coldest = .hot)) :
    d.reviveCmd m h slot mode = d.res .dup := by
  simp only [List.mem_cons, List.not_mem_nil, or_false] at hhot
  rcases hhot with (hstate | hstate) | ⟨hopen, htier, hranges⟩
  · simp only [Dev.reviveCmd, hstate]
  · simp only [Dev.reviveCmd, hstate]
  · have hresting := And.intro hopen htier
    unfold Dev.reviveCmd
    dsimp only
    split
    case h_7 => simp only [if_pos hresting, if_pos hranges]
    all_goals next hother => simp [hother] at hopen

/-- Settles O29: each command reaches its session on enabled blocks, and the state of the session then leaves one branch of its rules. -/
theorem parkAndReviveComplete : Obligations.ParkAndReviveComplete := by
  refine ⟨?begins, ?toHistory, ?revives, ?abandons, ?duplicate⟩
  case begins =>
    intro s h sid target slot holder hrun hready hmay htarget e hon hserves x hstate hholder hhamper hroom hbegins
    obtain ⟨c, hbegun⟩ := Option.isSome_iff_exists.1 hbegins
    have hallowed : parkState (e.sess slot) target = none := by
      rcases hstate with ⟨hresting, hidle⟩ | ⟨hparked, rfl, -⟩
      · exact parkState_of_resting target hresting hidle
      · exact parkState_of_parked hparked
    have hpending : ¬((e.sess slot).d.state = .parked ∧ (e.sess slot).d.histLen ≤ (e.sess slot).d.histDurable) := by
      rintro ⟨hparked, hdurable⟩
      rcases hstate with ⟨hresting, -⟩ | ⟨-, -, hless⟩
      · simp [x, hparked] at hresting
      · exact Nat.not_le.2 hless hdurable
    rw [hbegun]
    show execPark h sid holder target s = _
    exact onDev_eq hrun (parkCommand_serves 0x0401 hready hmay (decide_eq_true htarget) hserves hon
      (parkCmd_begins hallowed hpending hholder hhamper hroom hbegun))
  case toHistory =>
    intro s h sid target slot holder hrun hready hmay htarget e hon hserves hstate hdurable
    subst htarget
    show execPark h sid holder 1 s = _
    exact onDev_eq hrun (parkCommand_serves 0x0401 hready hmay rfl hserves hon (parkCmd_toHistory hstate hdurable))
  case revives =>
    intro s h sid mode slot hrun hready hmay hmode e hon hserves x hcold hhamper d hbegins
    obtain ⟨c, hbegun⟩ := Option.isSome_iff_exists.1 hbegins
    rw [hbegun]
    show execRevive h sid mode s = _
    exact onDev_eq hrun (parkCommand_serves 0x0402 hready hmay (decide_eq_true hmode) hserves hon
      (reviveCmd_begins hcold hhamper hbegun))
  case abandons =>
    intro s h sid mode slot hrun hready hmay hmode e hon hserves hstate hhot
    show execRevive h sid mode s = _
    exact onDev_eq hrun (parkCommand_serves 0x0402 hready hmay (decide_eq_true hmode) hserves hon (reviveCmd_abandons hstate hhot))
  case duplicate =>
    intro s h sid mode slot hrun hready hmay hmode e hon hserves hhot
    show execRevive h sid mode s = _
    exact onDev_eq hrun (parkCommand_serves 0x0402 hready hmay (decide_eq_true hmode) hserves hon (reviveCmd_dup hhot))

end Sys2Proof.Machine
end

section
/-! WARM holdings: room for another controller's session, and its release (R337, R380; log entry 31). -/
namespace Sys2Proof.Machine
open Sys2Proof

/-- Settles O32: a request finds no holding, a run of bins and a region, and a release finds its holding. -/
theorem warmHoldingComplete : Obligations.WarmHoldingComplete := by
  refine ⟨?takes, ?releases⟩
  case takes =>
    intro s src sid release length partition b i c hrun hrelease hnone die n hbins hregion bins ids f pgs hold d
    subst hrelease
    show execWarmHolding src sid false length partition s = _
    refine onDev_eq hrun ?_
    simp only [die, n] at hbins hregion
    simp only [hnone, hbins, hregion, Bool.false_eq_true, if_false, Option.isSome_none]
    rfl
  case releases =>
    intro s src sid release length partition h hrun hrelease hheld free d d'
    subst hrelease
    show execWarmHolding src sid true length partition s = _
    refine onDev_eq hrun ((if_pos rfl).trans ?_)
    rw [hheld]

end Sys2Proof.Machine
end

section
/-! A held controller (R373, R606, R610): every command but the events of the module runs as a meaning of the controller. -/
namespace Sys2Proof.Machine
open Sys2Proof

/-- The state with its controller held. -/
def State.hold (s : State) : State := { s with dev := { s.dev with rst := { s.dev.rst with held := true } } }

/-- A state whose controller is held already. -/
theorem State.hold_of_held {s : State} (h : s.dev.rst.held = true) : s.hold = s := by rw [State.hold, ← h]

/-- Every command but the events of the module's supply, reset pin and sensors acts through the controller, which puts the block that
it found while it is held. -/
theorem exec_hold (c : Instr) (s : State) (hsup : c.supervised = false) : exec c s.hold = .next (s.hold.put s.hold.dev) := by
  cases c with
  | powerOn | bankCharged | railTimeout | railRetry | powerFail | flushComplete | powerRestored | belowModuleMinimum | rstN
  | rstNRelease | sensorSample | thermalTrip => cases hsup
  | _ => rfl

/-- Settles O6: a held controller puts the block that it found, in a state without a write left over. -/
theorem heldControllerWaits : Obligations.HeldControllerWaits := by
  intro c s hsup _ hrun hsafe
  have hhold : s.hold = s := State.hold_of_held (by simpa [State.runs] using hrun)
  have hexec := exec_hold c s hsup
  rw [hhold] at hexec
  rw [hexec, put_self s (State.wr_of_safe hsafe)]

end Sys2Proof.Machine
end

section
/-! OWNER_QUERY on a session whose home is lost (R439). -/
namespace Sys2Proof.Machine
open Sys2Proof

/-- The controller `servingDev`, whose hall has lost controller 1 and keeps shard 0 of the directory at controllers 2 and 3. -/
def lostHome : State :=
  { dev := { servingDev with own := { servingDev.own with lostCtrls := [1], shards := [(0, 2, 3)] } } }

/-- The sessions of which an answered state has asked the directory. -/
def askedOf : Host.Outcome State Fault Refusal → List Nat
  | .next s => s.dev.own.asked
  | _ => []

/-- OWNER_QUERY on a session of the lost controller asks the directory of its owner. -/
theorem askedOf_ownerQuery_lostHome : askedOf (exec (.ownerQuery {} (mkSid 1 1 0) 0 false) lostHome) = [mkSid 1 1 0] := by
  decide +kernel

/-- Refutes O13: OWNER_QUERY on a session of which nothing is known here and whose home is lost asks its directory shard, and notes
that it did until the answer comes (R439): what ownership holds has changed. -/
theorem not_reportsChangeNothingElse : ¬ Obligations.ReportsChangeNothingElse := by
  intro hkeeps
  obtain ⟨d, hnext⟩ := exec_answers (.ownerQuery {} (mkSid 1 1 0) 0 false) lostHome
  have hasked := askedOf_ownerQuery_lostHome
  obtain ⟨-, -, -, -, -, -, -, -, -, hown, -⟩ :=
    hkeeps {} _ lostHome _ (by decide +kernel) (.inr (.inr (.inl ⟨_, _, _, rfl⟩))) hnext
  rw [hnext] at hasked
  exact absurd ((congrArg Own.asked hown).symm.trans hasked) (by decide +kernel)

end Sys2Proof.Machine
end

section
/-! The module's supply: charging, the rails, power failure, flush and hold (R606 to R610). -/
namespace Sys2Proof.Machine
open Sys2Proof

/-- An event of the module puts the block that it computes, whatever state the controller is in. -/
theorem onModule_eq {f : Memory → Dev → Dev} {s : State} {d : Dev} (hd : f s.hbm s.dev = d) : onModule f s = .next (s.put d) :=
  hd ▸ rfl

/-- Settles O42: each event meets the power state of its effect. -/
theorem powerTransitionsComplete : Obligations.PowerTransitionsComplete := by
  refine ⟨?on, ?measured, ?unmeasured, ?railTimeout, ?railRetry, ?flushes, ?railsOff, ?chargeStops, ?recharges, ?holds,
    ?restoredInFlush, ?restoredInHold, ?below, ?releasedOn, ?releasedCharged⟩
  case on =>
    intro s hoff p
    show execPowerOn s = _
    exact onModule_eq (if_neg (not_not.2 hoff))
  case measured =>
    intro s measured us hcharge hcharging hmeasured joule grade p
    subst hmeasured
    show execBankCharged true us s = _
    exact onModule_eq (if_neg (by simp [hcharge, hcharging]))
  case unmeasured =>
    intro s measured us hcharge hcharging hmeasured
    subst hmeasured
    show execBankCharged false us s = _
    exact onModule_eq (if_neg (by simp [hcharge, hcharging]))
  case railTimeout =>
    intro s hon hphase hstep hfree n
    show execRailTimeout s = _
    exact onModule_eq (if_neg (by simp [hon, hphase, hstep, hfree]))
  case railRetry =>
    intro s hcharge htries hcharging
    show execRailRetry s = _
    exact onModule_eq (if_pos (by simp [hcharge, htries, hcharging]))
  case flushes =>
    intro s rail hon counted hserves d
    show execPowerFail rail s = _
    refine onModule_eq ?_
    rw [hon]
    exact if_pos ((Bool.and_comm _ _).trans hserves)
  case railsOff =>
    intro s rail hon counted hserves
    show execPowerFail rail s = _
    refine onModule_eq ?_
    rw [hon]
    exact if_neg (Bool.eq_false_iff.1 ((Bool.and_comm _ _).trans hserves))
  case chargeStops =>
    intro s rail hcharge counted
    show execPowerFail rail s = _
    refine onModule_eq ?_
    rw [hcharge]
    rfl
  case recharges =>
    intro s ms hflush e halves hrestored
    show execFlushComplete ms s = _
    exact onModule_eq ((if_neg (not_not.2 hflush)).trans (if_pos hrestored))
  case holds =>
    intro s ms hflush e halves hrestored
    show execFlushComplete ms s = _
    exact onModule_eq ((if_neg (not_not.2 hflush)).trans (if_neg (Bool.eq_false_iff.1 hrestored)))
  case restoredInFlush =>
    intro s hflush
    show execPowerRestored s = _
    exact onModule_eq (by simp only [hflush])
  case restoredInHold =>
    intro s hhold
    show execPowerRestored s = _
    exact onModule_eq (by simp only [hhold])
  case below =>
    intro s inUse halves lost rst p
    rfl
  case releasedOn =>
    intro s hon held
    show execRstNRelease s = _
    exact onModule_eq (by simp only [hon, held])
  case releasedCharged =>
    intro s hcharge
    show execRstNRelease s = _
    exact onModule_eq (by simp only [hcharge])

end Sys2Proof.Machine
end

section
/-! Start-up, the restore of the hampers and firmware update (R375, R491, R571 to R573, R624). -/
namespace Sys2Proof.Machine
open Sys2Proof

/-- The step after the one that RST_STATE.STEP names. -/
theorem nextStep_of_bootStep {d : Dev} {n : Nat} (h : d.bootStep = n) : d.nextStep = d.s F.RST_STATE_STEP (n + 1) := by
  rw [Dev.nextStep, h]

/-- Settles O40: each step of start-up is the one under way; a restore and an update meet none of what they wait for. -/
theorem startUpComplete : Obligations.StartUpComplete := by
  refine ⟨?layer1, ?layer2, ?tests, ?memory, ?layout, ?hampers, ?clock, ?phase, ?restore, ?image, ?options⟩
  case layer1 | layer2 | tests =>
    intro s fails hrun hphase hstep
    show execStartUp fails s = _
    exact onDev_eq hrun ((if_neg (not_not.2 hphase)).trans (by simp only [hstep]))
  case memory =>
    intro s fails hrun hphase hstep
    show execStartUp fails s = _
    exact onDev_eq hrun ((if_neg (not_not.2 hphase)).trans (by simp only [hstep, nextStep_of_bootStep hstep]))
  case hampers =>
    intro s fails hrun hphase hstep hrestored
    show execStartUp fails s = _
    exact onDev_eq hrun ((if_neg (not_not.2 hphase)).trans (by simp only [hstep, hrestored, nextStep_of_bootStep hstep, if_true]))
  case layout | clock =>
    intro s fails hrun hphase hstep d
    show execStartUp fails s = _
    exact onDev_eq hrun ((if_neg (not_not.2 hphase)).trans (by simp only [hstep]; rfl))
  case phase =>
    intro s fails hrun hphase hstep cause p
    show execStartUp fails s = _
    exact onDev_eq hrun ((if_neg (not_not.2 hphase)).trans (by simp only [hstep]; rfl))
  case restore =>
    intro s half hrun hhalf hrecovering hmay x hcool lost off d d' ms d'' d'''
    show execHamperRestore half s = _
    refine onUnit_eq (decide_eq_true hhalf) hrun (if_neg ?_)
    rintro (hother | hoff | hhot)
    · exact hother hrecovering
    · simp [hmay] at hoff
    · exact hcool hhot
  case image =>
    intro s image slot opts svn1 svn2 sig1 sig2 hrun hstep himage x
    show execPldmFirmwareUpdate image slot opts svn1 svn2 sig1 sig2 s = _
    exact onDev_eq hrun ((if_neg (by omega)).trans (if_pos himage))
  case options =>
    intro s image slot opts svn1 svn2 sig1 sig2 hrun hstep himage hlen
    show execPldmFirmwareUpdate image slot opts svn1 svn2 sig1 sig2 s = _
    exact onDev_eq hrun ((if_neg (by omega)).trans ((if_neg (by simp [himage])).trans (if_neg (not_not.2 hlen))))

end Sys2Proof.Machine
end

section
/-! Reports, SYNC_QUERY, unassigned opcodes and function-level resets (R371, R521 to R523, R530, R538, R592, R616). -/
namespace Sys2Proof.Machine
open Sys2Proof

/-- A command that fits and needs no block is answered as its rules decide at once. -/
theorem command_fits_answers {d : Dev} {h : Hdr} {data may params : Bool} {run : Dev → Res} {x : Dev} {st : Status} {result : Bytes}
    (op : Nat) (hfits : d.fits h data = true) (hmay : may = true) (hparams : params = true)
    (hrun : run (d.entered h) = { dev := x, st := st, result := result }) :
    d.command h op may params data run = x.answered h op st result := by
  rw [command_fits d h op may params data run hfits hmay hparams, hrun]
  rfl

/-- An entry that fits carries an address of host memory that can be reached, where it uses one. -/
theorem dma_of_fits {d : Dev} {h : Hdr} (hfits : d.fits h true = true) : h.dma = true := by
  simp only [Dev.fits, Bool.not_true, Bool.false_or, Bool.and_eq_true] at hfits
  obtain ⟨⟨⟨-, hdma⟩, -⟩, -⟩ := hfits
  exact hdma

/-- An entry that fits where it uses host memory fits where it does not. -/
theorem fits_without_data {d : Dev} {h : Hdr} {data : Bool} (hfits : d.fits h data = true) : d.fits h false = true := by
  simp only [Dev.fits, Bool.and_eq_true] at hfits ⊢
  obtain ⟨⟨⟨hseq, -⟩, heq⟩, hissuer⟩ := hfits
  exact ⟨⟨⟨hseq, rfl⟩, heq⟩, hissuer⟩

/-- A SYNC_QUERY in sequence, on a ring that executes nothing, is a command like any other (R530). -/
theorem syncCommand_in_sequence {d : Dev} {h : Hdr} {params : Bool} {run : Dev → Res} (htakes : d.takes h = true)
    (hidle : (d.ring h.fn h.ring).busy = none) (hseq : (d.take h).seqDiff h = 0) :
    d.syncCommand h params run = d.command h 0x0903 true params false run := by
  simp [Dev.syncCommand, Dev.command, htakes, hidle, hseq]

/-- There it is answered as its mode's rules decide at once. -/
theorem syncCommand_answers {d : Dev} {h : Hdr} {data params : Bool} {run : Dev → Res} {x : Dev} {st : Status} {result : Bytes}
    (hfits : d.fits h data = true) (hidle : (d.ring h.fn h.ring).busy = none) (hparams : params = true)
    (hrun : run (d.entered h) = { dev := x, st := st, result := result }) :
    d.syncCommand h params run = x.answered h 0x0903 st result := by
  have hplain := fits_without_data hfits
  simp only [Dev.fits, Bool.and_eq_true, beq_iff_eq, Bool.not_eq_true'] at hfits
  obtain ⟨⟨⟨⟨⟨⟨-, htakes⟩, hseq⟩, -⟩, -⟩, -⟩, -⟩ := hfits
  rw [syncCommand_in_sequence htakes hidle hseq, command_fits_answers 0x0903 hplain rfl hparams hrun]

/-- Settles O41: each command passes its checks and meets none of its refusals. -/
theorem reportAndSyncCommands : Obligations.ReportAndSyncCommands := by
  refine ⟨?faults, ?health, ?query, ?replay, ?reset, ?unassigned, ?function, ?physical, ?perst⟩
  case faults =>
    intro s h addr len frm hrun hfits hfn e rs
    show execFaultReport h addr len frm s = _
    exact onDev_eq hrun (command_fits_answers 0x0904 hfits (beq_iff_eq.2 hfn) rfl rfl)
  case health =>
    intro s h addr len hrun hfits hfn e body
    show execHealthRead h addr len s = _
    exact onDev_eq hrun (command_fits_answers 0x0905 hfits (beq_iff_eq.2 hfn) rfl rfl)
  case query =>
    intro s h outAddr outLen ring hrun hfits hidle e hring rings queues body about hroom e'
    show execSyncQuery h outAddr outLen ring s = _
    refine onDev_eq hrun (syncCommand_answers hfits hidle hring ?_)
    exact (if_neg (Nat.not_lt.2 hroom)).trans (if_neg (by simp [dma_of_fits hfits]))
  case replay =>
    intro s h outAddr frm outLen ring hrun hfits hidle e hone hring hon hlog hroom again d d'
    show execSyncReplay h outAddr frm outLen ring s = _
    refine onDev_eq hrun (syncCommand_answers hfits hidle (by simp [hone, hring]) ?_)
    have hholds : ¬(e.gf F.CMD_RQ_CFG_EN h.fn ring = 0 ∨ (!e.logHolds h.fn ring frm) = true) := by simp [hon, hlog]
    exact (if_neg hholds).trans ((if_neg (Nat.not_lt.2 hroom)).trans (if_neg (by simp [dma_of_fits hfits])))
  case reset =>
    intro s h frm ring hrun hfits hidle e hone hring hstopped d
    show execSyncReset h frm ring s = _
    refine onDev_eq hrun (syncCommand_answers hfits hidle (by simp [hone, hring]) ?_)
    exact if_neg (Bool.eq_false_iff.1 hstopped)
  case unassigned =>
    intro s h op hrun hop htakes hseq d
    show execUnassignedOpcode h op s = _
    exact onDev_eq hrun ((if_neg (by simp [hop, htakes])).trans (if_pos hseq))
  case function =>
    intro s fn hrun hfn hvirtual
    show execFunctionLevelReset fn s = _
    exact onUnit_eq (decide_eq_true hfn) hrun (if_neg hvirtual)
  case physical =>
    intro s fn hrun hfn
    show execFunctionLevelReset fn s = _
    exact onUnit_eq (decide_eq_true (by omega)) hrun (if_pos hfn)
  case perst =>
    intro s hrun
    show execPerst s = _
    exact onDev_eq hrun (if_pos rfl)

end Sys2Proof.Machine
end

section
/-! Programs of a half, its map segments and root, and releases that take effect (R346 to R360). -/
namespace Sys2Proof.Machine
open Sys2Proof

/-- Both copies of a page of the map are programmed one after the other, and the turn of the SYSTEM stream goes on from the second. -/
theorem programTwice_eq (x : Half) (b1 b2 now : Nat) (k : Media) (t : HTag) (page : Nat → NPage) (data : Nat → Bytes) :
    x.programTwice b1 b2 now k t page data =
      let y := (x.openFor b1 0).program b1 now k t (page 0) (data 0)
      let z := (y.2.openFor b2 0).program b2 now k t (page 1) (data 1)
      ((y.1, z.1), z.2.turned 0 (lunOf b2)) := rfl

/-- MAP_SEGMENT_WRITE of the oldest dirty segment, once two blocks take its copies. -/
theorem exec_mapSegmentWrite {s : State} {half b1 b2 seg : Nat} {rest : List Nat} {p : Nat × Nat} {y w : Half} (hrun : s.runs = true)
    (hhalf : half < 2) (hdirty : (s.dev.half half).dirty = seg :: rest) (hready : s.dev.hready half = true)
    (hcool : (s.dev.half half).thermal ≠ 2) (hpair : (s.dev.half half).takesPair b1 b2 1 = true)
    (htwice : (s.dev.half half).programTwice b1 b2 s.dev.now (s.dev.media half) (mapTag seg) (fun _ => (s.dev.half half).segPage seg)
      (fun _ => (s.dev.half half).segData seg) = (p, y))
    (hw : { y with
      dirty := rest
      segAt := NMap.put y.segAt seg p
      segsSinceRoot := y.segsSinceRoot + 1
      hostPages := y.hostPages + 1 } = w) :
    exec (.mapSegmentWrite half b1 b2) s = .next (s.put ((s.dev.setHalf half (w.releaseDone.touchDir seg)).admitAll)) := by
  show execMapSegmentWrite half b1 b2 s = _
  have hgoes : (s.dev.hready half && (s.dev.half half).thermal != 2 && (s.dev.half half).takesPair b1 b2 1) = true := by
    simp [hready, hcool, hpair]
  refine onUnit_eq (decide_eq_true hhalf) hrun ?_
  simp only [hdirty, hgoes, htwice, hw, if_true]

/-- A page of the buffer with its copies programmed: the map names the first, and the buffer notes them. -/
def Half.mapBuf (x : Half) (b : HBuf) (ppa : Nat) (done : List Nat) : Half :=
  ({ x with
    map := NMap.put x.map b.lpn ppa
    buffer := x.buffer.map fun (q : HBuf) => if q.lpn = b.lpn then { q with done := done } else q } : Half).touch b.lpn

/-- A page of data of the buffer is programmed once. -/
theorem programBuf_data (x : Half) (block twin now : Nat) (k : Media) {b : HBuf} (h : b.system = false) :
    x.programBuf block twin now k b =
      let z := x.program block now k (x.tagOf b) (x.pageOfBuf b) (x.pageData b)
      z.2.mapBuf b z.1 [z.1] := by
  simp only [Half.programBuf, h]
  rfl

/-- A system page of the buffer is programmed twice. -/
theorem programBuf_system (x : Half) (block twin now : Nat) (k : Media) {b : HBuf} (h : b.system = true) :
    x.programBuf block twin now k b =
      let z := x.program block now k (x.tagOf b) (x.pageOfBuf b) (x.pageData b)
      let y := z.2.program twin now k (z.2.tagOf b) (z.2.pageOfBuf b) (z.2.pageData b)
      ({ y.2 with twins := NMap.put y.2.twins b.lpn y.1 } : Half).mapBuf b z.1 [z.1, y.1] := by
  simp only [Half.programBuf, h]
  rfl

/-- A root is written with the dirty directory pages before it, and appended to both root blocks (R355; log entry 20). -/
theorem writeRoot_eq (x : Half) (now : Nat) (k : Media) :
    x.writeRoot now k =
      let y := x.dirtyDir.foldl (fun y i => y.writeDir now k i) x
      let z := ((y.appendRoot now k y.rootPage y.rootData 0).appendRoot now k y.rootPage y.rootData (128 * lunBlocks)).releaseDone
      { z with
        rootAt := now
        roots := z.roots + 1
        segsSinceRoot := 0 } := by
  unfold Half.writeRoot
  rfl

/-- Settles O47: each event finds its object, its pages or its dirty segment, and a half that takes programs. -/
theorem hamperWritesComplete : Obligations.HamperWritesComplete := by
  refine ⟨?release, ?program, ?segment, ?root⟩
  case release =>
    intro s half index o hrun hhalf hobj hvalid hreleasing hreads handle d
    show execObjectRelease half index s = _
    refine onUnit_eq (decide_eq_true hhalf) hrun ?_
    simp only [hobj]
    exact if_pos (by simp [hvalid, hreleasing, hreads])
  case program =>
    intro s half block twin lpns hrun hhalf x bufs kinds stream hsome hbufs hnodup hkinds hcool hroom hline hready done two one y y'
    show execNandProgramDone half ⟨block, twin⟩ lpns s = _
    have hone : (fun (x : Half) b => x.programBuf block twin s.dev.now (s.dev.media half) b) = one := by
      funext x b
      cases hb : b.system
      case false =>
        rw [programBuf_data _ _ _ _ _ hb]
        simp only [one, hb]
        rfl
      case true =>
        rw [programBuf_system _ _ _ _ _ hb]
        simp only [one, two, done, hb]
        rfl
    have hok : (decide (1 ≤ lpns.length) && bufs.length == lpns.length && decide lpns.Nodup && kinds.all (· == stream) &&
        x.thermal != 2 && (if stream = 0 then x.takesPair block twin lpns.length && x.fitsLine twin lpns.length
          else x.takesNext block lpns.length stream) && x.fitsLine block lpns.length && s.dev.hready half) = true := by
      simp only [hkinds, hroom, hline, hready, Bool.and_true, Bool.and_eq_true, decide_eq_true_eq, beq_iff_eq, bne_iff_ne]
      exact ⟨⟨⟨hsome, hbufs⟩, hnodup⟩, hcool⟩
    refine onUnit_eq (decide_eq_true hhalf) hrun ((if_neg (Bool.eq_false_iff.1 (congrArg not hok))).trans ?_)
    rw [hone]
    rfl
  case segment =>
    intro s half b1 b2 seg rest hrun hhalf x hdirty hready hcool hpair tag y z w
    have htwice : x.programTwice b1 b2 s.dev.now (s.dev.media half) (mapTag seg) (fun _ => x.segPage seg) (fun _ => x.segData seg) =
      ((y.1, z.1), z.2.turned 0 (lunOf b2)) := programTwice_eq ..
    clear_value z
    exact exec_mapSegmentWrite hrun hhalf hdirty hready hcool hpair htwice rfl
  case root =>
    intro s half hrun hhalf hready x hcool d k y z
    show execRootWrite half s = _
    refine onUnit_eq (decide_eq_true hhalf) hrun ((if_neg ?_).trans (congrArg (d.setHalf half) (writeRoot_eq x d.now k)))
    simpa [hready] using hcool

end Sys2Proof.Machine
end

section
/-! The upkeep of a half: collection, refresh, retention, pages and blocks that fail, temperature (R361 to R370). -/
namespace Sys2Proof.Machine
open Sys2Proof

/-- A victim's pages need no room where none is valid, and else a block beside its own that takes them. -/
theorem room_iff {x : Half} {victim dst : Nat} {takes : Bool} :
    ((x.validOf victim).isEmpty || (victim != dst && takes)) = true ↔ x.validOf victim = [] ∨ victim ≠ dst ∧ takes = true := by
  simp

/-- The next FLUSH block of a plane changes no count of refreshed blocks. -/
theorem refreshed_keepFlush (x : Half) (plane : Nat) :
    (x.keepFlush plane).rdRefresh = x.rdRefresh ∧ (x.keepFlush plane).retRefresh = x.retRefresh := by
  unfold Half.keepFlush
  split
  · exact ⟨rfl, rfl⟩
  · dsimp only
    split <;> exact ⟨rfl, rfl⟩

/-- Nor does an erase. -/
theorem refreshed_eraseEmpty (x : Half) (b : Nat) :
    (x.eraseEmpty b).rdRefresh = x.rdRefresh ∧ (x.eraseEmpty b).retRefresh = x.retRefresh := by
  unfold Half.eraseEmpty
  split
  · exact refreshed_keepFlush (x.setBlock b _) (b / 2484)
  · exact ⟨rfl, rfl⟩

/-- The block that a refresh empties is erased before the refresh is counted, by its cause. -/
theorem count_refresh (y : Half) (block : Nat) (retained : Bool) :
    (if (!retained) = true then { y.eraseEmpty block with rdRefresh := y.rdRefresh + 1 }
      else { y.eraseEmpty block with retRefresh := y.retRefresh + 1 }) =
      let z := if (y.validOf block).isEmpty then y.erase block else y
      if retained = true then { z with retRefresh := z.retRefresh + 1 } else { z with rdRefresh := z.rdRefresh + 1 } := by
  obtain ⟨hread, hretain⟩ := refreshed_eraseEmpty y block
  show _ = (if retained = true then { y.eraseEmpty block with retRefresh := (y.eraseEmpty block).retRefresh + 1 }
    else { y.eraseEmpty block with rdRefresh := (y.eraseEmpty block).rdRefresh + 1 })
  cases retained <;> simp [hread, hretain]

/-- A page of an object that the map names, and that is not in the buffer, is lost when it stays uncorrectable (R364). -/
theorem unreadable_object {d : Dev} {half ppa : Nat} {t : HTag} (htag : NMap.get? (d.half half).tags ppa = some t)
    (hnamed : NMap.get? (d.half half).map t.lpn = some ppa) (hone : 1 ≤ t.kind) (hfive : t.kind ≤ 5)
    (hbuf : (d.half half).inBuffer ppa = false) :
    let x := d.half half
    let lun := lunOf (ppa / blockPages)
    d.unreadable half ppa = (d.setHalf half { x with
      uncorr := x.uncorr + 1
      unread := x.unread ++ [ppa]
      unc := NMap.put x.unc lun (NMap.getD x.unc lun [] ++ [d.now]) }).losePage half t := by
  have hlost : (NMap.get? (d.half half).map t.lpn == some ppa && decide (1 ≤ t.kind) && decide (t.kind ≤ 5) &&
      !(d.half half).inBuffer ppa) = true := by simp [hnamed, hone, hfive, hbuf]
  unfold Dev.unreadable
  simp only [htag]
  exact (if_neg (by omega)).trans ((if_neg (by omega)).trans (if_pos hlost))

/-- A lost page of an object that a session's buddy mirrors is asked of the buddy, else the object is damaged (R364). -/
theorem losePage_owned {d : Dev} {half i : Nat} {t : HTag} {o : HObj} (howner : (d.half half).ownerOf t.lpn = some (i, o)) :
    d.losePage half t =
      let slot := d.slotOf o.sid
      let a := ((slot.map fun k => d.sess k).getD {}).d
      let y := d.half half
      let o := { o with holes := o.holes ++ [pageIn o.extents t.lpn] }
      if slot.isSome && ((o.kind == 1 && a.mirrorValid) || o.kind == 2) && a.buddy != 0 && a.buddy != d.self then
        (d.setHalf half { y with
          objs := NMap.put y.objs i o
          repairs := y.repairs ++ [(t.lpn, NMap.getD y.map t.lpn 0)] }).toBuddy (slot.getD 0) 7 (o.kind + 2)
          (16384 * pageIn o.extents t.lpn) 16384 []
      else d.setHalf half (y.putObj i { o with damaged := true }) := by
  unfold Dev.losePage
  simp only [howner]

/-- Settles O48: each event of a half meets the conditions of its effect. -/
theorem hamperUpkeepComplete : Obligations.HamperUpkeepComplete := by
  refine ⟨?collects, ?refreshes, ?evacuates, ?scans, ?unreadable, ?programFails, ?eraseFails, ?warms⟩
  case collects =>
    intro s half victim dst more hrun hhalf x lun level below due urgent hready hruns hright hroom hcool d y d'
    show execGarbageCollection half victim dst more s = _
    refine onUnit_eq (decide_eq_true hhalf) hrun ((if_pos ?_).trans rfl)
    simp only [Bool.and_eq_true, bne_iff_ne]
    exact ⟨⟨⟨⟨hready, hruns⟩, hright⟩, room_iff.2 hroom⟩, hcool⟩
  case refreshes =>
    intro s half block dst reads bits hrun hhalf x n limit worn inUse hready hevac hdue hruns hroom hcool y y' z
    show execRefresh half block dst reads bits s = _
    have hruns' : (s.dev.on F.HMP_CTL_REFRESH_EN || decide (2 * limit ≤ n) || x.evacQ.contains block) = true := by
      simp [hruns]
    have hdue' : (x.refreshQ.contains block || x.retainQ.contains block || (worn && inUse) || x.evacQ.contains block) = true := by
      rw [hdue, Bool.true_or]
    refine onUnit_eq (decide_eq_true hhalf) hrun ((if_pos ?_).trans ?_)
    · simp only [Bool.and_eq_true, bne_iff_ne]
      exact ⟨⟨⟨⟨hready, hdue'⟩, hruns'⟩, room_iff.2 hroom⟩, hcool⟩
    · exact congrArg (s.dev.setHalf half) ((if_neg (Bool.eq_false_iff.1 hevac)).trans (count_refresh y block _))
  case evacuates =>
    intro s half block dst reads bits hrun hhalf x hready hevac hroom hcool y left
    show execRefresh half block dst reads bits s = _
    refine onUnit_eq (decide_eq_true hhalf) hrun ((if_pos ?_).trans ?_)
    · simp only [Bool.and_eq_true, bne_iff_ne]
      exact ⟨⟨⟨⟨hready, Bool.or_eq_true_iff.2 (.inr hevac)⟩, Bool.or_eq_true_iff.2 (.inr hevac)⟩, room_iff.2 hroom⟩, hcool⟩
    · exact congrArg (s.dev.setHalf half) (if_pos hevac)
  case scans =>
    intro s half bits hard t hrun hhalf hdue d x full age old worn add weak ecc y
    show execRetentionScan half bits hard s = _
    refine onUnit_eq (decide_eq_true hhalf) hrun ?_
    simp only [hdue]
    rfl
  case unreadable =>
    intro s half ppa dst t i o hrun hhalf x htag lun y d hnamed hone hfive hbuf howner slot a mirrored o' y' asks ask loss
    show execUncorrectablePage half ppa dst s = _
    have hhas : NMap.has x.tags ppa = true := by simp [NMap.has, htag]
    refine onUnit_eq (decide_eq_true hhalf) hrun ((if_pos hhas).trans ?_)
    rw [unreadable_object htag hnamed hone hfive hbuf]
    exact congrArg (fun e : Dev => e.markBad half (ppa / blockPages) dst (some ppa)) (losePage_owned howner)
  case programFails =>
    intro s half block dst hrun hhalf hblock
    show execProgramFailure half block dst s = _
    exact onUnit_eq (by simp [hhalf, hblock]) hrun rfl
  case eraseFails =>
    intro s half block hrun hhalf hblock
    show execEraseFailure half block s = _
    exact onUnit_eq (by simp [hhalf, hblock]) hrun rfl
  case warms =>
    intro s half pkg temp hrun hhalf hpkg x temps lim d
    show execHamperThermal half pkg temp s = _
    exact onUnit_eq (by simp [hhalf, hpkg]) hrun rfl

end Sys2Proof.Machine
end

section
/-! Packets of the hall: what the head and the connection check let through, and connection requests, acceptances, rejections and the
end of connections (R385, R389, R393 to R401, R504). -/
namespace Sys2Proof.Machine
open Sys2Proof

/-- A QHT frame for this controller passes the checks of its head, counted (R390, R401). -/
theorem qhtHead_taken {d : Dev} {port typ : Nat} {h : Bytes} (k : Dev → Dev) (ht : d.hallTakes port typ h = true) :
    d.qhtHead port typ h k = k d.arrived := by
  simp only [Dev.hallTakes, Bool.and_eq_true, beq_iff_eq] at ht
  obtain ⟨⟨⟨⟨hen, hrole⟩, hver⟩, htyp⟩, hdst⟩ := ht
  simp [Dev.qhtHead, Dev.arrived, hen, hrole, hver, htyp, hdst]

/-- A packet of a connection passes the connection check and the tag check (R401). -/
theorem qhtIn_named {d : Dev} {port typ i : Nat} {tag : Bool} {h : Bytes} (k : Nat → Dev → Dev)
    (hin : d.hallIn port typ tag h i = true) :
    d.qhtIn port typ tag h k = k i d.arrived := by
  simp only [Dev.hallIn, Bool.and_eq_true, beq_iff_eq] at hin
  obtain ⟨⟨⟨htakes, rfl⟩, hnamed⟩, htag⟩ := hin
  rw [Dev.qhtIn, qhtHead_taken _ htakes]
  simp [Dev.arrived, hnamed, htag]

/-- A QHT frame for this controller, on one that runs, puts what its own rules compute. -/
theorem onDev_qhtHead {s : State} {port typ : Nat} {h : Bytes} {f : Memory → Dev → Dev} {d : Dev} (hrun : s.runs = true)
    (ht : s.dev.hallTakes port typ h = true) (hd : f s.hbm s.dev.arrived = d) :
    onDev (fun m e => e.qhtHead port typ h (f m)) s = .next (s.put d) :=
  onDev_eq hrun ((qhtHead_taken _ ht).trans hd)

/-- A packet of a connection, on a controller that runs, puts what its own rules compute. -/
theorem onDev_qhtIn {s : State} {port typ i : Nat} {tag : Bool} {h : Bytes} {f : Memory → Nat → Dev → Dev} {d : Dev}
    (hrun : s.runs = true) (hin : s.dev.hallIn port typ tag h i = true) (hd : f s.hbm i s.dev.arrived = d) :
    onDev (fun m e => e.qhtIn port typ tag h (f m)) s = .next (s.put d) :=
  onDev_eq hrun ((qhtIn_named _ hin).trans hd)

/-! Connection requests (R393 to R397, R504) -/

section Authenticated

variable {d : Dev} {mac : Bool} {h body : Bytes} (henrolled : d.enrolled = true) (hmac : mac = true)
  (hgen : d.holdsGen (leAt body 0xA0 4) = true)
include henrolled hmac hgen

/-- An authenticated request of a peer and class without an entry is accepted on a new one (R393, R397). -/
theorem reqIn_new (hconn : d.connOf (srcOf h) (classOf h) = none) : d.reqIn mac h body = d.acceptNew h body := by
  simp [Dev.reqIn, henrolled, hmac, hgen, hconn]

/-- Of crossing requests the one of the lower id wins (R395). -/
theorem reqIn_connecting {i : Nat} (hconn : d.connOf (srcOf h) (classOf h) = some i) (hstate : (d.conn i).state = .connecting) :
    d.reqIn mac h body = if d.self < (d.conn i).peer then d.rejectConn h 1 else d.acceptConn i h body := by
  simp [Dev.reqIn, henrolled, hmac, hgen, hconn, hstate]

/-- A request that meets an open connection is a repeated one, or it goes by its BOOT (R394, R396). -/
theorem reqIn_open {i : Nat} (hconn : d.connOf (srcOf h) (classOf h) = some i)
    (hstate : (d.conn i).state = .opened ∨ (d.conn i).state = .draining) :
    d.reqIn mac h body =
      if hf body 8 0 64 = (d.conn i).peerBoot ∧ hf body 0 32 32 = (d.conn i).peerEpoch then d.sendConnAccept i
      else if hf body 8 0 64 < (d.conn i).peerBoot then d.rejectConn h 3
      else if (d.conn i).peerBoot < hf body 8 0 64 then (d.failConn i 4).acceptNew h body
      else d.rejectConn h 2 := by
  rcases hstate with hstate | hstate <;> simp [Dev.reqIn, henrolled, hmac, hgen, hconn, hstate]

end Authenticated

/-- CONN_REQ for this controller is judged by `Dev.reqIn`. -/
theorem exec_connReq {s : State} {port : Nat} {mac : Bool} {hdr data : Bytes} {d : Dev} (hrun : s.runs = true)
    (ht : s.dev.hallTakes port 5 hdr = true) (hd : s.dev.arrived.reqIn mac hdr data = d) :
    exec (.connReq port mac hdr data) s = .next (s.put d) := by
  show execConnReq port mac hdr data s = _
  exact onDev_qhtHead hrun ht hd

/-- CONN_REJECT for a connecting entry drops it, and DENIED ends the messages that wait (R393, R395). -/
theorem exec_connReject_connecting {s : State} {port reason : Nat} {hdr : Bytes} {x : Conn} (hrun : s.runs = true)
    (ht : s.dev.hallTakes port 7 hdr = true) (hx : s.dev.arrived.conn (hf hdr 8 32 14) = x) (hpeer : x.peer = srcOf hdr)
    (hbulk : x.bulk = classOf hdr) (hstate : x.state = .connecting) :
    let dropped := s.dev.arrived.dropConn (hf hdr 8 32 14)
    exec (.connReject port hdr reason) s =
      .next (s.put (if reason = 3 then dropped.endWait x.peer x.bulk .denied else dropped)) := by
  subst hx
  show execConnReject port hdr reason s = _
  exact onDev_qhtHead hrun ht ((if_neg (by simp [hpeer, hbulk])).trans (if_pos hstate))

/-- Settles O14: a request that meets a connecting entry goes by the two ids, and a rejection drops that entry. -/
theorem crossingRequests : Obligations.CrossingRequests := by
  refine ⟨?accepts, ?rejects, ?drops⟩
  case accepts =>
    intro s port mac hdr data i hrun ht d henrolled hmac hgen hconn x hstate hhigher
    exact exec_connReq hrun ht
      ((reqIn_connecting henrolled hmac hgen hconn hstate).trans (if_neg (Nat.not_lt.2 hhigher.le)))
  case rejects =>
    intro s port mac hdr data i hrun ht d henrolled hmac hgen hconn x hstate hlower
    exact exec_connReq hrun ht ((reqIn_connecting henrolled hmac hgen hconn hstate).trans (if_pos hlower))
  case drops =>
    intro s port hdr reason hrun ht d i x hpeer hbulk hstate hreason
    subst hreason
    exact exec_connReject_connecting hrun ht rfl hpeer hbulk hstate

/-- Settles O15: the BOOT of a request that meets an open connection lies above or below the one recorded. -/
theorem restartedPeers : Obligations.RestartedPeers := by
  refine ⟨?restarted, ?stale⟩
  case restarted =>
    intro s port mac hdr data i hrun ht d henrolled hmac hgen hconn x hstate hboot
    refine exec_connReq hrun ht ((reqIn_open henrolled hmac hgen hconn hstate).trans ?_)
    rw [if_neg fun hsame => hboot.ne' hsame.1, if_neg hboot.not_gt, if_pos hboot]
  case stale =>
    intro s port mac hdr data i hrun ht d henrolled hmac hgen hconn x hstate hboot
    refine exec_connReq hrun ht ((reqIn_open henrolled hmac hgen hconn hstate).trans ?_)
    rw [if_neg fun hsame => hboot.ne hsame.1, if_pos hboot]

end Sys2Proof.Machine
end

section
/-! The life of a connection (R393 to R399, R504). -/
namespace Sys2Proof.Machine
open Sys2Proof

/-- A connection of which a packet has waited for its acknowledgement, or no path has been LIVE, for FAIL_MS fails by the cause that is
the first to have lasted that long (R398). -/
theorem exec_connFailed_live {s : State} {conn : Nat} {first since : Option Nat} (hrun : s.runs = true)
    (hlive : (s.dev.conn conn).state = .opened ∨ (s.dev.conn conn).state = .draining)
    (hfirst : (s.dev.conn conn).pkts.foldl (fun b k => some (b.elim k.first fun t => min t k.first)) none = first)
    (hsince : (s.dev.conn conn).noPathSince = since) :
    let failed (t cause : Nat) : Dev := (s.dev.reach (t + s.dev.g F.HLF_CONN_CFG_FAIL_MS * 1000000)).failConn conn cause
    exec (.connFailed conn) s = .next (s.put (first.elim (since.elim s.dev fun u => failed u 2) fun t =>
      since.elim (failed t 1) fun u => if t ≤ u then failed t 1 else failed u 2)) := by
  show execConnFailed conn s = _
  have hnot : ¬((s.dev.conn conn).state ≠ .opened ∧ (s.dev.conn conn).state ≠ .draining) := by tauto
  refine onDev_eq hrun ((if_neg hnot).trans ?_)
  dsimp only
  generalize hoft : List.foldl _ none (s.dev.conn conn).pkts = oldest
  have holdest : oldest = first := hoft.symm.trans ((List.foldl_ext _ _ none fun b k _ => by cases b <;> rfl).trans hfirst)
  rw [holdest, hsince]
  cases first <;> cases since <;> rfl

/-- A CONN_ACCEPT names an entry of its peer and class that is connecting or being rekeyed (R393, R399). -/
theorem connAccept_expected {x : Conn} {h : Bytes} (hpeer : x.peer = srcOf h) (hbulk : x.bulk = classOf h)
    (hwaits : x.state = .connecting ∨ x.state = .opened ∧ x.rekeying = true) :
    ¬(x.peer ≠ srcOf h ∨ x.bulk ≠ classOf h ∨ !(x.state == .connecting || (x.state == .opened && x.rekeying))) := by
  simpa [hpeer, hbulk, or_iff_not_imp_left] using hwaits

/-- An authenticated REKEY under a held key generation is not refused (R501, R504). -/
theorem rekey_authentic {d : Dev} {mac : Bool} {gen : Nat} (hmac : mac = true) (henrolled : d.enrolled = true)
    (hgen : d.holdsGen gen = true) : ¬(!mac ∨ !d.enrolled ∨ !d.holdsGen gen) := by
  simp [hmac, henrolled, hgen]

/-- Settles O50: each connection packet finds its entry, whose state and what the packet says then decide, and each timer finds the
state of its effect. -/
theorem hallConnectionsComplete : Obligations.HallConnectionsComplete := by
  refine ⟨?new, ?crossing, ?known, ?opens, ?rekeyed, ?rejected, ?repeated, ?close, ?rekey, ?idle, ?unacked, ?either, ?noPath, ?ended⟩
  case new =>
    intro s port mac hdr data hrun ht d henrolled hmac hgen hconn
    exact exec_connReq hrun ht (reqIn_new henrolled hmac hgen hconn)
  case crossing =>
    intro s port mac hdr data i hrun ht d henrolled hmac hgen hconn x hstate hhigher
    exact exec_connReq hrun ht
      ((reqIn_connecting henrolled hmac hgen hconn hstate).trans (if_neg (Nat.not_lt.2 hhigher)))
  case known =>
    intro s port mac hdr data i hrun ht d henrolled hmac hgen hconn x hstate boot epoch same
    refine exec_connReq hrun ht ((reqIn_open henrolled hmac hgen hconn hstate).trans ?_)
    simp only [same, decide_eq_true_eq]
    rfl
  case opens =>
    intro s port mac hdr data hrun ht d hmac i x hpeer hbulk e hstate y
    show execConnAccept port mac hdr data s = _
    exact onDev_qhtHead hrun ht ((if_neg (connAccept_expected hpeer hbulk (.inl hstate))).trans
      ((if_neg (by simp [hmac])).trans (if_pos hstate)))
  case rekeyed =>
    intro s port mac hdr data hrun ht d hmac i x hpeer hbulk e hstate hrekeying
    show execConnAccept port mac hdr data s = _
    have hopen : x.state ≠ .connecting := by simp [hstate]
    exact onDev_qhtHead hrun ht ((if_neg (connAccept_expected hpeer hbulk (.inr ⟨hstate, hrekeying⟩))).trans
      ((if_neg (by simp [hmac])).trans (if_neg hopen)))
  case rejected =>
    intro s port hdr reason hrun ht d i x hpeer hbulk hstate d'
    exact exec_connReject_connecting hrun ht rfl hpeer hbulk hstate
  case repeated =>
    intro s conn hrun x hstate d till
    show execConnReqRetry conn s = _
    exact onDev_eq hrun (if_neg (not_not.2 hstate))
  case close =>
    intro s port ce tag hdr i hrun hin d
    show execClose port ce tag hdr s = _
    exact onDev_qhtIn hrun hin rfl
  case rekey =>
    intro s port ce tag mac hdr data i hrun hin d hmac henrolled hgen p e d'
    show execRekey port ce tag mac hdr data s = _
    exact onDev_qhtIn hrun hin (if_neg (rekey_authentic hmac henrolled hgen))
  case idle =>
    intro s conn hrun x hstate hquiet
    show execConnIdle conn s = _
    exact onDev_eq hrun (if_pos ⟨hstate, hquiet⟩)
  case unacked =>
    intro s conn t hrun x hlive ms sooner hfirst hsince
    exact exec_connFailed_live hrun hlive hfirst hsince
  case either =>
    intro s conn t u hrun x hlive ms sooner hfirst hsince
    exact exec_connFailed_live hrun hlive hfirst hsince
  case noPath =>
    intro s conn u hrun x hlive ms hnone hsince
    exact exec_connFailed_live hrun hlive (by rw [hnone, List.foldl_nil]) hsince
  case ended =>
    intro s conn hrun x hstate
    show execConnFailedEnd conn s = _
    exact onDev_eq hrun (if_pos hstate)

end Sys2Proof.Machine
end

section
/-! Pages of PAGED regions, and RoCEv2 as responder and requester (R413 to R415, R417 to R421). -/
namespace Sys2Proof.Machine
open Sys2Proof

/-- Settles O51: a page that may arrive meets its region, and a wait that ends finds what was held. -/
theorem pagedRegionsComplete : Obligations.PagedRegionsComplete := by
  refine ⟨?fetch, ?roceStall, ?hallStall⟩
  case fetch =>
    intro s region page ok r hrun hregion hmay failed r' d src bytes d₁ d₂ m waits retry d₃ d₄
    show execPageFetch region page ok s = _
    refine onDev_eq hrun ?_
    simp only [hregion]
    refine (if_neg (by simp [hmay])).trans ?_
    simp only [d₄, d₃, d₂, d₁, m, bytes, src, d, r', failed, retry, waits, Bool.and_eq_true, beq_iff_eq]
    generalize Dev.histPage _ region page = source
    cases source <;> rfl
  case roceStall =>
    intro s index seq x e hrun hqp hheld d k y d'
    show execPageStall true index seq s = _
    refine onDev_eq hrun ?_
    simp only [hqp, hheld]
    rfl
  case hallStall =>
    intro s index seq t u hrun htrack huntil d us d'
    show execPageStall false index seq s = _
    refine onDev_eq hrun ?_
    simp only [htrack, huntil]
    rfl

/-! RoCEv2 as responder (R414, R417, R419) -/

/-- The next request of a queue pair in RTS, on a port of its role, advances RQ_PSN and is executed (R417, R419). -/
theorem roceIn_next {d e e' : Dev} {i psn n came : Nat} {ce : Bool} {x z y : Qp} (dup fresh : Qp → Dev → Dev)
    (hqp : NMap.get? d.hall.qps i = some x) (hen : d.on F.RCE_CTL_EN = true) (hstate : x.state = .rts)
    (hrole : d.gi F.HLF_PORT_ROLE x.port = 1) (he : (d.wrap F.RCE_CNT0_PKTS_IN came).cnp i ce = e)
    (hz : NMap.getD e.hall.qps i x = z) (hnext : signed 24 (psn + 2 ^ 24 - z.rqPsn) = 0)
    (hy : { z with rqPsn := (z.rqPsn + n) % 2 ^ 24 } = y) (he' : e.setQp i y = e') :
    d.roceIn i psn n came ce dup fresh = fresh y e' := by
  subst he hz hy he'
  simp only [Dev.roceIn, hqp]
  refine (if_neg (by simp [hen, hstate, hrole])).trans ?_
  exact (if_neg (by omega)).trans (if_neg (by omega))

/-- Settles O52: each request is the next of its queue pair, and each acknowledgement, CNP and timer finds a queue pair that carries
traffic. -/
theorem roceComplete : Obligations.RoceComplete := by
  refine ⟨?write, ?writeRan, ?read, ?readWaits, ?send, ?acked, ?nak, ?timeout, ?cnp, ?rise⟩
  case write =>
    intro s qp psn key addr imm ce data x k r hrun hqp hen hstate hrole n d x' hnext y d' hnew hregion
    show execRoceWrite qp psn key addr imm ce data s = _
    refine onDev_eq hrun ((roceIn_next (y := y) (e' := d') _ _ hqp hen hstate hrole rfl rfl hnext rfl rfl).trans
      ((if_neg (Bool.eq_false_iff.1 hnew)).trans ?_))
    simp only [hregion]
    rfl
  case writeRan =>
    intro s qp psn key addr imm ce data x hrun hqp hen hstate hrole n d x' hnext y hran
    show execRoceWrite qp psn key addr imm ce data s = _
    exact onDev_eq hrun ((roceIn_next _ _ hqp hen hstate hrole rfl rfl hnext rfl rfl).trans (if_pos hran))
  case read =>
    intro s qp psn key addr len ce x k r hrun hqp hen hstate hrole n d x' hnext y d' hreads hregion a hfailed habsent
    show execRoceRead qp psn key addr len ce s = _
    refine onDev_eq hrun ((roceIn_next (y := y) (e' := d') _ _ hqp hen hstate hrole rfl rfl hnext rfl rfl).trans
      ((if_neg (Nat.not_le.2 hreads)).trans ?_))
    simp only [hregion]
    exact (if_neg (Bool.eq_false_iff.1 hfailed)).trans (if_neg (Bool.eq_false_iff.1 habsent))
  case readWaits =>
    intro s qp psn key addr len ce x k r hrun hqp hen hstate hrole n d x' hnext y d' hreads hregion a hfailed habsent d₁ till
    show execRoceRead qp psn key addr len ce s = _
    refine onDev_eq hrun ((roceIn_next (y := y) (e' := d') _ _ hqp hen hstate hrole rfl rfl hnext rfl rfl).trans
      ((if_neg (Nat.not_le.2 hreads)).trans ?_))
    simp only [hregion]
    exact (if_neg (Bool.eq_false_iff.1 hfailed)).trans (if_pos habsent)
  case send =>
    intro s qp psn op imm ce data x hrun hqp hen hstate hrole n d x' hnext y d' hop hlen
    show execRoceSend qp psn op imm ce data s = _
    exact onDev_eq hrun ((roceIn_next _ _ hqp hen hstate hrole rfl rfl hnext rfl rfl).trans (if_pos ⟨hop, hlen⟩))
  case acked =>
    intro s qp psn nak x hrun hqp hup hack
    show execRoceAck qp psn nak s = _
    refine onDev_eq hrun ?_
    simp only [hqp]
    exact (if_neg (by simp [hup])).trans (if_pos hack)
  case nak =>
    intro s qp psn nak x hrun hqp hup hnak d
    show execRoceAck qp psn nak s = _
    refine onDev_eq hrun ?_
    simp only [hqp]
    exact (if_neg (by simp [hup])).trans (if_neg hnak)
  case timeout =>
    intro s qp x t hrun hqp hat hup
    show execRoceAckTimeout qp s = _
    refine onDev_eq hrun ?_
    simp only [hqp, hat]
    exact if_pos hup
  case cnp =>
    intro s qp x hrun hqp hup least r till
    show execCnp qp s = _
    refine onDev_eq hrun ?_
    simp only [hqp]
    exact if_neg (by simp [hup])
  case rise =>
    intro s qp x t hrun hqp hat d line r next
    show execRateIncrease qp s = _
    refine onDev_eq hrun ?_
    simp only [hqp, hat]
    rfl

end Sys2Proof.Machine
end

section
/-! Hall messages (R392, R400 to R412): data packets inside the window, reads, acknowledgements and their timers. A READ_REQ needs that
placing a packet leaves the MSN that is next to become visible. -/
namespace Sys2Proof.Machine
open Sys2Proof

/-! What placing a packet leaves of its connection -/

/-- A connection reads back as it was stored. -/
@[simp] theorem conn_setConn (d : Dev) (i : Nat) (x : Conn) : (d.setConn i x).conn i = x :=
  NMap.getD_put_self d.hall.conns i x {}

/-- A packet that leaves changes nothing of the hall transport's own state. -/
@[simp] theorem packet_hall (d : Dev) (x : Conn) (path kind : Nat) (args : List Nat) (data : Bytes) :
    (d.packet x path kind args data).hall = d.hall := by
  unfold Dev.packet Dev.sendFrame
  dsimp only
  split_ifs <;> rfl

/-- The counter of an answer is none of the hall transport's own state. -/
@[simp] theorem countAnswer_hall (d : Dev) (st : Status) : (d.countAnswer st).hall = d.hall := by
  cases st <;> rfl

/-- Two blocks with the same hall state hold the same connections. -/
theorem conn_of_hall {d e : Dev} (h : d.hall = e.hall) (i : Nat) : d.conn i = e.conn i := by
  simp only [Dev.conn, h]

/-- A tracker is no part of where the connection stands. -/
@[simp] theorem next_setTrack (d : Dev) (i msn : Nat) (t : QTrack) : ((d.setTrack i msn t).conn i).next = (d.conn i).next := by
  simp [Dev.setTrack, Dev.updConn]

/-- An ACK that leaves does not move the MSN that is next. -/
@[simp] theorem next_sendAck (d : Dev) (i msn st us : Nat) : ((d.sendAck i msn st us).conn i).next = (d.conn i).next := by
  rw [Dev.sendAck, conn_of_hall (packet_hall _ _ _ _ _ _), conn_setConn]

/-- A rejection of a message does not move the MSN that is next. -/
@[simp] theorem next_refuse (d : Dev) (i : Nat) (q : QIn) (st : Status) : ((d.refuse i q st).conn i).next = (d.conn i).next := by
  rw [Dev.refuse, Dev.answer, next_sendAck, conn_of_hall (countAnswer_hall _ _), next_setTrack]

/-- A hold on a region's pages is no part of a connection. -/
@[simp] theorem conn_holdOn (d : Dev) (region : Nat) (r : Region) (a n i : Nat) : (d.holdOn region r a n).conn i = d.conn i := rfl

/-- A write to the HBM is no part of a connection. -/
@[simp] theorem conn_poke (d : Dev) (a : Nat) (bs : Bytes) (i : Nat) : (d.poke a bs).conn i = d.conn i := rfl

/-- Placing a packet's data does not move the MSN that is next. -/
@[simp] theorem next_place (d : Dev) (i msn off : Nat) (data : Bytes) : ((d.place i msn off data).conn i).next = (d.conn i).next := by
  unfold Dev.place
  split
  · rfl
  · dsimp only
    split_ifs <;> simp only [next_setTrack, conn_poke]

/-- A packet that is placed, held or refused leaves the MSN that is next (R402, R403, R414, R415). -/
theorem next_placeOrHold (d : Dev) (i : Nat) (q : QIn) (data : Bytes) :
    ((d.placeOrHold i q data).conn i).next = (d.conn i).next := by
  unfold Dev.placeOrHold
  dsimp only
  repeat' split
  all_goals simp

/-! Data packets inside the window (R401, R402) -/

/-- The tracker of a message whose first packet arrives at a port (R402). -/
def QIn.tracker (q : QIn) (port : Nat) : QTrack :=
  { type := q.typ, total := q.total, region := q.region, regionGen := q.gen, addr := q.addr, partition := q.part,
    counter := q.counter, incr := q.incr, notify := q.notify, port := port, via := NMap.put [] q.off port }

/-- A packet that waits for its page, or for which its port has room, is not answered BUSY (R412, R414). -/
theorem not_busy {waits room : Bool} (h : (waits || room) = true) : ¬(!waits && !room) = true := by
  rw [← Bool.not_or, h]
  exact Bool.false_ne_true

/-- A message's first packet, which passes its checks and finds its page absent or the port with room, is placed or held. -/
theorem dataNew_first {d : Dev} {i port : Nat} {room : Bool} {q : QIn} {data : Bytes} (hshape : q.shape data = true)
    (hnew : d.track i q.msn = none) (hcheck : d.checkMsg q = .ok)
    (hroom : (d.pageWaits q data || d.roomFor port q.part room true data.length) = true) :
    d.dataNew i port room q data = (d.setTrack i q.msn (q.tracker port)).placeOrHold i q data := by
  simp only [Dev.dataNew, hnew]
  exact (if_neg (by simp [hshape])).trans ((if_neg (not_not.2 hcheck)).trans (if_neg (not_busy hroom)))

/-- A later packet of a message that is not resolved is placed or held, by the port through which it came. -/
theorem dataNew_more {d : Dev} {i port : Nat} {room : Bool} {q : QIn} {data : Bytes} {t : QTrack} (hshape : q.shape data = true)
    (htrack : d.track i q.msn = some t) (hopen : t.status = none) (htotal : t.total = q.total)
    (hroom : (d.pageWaits q data || d.roomFor port t.partition room false data.length) = true) :
    d.dataNew i port room q data = (d.setTrack i q.msn { t with
      via := if (NMap.get? t.via q.off).isSome then t.via else NMap.put t.via q.off port }).placeOrHold i q data := by
  simp only [Dev.dataNew, htrack]
  exact (if_neg (by simp [hopen])).trans ((if_neg (by simp [hshape, htotal])).trans (if_neg (not_busy hroom)))

section Window

variable {m : Memory} {d e : Dev} {i port typ : Nat} {ce room : Bool} {h data : Bytes}
  (hd : d.rxPacket i ce h = e)
  (hlow : 0 ≤ signed 32 ((qinOf typ h).msn + 2 ^ 32 - (e.conn i).next))
  (hhigh : signed 32 ((qinOf typ h).msn + 2 ^ 32 - (e.conn i).next) < 64)
include hd hlow hhigh

/-- A data packet inside the window goes to its message, and the READ_REQ that is next runs (R401, R403, R404). -/
theorem dataIn_window : d.dataIn m i port ce room typ h data =
    if typ = 1 ∧ (qinOf typ h).msn = (e.conn i).next then (e.dataNew i port room (qinOf typ h) data).visible m i
    else e.dataNew i port room (qinOf typ h) data := by
  subst hd
  exact (if_neg (Int.not_le.2 hhigh)).trans (if_neg (Int.not_lt.2 hlow))

/-- A packet of a message other than a read only goes to its message. -/
theorem dataIn_window_of_ne_read (htyp : typ ≠ 1) :
    d.dataIn m i port ce room typ h data = e.dataNew i port room (qinOf typ h) data := by
  rw [dataIn_window hd hlow hhigh, if_neg fun hread => htyp hread.1]

end Window

/-- Settles O49: each packet belongs to its connection and lies in the window, and each timer finds what it waits for. -/
theorem hallMessagesComplete : Obligations.HallMessagesComplete := by
  refine ⟨?sends, ?asks, ?writeFirst, ?writeMore, ?read, ?sendFirst, ?sendMore, ?response, ?ack, ?visible, ?ackTimer, ?resends,
    ?probes, ?probe, ?probeReply, ?again⟩
  case sends =>
    intro s peer bulk i hrun hconn
    show execMessageSend peer bulk s = _
    exact onDev_eq hrun (by simp only [hconn])
  case asks =>
    intro s peer bulk hrun hconn hen henrolled hwaits
    show execMessageSend peer bulk s = _
    refine onDev_eq hrun ?_
    simp only [hconn]
    exact if_pos (by simp only [hen, henrolled, hwaits, Bool.and_self])
  case writeFirst =>
    intro s port ce tag room hdr data i hrun hin d q ahead hlow hhigh hshape hnew hcheck hroom t d'
    show execWrite port ce tag room hdr data s = _
    exact onDev_qhtIn hrun hin ((dataIn_window_of_ne_read rfl hlow hhigh (by decide)).trans (dataNew_first hshape hnew hcheck hroom))
  case writeMore =>
    intro s port ce tag room hdr data i t hrun hin d q ahead hlow hhigh hshape htrack hopen htotal hroom via
    show execWrite port ce tag room hdr data s = _
    exact onDev_qhtIn hrun hin
      ((dataIn_window_of_ne_read rfl hlow hhigh (by decide)).trans (dataNew_more hshape htrack hopen htotal hroom))
  case read =>
    intro s port ce tag room hdr i hrun hin d q ahead hlow hhigh hshape hnew hcheck hroom t d'
    show execReadReq port ce tag room hdr s = _
    have hnext : (d'.conn i).next = (d.conn i).next := (next_placeOrHold _ i q []).trans (next_setTrack d i q.msn t)
    refine onDev_qhtIn hrun hin ((dataIn_window rfl hlow hhigh).trans ?_)
    rw [dataNew_first hshape hnew hcheck hroom, hnext]
    simp only [true_and]
    rfl
  case sendFirst =>
    intro s port ce tag room hdr data i hrun hin d q ahead hlow hhigh hshape hnew hcheck hroom t d'
    show execSend port ce tag room hdr data s = _
    exact onDev_qhtIn hrun hin ((dataIn_window_of_ne_read rfl hlow hhigh (by decide)).trans (dataNew_first hshape hnew hcheck hroom))
  case sendMore =>
    intro s port ce tag room hdr data i t hrun hin d q ahead hlow hhigh hshape htrack hopen htotal hroom via
    show execSend port ce tag room hdr data s = _
    exact onDev_qhtIn hrun hin
      ((dataIn_window_of_ne_read rfl hlow hhigh (by decide)).trans (dataNew_more hshape htrack hopen htotal hroom))
  case response =>
    intro s port ce tag hdr data i y hrun hin d q hread hshape htotal hplaced d₁ placed z msgs had d₂
    show execReadResp port ce tag hdr data s = _
    have hfits : ¬(!q.shape data ∨ q.total ≠ y.len ∨ y.placed.any (fun e => e.1 == q.off)) := by
      simp [hshape, htotal, hplaced]
    refine onDev_qhtIn hrun hin ?_
    simp only [d, q] at hread
    simp only [Dev.respIn, hread]
    exact if_neg hfits
  case ack =>
    intro s port ce tag hdr i hrun hin d d'
    show execAck port ce tag hdr s = _
    exact onDev_qhtIn hrun hin rfl
  case visible =>
    intro s conn t hrun htrack hresolved
    show execMessageVisible conn s = _
    exact onDev_eq hrun rfl
  case ackTimer =>
    intro s conn t hrun hdue
    show execAckTimer conn s = _
    exact onDev_eq hrun (by simp only [hdue])
  case resends =>
    intro s conn tsn k hrun hsent d d₁ n live
    show execRetransmission conn tsn s = _
    refine onDev_eq hrun ?_
    simp only [hsent]
    rfl
  case probes =>
    intro s conn path p hrun x hpath hretired hlive d again asked y
    show execProbeTimer conn path s = _
    have hprobed : ¬(p.live = true ∨ (x.state ≠ .opened ∧ x.state ≠ .draining)) := by
      rw [hretired]
      tauto
    refine onDev_eq hrun ?_
    simp only [x] at hpath
    simp only [hpath]
    exact if_neg hprobed
  case probe =>
    intro s port ce tag hdr i hrun hin d x
    show execProbe port ce tag hdr s = _
    exact onDev_qhtIn hrun hin rfl
  case probeReply =>
    intro s port ce tag hdr i hrun hin d back one x
    show execProbeReply port ce tag hdr s = _
    exact onDev_qhtIn hrun hin rfl
  case again =>
    intro s conn msn y hrun hwaits d waits todo sent again msgs pkt
    show execBusyRetry conn msn s = _
    refine onDev_eq hrun ?_
    simp only [hwaits]
    rfl

end Sys2Proof.Machine
end

section
/-! OFFER at the home of a session whose owner is another controller (R434, R435). -/
namespace Sys2Proof.Machine
open Sys2Proof

/-- The id of slot 0's session of generation 1 of home 0. -/
def lentSid : Nat := mkSid 0 1 0

/-- The controller `servingDev`, its clock locked, as the home of an OPEN session in slot 0 that controller 2 owns at epoch 1. -/
def lendingHome : State :=
  let d := servingDev.s F.TIM_STATUS_SYNC 2
  { dev := { d with
      ses := { d.ses with tab := [(0, { d := { sid := lentSid, state := .open, ownerEpoch := 1, ownerCtrl := 2, lease := .held } })] }
      own := { d.own with homeLeases := [(lentSid, {})] } } }

/-- The controller that the lease of that session, in an answered state, names as having made the open offer. -/
def offererOf : Host.Outcome State Fault Refusal → Option Nat
  | .next s => (NMap.get? s.dev.own.homeLeases lentSid).map (·.offerFrom)
  | _ => none

/-- Controller 2's OFFER of its session to controller 3 is recorded as controller 2's. -/
theorem offererOf_offer_lendingHome : offererOf (exec (.offer 2 lentSid 1 3) lendingHome) = some 2 := by decide +kernel

/-- Refutes O55: an OFFER that the home grants is recorded with the controller that made it, which the home tells when it aborts the
offer (R434, R435, R437). The statement's lease keeps the `offerFrom` of before: 0, the home itself, where controller 2 is the owner. -/
theorem not_handoffComplete : ¬ Obligations.HandoffComplete := by
  rintro ⟨hoffer, -⟩
  have hofferer := offererOf_offer_lendingHome
  rw [hoffer lendingHome 2 lentSid 1 3 0 (by decide +kernel) (by decide +kernel) (by decide +kernel) (by decide +kernel)
    (by decide +kernel) (by decide +kernel) (by decide +kernel) (by decide +kernel)] at hofferer
  exact absurd hofferer (by decide +kernel)

end Sys2Proof.Machine
end

section
/-! The directory, forwarding entries, composition maps and OWNER_QUERY (R438 to R442, R444, R445). -/
namespace Sys2Proof.Machine
open Sys2Proof

/-- A shard holder stores an entry that is there already or for which its region has room, and else answers NO_SPACE (R438). -/
theorem storeDir_some (d : Dev) (sid : Nat) (e : DirEntry) :
    let full := !NMap.has d.own.dir sid && decide (Config.dirEntries ≤ d.own.dir.length)
    d.storeDir sid (some e) =
      (if full then .noSpace else .ok, if full then d else d.updOwn fun o => { o with dir := NMap.put o.dir sid e }) := by
  simp only [Dev.storeDir]
  split <;> rfl

/-- A map that passes its checks, and for which there are regions, is installed, and its table written (R441, R442, R525). -/
theorem composeMap_installs {e e1 : Dev} {m : Memory} {fn outAddr outLen : Nat} {img : Bytes} {c c1 : CompMap} {rs : List (Nat × Bytes)}
    (hmap : mapOf img (e.g F.TIM_LEASE_DRAIN_MS) = some (c, rs))
    (hnew : (e.own.installed.map fun o => o.epoch == c.epoch && o.image == img).getD false = false)
    (hepoch : e.installedEpoch < c.epoch) (hok : mapOk c rs = true) (hstrands : e.strands c = false) (hbusy : e.mapBusy c rs = false)
    (hwindows : e.mapWindows c = some (c1, e1)) (hroom : 32 * (e1.mapEntries c1 rs).length ≤ outLen) :
    e.composeMap m fn outAddr outLen img =
      { dev := (e1.installMap m c1 rs).emit (.host fn outAddr (e1.mapEntries c1 rs).flatten)
        result := leBytes 4 (e1.mapEntries c1 rs).length } := by
  have hchecks : ¬(c.epoch = e.installedEpoch ∨ !mapOk c rs ∨ e.strands c) := by simp [hepoch.ne', hok, hstrands]
  simp only [Dev.composeMap, hmap, hnew, Bool.false_eq_true, if_false, if_neg hepoch.not_gt, if_neg hchecks, hbusy, hwindows,
    if_neg hroom.not_gt]

/-- Settles O57: each message and timer finds its entry, and each command passes its checks and meets none of its refusals. -/
theorem directoryAndMapsComplete : Obligations.DirectoryAndMapsComplete := by
  refine ⟨?put, ?del, ?ack, ?get, ?reply, ?redirect, ?expiry, ?drain, ?map, ?query⟩
  case put =>
    intro s src sid epoch owner acting buddy tier hrun hold d e full st d'
    show execDirPut src sid epoch owner acting buddy tier s = _
    refine onDev_onHall_current hrun hold ?_
    dsimp only
    rw [storeDir_some]
  case del =>
    intro s src sid hrun hold d d'
    show execDirDel src sid s = _
    exact onDev_onHall_current hrun hold rfl
  case ack =>
    intro s src sid status w hrun hold d hwrite hwaits w'
    show execDirAck src sid status s = _
    refine onDev_onHall_current hrun hold ?_
    simp only [d] at hwrite
    simp only [hwrite]
    exact if_neg (by simpa using hwaits)
  case get =>
    intro s src sid hrun hold d none' found
    show execDirGet src sid s = _
    refine onDev_onHall_current hrun hold ?_
    simp only [none', found, d]
    cases NMap.get? (s.dev.heard src svcDir sid).own.dir sid with
    | none => rfl
    | some e => rfl
  case reply =>
    intro s src sid status epoch owner acting hrun hold d hasked e
    show execDirReply src sid status epoch owner acting s = _
    exact onDev_onHall_current hrun hold rfl
  case redirect =>
    intro s src sid epoch target hrun hold d hslot haway htarget
    show execRedirect src sid epoch target s = _
    refine onDev_onHall_current hrun hold (if_neg ?_)
    simp only [d] at hslot haway htarget
    simp [hslot, haway, htarget]
  case expiry =>
    intro s sid f hrun hentry
    show execForwardingExpiry sid s = _
    refine onDev_eq hrun ?_
    simp only [hentry]
  case drain =>
    intro s p hrun hprevious
    show execDrainWindow s = _
    refine onDev_eq hrun ?_
    simp only [hprevious]
  case map =>
    intro s h outAddr outLen img c c1 rs e1 hrun hready hfn e hmap hnew hepoch hok hstrands hbusy hwindows es hroom
    show execComposeMap h outAddr outLen img s = _
    exact onDev_eq hrun (command_decides 0x0803 hready (by simp [fromZero, hfn]) rfl rfl
      (composeMap_installs hmap hnew hepoch hok hstrands hbusy hwindows hroom) rfl)
  case query =>
    intro s h sid addr desc slot hrun hready hmay e hslot hkept x
    show execOwnerQuery h sid addr desc s = _
    refine onDev_eq hrun (command_decides 0x0804 hready hmay rfl rfl ?_ rfl)
    simp only [e] at hslot hkept
    simp only [hslot, hkept]
    cases desc with
    | false => rfl
    | true => rfl

end Sys2Proof.Machine
end

section
/-! The step (R21): the command at the front of the queue, and what every step keeps. -/
namespace Sys2Proof.Machine
open Sys2Proof

/-- Settles O1: the step's match on the queue. -/
theorem stepRunsTheFrontCommand : Obligations.StepRunsTheFrontCommand := by
  intro c cs s hpending
  simp only [step, hpending]

/-- A state is safe when its HBM is canonical and no write is left over. -/
theorem State.safe_iff (s : State) : s.safe = true ↔ Memory.wf s.hbm = true ∧ s.dev.wr = [] := by
  simp [State.safe]

/-- Whatever block is put in a state with a canonical HBM, the state is then safe: its writes are made, and none is left. -/
theorem safe_put {s : State} (d : Dev) (hwf : Memory.wf s.hbm = true) : (s.put d).safe = true := by
  obtain ⟨hhbm, hwr, -⟩ := put_safe s d hwf
  exact (State.safe_iff _).2 ⟨hhbm, hwr⟩

/-- Every step puts a block in the state, with the queue's rest. -/
theorem step_puts {s t : State} (h : step s = .next t) : ∃ cs d, t = ({ s with pending := cs } : State).put d := by
  cases hqueue : s.pending with
  | nil =>
    rw [step_of_empty_queue hqueue] at h
    obtain ⟨d, rfl⟩ := onDev_next _ s t h
    exact ⟨s.pending, d, rfl⟩
  | cons c cs =>
    rw [stepRunsTheFrontCommand c cs s hqueue] at h
    obtain ⟨d, hd⟩ := exec_answers c { s with pending := cs }
    exact ⟨cs, d, (Host.Outcome.next.inj (hd.symm.trans h)).symm⟩

/-- Settles O4: every step puts a block, which makes its HBM writes by a law that keeps the canonical form and leaves none over. -/
theorem everyStepKeepsSafe : Obligations.EveryStepKeepsSafe := by
  intro s t hsafe hstep
  obtain ⟨cs, d, rfl⟩ := step_puts hstep
  exact safe_put d ((State.safe_iff s).1 hsafe).1

end Sys2Proof.Machine
end

section
/-! Entries of the rings (R464, R468, R515, R523, R524, R526, R572): the place of an entry in its ring's sequence is judged before
everything else, and its issuer before its other checks. -/
namespace Sys2Proof.Machine
open Sys2Proof

/-! How the commands of the protocol run -/

/-- The command's meaning takes its entry by the protocol's order of checks, and those refuse a tenant when the opcode is one of
partition 0. -/
def RunsAsEntry (c : Instr) (h : Hdr) (op : Nat) : Prop :=
  ∃ (may params : Dev → Bool) (data : Bool) (run : Memory → Dev → Res),
    (∀ s, exec c s = onDev (fun m d => d.command h op (may d) (params d) data (run m)) s) ∧
    (h.fn ≠ 0 → op ∈ systemOps → ∀ d, may d = false)

section
variable {c : Instr} {h h' : Hdr} {op op' : Nat} {params : Dev → Bool} {data : Bool} {run : Memory → Dev → Res}
  (meaning : State → Host.Outcome State Fault Refusal) (hentry : some (h', op') = some (h, op)) (hexec : ∀ s, exec c s = meaning s)
include hentry hexec

/-- A command that partition 0 alone may issue (R524). -/
theorem runsAsEntry_of_fromZero (hmeaning : meaning = onDev fun m d => d.command h' op' (fromZero h') (params d) data (run m)) :
    RunsAsEntry c h op := by
  obtain ⟨rfl, rfl⟩ := Prod.mk.inj (Option.some.inj hentry)
  exact ⟨fun _ => fromZero h', params, data, run, fun s => (hexec s).trans (congrFun hmeaning s), fun hfn _ _ => by
    simp [fromZero, hfn]⟩

/-- A command whose opcode is not one of partition 0. -/
theorem runsAsEntry_of_open {may : Dev → Bool}
    (hmeaning : meaning = onDev fun m d => d.command h' op' (may d) (params d) data (run m)) (hopen : op' ∉ systemOps := by decide) :
    RunsAsEntry c h op := by
  obtain ⟨rfl, rfl⟩ := Prod.mk.inj (Option.some.inj hentry)
  exact ⟨may, params, data, run, fun s => (hexec s).trans (congrFun hmeaning s), fun _ hsys => absurd hsys hopen⟩

end

/-- Every command of the protocol but SYNC_QUERY and DEVICE_RESET runs as an entry, and so does an opcode of no command, with no
meaning of its own. -/
theorem entry_cases {c : Instr} {h : Hdr} {op : Nat} (hentry : c.entry = some (h, op)) (hsync : op ≠ 0x0903) :
    RunsAsEntry c h op ∨ (∃ kind, c = .deviceReset h kind ∧ op = 0x0902) ∨
      (c = .unassignedOpcode h op ∧ assigned op = false) := by
  cases c
  case sessionOpen => exact .inl (runsAsEntry_of_open (execSessionOpen _ _ _ _ _ _ _ _ _ _ _ _ _) hentry (fun _ => rfl) rfl)
  case sessionClose => exact .inl (runsAsEntry_of_open (execSessionClose _ _) hentry (fun _ => rfl) rfl)
  case turnBegin => exact .inl (runsAsEntry_of_open (execTurnBegin _ _ _ _ _ _ _ _ _ _ _ _ _ _ _ _ _ _) hentry (fun _ => rfl) rfl)
  case turnCancel => exact .inl (runsAsEntry_of_open (execTurnCancel _ _ _ _) hentry (fun _ => rfl) rfl)
  case loadProfile => exact .inl (runsAsEntry_of_fromZero (execLoadProfile _ _ _ _ _ _) hentry (fun _ => rfl) rfl)
  case loadWeave => exact .inl (runsAsEntry_of_fromZero (execLoadWeave _ _ _ _ _ _) hentry (fun _ => rfl) rfl)
  case unload => exact .inl (runsAsEntry_of_open (execUnload _ _ _) hentry (fun _ => rfl) rfl)
  case loadTokenizer => exact .inl (runsAsEntry_of_fromZero (execLoadTokenizer _ _ _) hentry (fun _ => rfl) rfl)
  case loadGrammar => exact .inl (runsAsEntry_of_open (execLoadGrammar _ _ _ _ _) hentry (fun _ => rfl) rfl)
  case bindGrammar => exact .inl (runsAsEntry_of_open (execBindGrammar _ _ _ _ _ _) hentry (fun _ => rfl) rfl)
  case setStops => exact .inl (runsAsEntry_of_open (execSetStops _ _ _ _) hentry (fun _ => rfl) rfl)
  case park => exact .inl (runsAsEntry_of_open (execPark _ _ _ _) hentry (fun _ => rfl) rfl)
  case revive => exact .inl (runsAsEntry_of_open (execRevive _ _ _) hentry (fun _ => rfl) rfl)
  case hintPlace => exact .inl (runsAsEntry_of_open (execHintPlace _ _ _ _ _ _ _ _) hentry (fun _ => rfl) rfl)
  case setParkPolicy => exact .inl (runsAsEntry_of_open (execSetParkPolicy _ _ _ _) hentry (fun _ => rfl) rfl)
  case siftInsert => exact .inl (runsAsEntry_of_open (execSiftInsert _ _ _ _ _ _ _ _ _ _ _ _ _ _ _ _) hentry (fun _ => rfl) rfl)
  case siftDelete => exact .inl (runsAsEntry_of_open (execSiftDelete _ _ _ _) hentry (fun _ => rfl) rfl)
  case siftQuery => exact .inl (runsAsEntry_of_open (execSiftQuery _ _ _ _ _ _ _ _ _ _ _ _ _) hentry (fun _ => rfl) rfl)
  case siftMerge => exact .inl (runsAsEntry_of_open (execSiftMerge _ _) hentry (fun _ => rfl) rfl)
  case partCreate => exact .inl (runsAsEntry_of_fromZero (execPartCreate _ _ _ _ _ _ _ _) hentry (fun _ => rfl) rfl)
  case partDestroy => exact .inl (runsAsEntry_of_fromZero (execPartDestroy _ _) hentry (fun _ => rfl) rfl)
  case shaperSet => exact .inl (runsAsEntry_of_fromZero (execShaperSet _ _ _ _ _ _ _ _ _ _ _ _ _ _ _ _) hentry (fun _ => rfl) rfl)
  case isoModeSet => exact .inl (runsAsEntry_of_fromZero (execIsoModeSet _ _ _) hentry (fun _ => rfl) rfl)
  case attest => exact .inl (runsAsEntry_of_open (execAttest _ _ _ _ _) hentry (fun _ => rfl) rfl)
  case bindAuthority => exact .inl (runsAsEntry_of_fromZero (execBindAuthority _ _ _ _ _ _) hentry (fun _ => rfl) rfl)
  case install => exact .inl (runsAsEntry_of_fromZero (execInstall _ _ _ _ _ _ _) hentry (fun _ => rfl) rfl)
  case retire => exact .inl (runsAsEntry_of_fromZero (execRetire _ _ _ _) hentry (fun _ => rfl) rfl)
  case clear => exact .inl (runsAsEntry_of_fromZero (execClear _ _ _ _) hentry (fun _ => rfl) rfl)
  case weightsUnwrap h addr len pkg => exact .inl (runsAsEntry_of_fromZero (execWeightsUnwrap h addr len pkg) hentry (fun _ => rfl) rfl)
  case scrub => exact .inl (runsAsEntry_of_fromZero (execScrub _ _) hentry (fun _ => rfl) rfl)
  case ckptBegin => exact .inl (runsAsEntry_of_fromZero (execCkptBegin _ _) hentry (fun _ => rfl) rfl)
  case ckptRestore => exact .inl (runsAsEntry_of_fromZero (execCkptRestore _ _ _ _ _ _ _ _ _ _ _) hentry (fun _ => rfl) rfl)
  case composeMap => exact .inl (runsAsEntry_of_fromZero (execComposeMap _ _ _ _) hentry (fun _ => rfl) rfl)
  case ownerQuery => exact .inl (runsAsEntry_of_open (execOwnerQuery _ _ _ _) hentry (fun _ => rfl) rfl)
  case blockReset => exact .inl (runsAsEntry_of_fromZero (execBlockReset _ _ _) hentry (fun _ => rfl) rfl)
  case faultReport => exact .inl (runsAsEntry_of_fromZero (execFaultReport _ _ _ _) hentry (fun _ => rfl) rfl)
  case healthRead => exact .inl (runsAsEntry_of_fromZero (execHealthRead _ _ _) hentry (fun _ => rfl) rfl)
  case deviceReset h' kind =>
    obtain ⟨rfl, rfl⟩ := Prod.mk.inj (Option.some.inj hentry)
    exact .inr (.inl ⟨kind, rfl, rfl⟩)
  case unassignedOpcode h' op' =>
    simp only [Instr.entry] at hentry
    split at hentry
    · exact nomatch hentry
    next hnone =>
      obtain ⟨rfl, rfl⟩ := Prod.mk.inj (Option.some.inj hentry)
      exact .inr (.inr ⟨rfl, by simpa using hnone⟩)
  case syncQuery => exact absurd (Prod.mk.inj (Option.some.inj hentry)).2.symm hsync
  case syncReplay => exact absurd (Prod.mk.inj (Option.some.inj hentry)).2.symm hsync
  case syncReset => exact absurd (Prod.mk.inj (Option.some.inj hentry)).2.symm hsync
  all_goals exact nomatch hentry

/-! Out of turn (R515, R526) -/

/-- TAKEN is no part of what places an entry in its ring's sequence. -/
@[simp] theorem seqDiff_take (d : Dev) (h : Hdr) : (d.take h).seqDiff h = d.seqDiff h := by
  have hkey : F.CMD_HSEQ_NEXT.key h.fn h.ring ≠ F.CMD_RQ_STATUS_TAKEN.key h.fn h.ring := by
    simp only [Fld.key, Fld.off, F.CMD_HSEQ_NEXT, F.CMD_RQ_STATUS_TAKEN]
    omega
  simp only [Dev.seqDiff, Dev.take, Dev.gf_sf, if_neg hkey]

/-- What an entry that is not next comes to, whatever its command. -/
def Dev.outOfTurn (d : Dev) (h : Hdr) (op : Nat) : Dev :=
  if -256 ≤ d.seqDiff h ∧ d.seqDiff h ≤ -1 then d.replay h op else d.seqGap h op

@[simp] theorem rest_outOfTurn (d : Dev) (h : Hdr) (op : Nat) : (d.outOfTurn h op).rest = d.rest := by
  unfold Dev.outOfTurn
  split <;> simp

theorem command_outOfTurn {d : Dev} {h : Hdr} (op : Nat) (may params data : Bool) (run : Dev → Res) (htakes : d.takes h = true)
    (hseq : (d.take h).seqDiff h ≠ 0) : d.command h op may params data run = (d.take h).outOfTurn h op := by
  unfold Dev.command
  rw [if_neg (by simp [htakes])]
  exact if_neg hseq

/-- A DEVICE_RESET that is not taken in sequence, or that its checks or start-up refuse, is its entry alone (R566). -/
theorem exec_deviceReset_refused {s : State} {h : Hdr} {kind : Nat} (hrun : s.runs = true)
    (hno : ¬(s.dev.takes h = true ∧ s.dev.seqDiff h = 0 ∧
      ((s.dev.take h).checked h (fromZero h) (kind ≤ 2) false fun d => d.needs [] fun d => d.res .ok).st = .ok)) :
    exec (.deviceReset h kind) s =
      .next (s.put (s.dev.command h 0x0902 (fromZero h) (kind ≤ 2) false fun d => d.needs [] fun d => d.res .ok)) := by
  show execDeviceReset h kind s = _
  exact onDev_eq hrun (if_neg hno)

theorem exec_unassignedOpcode {s : State} {h : Hdr} {op : Nat} (hrun : s.runs = true) (hnone : assigned op = false)
    (hturn : s.dev.takes h = true → s.dev.seqDiff h ≠ 0)  :
    exec (.unassignedOpcode h op) s = .next (s.put (if s.dev.takes h then (s.dev.take h).outOfTurn h op else s.dev)) := by
  show execUnassignedOpcode h op s = _
  refine onDev_eq hrun ?_
  cases htakes : s.dev.takes h with
  | false => simp [hnone]
  | true => simp [hnone, hturn htakes, Dev.outOfTurn]

/-- An entry out of turn is a replay or a refused HSEQ, and one that its ring does not take does nothing, whatever its command. -/
theorem exec_outOfTurn {c : Instr} {h : Hdr} {op : Nat} {s : State} (hentry : c.entry = some (h, op)) (hsync : op ≠ 0x0903)
    (hrun : s.runs = true) (hturn : s.dev.takes h = true → (s.dev.take h).seqDiff h ≠ 0) :
    exec c s = .next (s.put (if s.dev.takes h then (s.dev.take h).outOfTurn h op else s.dev)) := by
  have hcommand (may params data : Bool) (run : Dev → Res) :
      s.dev.command h op may params data run = if s.dev.takes h then (s.dev.take h).outOfTurn h op else s.dev := by
    split
    next htakes => exact command_outOfTurn op may params data run htakes (hturn htakes)
    next htakes => exact command_not_taken _ h op may params data run (by simpa using htakes)
  obtain ⟨may, params, data, run, hexec, -⟩ | ⟨kind, rfl, rfl⟩ | ⟨rfl, hnone⟩ := entry_cases hentry hsync
  · exact (hexec s).trans (onDev_eq hrun (hcommand ..))
  · rw [exec_deviceReset_refused hrun fun hin => hturn hin.1 ((seqDiff_take _ h).trans hin.2.1), hcommand]
  · exact exec_unassignedOpcode hrun hnone (by simpa using hturn)

/-- Settles O7: out of turn every command comes to the same, which writes a reply at most. -/
theorem entriesOutOfTurn : Obligations.EntriesOutOfTurn := by
  intro c h op s hentry hsync hrun hsafe
  constructor
  · intro htakes
    rw [exec_outOfTurn hentry hsync hrun (by simp [htakes]), if_neg (by simp [htakes]), put_self s (State.wr_of_safe hsafe)]
  · intro htakes d k x hk
    refine ⟨(rest_outOfTurn d h op).trans (rest_take s.dev h), ?_⟩
    rw [exec_outOfTurn hentry hsync hrun fun _ => hk, if_pos htakes]
    rfl

/-! Tenants (R464, R468, R523, R524, R572) -/

/-- An issuer that is refused is refused before the rest of the entry is looked at. -/
theorem checked_denied {d : Dev} {h : Hdr} {may : Bool} (params data : Bool) (run : Dev → Res)
    (hno : may = false ∨ h.fn ≠ 0 ∧ (d.bootPhase = 1 ∨ d.bootPhase = 2 ∨ d.gi F.ISO_PART_STATE h.fn ≠ 1)) :
    d.checked h may params data run = d.res .denied :=
  if_pos (by simpa [or_assoc] using hno)

/-- A tenant's entry in sequence that its issuer may not have executed, or that comes as its partition expires, is answered DENIED. -/
theorem command_denied {d : Dev} {h : Hdr} {may : Bool} (op : Nat) (params data : Bool) (run : Dev → Res) (htakes : d.takes h = true)
    (hseq : (d.take h).seqDiff h = 0) (hfn : h.fn ≠ 0)
    (hno : (d.take h).expires h.fn = true ∨ may = false ∨ (d.judged h).bootPhase = 1 ∨ (d.judged h).bootPhase = 2 ∨
      (d.judged h).gi F.ISO_PART_STATE h.fn ≠ 1) :
    d.command h op may params data run = (d.judged h).answered h op .denied [] := by
  cases hexpires : (d.take h).expires h.fn with
  | true =>
    simp only [Dev.command, Dev.executeAs, Dev.judged, htakes, hseq, hexpires]
    simp [checked_denied, Dev.res, Dev.answered]
  | false =>
    simp only [Dev.judged, hexpires, Bool.false_eq_true, if_false, false_or] at hno ⊢
    exact command_refused d h op may params data run .denied htakes hseq hexpires
      (checked_denied params data run (hno.imp_right (.intro hfn)))

/-- Settles O8: the issuer's check comes first, and a tenant fails it for each of the reasons. -/
theorem tenantsAreDenied : Obligations.TenantsAreDenied := by
  intro c h op s hentry hsync hassigned hrun htakes hseq hfn e hno
  obtain ⟨may, params, data, run, hexec, hsys⟩ | ⟨kind, rfl, rfl⟩ | ⟨rfl, hnone⟩ := entry_cases hentry hsync
  · exact (hexec s).trans
      (onDev_eq hrun (command_denied op _ data _ htakes hseq hfn (hno.imp_right (.imp_left fun hop => hsys hfn hop _))))
  · have hmay : fromZero h = false := by simp [fromZero, hfn]
    rw [exec_deviceReset_refused hrun (by simp [checked_denied, hmay, Dev.res]),
      command_denied _ _ _ _ htakes hseq hfn (.inr (.inl hmay))]
  · exact absurd hassigned (by simp [hnone])

end Sys2Proof.Machine
end

section
/-! Rings, event queues and interrupts (R513, R515, R516, R534, R537, R542, R543). -/
namespace Sys2Proof.Machine
open Sys2Proof

/-! Writes of the fields that run rings and queues -/

/-- The fields by whose writes software runs its rings and event queues (R542, R543). -/
def runFields : List Fld := [F.CMD_RQ_DB_TAIL, F.CMD_RP_DB_HEAD, F.CMD_EQ_DB_HEAD, F.CMD_RQ_CFG_EN, F.CMD_EQ_CFG_EN]

/-- They are live fields, open to every window, that start at bit 0 of registers below those that a write treats by their address. -/
theorem runFields_facts : ∀ f ∈ runFields, f.cls = .l ∧ f.grant = .fnWrite ∧ f.lo = 0 ∧
    f.addr + f.stride * f.count < F.PGS_REGION_BINS.addr ∧ 2 ^ f.w ≤ noMax := by
  decide

/-- No range is stated for them beyond their width (R18). -/
theorem rangeOk_runField {f : Fld} (hf : f ∈ runFields) (d : Dev) (fn i : Nat) {v : Nat} (hv : v < 2 ^ f.w) :
    d.rangeOk f fn i v = true := by
  have hmax : v ≤ noMax := hv.le.trans (runFields_facts f hf).2.2.2.2
  have hrange : d.rangeOk f fn i v = (0 ≤ v && v ≤ noMax && v % 1 == 0 && decide (v < 2 ^ f.w) && true) := by
    simp only [runFields, List.mem_cons, List.not_mem_nil, or_false] at hf
    rcases hf with rfl | rfl | rfl | rfl | rfl <;> rfl
  simp [hrange, hv, hmax, Nat.mod_one]

/-- A write of such a field acts as the value written asks. -/
theorem writeOne_runField {d : Dev} {fn i whole v : Nat} {f : Fld} {a : Act} (hf : f ∈ runFields) (io : Bool) (hm : d.mapped = true)
    (hi : i < d.instLimit f fn) (hcount : i < f.count) (hv : bits whole 0 f.w = v) (ha : d.actOf f fn i v whole = some a) :
    d.writeOne fn f i whole io = d.act fn (f.off i) io a := by
  obtain ⟨hcls, hgrant, hlo, haddr, -⟩ := runFields_facts f hf
  have hstep : f.stride * i ≤ f.stride * f.count := Nat.mul_le_mul_left _ hcount.le
  have hpool : F.PGS_REGION_BINS.addr < F.PGS_PTPOOL_BLOCKS.addr := by decide
  have hnode : F.PGS_REGION_BINS.addr < F.SHP_NODE_SEL_KIND.addr := by decide
  refine writeOne_act d fn f i whole io a hm hi (.inr (.inl hgrant)) ?_ (by omega) (by omega)
    (inRange_sole d fn whole f i fun t => rangeOk_runField hf t fn i (Nat.mod_lt _ (Nat.two_pow_pos _))) (.inl hcls) ?_
  · unfold Fld.off
    omega
  · rw [hlo, hv, ha]

/-- A head and its ARM bit, as one write carries them (R542, R543). -/
theorem bits_headWord {head : Nat} (arm : Bool) (h : head < 2 ^ 32) :
    bits (head % 2 ^ 32 + b2n arm * 2 ^ 32) 0 32 = head ∧ bitOf (head % 2 ^ 32 + b2n arm * 2 ^ 32) 32 = arm := by
  have hb : b2n arm < 2 := by cases arm <;> decide
  constructor
  · simp only [bits]
    omega
  · have hdiv : (head % 2 ^ 32 + b2n arm * 2 ^ 32) / 2 ^ 32 % 2 = b2n arm := by omega
    rw [bitOf, hdiv]
    cases arm <;> rfl

/-- What a write of a ring's EN, or of a queue's, starts where it does not repeat the value held. -/
theorem actOf_ringEn {d : Dev} {fn i v : Nat} (hnew : v ≠ d.gf F.CMD_RQ_CFG_EN fn i) :
    d.actOf F.CMD_RQ_CFG_EN fn i v v = if v = 1 then some (.ringOn fn i) else some (.ringOff fn i) := by
  have hact : d.actOf F.CMD_RQ_CFG_EN fn i v v = if v = d.gf F.CMD_RQ_CFG_EN fn i ∧ (v = 1 ∨ d.gf F.CMD_RQ_STATUS_STATE fn i != 3) then
      none else if v = 1 then some (.ringOn fn i) else some (.ringOff fn i) := rfl
  exact hact.trans (if_neg fun hsame => hnew hsame.1)
theorem actOf_queueEn {d : Dev} {fn i v : Nat} (hnew : v ≠ d.gf F.CMD_EQ_CFG_EN fn i) :
    d.actOf F.CMD_EQ_CFG_EN fn i v v = if v = 1 then some (.queueOn fn i) else some (.queueOff fn i) := by
  have hact : d.actOf F.CMD_EQ_CFG_EN fn i v v = if v = d.gf F.CMD_EQ_CFG_EN fn i ∧ (v = 1 ∨ d.gf F.CMD_EQ_STATUS_STATE fn i != 3) then
      none else if v = 1 then some (.queueOn fn i) else some (.queueOff fn i) := rfl
  exact hact.trans (if_neg fun hsame => hnew hsame.1)

/-! Rings -/

/-- A value that fits a field at bit 0 is what the field takes of it (R6). -/
theorem bits_zero_of_lt {v w : Nat} (h : v < 2 ^ w) : bits v 0 w = v := by simpa using bits_mul_two_pow (lo := 0) h

/-- A tail within the size of an enabled ring, whose entries can be read, is stored (R515). -/
theorem tailWrite_fits {d : Dev} {fn r v : Nat} (hen : d.gf F.CMD_RQ_CFG_EN fn r = 1)
    (hroom : beyond v (d.gf F.CMD_RQ_STATUS_TAKEN fn r) ≤ 2 ^ d.gf F.CMD_RQ_CFG_RQ_LOG2 fn r) :
    d.tailWrite fn r v true = d.sf F.CMD_RQ_DB_TAIL fn r v := by
  simp [Dev.tailWrite, hen, Nat.not_lt.2 hroom]

/-- Settles O20: each write starts its field's action, and that action meets none of its refusals. -/
theorem ringCommands : Obligations.RingCommands := by
  refine ⟨?doorbell, ?head, ?enable, ?disable⟩
  case doorbell =>
    intro s fn ring tail hrun hm hfn hring hlt htail hen hroom
    show execCommandDoorbell fn ring tail true s = _
    refine onUnit_eq (by simp [hfn, hlt]) hrun ((writeOne_runField (by decide) true hm hring hlt (bits_zero_of_lt htail) rfl).trans ?_)
    exact tailWrite_fits hen hroom
  case head =>
    intro s fn ring head arm hrun hm hfn hring hlt hhead
    obtain ⟨hv, harm⟩ := bits_headWord arm hhead
    show execReplyHeadWrite fn ring head arm s = _
    refine onUnit_eq (by simp [hfn, hlt]) hrun ((writeOne_runField (by decide) true hm hring hlt hv rfl).trans ?_)
    rw [harm]
    rfl
  case enable =>
    intro s fn ring io hrun hm hfn hring hlt hen hstate
    show execRingEnable fn ring io s = _
    exact onUnit_eq (by simp [hfn, hlt]) hrun
      ((writeOne_runField (by decide) io hm hring hlt (by decide) (actOf_ringEn hen.symm)).trans (if_neg hstate))
  case disable =>
    intro s fn ring hrun hm hfn hring hlt hen
    have hnew : 0 ≠ s.dev.gf F.CMD_RQ_CFG_EN fn ring := by simp [hen]
    show execRingDisable fn ring s = _
    exact onUnit_eq (by simp [hfn, hlt]) hrun (writeOne_runField (by decide) true hm hring hlt (by decide) (actOf_ringEn hnew))

/-! Event queues and interrupts -/

/-- Settles O21: a write of a queue's field acts as its value asks, a moderation ends where one runs, and a vector is unmasked once. -/
theorem eventQueueCommands : Obligations.EventQueueCommands := by
  refine ⟨?head, ?enable, ?disable, ?ring, ?queue, ?unmask⟩
  case head =>
    intro s fn queue head arm hrun hm hfn hqueue hlt hhead
    obtain ⟨hv, harm⟩ := bits_headWord arm hhead
    show execEventHeadWrite fn queue head arm s = _
    refine onUnit_eq (by simp [hfn, hlt]) hrun ((writeOne_runField (by decide) true hm hqueue hlt hv rfl).trans ?_)
    rw [harm]
    rfl
  case enable =>
    intro s fn queue io hrun hm hfn hqueue hlt hen
    show execEventQueueEnable fn queue io s = _
    exact onUnit_eq (by simp [hfn, hlt]) hrun (writeOne_runField (by decide) io hm hqueue hlt (by decide) (actOf_queueEn hen.symm))
  case disable =>
    intro s fn queue hrun hm hfn hqueue hlt hen
    have hnew : 0 ≠ s.dev.gf F.CMD_EQ_CFG_EN fn queue := by simp [hen]
    show execEventQueueDisable fn queue s = _
    exact onUnit_eq (by simp [hfn, hlt]) hrun (writeOne_runField (by decide) true hm hqueue hlt (by decide) (actOf_queueEn hnew))
  case ring =>
    intro s fn isRing index t hrun hfn hisRing hdue
    subst hisRing
    show execInterruptModeration fn true index s = _
    refine onUnit_eq (decide_eq_true hfn) hrun ?_
    simp only [if_true, hdue]
  case queue =>
    intro s fn isRing index t hrun hfn hisRing hdue
    subst hisRing
    show execInterruptModeration fn false index s = _
    refine onUnit_eq (decide_eq_true hfn) hrun ?_
    simp only [Bool.false_eq_true, if_false, hdue]
  case unmask =>
    intro s fn vec hrun hfn hvec hmasked
    show execVectorUnmask fn vec s = _
    refine onUnit_eq (decide_eq_true hfn) hrun ((if_neg (Nat.not_le.2 hvec)).trans ?_)
    simp only [hmasked, Bool.false_eq_true, if_false]

end Sys2Proof.Machine
end

section
/-! Shedding, the clock, sensor samples and the thermal trip (R488, R606, R611 to R613, R615). -/
namespace Sys2Proof.Machine
open Sys2Proof

/-- A sample reads the sensors; the power state stays. -/
theorem pstate_sample (x : Pwr) (temps : List (Nat × Nat)) : (x.sample temps).pstate = x.pstate := by
  unfold Pwr.sample
  induction temps generalizing x with
  | nil => rfl
  | cons e temps ih => exact ih _

/-- Settles O43: each step finds the throttle condition that it goes by, and each event of the module the power state of its effect. -/
theorem thermalAndClockComplete : Obligations.ThermalAndClockComplete := by
  refine ⟨?rises, ?falls, ?slows, ?quickens, ?clamp, ?sample, ?trip⟩
  case rises =>
    intro s hrun n hthrottle hstage
    show execShedStep s = _
    exact onDev_eq hrun (if_pos ⟨hthrottle, hstage⟩)
  case falls =>
    intro s hrun n hthrottle hstage hclock
    show execShedStep s = _
    exact onDev_eq hrun ((if_neg (by simp [hthrottle])).trans (if_pos ⟨by simp [hthrottle], hstage, hclock⟩))
  case slows =>
    intro s hrun hthrottle hstage hclock d
    show execClockStep s = _
    exact onDev_eq hrun (if_pos ⟨hthrottle, hstage, hclock⟩)
  case quickens =>
    intro s hrun hthrottle hclock d
    show execClockStep s = _
    exact onDev_eq hrun ((if_neg (by simp [hthrottle])).trans (if_pos ⟨by simp [hthrottle], hclock⟩))
  case clamp =>
    intro s watts hrun hover p
    show execPowerClamp watts s = _
    exact onDev_eq hrun (if_neg (by omega))
  case sample =>
    intro s temps avg peak vin iin bankMv hrun hon p p' huntripped low halves d hot clamped mhz p'' e
    have hheld : s.dev.rst.held = false := by simpa [State.runs] using hrun
    have hpower : (s.dev.pwr.sample temps).pstate = 2 := (pstate_sample ..).trans hon
    show execSensorSample temps avg peak vin iin bankMv s = _
    refine onModule_eq ?_
    dsimp only
    rw [if_neg (c := _ ∧ _) (by simp [show (s.dev.pwr.sample temps).tripped = none from huntripped])]
    exact (if_neg (not_not.2 hpower)).trans (if_neg (by simp [hheld]))
  case trip =>
    intro s sensor hrun hon hover d p
    have hheld : s.dev.rst.held = false := by simpa [State.runs] using hrun
    show execThermalTrip sensor s = _
    exact onModule_eq (if_neg (by simp [hon, hheld, Nat.not_lt.2 hover]))

end Sys2Proof.Machine
end

section
/-! Partitions, shaping nodes and the isolation mode (R465 to R468, R475, R477 to R479, R483). -/
namespace Sys2Proof.Machine
open Sys2Proof

/-- Limits that STRICT, where it is set, has room for are not refused (R477). -/
theorem limits_fit {d : Dev} {p : Nat} {l : Limits} (hroom : d.strict = false ∨ d.strictLimits p (some l) = true) :
    ¬(d.strict && !d.strictLimits p (some l)) = true := by
  rcases hroom with hroom | hroom <;> simp [hroom]

/-- Settles O44: each command passes its checks and meets none of its refusals, and each event meets the conditions of its effect. -/
theorem partitionsComplete : Obligations.PartitionsComplete := by
  refine ⟨?create, ?update, ?destroy, ?destroyed, ?expiry, ?shaper, ?mode, ?strict, ?shared, ?turns⟩
  case create =>
    intro s h p upd w0 w1 w2 w3 w4 hrun hready hfn hlo hhi l e hok hroom hfree hupd
    show execPartCreate h p upd w0 w1 w2 w3 w4 s = _
    refine onDev_eq hrun (command_answers 0x0601 hready (by simp [fromZero, hfn]) (by simp [hlo, hhi]; exact hok) rfl ?_)
    exact (if_neg (limits_fit hroom)).trans ((if_pos hfree).trans (if_neg (by simp [hupd])))
  case update =>
    intro s h p upd w0 w1 w2 w3 w4 hrun hready hfn hlo hhi l e hok hroom hactive hupd
    show execPartCreate h p upd w0 w1 w2 w3 w4 s = _
    refine onDev_eq hrun (command_answers 0x0601 hready (by simp [fromZero, hfn]) (by simp [hlo, hhi]; exact hok) rfl ?_)
    refine (if_neg (limits_fit hroom)).trans ((if_neg fun hfree => ?_).trans ((if_pos ⟨hactive, hupd⟩).trans ?_))
    · exact Nat.one_ne_zero (hactive.symm.trans hfree)
    · exact (apply_ite (Dev.res · .ok) _ _ _).symm
  case destroy =>
    intro s h p hrun hready hfn hlo hhi e hheld hdying
    show execPartDestroy h p s = _
    exact onDev_eq hrun (command_answers 0x0602 hready (by simp [fromZero, hfn]) (by simp [hlo, hhi]) rfl
      ((if_neg hheld).trans (if_neg hdying)))
  case destroyed =>
    intro s p hrun hlo hhi hdying hgone hsec d iso d' d''
    show execPartDestroyed p s = _
    exact onUnit_eq (by simp [hlo, hhi]) hrun (if_pos (by rw [hdying, hgone, hsec]; rfl))
  case expiry =>
    intro s p hrun hlo hhi t hactive ht d
    show execPartitionExpiry p s = _
    exact onUnit_eq (by simp [hlo, hhi]) hrun (if_pos (by simp [hactive]; exact ht))
  case shaper =>
    intro s h kind levelMode budgetOp owner index promptW rebuildW overhead rate partMask valid shape budgetOn burst budget hrun
      hready hfn e x users hok hstrict hsubscriber hservice
    show execShaperSet h kind levelMode budgetOp owner index promptW rebuildW overhead rate partMask valid shape budgetOn burst
      budget s = _
    refine onDev_eq hrun (command_answers 0x0603 hready (by simp [fromZero, hfn]) hok rfl ?_)
    refine (if_neg (Bool.eq_false_iff.1 hstrict)).trans ((if_neg ?_).trans ((if_neg ?_).trans ?_))
    · rintro ⟨hkind, hused, hchange⟩
      obtain hkind' | hnone | ⟨hvalid, howner⟩ := hsubscriber
      · exact hkind' hkind
      · simp only [users] at hnone
        simp [e, hnone] at hused
      · simp only [e] at howner
        simp [hvalid, howner] at hchange
    · rintro ⟨hkind, hlost⟩
      obtain hkind' | hkept := hservice
      · exact hkind hkind'
      · exact absurd hlost (Bool.eq_false_iff.1 hkept)
    · exact (apply_ite (Dev.res · .ok) _ _ _).symm
  case mode =>
    intro s h mode frameExp hrun hready hfn hmode hlo hhi e hnew hroom e' e'' e'''
    show execIsoModeSet h mode frameExp s = _
    refine onDev_eq hrun (command_answers 0x0604 hready (by simp [fromZero, hfn]) (by simp [hmode, hlo, hhi]) rfl ?_)
    refine (if_neg ?_).trans (if_neg ?_)
    · rintro ⟨hsame, hsame'⟩
      exact hnew.elim (· hsame) (· hsame')
    · rintro ⟨hone, hshared, hfull⟩
      obtain hzero | hstrict | hfits := hroom
      · omega
      · simp [e] at hstrict
        simp [hstrict] at hshared
      · simp [e] at hfits
        simp [hfits] at hfull
  case strict =>
    intro s res quiet wants hrun hnone hstrict iso
    show execFrameBoundary res quiet wants s = _
    refine onDev_eq hrun ?_
    rw [hnone]
    exact if_pos hstrict
  case shared =>
    intro s res quiet wants hrun hnone hshared lends borrowers x iso
    show execFrameBoundary res quiet wants s = _
    refine onDev_eq hrun ?_
    rw [hnone]
    refine (if_neg (Bool.eq_false_iff.1 hshared)).trans ?_
    dsimp only [iso, x]
    rfl
  case turns =>
    intro s res quiet wants n hrun hpend d d'
    show execFrameBoundary res quiet wants s = _
    refine onDev_eq hrun ?_
    rw [hpend]
    exact if_pos rfl

end Sys2Proof.Machine
end

section
/-! Memory search: the engine and the capture of an index, inserts, deletes, queries and merges (R447 to R460; log entry 47). -/
namespace Sys2Proof.Machine
open Sys2Proof

/-! An index under capture -/

/-- Waiting for a capture changes no register but the count of waits. -/
theorem gf_awaitIndex {f : Fld} {fn i : Nat} (d : Dev) (handle : Nat) (hkey : f.key fn i ≠ F.CKP_CNT1_WAITS.key 0 0) :
    (d.awaitIndex handle).gf f fn i = d.gf f fn i := by
  unfold Dev.awaitIndex
  dsimp only
  split
  · exact (Dev.gf_sf ..).trans (if_neg hkey)
  · rfl

/-- An index under capture keeps its engine. -/
theorem indexEngine_awaitIndex (d : Dev) (handle handle' : Nat) :
    (d.awaitIndex handle).indexEngine handle' = d.indexEngine handle' := by
  simp only [Dev.indexEngine, Dev.g, gf_awaitIndex (f := F.FLT_RET_ENG_SIFT) (fn := 0) (i := 0) d handle (by decide)]

/-! Inserts (R449, R450, R453, R459) -/

/-- An insert that brings the side list to SIDE_MERGE entries starts a merge, or has one wait for the end of the one under way. -/
theorem autoMerge_eq (x : SIndex) (auto : Bool) :
    x.autoMerge auto =
      if !(auto && x.waiting == x.sideMerge) then x
      else if x.merging = none then x.startMerge else { x with mergeDue := true } := by
  simp [SIndex.autoMerge, bne, Bool.not_and]

theorem autoMerge_of_idle {x : SIndex} (h : x.merging = none) (auto : Bool) :
    x.autoMerge auto = if auto && x.waiting == x.sideMerge then x.startMerge else x := by
  rw [autoMerge_eq, if_pos h]
  cases auto && x.waiting == x.sideMerge <;> rfl

/-- An insert finds no merge of its own index under way where none was. -/
theorem merging_of_insert {x y : SIndex} {key tags i : Nat} {v : List Rat} (h : x.insert key tags v = some (i, y)) :
    y.merging = x.merging := by
  obtain ⟨j, -, hy⟩ := Option.map_eq_some_iff.1 h
  rw [← (Prod.mk.inj hy).2]

/-- A vector with a new key goes into an index with room, on the engine of the index. -/
theorem insertVec_new {d : Dev} {handle key tags fmt i c : Nat} {replace : Bool} {vec : Bytes} {x y : SIndex} {v : List Rat}
    (hindex : d.sindex handle = some x) (hvec : readVec fmt x.dim vec = some v) (hnew : x.keyed key = none)
    (hroom : x.side.length < x.sideMax) (hinsert : x.insert key tags v = some (i, y)) (hengine : d.indexEngine handle = some c) :
    d.insertVec handle replace key tags fmt vec =
      { dev := ((d.awaitIndex handle).setIndex handle ({ y with engine := c }.autoMerge (d.on F.SFT_CTL_AUTO_MERGE))).wrap
          F.SFT_CNT0_INSERTS 1
        result := leBytes 4 handle ++ leBytes 4 i } := by
  have hauto : (d.awaitIndex handle).on F.SFT_CTL_AUTO_MERGE = d.on F.SFT_CTL_AUTO_MERGE := by
    simp only [Dev.on, Dev.g, gf_awaitIndex (f := F.SFT_CTL_AUTO_MERGE) (fn := 0) (i := 0) d handle (by decide)]
  simp [Dev.insertVec, Dev.onEngine, hindex, hvec, hnew, Nat.not_le.2 hroom, hinsert, hengine, hauto]

/-- An index bound to no session is created in a free slot of the die with more room, and its first vector inserted. -/
theorem makeIndex_unbound {d : Dev} {h : Hdr} {x y z : SIndex} {key tags fmt k i handle : Nat} {vec param : Bytes} {v : List Rat}
    (hidle : x.merging = none) (hcentres : (readElems param 32 (2 * x.dim)).all Elem.fp32.finite = true)
    (hscales : ((readElems param 32 (2 * x.dim)).drop x.dim).all (fun c => decide (0 < ofF32 c)) = true)
    (hvec : readVec fmt x.dim vec = some v) (hspace : x.size ≤ d.sftFree (d.indexPlace none))
    (hlimit : overLimit h.fn (d.useIndexes h.fn) 1 (d.limits h.fn).indexes = false)
    (hfree : NMap.freeFrom d.sft.idx 32768 (d.indexPlace none * 32768) = some k)
    (hinsert : ({ x with
      gen := NMap.getD d.sft.gens k 1, partition := h.fn, fn := h.fn, eq := h.eq, bind := 0
      centres := (readElems param 32 (2 * x.dim)).take x.dim
      scales := (readElems param 32 (2 * x.dim)).drop x.dim } : SIndex).insert key tags v = some (i, y))
    (hhandle : handle = NMap.getD d.sft.gens k 1 * 2 ^ 16 + k) (hz : z = { y with engine := (d.indexEngine handle).getD 0 }) :
    d.makeIndex h x none key tags fmt vec param =
      { dev := (d.setIndex handle (if d.on F.SFT_CTL_AUTO_MERGE && z.waiting == z.sideMerge then z.startMerge else z)).wrap
          F.SFT_CNT0_INSERTS 1
        result := leBytes 4 handle ++ leBytes 4 i } := by
  have hmerging : z.merging = none := by rw [hz]; exact (merging_of_insert hinsert).trans hidle
  rw [← autoMerge_of_idle hmerging]
  subst hz hhandle
  simp only [Dev.makeIndex, Option.any_none, hcentres, hscales, hvec, hlimit, hfree, Option.map_none, Option.getD_none, hinsert]
  simp [Nat.not_lt.2 hspace]

/-- Settles O28: each command finds its index and meets none of its refusals. -/
theorem searchCommandsComplete : Obligations.SearchCommandsComplete := by
  refine ⟨?create, ?insert, ?drop, ?delete, ?query, ?merge, ?merged⟩
  case create =>
    intro s h handle replace key tags vec param bind nodesMax sideMax sideMerge dim efBuild degree metric fmt v k i y hrun hready
      hnew hunbound hmay hfmt hcreate e hon cs hcentres hscales hvec die hspace hlimit hfree gen x hinsert y' merges d
    subst hnew hunbound
    show execSiftInsert h 0 replace key tags vec param 0 nodesMax sideMax sideMerge dim efBuild degree metric fmt s = _
    refine onDev_eq hrun (command_answers 0x0501 hready hmay (by simp [hfmt, hcreate]) (by simpa using hon) ?_)
    refine (if_neg (not_not.2 rfl)).trans ((if_pos rfl).trans ?_)
    exact makeIndex_unbound (x := { dim, degree, ip := metric == 1, nodesMax, sideMax, sideMerge, efBuild }) rfl hcentres hscales
      hvec hspace hlimit hfree hinsert rfl (z := y') rfl
  case insert =>
    intro s h handle replace key tags vec param bind nodesMax sideMax sideMerge dim efBuild degree metric fmt x y v i c hrun hready
      hnamed hmay hfmt e hon hindex hvec hnew hroom hinsert hengine y' reached y'' d
    show execSiftInsert h handle replace key tags vec param bind nodesMax sideMax sideMerge dim efBuild degree metric fmt s = _
    refine onDev_eq hrun (command_answers 0x0501 hready hmay (by simp [hfmt, hnamed]) (by simpa using hon) ?_)
    refine (if_pos hnamed).trans ((insertVec_new hindex hvec hnew hroom hinsert hengine).trans ?_)
    rw [autoMerge_eq]
  case drop =>
    intro s h handle drop key x hrun hready hdrop hmay e hon hindex
    subst hdrop
    show execSiftDelete h handle true key s = _
    refine onDev_eq hrun (command_answers 0x0502 hready hmay rfl (by simpa using hon) ?_)
    simp only [e] at hindex
    simp only [hindex]
    rfl
  case delete =>
    intro s h handle drop key x i c hrun hready hdrop hmay e hon hindex hkey hengine y
    subst hdrop
    have hengine' : (e.awaitIndex handle).indexEngine handle = some c := (indexEngine_awaitIndex ..).trans hengine
    show execSiftDelete h handle false key s = _
    refine onDev_eq hrun (command_answers 0x0502 hready hmay rfl (by simpa using hon) ?_)
    simp only [e] at hindex hengine'
    simp only [hindex, Dev.onEngine, hengine', hkey]
    rfl
  case query =>
    intro s h handle widen vec res all any k ef maxProbes rerank widenProbes fmt x v hrun hready hmay hfmt hk hk' hef hef' hprobes
      hrerank hwiden e hon hindex hvec q p out d d' d''
    show execSiftQuery h handle widen vec res all any k ef maxProbes rerank widenProbes fmt s = _
    refine onDev_eq hrun (command_answers 0x0503 hready hmay ?params (by simpa using hon) ?_)
    case params =>
      simp only [Bool.and_eq_true, Bool.or_eq_true, decide_eq_true_eq, beq_iff_eq, Bool.not_eq_true']
      refine ⟨⟨⟨⟨⟨⟨⟨hfmt, hk⟩, hk'⟩, hef⟩, hef'⟩, hprobes⟩, hrerank⟩, ?_⟩
      cases hw : widen with
      | false => exact .inl rfl
      | true => exact .inr (hwiden hw)
    simp only [e] at hindex
    simp only [hindex, hvec]
    rfl
  case merge =>
    intro s h handle x hrun hready hmay e hon hindex hidle hengine
    obtain ⟨c, hc⟩ := Option.isSome_iff_exists.1 hengine
    show execSiftMerge h handle s = _
    refine onDev_eq hrun (command_answers 0x0504 hready hmay rfl (by simpa using hon) ?_)
    simp only [e] at hindex hc
    simp only [hindex, hidle, Dev.onEngine, hc]
    rfl
  case merged =>
    intro s handle x t hrun hindex hmerging d
    show execMergeDone handle s = _
    refine onDev_eq hrun ?_
    simp only [hindex, hmerging]
    rfl

end Sys2Proof.Machine
end

section
/-! Block resets, DEVICE_RESET and the reset pin (R566 to R568, R574 to R577, R610; log entry 64). -/
namespace Sys2Proof.Machine
open Sys2Proof

/-- A ready entry whose rules leave its reply for later makes its ring busy with it (R526). -/
theorem command_waits {d : Dev} {h : Hdr} {data may params : Bool} {run : Dev → Res} {x : Dev} (op : Nat) (hfits : d.fits h data = true)
    (hmay : may = true) (hparams : params = true) (hlater : (run (d.entered h)).later = true) (hdev : (run (d.entered h)).dev = x) :
    d.command h op may params data run = x.setRing h.fn h.ring { x.ring h.fn h.ring with busy := some (h.hseq, op, true) } := by
  rw [command_fits d h op may params data run hfits hmay hparams, if_pos hlater, hdev]

/-- Entering advances NEXT_HSEQ alone among the registers of an entry that is taken. -/
theorem gf_entered {d : Dev} {h : Hdr} {f : Fld} {fn i : Nat} (hkey : f.key fn i ≠ F.CMD_HSEQ_NEXT.key h.fn h.ring) :
    (d.entered h).gf f fn i = (d.take h).gf f fn i :=
  (Dev.gf_sf ..).trans (if_neg hkey)

theorem bootPhase_entered (d : Dev) (h : Hdr) : (d.entered h).bootPhase = (d.take h).bootPhase := by
  refine gf_entered ?_
  simp only [Fld.key, Fld.off, F.RST_STATE_PHASE, F.CMD_HSEQ_NEXT]
  omega

theorem eqOk_entered (d : Dev) (h : Hdr) : (d.entered h).eqOk h = (d.take h).eqOk h := by
  unfold Dev.eqOk
  rw [gf_entered (f := F.CMD_LIMITS_EQS_MAX) (Fld.key_ne_of_lo_ne (by decide) (by decide) (by decide) _ _ _ _)]

/-- The checks that DEVICE_RESET makes of a taken entry from partition 0 pass where the entry is ready. -/
theorem checked_take_ok {d : Dev} {h : Hdr} {kind : Nat} (hready : d.ready h false = true) (hfn : h.fn = 0) (hkind : kind ≤ 2) :
    ((d.take h).checked h (fromZero h) (kind ≤ 2) false fun d => d.needs [] fun d => d.res .ok).st = .ok := by
  have hphase : (d.take h).bootPhase ≠ 0 := bootPhase_entered d h ▸ ready_phase d h false hready
  have hfits := ready_fits d h false hready
  simp only [Dev.fits, eqOk_entered, Bool.and_eq_true] at hfits
  obtain ⟨⟨⟨⟨-, hclean⟩, -⟩, heq⟩, -⟩ := hfits
  simp [Dev.checked, fromZero, hfn, hclean, heq, hkind, needs_on _ [] _ hphase rfl, Dev.res]

/-- DEVICE_RESET from partition 0 after start-up is answered OK, and the hamper's clean stop and the reset follow (R568). -/
theorem exec_deviceReset_ready {s : State} {h : Hdr} {kind : Nat} (hrun : s.runs = true) (hready : s.dev.ready h false = true)
    (hfn : h.fn = 0) (hkind : kind ≤ 2) :
    exec (.deviceReset h kind) s =
      .next (s.put (((s.dev.entered h).answered h 0x0902 .ok []).cleanStop.deviceReset s.hbm 4 kind (kind == 1) (kind == 2))) := by
  have hfits := ready_fits _ h false hready
  simp only [Dev.fits, seqDiff_take, Bool.and_eq_true, beq_iff_eq] at hfits
  obtain ⟨⟨⟨⟨⟨⟨-, htakes⟩, hseq⟩, -⟩, -⟩, -⟩, -⟩ := hfits
  have hanswer := command_answers (params := decide (kind ≤ 2)) (ens := []) (run := fun d => d.res .ok) 0x0902 hready
    (by simp [fromZero, hfn] : fromZero h = true) (decide_eq_true hkind) rfl rfl
  show execDeviceReset h kind s = _
  exact onDev_eq hrun ((if_pos ⟨htakes, hseq, checked_take_ok hready hfn hkind⟩).trans
    (congrArg (fun e : Dev => e.cleanStop.deviceReset s.hbm 4 kind (kind == 1) (kind == 2)) hanswer))

/-- Settles O39: each reset finds the phase, the groups and the block as its effect needs them. -/
theorem blockAndDeviceResets : Obligations.BlockAndDeviceResets := by
  refine ⟨?outside, ?idle, ?waits, ?limit, ?device, ?pin⟩
  case outside =>
    intro s h block asserted hrun hfits hfn hblock hasserted e hphase
    subst hasserted
    show execBlockReset h block true s = _
    exact onDev_eq hrun (command_fits_answers 0x0901 hfits (by simp [fromZero, hfn]) (decide_eq_true hblock) ((if_pos hphase).trans rfl))
  case idle =>
    intro s h block asserted hrun hready hfn hblock e hphase hfree hgroups hidle
    show execBlockReset h block asserted s = _
    refine onDev_eq hrun (command_fits_answers 0x0901 (ready_fits _ h _ hready) (by simp [fromZero, hfn]) (decide_eq_true hblock) ?_)
    refine (if_neg (not_not.2 hphase)).trans ((if_neg (Bool.eq_false_iff.1 hfree)).trans (if_pos ⟨?_, hidle⟩))
    exact List.isEmpty_iff.2 hgroups
  case waits =>
    intro s h block asserted hrun hready hfn hblock e hphase hfree gs hbusy b e' e''
    have hlater : e.blockReset s.hbm h block asserted = { dev := e'', later := true } := by
      refine (if_neg (not_not.2 hphase)).trans ((if_neg (Bool.eq_false_iff.1 hfree)).trans (if_neg ?_))
      rintro ⟨hnone, hidle⟩
      rcases hbusy with hsome | hwork
      · exact hsome (List.isEmpty_iff.1 hnone)
      · exact Bool.eq_false_iff.1 hwork hidle
    show execBlockReset h block asserted s = _
    exact onDev_eq hrun (command_waits 0x0901 (ready_fits _ h _ hready) (by simp [fromZero, hfn]) (decide_eq_true hblock)
      (by rw [hlater]) (by rw [hlater]))
  case limit =>
    intro s row b hrun hrow hwaits
    show execBlockIdleTimeout row s = _
    exact onUnit_eq (decide_eq_true hrow) hrun (by simp only [hwaits])
  case device =>
    intro s h kind hrun hready hfn hkind e
    exact exec_deviceReset_ready hrun hready hfn hkind
  case pin =>
    intro s hfree d
    show execRstN s = _
    refine onModule_eq ((if_neg (Bool.eq_false_iff.1 hfree)).trans ?_)
    simp only [d, Bool.not_eq_true']

end Sys2Proof.Machine
end

section
/-! Security: the ATTEST report, enrolment, wrapped packages and scrubs (R496 to R503, R510; log entries 2, 57). -/
namespace Sys2Proof.Machine
open Sys2Proof

/-! Enrolment (R498, R499) -/

/-- The digest of the device's own DeviceID key has the length of SHA-384. -/
theorem deviceIdDigest_length : Config.deviceIdDigest.length = 48 := by simp [Config.deviceIdDigest, Config.bytesOf]

/-- The checks of an enrolment of a formed body: its signature by the bound authority, or else by the key it brings, then its
sequence number (R498). -/
theorem enrol_formed {d : Dev} {op seq : Nat} {digest fields sig : Bytes} {key : Option Bytes} {ok : Bool} {run : Dev → Option Dev}
    (hok : ok = true) (hdigest : digest = Config.deviceIdDigest) (hsig : sig.length = 96) :
    d.enrol op seq digest fields sig key ok run =
      if !((d.sec.authority.or key).any fun k => Config.ecdsaVerify k (Config.sha384 (enrolBody op seq digest fields)) sig) then
        d.enrolFails .digestFail
      else if seq ≤ d.g F.SEC_ENROL_SEQ then d.enrolFails .staleGen
      else (run d).elim (d.enrolFails .digestFail) fun x => (x.s F.SEC_ENROL_SEQ seq).res .ok := by
  have hformed : ¬(!ok || digest != Config.deviceIdDigest || digest.length != 48 || sig.length != 96) = true := by
    simp [hok, hdigest, hsig, deviceIdDigest_length]
  refine (if_neg hformed).trans ?_
  cases d.sec.authority <;> cases run d <;> rfl

/-- An enrolment of this device with a later sequence number acts where the signature of its signer verifies; where it does not, or
the operation finds its key unreadable, the enrolment is counted and refused. -/
theorem enrol_signed {d : Dev} {op seq : Nat} {digest fields sig signer : Bytes} {key : Option Bytes} {ok : Bool}
    {run : Dev → Option Dev} (hok : ok = true) (hdigest : digest = Config.deviceIdDigest) (hsig : sig.length = 96)
    (hsigner : d.sec.authority.or key = some signer) (hseq : d.g F.SEC_ENROL_SEQ < seq) :
    d.enrol op seq digest fields sig key ok run =
      if Config.ecdsaVerify signer (Config.sha384 (enrolBody op seq digest fields)) sig then
        (run d).elim (d.enrolFails .digestFail) fun x => (x.s F.SEC_ENROL_SEQ seq).res .ok
      else d.enrolFails .digestFail := by
  rw [enrol_formed hok hdigest hsig, hsigner, Option.any_some, if_neg (Nat.not_le.2 hseq)]
  cases Config.ecdsaVerify signer (Config.sha384 (enrolBody op seq digest fields)) sig <;> rfl

/-- A ready enrolment of partition 0, formed and signed as its operation asks, is answered so. -/
theorem command_enrols {d : Dev} {h : Hdr} {ens : List Fld} {op seq : Nat} {digest fields sig signer : Bytes} {key : Option Bytes}
    {ok : Dev → Bool} {run : Dev → Option Dev} (hready : d.ready h true = true) (hfn : h.fn = 0)
    (hens : ens.all (fun en => (d.entered h).on en) = true) (hok : ok (d.entered h) = true)
    (hdigest : digest = Config.deviceIdDigest) (hsig : sig.length = 96) (hsigner : (d.entered h).sec.authority.or key = some signer)
    (hseq : (d.entered h).g F.SEC_ENROL_SEQ < seq) :
    d.command h 0x0702 (fromZero h) true true
        (fun d => d.needs ens fun d => d.enrol op seq digest fields sig key (ok d) run) =
      if Config.ecdsaVerify signer (Config.sha384 (enrolBody op seq digest fields)) sig then
        (run (d.entered h)).elim (((d.entered h).sat F.SEC_CNT_ENROL_FAIL 1).answered h 0x0702 .digestFail []) fun x =>
          (x.s F.SEC_ENROL_SEQ seq).answered h 0x0702 .ok []
      else ((d.entered h).sat F.SEC_CNT_ENROL_FAIL 1).answered h 0x0702 .digestFail [] := by
  refine (command_decides 0x0702 hready (by simp [fromZero, hfn]) rfl hens (enrol_signed hok hdigest hsig hsigner hseq) ?_).trans ?_
  all_goals
    cases Config.ecdsaVerify signer (Config.sha384 (enrolBody op seq digest fields)) sig with
    | false => rfl
    | true => cases run (d.entered h) <;> rfl

/-! Wrapped packages (R502, R503) -/

/-- A well-formed package of this device set under a held key is opened; where it opens, its body is staged if it finds room. -/
theorem unwrap_held {d : Dev} {len : Nat} {pkg sk : Bytes} (hok : wrapOk pkg len = true) (hset : slice pkg 8 16 = d.setId)
    (hkey : d.heldKey (leAt pkg 0x18 4) = some sk) :
    d.unwrap len pkg = (openPackage sk pkg).elim ((d.sat F.SEC_CNT_UNWRAP_FAIL 1).res .digestFail) fun body =>
      if d.sec.staged.length < 4 ∧
          d.sec.staged.foldl (fun a x => a + x.body.length) 0 + body.length ≤ d.g F.SEC_STAGE_GIB * 2 ^ 30
      then d.stage body (leAt pkg 0x18 4) else d.res .noSpace := by
  simp only [Dev.unwrap, hok, hset, hkey, if_true, Bool.not_true, Bool.false_eq_true, if_false]
  cases openPackage sk pkg with
  | none => rfl
  | some body =>
    dsimp only [Option.elim_some]
    by_cases hroom : d.sec.staged.length < 4 ∧
        d.sec.staged.foldl (fun a x => a + x.body.length) 0 + body.length ≤ d.g F.SEC_STAGE_GIB * 2 ^ 30
    · rw [if_pos hroom, if_neg (by omega)]
    · rw [if_neg hroom, if_pos (by omega)]

/-- Settles O45: each command is formed and issued as it must be, so what is left is the verdict of its signature, its tag or its room. -/
theorem keysAndScrubsComplete : Obligations.KeysAndScrubsComplete := by
  refine ⟨?attest, ?bind, ?install, ?retire, ?clear, ?unwrap, ?hold, ?scrub, ?scrubbed⟩
  case attest =>
    intro s h nonce addr len chain hrun hfits hmay hnonce e r all hlen
    show execAttest h nonce addr len chain s = _
    refine onDev_eq hrun (command_fits_answers 0x0701 (fits_without_data hfits) (by simpa using hmay) (beq_iff_eq.2 hnonce) ?_)
    exact (if_neg (Nat.not_lt.2 hlen)).trans (if_neg (by simp [dma_of_fits hfits]))
  case bind =>
    intro s h seq digest key setId sig hrun hready hfn hkey hset hsig hdigest e hfree ok hseq fails
    show execBindAuthority h seq digest key setId sig s = _
    refine onDev_eq hrun ?_
    exact command_enrols hready hfn rfl (by simp [hkey, hset]) hdigest hsig (congrArg (·.or (some key)) hfree) hseq
  case install =>
    intro s h seq digest gen eph wrapped sig key hrun hready hfn heph hwrapped hsig hdigest e hon hgen hbound ok hseq fails
    show execInstall h seq digest gen eph wrapped sig s = _
    refine onDev_eq hrun ?_
    exact command_enrols (ok := fun d => eph.length == 96 && wrapped.length == 48 && decide (d.g F.SEC_KEYGEN_CUR < gen))
      hready hfn (by simpa using hon) (by simpa [heph, hwrapped] using hgen) hdigest hsig (congrArg (·.or none) hbound) hseq
  case retire =>
    intro s h seq digest sig key hrun hready hfn hsig hdigest e hbound ok hseq fails
    show execRetire h seq digest sig s = _
    refine onDev_eq hrun ?_
    exact command_enrols hready hfn rfl rfl hdigest hsig (congrArg (·.or none) hbound) hseq
  case clear =>
    intro s h seq digest sig key hrun hready hfn hsig hdigest e hbound ok hseq fails
    show execClear h seq digest sig s = _
    refine onDev_eq hrun ?_
    exact command_enrols hready hfn rfl rfl hdigest hsig (congrArg (·.or none) hbound) hseq
  case unwrap =>
    intro s h addr len pkg sk hrun hready hfn e hon hok hset gen hkey used room hd till staged take good
    show execWeightsUnwrap h addr len pkg s = _
    refine onDev_eq hrun ((command_decides 0x0703 hready (by simp [fromZero, hfn]) rfl (by simpa using hon)
      (unwrap_held hok hset hkey) ?now).trans ?answer)
    case now =>
      cases openPackage sk pkg with
      | none => rfl
      | some body =>
        dsimp only [Option.elim_some]
        split <;> rfl
    case answer =>
      cases openPackage sk pkg with
      | none => rfl
      | some body =>
        dsimp only [Option.elim_some, good, room]
        by_cases hroom : e.sec.staged.length < 4 ∧ used + body.length ≤ e.g F.SEC_STAGE_GIB * 2 ^ 30
        · rw [if_pos hroom, if_pos (decide_eq_true hroom)]
          rfl
        · rw [if_neg hroom, if_neg (by simpa using hroom)]
          rfl
  case hold =>
    intro s handle x hrun hfound d
    show execStageHold handle s = _
    refine onDev_eq hrun ?_
    rw [hfound]
  case scrub =>
    intro s h mode hrun hready hfn hmode e hon hok d d'
    show execScrub h mode s = _
    refine onDev_eq hrun (command_answers 0x0704 hready (by simp [fromZero, hfn]) (decide_eq_true hmode) (by simpa using hon) ?_)
    exact if_neg (by rw [hok]; exact Bool.false_ne_true)
  case scrubbed =>
    intro s ok mode hrun hscrub d d' d'' more d''' st
    show execScrubDone ok s = _
    refine onDev_eq hrun ?_
    rw [hscrub]
    cases ok <;> rfl

end Sys2Proof.Machine
end

section
/-! The SPDM responder (R493 to R495; log entry 52). -/
namespace Sys2Proof.Machine
open Sys2Proof

/-- A request of a version that is spoken, on a transport that is up, gets its response where its row of the table takes it. -/
theorem spdmRow_answers {doe ok : Bool} {ver req : Nat} {f : Dev → Dev} {s : State} (hrun : s.runs = true)
    (hon : s.dev.spdmOn doe = true) (hver : spdmVersion ver = true) (hok : ok = true) :
    spdmRow doe ver req ok f s = .next (s.put (f s.dev)) :=
  onDev_eq hrun ((if_neg (by simp [hon])).trans (if_neg (by simp [hver, hok])))

/-- Such a request that its row does not take is answered with UnsupportedRequest. -/
theorem spdmRow_refuses {doe ok : Bool} {ver req : Nat} {f : Dev → Dev} {s : State} (hrun : s.runs = true)
    (hon : s.dev.spdmOn doe = true) (hok : ok = false) :
    spdmRow doe ver req ok f s = .next (s.put (s.dev.spdmError ver req)) :=
  onDev_eq hrun ((if_neg (by simp [hon])).trans (if_pos (by simp [hok])))

/-- Settles O46: every request goes by its row of the table, and one outside it to the error. -/
theorem spdmComplete : Obligations.SpdmComplete := by
  refine ⟨?version, ?capabilities, ?algorithms, ?digests, ?certificate, ?challenge, ?measurements, ?chunk, ?other⟩
  case version =>
    intro s doe hrun hon
    show execGetVersion doe s = _
    exact onDev_eq hrun (if_pos hon)
  case capabilities =>
    intro s doe ver hrun hon hver
    show execGetCapabilities doe ver s = _
    exact spdmRow_answers hrun hon hver rfl
  case algorithms =>
    intro s doe ver asym hash hrun hon hver hasym hhash
    show execNegotiateAlgorithms doe ver asym hash s = _
    exact spdmRow_answers hrun hon hver (Bool.and_eq_true_iff.2 ⟨hasym, hhash⟩)
  case digests =>
    intro s doe ver hrun hon hver
    show execGetDigests doe ver s = _
    exact spdmRow_answers hrun hon hver rfl
  case certificate =>
    intro s doe ver slot off len room hrun hon hver hslot part n rest
    subst hslot
    show execGetCertificate doe ver 0 off len room s = _
    by_cases hoff : off < n
    · rw [if_pos hoff]
      exact spdmRow_answers hrun hon hver (by simpa using hoff)
    · rw [if_neg hoff]
      exact spdmRow_refuses hrun hon (by simpa using hoff)
  case challenge =>
    intro s doe ver slot summary nonce room hrun hon hver hslot hnonce d all sum body
    show execChallenge doe ver slot summary nonce room s = _
    exact spdmRow_answers hrun hon hver (by simp [hslot, hnonce])
  case measurements =>
    intro s doe ver index sign nonce room hrun hon hver hindex hnonce which value block body d
    show execGetMeasurements doe ver index sign nonce room s = _
    exact spdmRow_answers hrun hon hver (by rcases hnonce with h | h <;> simp [h, hindex])
  case chunk =>
    intro s doe ver seq off len hrun hon hver hoff part last
    show execChunkGet doe ver seq off len s = _
    refine onDev_eq hrun ((if_neg (by simp [hon])).trans (if_neg ?_))
    simpa [hver] using hoff
  case other =>
    intro s doe ver req hrun hon
    show execUnsupportedRequest doe ver req s = _
    exact onDev_eq hrun (if_pos hon)

end Sys2Proof.Machine
end

section
/-! Beginning a checkpoint and preparing its cut (R545, R547 to R550, R558, R559; log entry 45). -/
namespace Sys2Proof.Machine
open Sys2Proof

/-- The timekeeper of a group, its checkpoints enabled, acts on a checkpoint message and resolves it OK. -/
theorem asTk_acts {d : Dev} {src gid g : Nat} {f : Nat → Dev → Dev} {x : Dev} (hgroup : d.groupOf gid = some g)
    (htk : d.isTk g = true) (hon : d.on F.CKP_CTL_EN = true) (hact : f g d = x) : d.asTk src gid f = x.resolve src svcCkpt .ok := by
  simp [Dev.asTk, hgroup, htk, hon, hact]

/-- The request block of CKPT_BEGIN with its reserved bits clear passes its check. -/
theorem ckptRequest_formed {req : Bytes} (hlen : req.length = 32) (hlow : fieldAt req 0 35 29 = 0) (hhigh : fieldAt req 8 48 16 = 0)
    (hrest : leAt req 0x10 16 = 0) :
    (req.length == 32 && fieldAt req 0 35 29 == 0 && fieldAt req 8 48 16 == 0 && leAt req 0x10 16 == 0) = true := by
  simp [hlen, hlow, hhigh, hrest]

/-- A group without a checkpoint in progress or forwarded takes a new one. -/
theorem noCkpt {d : Dev} {g : Nat} (hnone : d.prog g = none) (hfwd : NMap.has d.ckp.fwd g = false) :
    ¬((d.prog g).isSome = true ∨ NMap.has d.ckp.fwd g = true) := by
  simp [hnone, hfwd]

/-- A ready entry whose command leaves its answer to another controller is not answered yet: its ring waits. -/
theorem command_forwards {d : Dev} {h : Hdr} {data may params : Bool} {ens : List Fld} {run : Dev → Res} {x : Dev} (op : Nat)
    (hready : d.ready h data = true) (hmay : may = true) (hparams : params = true)
    (hens : ens.all (fun en => (d.entered h).on en) = true) (hrun : run (d.entered h) = { dev := x, later := true }) :
    d.command h op may params data (fun e => e.needs ens run) =
      x.setRing h.fn h.ring { x.ring h.fn h.ring with busy := some (h.hseq, op, true) } := by
  have hneeds : (d.entered h).needs ens run = { dev := x, later := true } :=
    (needs_on _ _ _ (ready_phase _ _ _ hready) hens).trans hrun
  exact command_waits op (ready_fits _ _ _ hready) hmay hparams (congrArg Res.later hneeds) (congrArg Res.dev hneeds)

/-- Settles O58: every command, limit and message finds its group and the checkpoint in progress as it needs them. -/
theorem checkpointBeginAndPrepare : Obligations.CheckpointBeginAndPrepare := by
  refine ⟨?begin, ?forward, ?period, ?request, ?forwarded, ?reply, ?prepare, ?again, ?prepared, ?refused, ?barrier, ?write⟩
  case begin =>
    intro s h req g hrun hready hfn hlen hlow hhigh hrest e hon hhmp hgroup hnone hfwd htk b
    show execCkptBegin h req s = _
    refine onDev_eq hrun (command_answers 0x0801 hready (by simp [fromZero, hfn]) (ckptRequest_formed hlen hlow hhigh hrest)
      (by simp only [e] at hon hhmp; simp [hon, hhmp]) ?_)
    simp only [e] at hgroup
    simp only [hgroup]
    exact (if_neg (noCkpt hnone hfwd)).trans (if_pos htk)
  case forward =>
    intro s h req g hrun hready hfn hlen hlow hhigh hrest e hon hhmp gid hgroup hnone hfwd htk e' e''
    show execCkptBegin h req s = _
    refine onDev_eq hrun (command_forwards 0x0801 hready (by simp [fromZero, hfn]) (ckptRequest_formed hlen hlow hhigh hrest)
      (by simp only [e] at hon hhmp; simp [hon, hhmp]) ?_)
    simp only [e, gid] at hgroup
    simp only [hgroup]
    exact (if_neg (noCkpt hnone hfwd)).trans (if_neg (ne_true_of_eq_false htk))
  case period =>
    intro s g hrun hg hgid htk hperiod hon hauto htrig till
    show execCkptPeriod g s = _
    refine onUnit_eq (decide_eq_true hg) hrun (if_neg ?_)
    simp [hgid, htk, hperiod, hon, hauto, htrig]
  case request =>
    intro s src gid g hrun hgroup htk hon hauto
    show execCkptRequest src gid s = _
    exact onDev_eq hrun (asTk_acts hgroup htk hon (if_pos hauto))
  case forwarded =>
    intro s src gid req g hrun hgroup htk hon hnone b d
    show execBeginFwd src gid req s = _
    exact onDev_eq hrun (asTk_acts hgroup htk hon (if_neg (by simp [hnone])))
  case reply =>
    intro s src gid status manifest cutRow g fn ring eq hseq hrun hgroup hfwd d p d' x
    show execBeginReply src gid status manifest cutRow s = _
    refine onDev_eq hrun ?_
    simp only [hgroup, hfwd]
    simp only [x, d', ite_and]
    rfl
  case prepare =>
    intro s src gid manifest cutRow flags g hrun hgroup hsrc hnone hon p d
    show execPrepare src gid manifest cutRow flags s = _
    refine onDev_eq hrun ?_
    simp only [hgroup, hnone]
    exact (if_neg (not_not.2 hsrc)).trans (if_neg (by simp [hon]))
  case again =>
    intro s src gid manifest cutRow flags g p hrun hgroup hsrc hprog hmanifest row p'
    show execPrepare src gid manifest cutRow flags s = _
    refine onDev_eq hrun ?_
    simp only [hgroup, hprog]
    exact (if_neg (not_not.2 hsrc)).trans (if_neg (not_not.2 hmanifest))
  case prepared =>
    intro s src gid manifest status g p hrun hgroup htk hon hprog hmanifest htimed hok p'
    show execPrepared src gid manifest status s = _
    refine onDev_eq hrun (asTk_acts hgroup htk hon ?_)
    simp only [hprog]
    exact (if_neg (by simp [hmanifest, htimed])).trans (if_neg (not_not.2 hok))
  case refused =>
    intro s src gid manifest status g p hrun hgroup htk hon hprog hmanifest htimed hrefused
    show execPrepared src gid manifest status s = _
    refine onDev_eq hrun (asTk_acts hgroup htk hon ?_)
    simp only [hprog]
    exact (if_neg (by simp [hmanifest, htimed])).trans (if_pos hrefused)
  case barrier =>
    intro s g p t hrun hg hprog hbarrier
    show execCkptBarrierTimeout g s = _
    refine onUnit_eq (decide_eq_true hg) hrun ?_
    simp only [hprog, Option.bind_some, hbarrier]
  case write =>
    intro s g p t hrun hg hprog hlimit htimed hmissing
    show execCkptWriteTimeout g s = _
    refine onUnit_eq (decide_eq_true hg) hrun ?_
    simp only [hprog, hlimit]
    exact if_pos ⟨htimed, by rw [hmissing]; rfl⟩

end Sys2Proof.Machine
end

section
/-! Shards of a checkpoint, their mirrors and the manifest (R546, R554 to R558; log entry 45). -/
namespace Sys2Proof.Machine
open Sys2Proof

/-- An acknowledgement that carries OK or DUP is not a failure. -/
theorem ack_accepted {status : Nat} (h : status = 0 ∨ status = Status.dup.code) : ¬(status ≠ 0 ∧ status ≠ Status.dup.code) := by
  omega

/-- Settles O59: every message and every object's durability finds the mirror, the shards or the checkpoint in progress it is about. -/
theorem shardsAndManifests : Obligations.ShardsAndManifests := by
  refine ⟨?opened, ?written, ?sealed, ?shardAck, ?manifestAck, ?durable, ?done, ?manifest, ?commit, ?commitHere, ?abort, ?release⟩
  case opened =>
    intro s src gid manifest flags length hd d hrun hnew die hcreate x d'
    show execShardOpen src gid manifest flags length s = _
    refine onDev_eq hrun ((if_neg (ne_true_of_eq_false hnew)).trans ?_)
    simp only [die] at hcreate
    rw [hcreate]
  case written =>
    intro s src manifest flags offset data x hrun hfound hfits hopen d merged d'
    show execShardData src manifest flags offset data s = _
    refine onDev_eq hrun ?_
    simp only [hfound]
    exact if_neg (by simp [hopen, hfits])
  case sealed =>
    intro s src gid manifest flags digest x hrun hfound hwhole agrees good bad
    show execShardSeal src gid manifest flags digest s = _
    refine onDev_eq hrun ?_
    simp only [hfound]
    by_cases hagrees : agrees
    · rw [if_pos hagrees, if_neg (not_or.2 ⟨not_not.2 hwhole, not_not.2 hagrees⟩)]
    · rw [if_neg hagrees, if_pos (.inr hagrees)]
  case shardAck =>
    intro s src gid manifest flags status g hrun hgroup haccepted hshard d mine one
    show execCkptAck src gid manifest flags status s = _
    have hgroup' : d.groupOf gid = some g := hgroup
    refine onDev_eq hrun ?_
    simp only [d] at hgroup'
    simp only [hgroup']
    exact (if_neg (ack_accepted haccepted)).trans (if_neg (ne_true_of_eq_false hshard))
  case manifestAck =>
    intro s src gid manifest flags status g p hrun hgroup haccepted hmanifest d hprog hsame hwritten
    show execCkptAck src gid manifest flags status s = _
    have hgroup' : d.groupOf gid = some g := hgroup
    refine onDev_eq hrun ?_
    simp only [d] at hgroup' hprog
    simp only [hgroup', hprog]
    exact (if_neg (ack_accepted haccepted)).trans ((if_pos hmanifest).trans (if_neg (by simp [hsame, hwritten])))
  case durable =>
    intro s g p hrun hg hprog mine hcut hsent hall done shards d xs msg
    show execShardDurable g s = _
    refine onUnit_eq (decide_eq_true hg) hrun ?_
    simp only [hprog]
    exact if_neg (by simp only [hcut, hsent, mine] at hall ⊢; simp [hall])
  case done =>
    intro s src gid manifest entries g p hrun hgroup htk hon hprog hsame hmember xs
    show execShardDone src gid manifest entries s = _
    refine onDev_eq hrun (asTk_acts hgroup htk hon ?_)
    simp only [hprog]
    exact if_neg (by rw [hsame, hmember]; simp)
  case manifest =>
    intro s g p x hrun hg hprog hpending hdurable hmirrored valid d d'
    show execManifestDurable g s = _
    refine onUnit_eq (decide_eq_true hg) hrun ?_
    simp only [hprog, hpending]
    refine if_neg ?_
    rcases hmirrored with hself | hnone | hmirrored
    · simp [hdurable, hself]
    · simp [hdurable, hnone]
    · simp [hdurable, hmirrored]
  case commit =>
    intro s src gid manifest cutRow g hrun hgroup hsrc d hother
    show execCommitGen src gid manifest cutRow s = _
    refine onDev_eq hrun ?_
    simp only [hgroup]
    refine (if_neg (not_not.2 hsrc)).trans ?_
    simp only [d] at hother ⊢
    cases hprog : (s.dev.commitGen g manifest cutRow).prog g with
    | none => rfl
    | some p =>
      have hne : p.manifest ≠ manifest := by simpa [hprog] using hother
      dsimp only
      rw [if_pos hne]
  case commitHere =>
    intro s src gid manifest cutRow g p hrun hgroup hsrc d hprog hsame a b d'
    show execCommitGen src gid manifest cutRow s = _
    refine onDev_eq hrun ?_
    simp only [hgroup]
    refine (if_neg (not_not.2 hsrc)).trans ?_
    simp only [d] at hprog
    simp only [hprog]
    rw [if_neg (not_not.2 hsame)]
    rfl
  case abort =>
    intro s src gid manifest cause g hrun hgroup hsrc hit d
    show execCkptAbort src gid manifest cause s = _
    refine onDev_eq hrun ?_
    simp only [hgroup]
    exact if_neg (not_not.2 hsrc)
  case release =>
    intro s src manifest hrun mine d left
    show execShardRelease src manifest s = _
    exact onDev_eq hrun rfl

end Sys2Proof.Machine
end

section
/-! CKPT_RESTORE: reading the shards wears the hamper and changes nothing that the restore reads (R365, R560 to R563; log entry 46). -/
namespace Sys2Proof.Machine
open Sys2Proof

/-! What reads of the hamper leave as it was (R365) -/

/-- A half without its blocks' wear and their queue for refresh, which are all that a read changes. -/
def Half.content (x : Half) : Half := { x with blocks := [], refreshQ := [] }

/-- A block's state after reads of the hamper: everything but the wear of the halves is as it was. -/
def Dev.ReadFrom (d d' : Dev) : Prop := ∃ hs : NMap Half, d' = { d with halves := hs } ∧ ∀ i, (d'.half i).content = (d.half i).content

theorem readFrom_refl (d : Dev) : d.ReadFrom d := ⟨d.halves, rfl, fun _ => rfl⟩

theorem readFrom_trans {d d' d'' : Dev} (h : d.ReadFrom d') (h' : d'.ReadFrom d'') : d.ReadFrom d'' := by
  obtain ⟨hs, rfl, hcontent⟩ := h
  obtain ⟨hs', rfl, hcontent'⟩ := h'
  exact ⟨hs', rfl, fun i => (hcontent' i).trans (hcontent i)⟩

theorem readBlock_content (x : Half) (limit b n : Nat) : (x.readBlock limit b n).content = x.content := by
  unfold Half.readBlock
  dsimp only
  split <;> rfl

/-- A fold whose steps keep the content of a half keeps it. -/
theorem foldl_content {α : Type} (f : Half → α → Half) (hstep : ∀ x a, (f x a).content = x.content) (l : List α) (x : Half) :
    (l.foldl f x).content = x.content := by
  induction l generalizing x with
  | nil => rfl
  | cons a l ih => exact (ih _).trans (hstep x a)

theorem readFrom_updHalf {d : Dev} {i : Nat} {f : Half → Half} (hf : ∀ x, (f x).content = x.content) : d.ReadFrom (d.updHalf i f) := by
  refine ⟨NMap.put d.halves i (f (d.half i)), rfl, fun j => ?_⟩
  by_cases hj : j = i
  · subst hj
    simp only [Dev.updHalf, Dev.setHalf, Dev.half, NMap.getD_put_self]
    exact hf _
  · simp only [Dev.updHalf, Dev.setHalf, Dev.half, NMap.getD_put_ne _ hj]

/-- Counting the reads of an object's pages only wears the blocks that hold them. -/
theorem readFrom_countReads (d : Dev) (handle off len : Nat) : d.ReadFrom (d.countReads handle off len) := by
  unfold Dev.countReads
  split
  · exact readFrom_refl d
  · split
    · exact readFrom_refl d
    · refine readFrom_updHalf fun x => foldl_content _ (fun y i => ?_) _ x
      split
      · exact readBlock_content ..
      · rfl

/-- Reading the shards of a generation only wears the hamper. -/
theorem readFrom_readShards (d : Dev) (x : Manifest) (whole : Bool) : d.ReadFrom (d.readShards x whole) := by
  unfold Dev.readShards
  generalize x.shards.filter d.loadsHere = l
  induction l generalizing d with
  | nil => exact readFrom_refl d
  | cons k l ih =>
    refine readFrom_trans ?_ (ih _)
    dsimp only
    cases d.shardObj x k with
    | none => exact readFrom_refl d
    | some handle => exact readFrom_countReads ..

/-! What a restore reads, after such reads -/

theorem readFrom_readObj {d d' : Dev} (h : d.ReadFrom d') (handle : Nat) : d'.readObj handle = d.readObj handle := by
  obtain ⟨hs, rfl, hcontent⟩ := h
  have hobjs (i : Nat) : (Dev.half { d with halves := hs } i).objs = (d.half i).objs := (congrArg Half.objs (hcontent i) :)
  have hmap (i : Nat) : (Dev.half { d with halves := hs } i).map = (d.half i).map := (congrArg Half.map (hcontent i) :)
  have htags (i : Nat) : (Dev.half { d with halves := hs } i).tags = (d.half i).tags := (congrArg Half.tags (hcontent i) :)
  simp only [Dev.readObj, Dev.obj, Half.legible, hobjs, hmap, htags]
  rfl

theorem readFrom_shardHere {d d' : Dev} (h : d.ReadFrom d') (x : Manifest) (k : ShardInfo) : d'.shardHere x k = d.shardHere x k := by
  have hread := readFrom_readObj h
  obtain ⟨hs, rfl, -⟩ := h
  simp only [Dev.shardHere, hread]
  rfl

theorem readFrom_savedOf {d d' : Dev} (h : d.ReadFrom d') (mx4 : Bool) (n : Nat) (b : Bytes) : d'.savedOf mx4 n b = d.savedOf mx4 n b := by
  obtain ⟨hs, rfl, -⟩ := h
  induction n generalizing b with
  | zero => rfl
  | succ n ih => simp only [Dev.savedOf, ih]

theorem readFrom_savedHere {d d' : Dev} (h : d.ReadFrom d') (x : Manifest) : d'.savedHere x = d.savedHere x := by
  have hread := readFrom_readObj h
  have hshard := readFrom_shardHere h x
  have hsessions (b : Bytes) : d'.sessionsIn b = d.sessionsIn b := readFrom_savedOf h ..
  obtain ⟨hs, rfl, -⟩ := h
  simp only [Dev.savedHere, hread, hshard, hsessions]
  rfl

theorem readFrom_isHome {d d' : Dev} (h : d.ReadFrom d') (sid : Nat) : d'.isHome sid = d.isHome sid := by
  obtain ⟨hs, rfl, -⟩ := h
  rfl

theorem readFrom_loadsHere {d d' : Dev} (h : d.ReadFrom d') (k : ShardInfo) : d'.loadsHere k = d.loadsHere k := by
  obtain ⟨hs, rfl, -⟩ := h
  rfl

theorem readFrom_ses {d d' : Dev} (h : d.ReadFrom d') : d'.ses = d.ses := by
  obtain ⟨hs, rfl, -⟩ := h
  rfl

/-! The checks of a restore (R560, R561) -/

/-- No shard is listed for its body where those loaded here have their digests and none of the others is reported (R561). -/
theorem bodyFaults_eq_nil {d d' : Dev} (h : d.ReadFrom d') {x : Manifest} {fails : List (Nat × Nat)} {place : Nat}
    (hsound : x.shards.all (fun k =>
      if d.loadsHere k then ((d.shardHere x k).map fun b => padTo 48 (Config.sha384 (b.drop 16384)) == k.digest).getD true
      else (reportOf fails place k).isNone) = true) :
    (x.shards.filterMap fun k =>
      if d'.loadsHere k then
        match d'.shardHere x k with
        | some b => if padTo 48 (Config.sha384 (b.drop 16384)) == k.digest then none else some (k, 4, x.row)
        | none => none
      else (reportOf fails place k).map fun e => (k, 4, e.2)) = [] := by
  simp only [readFrom_loadsHere h, readFrom_shardHere h, List.filterMap_eq_nil_iff]
  intro k hk
  have hk := List.all_eq_true.1 hsound k hk
  by_cases hhere : d.loadsHere k = true
  · rw [if_pos hhere] at hk ⊢
    cases hshard : d.shardHere x k with
    | none => rfl
    | some b =>
      rw [hshard] at hk
      exact if_pos hk
  · rw [if_neg hhere] at hk ⊢
    rw [Option.isNone_iff_eq_none.1 hk]
    rfl

/-- Settles O60: the generation, the group, the headers, the bodies and the slots pass their checks in turn. -/
theorem checkpointRestoreCompletes : Obligations.CheckpointRestoreCompletes := by
  intro s h req outAddr outLen gen busy bad fails mirrors others lostOthers x place g hrun hready hfn hlen hrest e hon hhmp gid hpick
    hdigest hgroup hphase htaken hbusy hheaders agrees sound hsound saved hfree live st
  have hread := readFrom_readShards (s.dev.entered h) x true
  show execCkptRestore h req outAddr outLen gen busy bad fails mirrors others lostOthers s = _
  refine onDev_eq hrun (command_answers 0x0802 hready (by simp [fromZero, hfn]) (by simp [hlen, hrest])
    (by simp only [e] at hon hhmp; simp [hon, hhmp]) ?_)
  simp only [e, gid] at hpick hgroup hheaders
  simp only [hpick, hgroup]
  refine (if_neg (by simp [hdigest])).trans ((if_neg ?idle).trans ?_)
  case idle =>
    simp only [e] at hphase htaken
    rcases hphase with hphase | hphase <;> simp [hphase, htaken, hbusy]
  simp only [hheaders, List.isEmpty_nil]
  refine (if_neg Bool.false_ne_true).trans ((if_neg (ne_true_of_eq_false ?bodies)).trans ((if_neg ?slots).trans ?_))
  case bodies => exact congrArg (fun l => !l.isEmpty) (bodyFaults_eq_nil hread hsound)
  case slots =>
    refine ne_true_of_eq_false (Eq.trans ?_ hfree)
    simp only [readFrom_savedHere hread, readFrom_isHome hread, readFrom_ses hread]
    rfl
  rw [readFrom_savedHere hread]

end Sys2Proof.Machine
end
